-- ==== Sys2Proof/Word.lean ====
section
/-! DEFINITION. The word types of the machine: bit vectors only for what the manual treats as bits
(register contents, immediates, bytes of memory). Addresses, counts and ticks are natural numbers. -/
namespace Sys2Proof

/-- One byte of memory (R4). -/
abbrev Byte := BitVec 8
/-- A 16-bit field. -/
abbrev Half := BitVec 16
/-- A 32-bit register word of BAR0 (R4, R5). -/
abbrev Word32 := BitVec 32
/-- A 64-bit scalar register or 64-bit field (R63). -/
abbrev Word := BitVec 64
/-- A vector register (R63): 2,048 bits. -/
abbrev VecReg := BitVec 2048

end Sys2Proof
end

