-- ==== Sys2Proof/Syntax.lean ====
section
/-! DEFINITION. The commands of the module: one constructor of `Instr` for each row of the spec's table of
operations and events. A core instruction carries the physical core that issues it (R6: 17(8q + c) + k) and the
fields of its 64-bit word (R91); every other command carries the tick at which it is presented (R49) and the row's
own operands. -/
namespace Sys2Proof

/-- The fields of a format T word other than CLASS and OP (Table 5-1). -/
structure FmtT where
  pg  : BitVec 3
  pn  : BitVec 1
  d   : BitVec 5
  a   : BitVec 5
  b   : BitVec 5
  c   : BitVec 5
  md  : BitVec 14
  imm : BitVec 16
deriving DecidableEq, Repr

/-- The fields of a format L word other than CLASS and OP (Table 5-2). -/
structure FmtL where
  pg  : BitVec 3
  pn  : BitVec 1
  d   : BitVec 5
  a   : BitVec 5
  md  : BitVec 8
  imm : BitVec 32
deriving DecidableEq, Repr

/-- A host command of 64 bytes less its OPCODE, which the row gives (Table 12-5). `body` is bytes 0x08 to 0x3F. -/
structure HostCmd where
  flags  : Byte
  cid    : Half
  rc     : Half
  tenant : Half
  body   : List Byte
deriving DecidableEq, Repr

/-- A Kolwin command frame less its OPCODE (Table 17-2). `board`: the sender is the board management controller over
I3C or SMBus, else the host through the mailbox. `pec`: the byte of PEC that follows a board frame (R389). `code`: the
OPCODE byte where it is one that Table 17-3 does not list; the row's own otherwise. `body` is bytes 0x08 to 0x3F. -/
structure KwCmd where
  board : Bool
  pec   : Byte
  code  : Option Byte := none
  flags : Byte
  tag   : Half
  zero  : Word32
  body  : List Byte
deriving DecidableEq, Repr

/-- The two register BARs a register write can name (Table 17-9). -/
inductive Bar where
  | bar0 | bar4
deriving DecidableEq, Repr

/-- Why a long operation fails (R84, R108, R165, R170, R174, R330). -/
inductive OpFailure where
  /-- A tier failure of the tier named with the cause of Table 15-9 (1 to 11) at a logical block. -/
  | tier (tierNo cause block : Nat)
  /-- An uncorrectable word at the address named (R153). -/
  | ue (addr : Nat)
  /-- An access that a check or R10 refuses. -/
  | denied
  /-- A digest mismatch of a collective piece from the sender named (R330). -/
  | digest (sender chunk piece : Nat)
deriving DecidableEq, Repr

/-- A link slot: the header of Table 13-2 and its granule. -/
structure Slot where
  type   : Byte
  flags  : Byte
  dest   : Half
  src    : Half
  cell   : Half
  offset : Word
  tag    : Word
  line   : Half
  lines  : Half
  data   : List Byte
deriving DecidableEq, Repr

/-- A mirror frame of port M: the header of Table 14-3 and its payload. -/
structure MFrame where
  type  : Byte
  flags : Byte
  rc    : Half
  mseq  : Word32
  mack  : Word32
  len   : Half
  layer : Half
  step  : Word
  arg   : Word
  data  : List Byte
deriving DecidableEq, Repr

/-- A frame as a port receives it (Table 13-1): the errors of its codeword, its CRC field, the LINK word, the credits and
the slots in use. A frame of a peer port carries `slots`, a frame of
port M carries `mslots` (R336). -/
structure LinkFrame where
  /-- What the lanes added to symbols of the codeword on the way (R315), and the CRC field as decoded (R316). -/
  noise   : List (Nat × BitVec 10)
  crc     : Word
  seq     : Nat
  ack     : Nat
  nak     : Bool
  idle    : Bool
  credits : List Nat
  slots   : List Slot
  mslots  : List MFrame
deriving DecidableEq, Repr

/-- A word of HBM as its array now returns it (R149): its address, its data bytes, and the metadata bits of its burst. -/
structure StoredWord where
  addr     : Nat
  data     : BitVec 128
  metadata : Word32
deriving DecidableEq, Repr

/-- A word of HBM that is mended (R151): written back with its correction, or, with `onDie`, reported by the dies as a burst
corrected on-die. -/
structure MendedWord where
  addr  : Nat
  onDie : Bool
deriving DecidableEq, Repr

/-- The I3C controller assigns the board port the address `addr` (R388): by SETDASA, which names the static address `setdasa`,
or by ENTDAA. -/
structure AddressAssign where
  tick    : Nat
  addr    : BitVec 7
  setdasa : Option (BitVec 7)
deriving DecidableEq, Repr

/-- What the power controller measures in one 10 µs sample (R370, Table 16-14): the mean input voltage and current, the
hottest reading and the current of each rail in 0.1 A (V0 to V7, VMEM, VIO), and the coolant telemetry (R377). -/
structure PowerReading where
  millivolts : Nat
  centiamps  : Nat
  junctions  : List Nat
  railAmps   : List Nat
  flow       : Nat
  outlet     : Nat
  inlet      : Nat
deriving DecidableEq, Repr

/-- The commands, one constructor per row of the table. -/
inductive Instr where
  /-- NOP (R96). Control instruction that does nothing and continues at PC + 8. -/
  | nop (k : Nat) (w : FmtT)
  /-- BR (R96). Unconditional relative branch by 8 × IMM32. -/
  | br (k : Nat) (w : FmtL)
  /-- BRZ (R96). Relative branch taken when sA is zero. -/
  | brz (k : Nat) (w : FmtL)
  /-- BRNZ (R96). Relative branch taken when sA is nonzero. -/
  | brnz (k : Nat) (w : FmtL)
  /-- CALL (R96). Writes the link address to sD and branches relative to the PC. -/
  | call (k : Nat) (w : FmtL)
  /-- CALLR (R96). Writes the link address to sD and branches to sA. -/
  | callr (k : Nat) (w : FmtT)
  /-- RET (R96). Sets the PC to sA. -/
  | ret (k : Nat) (w : FmtT)
  /-- YIELD (R61). Stops issue for the rest of the step on this core. -/
  | yield (k : Nat) (w : FmtT)
  /-- GCALL (R70). Checks a guest call block, saves operator registers and enters guest privilege, or writes a refusal code to sd. -/
  | gcall (k : Nat) (w : FmtT)
  /-- GRET (R74). Drains guest work, restores the operator's registers and writes sd and se. -/
  | gret (k : Nat) (w : FmtT)
  /-- ADD (R97). Scalar addition modulo 2^64. -/
  | add (k : Nat) (w : FmtT)
  /-- SUB (R97). Scalar subtraction modulo 2^64. -/
  | sub (k : Nat) (w : FmtT)
  /-- MUL (R97). Low 64 bits of a scalar product. -/
  | mul (k : Nat) (w : FmtT)
  /-- MULHU (R97). High 64 bits of an unsigned 128-bit product. -/
  | mulhu (k : Nat) (w : FmtT)
  /-- MULHS (R97). High 64 bits of a signed 128-bit product. -/
  | mulhs (k : Nat) (w : FmtT)
  /-- DIVU (R97). Unsigned quotient, all ones on division by zero. -/
  | divu (k : Nat) (w : FmtT)
  /-- REMU (R97). Unsigned remainder, sA on division by zero. -/
  | remu (k : Nat) (w : FmtT)
  /-- AND (R97). Bitwise AND of two scalars. -/
  | and (k : Nat) (w : FmtT)
  /-- OR (R97). Bitwise OR of two scalars. -/
  | or (k : Nat) (w : FmtT)
  /-- XOR (R97). Bitwise XOR of two scalars. -/
  | xor (k : Nat) (w : FmtT)
  /-- SHL (R97). Shift left by sB[5:0]. -/
  | shl (k : Nat) (w : FmtT)
  /-- SHR (R97). Logical shift right by sB[5:0]. -/
  | shr (k : Nat) (w : FmtT)
  /-- SAR (R97). Arithmetic shift right by sB[5:0]. -/
  | sar (k : Nat) (w : FmtT)
  /-- MIN (R97). Signed minimum of two scalars. -/
  | min (k : Nat) (w : FmtT)
  /-- MAX (R97). Signed maximum of two scalars. -/
  | max (k : Nat) (w : FmtT)
  /-- MINU (R97). Unsigned minimum of two scalars. -/
  | minu (k : Nat) (w : FmtT)
  /-- MAXU (R97). Unsigned maximum of two scalars. -/
  | maxu (k : Nat) (w : FmtT)
  /-- SEL (R97). Selects sA or sB by predicate pC. -/
  | sel (k : Nat) (w : FmtT)
  /-- CMP (R97). Writes a predicate from a scalar comparison under COND. -/
  | cmp (k : Nat) (w : FmtT)
  /-- MOVI (R97). Loads a sign-extended 32-bit immediate. -/
  | movi (k : Nat) (w : FmtL)
  /-- MOVHI (R97). Replaces the high 32 bits of sD with an immediate. -/
  | movhi (k : Nat) (w : FmtL)
  /-- PAND (R97). Predicate AND. -/
  | pand (k : Nat) (w : FmtT)
  /-- POR (R97). Predicate OR. -/
  | por (k : Nat) (w : FmtT)
  /-- PXOR (R97). Predicate XOR. -/
  | pxor (k : Nat) (w : FmtT)
  /-- VADD (R98). Lane-wise floating-point addition rounded to nearest even. -/
  | vadd (k : Nat) (w : FmtT)
  /-- VSUB (R98). Lane-wise floating-point subtraction. -/
  | vsub (k : Nat) (w : FmtT)
  /-- VMUL (R98). Lane-wise floating-point multiplication. -/
  | vmul (k : Nat) (w : FmtT)
  /-- VFMA (R98). Lane-wise fused multiply-add with one rounding. -/
  | vfma (k : Nat) (w : FmtT)
  /-- VMAX (R98). Lane-wise maximum. -/
  | vmax (k : Nat) (w : FmtT)
  /-- VMIN (R98). Lane-wise minimum. -/
  | vmin (k : Nat) (w : FmtT)
  /-- VCMP (R98). Lane-wise comparison producing all-ones or zero lanes. -/
  | vcmp (k : Nat) (w : FmtT)
  /-- VEXP (R98). Lane-wise e^x or 2^x. -/
  | vexp (k : Nat) (w : FmtT)
  /-- VRCP (R98). Lane-wise reciprocal. -/
  | vrcp (k : Nat) (w : FmtT)
  /-- VRSQ (R98). Lane-wise reciprocal square root. -/
  | vrsq (k : Nat) (w : FmtT)
  /-- VRED (R98). Fixed pairwise-tree sum or maximum of all lanes into lane 0. -/
  | vred (k : Nat) (w : FmtT)
  /-- VCVT (R98). Converts between lane formats by segment, rounding to nearest even. -/
  | vcvt (k : Nat) (w : FmtT)
  /-- VCVTSR (R99). Stochastic-rounding conversion keyed by seed and counter. -/
  | vcvtsr (k : Nat) (w : FmtT)
  /-- VTOPK (R100). Selects the k largest scratchpad elements with their indices. -/
  | vtopk (k : Nat) (w : FmtT)
  /-- VRAND (R99). Writes keyed Philox random lanes. -/
  | vrand (k : Nat) (w : FmtT)
  /-- VBCAST (R98). Copies the low bits of sA to every lane. -/
  | vbcast (k : Nat) (w : FmtT)
  /-- VEXT (R98). Extracts one lane into a scalar. -/
  | vext (k : Nat) (w : FmtT)
  /-- VSEL (R98). Lane-wise select by a mask vector. -/
  | vsel (k : Nat) (w : FmtT)
  /-- WLD (R101). Loads one half of the weight buffer from scratchpad. -/
  | wld (k : Nat) (w : FmtT)
  /-- MMA (R102). Multiplies activation rows by the weight block and accumulates under the accumulator's mode. -/
  | mma (k : Nat) (w : FmtT)
  /-- APRE (R139). Preloads accumulator rows with bias or residual data. -/
  | apre (k : Nat) (w : FmtT)
  /-- ACFG (R103). Sets an accumulator's mode, seed and tile coordinate and zeroes it, forming or dissolving accw. -/
  | acfg (k : Nat) (w : FmtT)
  /-- AST (R104). Stores accumulator rows to scratchpad, writes the flag word and optionally clears. -/
  | ast (k : Nat) (w : FmtT)
  /-- ACLR (R103). Zeroes an accumulator keeping mode and key. -/
  | aclr (k : Nat) (w : FmtT)
  /-- ARD (R138). Reads accumulator columns or accw limbs into a vector. -/
  | ard (k : Nat) (w : FmtT)
  /-- LDS (R105). Loads a scalar from scratchpad. -/
  | lds (k : Nat) (w : FmtT)
  /-- STS (R105). Stores a scalar to scratchpad. -/
  | sts (k : Nat) (w : FmtT)
  /-- VLD (R105). Loads 256 bytes of scratchpad into a vector. -/
  | vld (k : Nat) (w : FmtT)
  /-- VST (R105). Stores a vector to 256 bytes of scratchpad. -/
  | vst (k : Nat) (w : FmtT)
  /-- LDC (R183). Loads HBM lines through the cluster cache into scratchpad. -/
  | ldc (k : Nat) (w : FmtT)
  /-- STC (R183). Stores scratchpad lines into the cluster cache write-back. -/
  | stc (k : Nat) (w : FmtT)
  /-- LDV (R184). Loads HBM lines at the point of coherence. -/
  | ldv (k : Nat) (w : FmtT)
  /-- STV (R184). Stores lines at the point of coherence. -/
  | stv (k : Nat) (w : FmtT)
  /-- DMA (R108). Starts a DMA or tier long operation from a descriptor. -/
  | dma (k : Nat) (w : FmtT)
  /-- FLUSHR (R109). Starts a long operation writing back dirty cluster-cache lines of a range. -/
  | flushr (k : Nat) (w : FmtT)
  /-- INVR (R109). Starts a long operation discarding cluster-cache lines of a range. -/
  | invr (k : Nat) (w : FmtT)
  /-- KVLD (R112). Loads a request's key-value positions into scratchpad through the walker. -/
  | kvld (k : Nat) (w : FmtT)
  /-- KVAPP (R112). Appends key or value entries to the request's staging slot. -/
  | kvapp (k : Nat) (w : FmtT)
  /-- KVCMT (R112). Confirms the request's complete non-speculative entries of the step. -/
  | kvcmt (k : Nat) (w : FmtT)
  /-- KVDROP (R245). Removes unconfirmed staging entries of one slot from a position onward. -/
  | kvdrop (k : Nat) (w : FmtT)
  /-- KVIMP (R113). Starts a KV_IMPORT long operation from a page list. -/
  | kvimp (k : Nat) (w : FmtT)
  /-- NBISS (R207). Starts a near-bank long operation from a command list. -/
  | nbiss (k : Nat) (w : FmtT)
  /-- NBFNC (R114). Waits until every earlier NBISS of the core has left ACTIVE with results at the point of coherence. -/
  | nbfnc (k : Nat) (w : FmtT)
  /-- NBRD (R114). Waits for a near-bank entry to leave ACTIVE and copies its status area. -/
  | nbrd (k : Nat) (w : FmtT)
  /-- RPUT (R115). Sends scratchpad lines to a peer window address counted on an ARRIVE cell. -/
  | rput (k : Nat) (w : FmtT)
  /-- COLL (R327). Starts a collective long operation from a group descriptor. -/
  | coll (k : Nat) (w : FmtT)
  /-- AMRG (R117). Merges two partial attention results for one row. -/
  | amrg (k : Nat) (w : FmtT)
  /-- TEMIT (R119). Confirms a token into the hold or records a pending Mayfly. -/
  | temit (k : Nat) (w : FmtT)
  /-- TVERIFY (R118). Commit point confirming accepted Mayflies and one token, removing the rest and charging the budget. -/
  | tverify (k : Nat) (w : FmtT)
  /-- SCCFG (R75). Configures a sync cell, ending its waiters. -/
  | sccfg (k : Nat) (w : FmtT)
  /-- SCRD (R121). Reads a sync cell value and WRAPPED as an acquire. -/
  | scrd (k : Nat) (w : FmtT)
  /-- SCSET (R121). Sets a sync cell value as a release. -/
  | scset (k : Nat) (w : FmtT)
  /-- SCADD (R76). Adds to a sync cell value as a release, returning the old value. -/
  | scadd (k : Nat) (w : FmtT)
  /-- SCDL (R79). Sets a sync cell's deadline slot. -/
  | scdl (k : Nat) (w : FmtT)
  /-- WAIT (R78). Blocks issue until a sync-cell condition holds, the deadline falls due or the cell is reconfigured. -/
  | wait (k : Nat) (w : FmtT)
  /-- DOTRD (R83). Reads one word of a device operation table entry. -/
  | dotrd (k : Nat) (w : FmtT)
  /-- DOTCAN (R84). Cancels an ACTIVE device operation table entry. -/
  | dotcan (k : Nat) (w : FmtT)
  /-- DOTREL (R84). Releases a finished device operation table entry to FREE. -/
  | dotrel (k : Nat) (w : FmtT)
  /-- SYSRD (R67). Reads a system value. -/
  | sysrd (k : Nat) (w : FmtT)
  /-- TBRD (R57). Reads 8 bytes of the step's Clailaez snapshot. -/
  | tbrd (k : Nat) (w : FmtT)
  /-- CORE_PART_END (R61). A core's part of the step ends once all instructions issued before YIELD have completed. -/
  | corePartEnd (t : Nat) (k : Nat)
  /-- DMA_DONE (R108). A DMA transfer completes, enters DONE and signals its completion cell. -/
  | dmaDone (t : Nat) (m : Nat)
  /-- TIER_DONE (R173). A tier transfer completes and signals its completion cell. -/
  | tierDone (t : Nat) (m : Nat)
  /-- NEAR_BANK_COMMAND_FINISH (R210). A near-bank command finishes and writes its status word. -/
  | nearBankCommandFinish (t : Nat) (m cmd : Nat)
  /-- NEAR_BANK_DONE (R210). A near-bank operation ends DONE when every command has finished. -/
  | nearBankDone (t : Nat) (m : Nat)
  /-- COLLECTIVE_DONE (R328). A collective copies SCRATCH to its destination after every digest passes and completes. -/
  | collectiveDone (t : Nat) (m : Nat)
  /-- KV_IMPORT_DONE (R253). An import writes every page-table entry at once and makes its completion addition. -/
  | kvImportDone (t : Nat) (m : Nat)
  /-- FLUSH_DONE (R185). A FLUSHR completes when all lines dirty at its start are at the point of coherence. -/
  | flushDone (t : Nat) (m : Nat)
  /-- INVALIDATE_DONE (R186). An INVR completes with its range's lines discarded. -/
  | invalidateDone (t : Nat) (m : Nat)
  /-- OPERATION_FAILED (R84). A long operation fails, sets RESULT and signals its cell, ending its request when RC_EN is set. -/
  | operationFailed (t : Nat) (m : Nat) (why : OpFailure)
  /-- OPERATION_DEADLINE (R84). A device operation table entry's deadline falls due and stops it TIMED_OUT. -/
  | operationDeadline (t : Nat) (m : Nat)
  /-- TIER_WAIT_LIMIT (R173). Device timer 1 falls due and stops RC_EN tier operations past their limit tick with TIER_LATE. -/
  | tierWaitLimit (t : Nat)
  /-- STEP_WATCHDOG (R62). Device timer 2 falls due and faults cores whose part has not ended with STEP_TIMEOUT. -/
  | stepWatchdog (t : Nat)
  /-- SYNC_CELL_DEADLINE (R79). A sync cell's deadline falls due, ending unmet timed waits and clearing the slot. -/
  | syncCellDeadline (t : Nat) (n : Nat)
  /-- ADMIT (R287). Checks and admits a request context from its admission image. -/
  | admitCmd (t q : Nat) (c : HostCmd)
  /-- CANCEL (R287). Sets CANCEL_PENDING so the request ends CANCELLED at the next boundary. -/
  | cancel (t q : Nat) (c : HostCmd)
  /-- RESUME_REQUEST (R305). Returns a PAUSED request to READY, optionally with a new token limit. -/
  | resumeRequest (t q : Nat) (c : HostCmd)
  /-- PARK (R250). Parks a PREFILL or READY request, optionally spilling its pages. -/
  | park (t q : Nat) (c : HostCmd)
  /-- UNPARK (R251). Restores a parked request's pages and returns it to its former state. -/
  | unpark (t q : Nat) (c : HostCmd)
  /-- SHARE_PREFIX (R288). Shares a source request's first n positions into a target at a boundary. -/
  | sharePrefix (t q : Nat) (c : HostCmd)
  /-- TENANT (R285). Writes or adds to a tenant entry's budget, cap and refill. -/
  | tenantCmd (t q : Nat) (c : HostCmd)
  /-- LOAD_ADAPTER (R283). Takes a FREE adapter version and copies it to GOLDEN and HBM. -/
  | loadAdapter (t q : Nat) (c : HostCmd)
  /-- RETIRE_ADAPTER (R283). Marks an adapter version RETIRED. -/
  | retireAdapter (t q : Nat) (c : HostCmd)
  /-- LOAD_IMAGE (R90). Checks and loads an operator or guest image into instruction memory. -/
  | loadImage (t q : Nat) (c : HostCmd)
  /-- RESUME_SCHEDULER (R297). Clears HALTED and reruns the halted step. -/
  | resumeScheduler (t q : Nat) (c : HostCmd)
  /-- GUEST_TABLE (R289). Claims or releases pool runs holding a tenant's guest table data. -/
  | guestTable (t q : Nat) (c : HostCmd)
  /-- ADAPTER_COPY_END (R283). Bringing a COLD adapter version in ends and it becomes RESIDENT, or fails back to COLD. -/
  | adapterCopyEnd (t : Nat) (version : Nat) (ok : Bool)
  /-- LOAD_ADAPTER_COPY_END (R286). The copies of a LOAD_ADAPTER end and its completion is posted. -/
  | loadAdapterCopyEnd (t : Nat) (version : Nat) (ok : Bool)
  /-- IMAGE_LOAD_END (R58). Every copy of a loaded image is in place and the load completes. -/
  | imageLoadEnd (t : Nat)
  /-- GUEST_TABLE_COPY_END (R289). A guest table copy and invalidation end and the completion is posted. -/
  | guestTableCopyEnd (t : Nat) (ok : Bool)
  /-- SUBMISSION_DOORBELL (R407). A submission tail write is presented and commands are fetched in ring order. -/
  | submissionDoorbell (t : Nat) (q : Nat) (tail : Nat)
  /-- COMPLETION_HEAD_DOORBELL (R407). The host writes a completion head, freeing completion slots for fetching. -/
  | completionHeadDoorbell (t : Nat) (q : Nat) (head : Nat)
  /-- COALESCE_TIME (R408). The coalescing time of a completion queue runs out and its vector is sent. -/
  | coalesceTime (t : Nat) (q : Nat)
  /-- IDENTITY (R398). Returns the identity and alias certificate chain. -/
  | identity (t : Nat) (c : KwCmd)
  /-- ATTEST (R400). Signs and returns an attestation report over a nonce. -/
  | attest (t : Nat) (c : KwCmd)
  /-- REG_READ (R390). Returns register bytes to the board management controller. -/
  | regRead (t : Nat) (c : KwCmd)
  /-- PROFILE_SELECT (R381). Requests a profile change from the board management controller. -/
  | profileSelect (t : Nat) (c : KwCmd)
  /-- PROFILE_WRITE (R380). Validates and stores a profile record. -/
  | profileWrite (t : Nat) (c : KwCmd)
  /-- MODE (R383). Writes PW_MODE through a management command. -/
  | modeCmd (t : Nat) (c : KwCmd)
  /-- PAIR (R390). Board command that writes a value to MR_CMD. -/
  | pairCmd (t : Nat) (c : KwCmd)
  /-- FW_STAGE (R397). Stages, checks and writes a new firmware image to flash. -/
  | fwStage (t : Nat) (c : KwCmd)
  /-- COMMIT_SV (R397). Raises the fused minimum security version to the running image's. -/
  | commitSv (t : Nat) (c : KwCmd)
  /-- RESET (R401). Management command that starts a device reset after its response. -/
  | resetCmd (t : Nat) (c : KwCmd)
  /-- POWER_STATE (R402). Sets RUN, IDLE or OFF_READY. -/
  | powerState (t : Nat) (c : KwCmd)
  /-- REPAIR_SUPPLY (R411). The host supplies a block for repair stage 3, checked by CRC. -/
  | repairSupply (t : Nat) (c : KwCmd)
  /-- ALERT_ACK (R392). Clears the named KW_ALERT causes. -/
  | alertAck (t : Nat) (c : KwCmd)
  /-- FLASH_WRITE_END (R397). Kolwin finishes writing a staged image to flash and clears FW_WRITING. -/
  | flashWriteEnd (t : Nat)
  /-- SMBUS_FALLBACK (R388). No I3C dynamic address within 1 s of STARTING, so the port answers as SMBus. -/
  | smbusFallback (t : Nat)
  /-- DYNAMIC_ADDRESS (R388). The I3C controller assigns the port a dynamic address by ENTDAA or SETDASA. -/
  | dynamicAddress (a : AddressAssign)
  /-- MR_CMD_PAIR (R333). Accepts PAIR and exchanges HELLO frames with the partner. -/
  | mrCmdPair (t : Nat)
  /-- UNPAIR (R333). Returns the device to SOLO and sends BYE. -/
  | unpair (t : Nat)
  /-- FENCE (R342). Stops all launches, PCIe writes, link sends and fetches until reset. -/
  | fence (t : Nat)
  /-- TAKEOVER (R344). Starts adoption of the failed partner's mirrored requests. -/
  | takeover (t : Nat)
  /-- BAR2_WRITE (R152). A host write through BAR2 reaches HBM, merged, dropped or refused as the rules require. -/
  | bar2Write (t : Nat) (off : Nat) (data : List Byte)
  /-- BAR2_READ (R200). A host read through BAR2 returns after all earlier host writes are at the point of coherence. -/
  | bar2Read (t : Nat) (off n : Nat)
  /-- REGISTER_WRITE (R5). A write to a register with no behaviour of its own acts by its access codes. -/
  | registerWrite (t : Nat) (bar : Bar) (off : Nat) (wide : Bool) (val : Word)
  /-- OVF_CLEAR (R367). Clearing an OVF bit also zeroes its counter. -/
  | ovfClear (t : Nat) (off : Nat) (val : Word32)
  /-- TK_COUNT_LOW_READ (R54). A 32-bit read of the tick counter's low word latches the high word. -/
  | tkCountLowRead (t : Nat)
  /-- SEAL (R155). Starts sealing a guarded range or refuses the layout. -/
  | seal (t : Nat) (n : Nat)
  /-- SEALING_END (R155). Every block of a sealing range is read and compared and the range becomes ARMED or OFF. -/
  | sealingEnd (t : Nat) (n : Nat)
  /-- UNSEAL (R155). Moves an ARMED range to UNSEALING. -/
  | unseal (t : Nat) (n : Nat)
  /-- INIT (R176). Writes ZERO entries to a zone map and clears its bitmap, or reads BUSY. -/
  | zoneInit (t : Nat) (n : Nat)
  /-- INIT_END (R176). A zone INIT finishes and INITIALISING clears. -/
  | initEnd (t : Nat) (n : Nat)
  /-- TZ_ENABLE (R176). Enables or disables a compressed zone, checking its layout. -/
  | tzEnable (t : Nat) (n : Nat) (val : Word32)
  /-- KV_ENABLE (R258). Enables paging after checking the layout, or refuses. -/
  | kvEnable (t : Nat) (val : Word32)
  /-- KV_INV (R240). Drops one request's or all translation-buffer entries from every walker. -/
  | kvInv (t : Nat) (val : Word32)
  /-- KV_INV_END (R240). Every buffer has finished a KV_INV drop and BUSY clears. -/
  | kvInvEnd (t : Nat)
  /-- CHECK_EN (R368). Enables duplicate checks at the next formation, or is refused. -/
  | checkEn (t : Nat) (val : Word32)
  /-- PW_PROFILE_REQUEST (R381). A write to PW_PROFILE requests a profile change. -/
  | pwProfileRequest (t : Nat) (val : Word32)
  /-- PW_MODE_WRITE (R383). A write to PW_MODE requests mode changes at the next boundary. -/
  | pwModeWrite (t : Nat) (val : Word32)
  /-- HQ_SQ_ENABLE (R408). Enables a queue pair, resetting its indices, or stops fetching. -/
  | hqSqEnable (t : Nat) (q : Nat) (val : Word32)
  /-- HOSTWIN_SIZE (R405). A host window size change is published within 50 µs. -/
  | hostwinSize (t : Nat) (val : Word)
  /-- PORT_ENABLE (R319). Enabling a port starts TRAINING, disabling it sends it to DISABLED. -/
  | portEnable (t : Nat) (p : Nat) (enable : Bool)
  /-- RETRAIN (R319). A write of RETRAIN sends an UP port to RETRAINING. -/
  | retrain (t : Nat) (p : Nat)
  /-- EXPORT_VALID_CLEAR (R332). Clearing an export segment's VALID refuses new accesses while BUSY drains. -/
  | exportValidClear (t : Nat) (n : Nat)
  /-- EXPORT_BUSY_END (R332). Accesses in progress on an invalidated export segment end and BUSY clears. -/
  | exportBusyEnd (t : Nat) (n : Nat)
  /-- STEP_BOUNDARY (R310). After every participating core's part ends, the scheduler settles, releases, applies commands and forms the next step. -/
  | stepBoundary (t : Nat)
  /-- STEP_LAUNCH (R59). The scheduler launches a formed step once the mirror allows, starting cores with launch registers. -/
  | stepLaunch (t : Nat)
  /-- IDLE_FORMATION (R291). With no step running, the scheduler forms again every 10 µs. -/
  | idleFormation (t : Nat)
  /-- SPILL (R250). The page mover finishes spilling a page compressed to tier 2. -/
  | spill (t : Nat) (rc layer hg page : Nat)
  /-- RESTORE (R251). The page mover finishes restoring a spilled page into a run. -/
  | restore (t : Nat) (rc layer hg page : Nat)
  /-- CLAILAEZ_PUBLICATION (R38). Kolwin publishes a new table generation in the fixed order. -/
  | clailaezPublication (t : Nat)
  /-- FOM_WINDOW_END (R312). A 2^27 tk window ends and SQ_FOM takes its counts. -/
  | fomWindowEnd (t : Nat)
  /-- FRAME (R317). A link frame is decoded, checked and accepted in order, or discarded with NAK. -/
  | linkFrame (t : Nat) (p : Nat) (f : LinkFrame)
  /-- REPLAY_TIMEOUT (R317). The oldest unacknowledged frame reaches 2 µs and all are resent. -/
  | replayTimeout (t : Nat) (p : Nat)
  /-- PIECE_RESEND (R329). A collective piece without acknowledgement after 50 µs is sent again. -/
  | pieceResend (t : Nat) (m : Nat) (dest chunk piece : Nat)
  /-- NOT_READY_RETRY (R329). A piece refused NOT_READY is tried again 2 µs later. -/
  | notReadyRetry (t : Nat) (m : Nat) (dest chunk piece : Nat)
  /-- ROUTE_RETRY (R322). A read or collective waiting for a route retries every 10 µs. -/
  | routeRetry (t : Nat) (m : Nat)
  /-- TRAINING_COMPLETE (R319). Enough lanes lock and parameters are exchanged, so the port becomes UP. -/
  | trainingComplete (t : Nat) (p : Nat) (lanes : BitVec 6) (peerId peerPort : Nat)
  /-- TRAINING_TIMEOUT (R319). 100 ms pass without enough lanes and the port goes DOWN. -/
  | trainingTimeout (t : Nat) (p : Nat)
  /-- LANE_LOCK_LOST (R320). A lane loses lock, leaves service and the port retrains. -/
  | laneLockLost (t : Nat) (p lane : Nat)
  /-- LANE_ERROR_RATE (R320). A lane shows too many symbol errors over 1 ms and leaves service. -/
  | laneErrorRate (t : Nat) (p lane : Nat)
  /-- RETRAINING_COMPLETE (R319). Enough lanes lock within 2 ms and the port returns to UP. -/
  | retrainingComplete (t : Nat) (p : Nat) (lanes : BitVec 6)
  /-- RETRAINING_TIMEOUT (R319). 2 ms of retraining pass and the port goes DOWN, discarding its frames. -/
  | retrainingTimeout (t : Nat) (p : Nat)
  /-- DOWN_TIMEOUT (R319). A DOWN port returns to TRAINING after 1 s. -/
  | downTimeout (t : Nat) (p : Nat)
  /-- HEARTBEAT_SEND (R337). Device timer 0 sends a HEARTBEAT every 100 tk. -/
  | heartbeatSend (t : Nat)
  /-- HEARTBEAT_SILENCE (R341). No HEARTBEAT for 300 tk makes the device SUSPECT. -/
  | heartbeatSilence (t : Nat)
  /-- ACK_DEADLINE_MISSED (R341). A sequenced frame unacknowledged after 200 tk makes the device SUSPECT. -/
  | ackDeadlineMissed (t : Nat)
  /-- PAIR_PRESENT_CHANGE (R415). A change of PAIR_PRESENT enables or disables port M. -/
  | pairPresentChange (t : Nat) (high : Bool)
  /-- FF_SYNC_OUT (R46). The leader drives a sync pulse at every 1,024th tick. -/
  | ffSyncOut (t : Nat)
  /-- FF_SYNC_IN (R48). A follower receives a sync pulse and locks its tick to it. -/
  | ffSyncIn (t : Nat) (leaderCount : Nat) (edgeOk : Bool)
  /-- HOLDOVER (R48). No sync pulse for 4,096 tk sets HOLDOVER and SYNC_LOST. -/
  | holdover (t : Nat)
  /-- SLEWING (R48). Once per 1,024 tk a re-aligning follower corrects edge or count by one step. -/
  | slewing (t : Nat) (edgeOk : Bool)
  /-- POWER_SAMPLE (R373). Every 10 µs input power is sampled, integrated and the governor acts. -/
  | powerSample (t : Nat) (sample : PowerReading)
  /-- THERMAL_SETPOINT_STEP (R376). A rail's thermal setpoint falls every 100 µs above throttle or rises every ms below it. -/
  | thermalSetpointStep (t : Nat) (rail : Nat) (junction : Nat)
  /-- INPUT_BELOW_44V (R378). Input below 44 V triggers the emergency action. -/
  | inputBelow44v (t : Nat)
  /-- INPUT_LOW_PERSISTS (R378). Input stays below 44 V for 1 ms and the module shuts down. -/
  | inputLowPersists (t : Nat)
  /-- INPUT_BELOW_40V (R378). Input falls below 40 V and the module shuts down. -/
  | inputBelow40v (t : Nat)
  /-- INPUT_ABOVE_58V (R378). Input above 58 V shuts the module down at once. -/
  | inputAbove58v (t : Nat)
  /-- JUNCTION_LIMIT (R378). A junction at 105 °C triggers the emergency action. -/
  | junctionLimit (t : Nat)
  /-- JUNCTION_110C (R378). A junction reaches 110 °C and the module shuts down. -/
  | junction110c (t : Nat)
  /-- HBM_ABOVE_105C (R160). HBM above 105 °C enters FATAL and shuts the module down. -/
  | hbmAbove105c (t : Nat) (stack : Nat)
  /-- COOLANT_ALARM (R377). Low flow or high inlet for 100 ms raises the coolant alarm and emergency action. -/
  | coolantAlarm (t : Nat)
  /-- COOLANT_ALARM_PERSISTS (R378). The coolant alarm lasts 10 s and the module shuts down. -/
  | coolantAlarmPersists (t : Nat)
  /-- EMERGENCY_END (R378). 10 ms after the condition clears, normal regulation resumes. -/
  | emergencyEnd (t : Nat) (source : Nat)
  /-- QUARTER_LOSS (R18). Loss of a quarter or its fabric is a class 1 event that makes the device FATAL. -/
  | quarterLoss (t : Nat) (quarter : Nat)
  /-- STACK_LOST (R163). A stack is lost and the device enters FATAL. -/
  | stackLost (t : Nat) (stack : Nat)
  /-- KOLWIN_DETECTED_FAULT (R387). A watchdog miss, self-check failure or Kolwin memory error makes the device FATAL. -/
  | kolwinDetectedFault (t : Nat)
  /-- SELF_CHECK (R387). The security engine runs its self-check every 600 s. -/
  | selfCheck (t : Nat) (pass : Bool)
  /-- UNCORRECTABLE_WORD (R153). An uncorrectable word outside a guarded range is recorded and its reader handled. -/
  | uncorrectableWord (t : Nat) (word : StoredWord)
  /-- CORRECTED_WORD_WRITE_BACK (R151). A corrected word is written back at its bank's next idle interval. -/
  | correctedWordWriteBack (t : Nat) (word : MendedWord)
  /-- REPAIR_STAGE_END (R158). A repair fetch returns a matching block, which is written and released. `stage`: the stage
  whose fetch has ended. -/
  | repairStageEnd (t : Nat) (range block stage : Nat)
  /-- REPAIR_STAGE_LIMIT (R158). A repair stage exceeds its limit and the next stage starts or FATAL follows. -/
  | repairStageLimit (t : Nat) (range block : Nat)
  /-- REPAIR_SLOT_LIMIT (R411). A KW_REPAIR slot reaches its limit tick and stage 3 fails. -/
  | repairSlotLimit (t : Nat) (slot : Nat)
  /-- REFRESH (R160). An all-bank refresh falls due on a pseudo-channel. -/
  | refresh (t : Nat) (pc : Nat)
  /-- HBM_TEMPERATURE (R160). A stack temperature reading crosses a boundary and the refresh rate changes. -/
  | hbmTemperature (t : Nat) (stack celsius : Nat)
  /-- PERIODIC_RETRAIN (R162). A channel's periodic retrain falls due, deferred to a boundary when set. -/
  | periodicRetrain (t : Nat) (channel : Nat)
  /-- ERROR_TRIGGERED_RETRAIN (R162). More than 16 parity errors in 1 ms retrain a channel at once. -/
  | errorTriggeredRetrain (t : Nat) (channel : Nat)
  /-- RETRAIN_WINDOW_END (R162). A channel's retraining window ends, or fails and the stack is lost. -/
  | retrainWindowEnd (t : Nat) (channel : Nat) (ok : Bool)
  /-- KNOWN_ANSWER_TEST_DUE (R353). A core falls due for its test and is drained at a boundary or tested at once if a spare. -/
  | knownAnswerTestDue (t : Nat) (k : Nat)
  /-- KNOWN_ANSWER_TEST_END (R354). A core's test run ends and it returns to service or is retired. -/
  | knownAnswerTestEnd (t : Nat) (k : Nat) (failing : Option Nat)
  /-- DISAGREE (R366). The two trees disagree for two ticks and the unit is fenced. -/
  | disagree (t : Nat) (kind index : Nat) (dataState controlState : Nat)
  /-- RECONCILED (R366). Kolwin's reconciliation ends and the unit's state is set. -/
  | reconciled (t : Nat) (kind index : Nat) (pass : Bool)
  /-- INPUT_APPLIED (R420). The 50 V input rises and a power-on reset begins. -/
  | inputApplied (t : Nat)
  /-- INPUT_REMOVED (R422). The 50 V input is removed and every rail falls. -/
  | inputRemoved (t : Nat)
  /-- RESET_N_ASSERTED (R421). RESET_N low for 10 µs takes the rails down for a power-on reset. -/
  | resetNAsserted (t : Nat)
  /-- RESET_N_DEASSERTED (R420). RESET_N deasserts, pins are sampled and boot starts. -/
  | resetNDeasserted (t : Nat) (prof slot : Nat)
  /-- PCIE_RESET (R401). A function-level reset, hot reset or link down starts a device reset. -/
  | pcieReset (t : Nat)
  /-- IMAGE_VERIFICATION_END (R394). Boot verification ends and firmware starts or the recovery loader runs. -/
  | imageVerificationEnd (t : Nat)
  /-- HBM_TRAINING_END (R396). HBM training and zeroing end during boot. -/
  | hbmTrainingEnd (t : Nat)
  /-- TIER2_TRAINING_END (R396). Tier-2 training ends during boot. -/
  | tier2TrainingEnd (t : Nat)
  /-- START_UP_TESTS_END (R396). The start-up tests on all cores end and the table is published before RUNNING. -/
  | startUpTestsEnd (t : Nat) (failed : List (Nat × Nat))
  /-- LANE_OFF (R320). Setting a lane's LANE_OFF bit takes that lane out of service, and the port retrains on the lanes that remain. -/
  | laneOff (t : Nat) (p lane : Nat)
  /-- PCIE_LINK_TRAINED (R403). The PCIe endpoint finishes training, answers configuration requests and reports the trained speed and width in HQ_STATUS. -/
  | pcieLinkTrained (t : Nat) (generation width : Nat)
  /-- FIRMWARE_START (R396). The firmware-start boot stage ends with V0 to V7 and VMEM in regulation, and HBM training begins. -/
  | firmwareStart (t : Nat)
  /-- PWRGD_HIGH (R420). VIO comes into regulation 5 to 20 ms after the input reaches 44 V, and PWRGD goes high. -/
  | pwrgdHigh (t : Nat) (resetNHigh : Bool)
  /-- RESET_N_DEASSERTION_TAKEN (R420). When RESET_N is already high as PWRGD rises, its deassertion is taken 1 ms later, and the PROF and SLOT_ID pins are sampled and boot starts. -/
  | resetNDeassertionTaken (t : Nat) (prof slot : Nat)
deriving DecidableEq, Repr

end Sys2Proof
end

