-- ==== Sys2Proof/Machine/State.lean ====
section
/-! DEFINITION. The state of the module as plain data, the reasons a command can stop, and the state after reset.

A sparse table is a list of (index, value) pairs with strictly rising indices and no entry equal to the value an
unlisted index has (`Sys2Proof.Machine.SMap` in SMap.lean reads and writes it). Memory is such a table of bytes.
The registers of BAR0 are such a table of 32-bit words keyed by their BAR0 offset: every register field the spec
lists has its one home there, hardware status bits included, but for the tick counter. Request-context descriptors,
tenant and adapter entries, page tables, the frame table and the run stacks are bytes of HBM, as the spec has them. -/
namespace Sys2Proof.Machine

/-- Reasons a step stops with a fault. -/
inductive Fault where
  /-- Raised by a command whose operand names a unit the spec says does not exist (a physical core at or above 544,
  a port above 16, a queue above 255, a sync cell at or above 32,768, a table entry at or above 4,096, and the
  like). Safe: the hardware has no such unit, so no such command reaches it. -/
  | noSuchUnit
deriving DecidableEq, Repr

/-- Reasons a step has no meaning. -/
inductive Refusal where
  /-- Raised by an arm of `exec` for a command whose meaning is not written yet. Safe: the run stops. -/
  | notModelled (mnemonic : String)
deriving DecidableEq, Repr

/-! ## Cores -/

/-- Rounding mode of an accumulator (Table 5-8, Table 6-7). -/
inductive AccMode where
  | nearest | stochastic | exact
deriving DecidableEq, Repr

/-- One FP32 accumulator (R63, R103): mode, stream seed, tile coordinate, elements keyed 128r + n (unlisted: +0) and
the accumulated flag bits at their places in Table 6-7. -/
structure Acc where
  mode  : AccMode := .nearest
  seed  : Word := 0
  tile  : Word := 0
  elems : List (Nat × Word32) := []
  flags : Word := 0
deriving DecidableEq, Repr

/-- The exact tile accw (R136): window base B, elements A keyed 128r + n (unlisted: 0), the elements whose NaN marker is
set, and the accumulated flag bits. -/
structure AccW where
  base  : Int := 0
  seed  : Word := 0
  tile  : Word := 0
  elems : List (Nat × Int) := []
  nans  : List (Nat × Bool) := []
  flags : Word := 0
deriving DecidableEq, Repr

/-- One half of the weight buffer (R63, R101): its format code (0: nothing loaded since reset), raw elements keyed
128k + n and FP4 block scales keyed 4n + j. -/
structure WHalf where
  fmt    : Nat := 0
  elems  : List (Nat × Half) := []
  scales : List (Nat × Byte) := []
deriving DecidableEq, Repr

/-- Where a core stands in the step in progress (R59, R61, R88). -/
inductive CorePhase where
  /-- Takes no part: issues nothing. -/
  | idle
  /-- Issues instructions. -/
  | issuing
  /-- YIELD has stopped issue; earlier work completes (R61). -/
  | yielded
  /-- The core's part of the step has ended. -/
  | ended
deriving DecidableEq, Repr

/-- What holds a core's issue (R78). -/
inductive CoreWait where
  | none
  /-- WAIT on a sync cell: cell, condition code, target, destination predicate, timed. -/
  | cell (n cond : Nat) (target : Word) (pd : Nat) (timed : Bool)
deriving DecidableEq, Repr

/-- What stands at the head of a core's memory queue and has not completed (R64, R114). -/
inductive MemHold where
  | none
  /-- NBRD on a near-bank entry: entry, destination scalar, lines, scratchpad offset. -/
  | nbrd (m d lines off : Nat)
  /-- NBFNC until these entries have left ACTIVE. -/
  | nbfnc (ops : List Nat)
deriving DecidableEq, Repr

/-- A guest call in progress on a core (R69 to R74). -/
structure GuestCall where
  sd      : Nat
  se      : Nat
  retPc   : Nat
  savedS  : List (Nat × Word)
  savedP  : BitVec 8
  savedV  : List (Nat × VecReg)
  inBase  : Nat
  inLen   : Nat
  wkBase  : Nat
  wkLen   : Nat
  tbBase  : Nat
  tbLen   : Nat
  rc      : Nat
  tenant  : Nat
  left    : Nat
  imgBase : Nat
  imgLen  : Nat
deriving DecidableEq, Repr

/-- One physical core (R63). -/
structure Core where
  s       : List (Nat × Word) := []
  p       : BitVec 8 := 0
  v       : List (Nat × VecReg) := []
  acc     : List (Nat × Acc) := []
  /-- accw while acc0 to acc2 form it (R103). -/
  accw    : Option AccW := none
  wbuf    : List (Nat × WHalf) := []
  scratch : List Host.Cell := []
  pc      : Nat := 0
  phase   : CorePhase := .idle
  wait    : CoreWait := .none
  memHold : MemHold := .none
  guest   : Option GuestCall := none
  /-- Step index and table generation of the launch (s1, s4; system values STEP and GEN). -/
  step    : Word := 0
  gen     : Word := 0
  /-- Near-bank operations this core has issued, newest first (R114). -/
  nbOps   : List Nat := []
  /-- The core took an operator fault in the step (R88). -/
  faulted : Bool := false
deriving DecidableEq, Repr

/-! ## Clusters -/

/-- A line of a cluster cache (R182, R183). -/
structure CacheLine where
  dirty : Bool
  data  : List Byte
deriving DecidableEq, Repr

/-- A translation-buffer entry (R239): key, page-table entry and the result of the checks on its frame, the owner check
among them. -/
structure TbEntry where
  rc    : Nat
  layer : Nat
  hg    : Nat
  page  : Nat
  pte   : Nat
  /-- Status that the checks on its frame gave, 0 for none that failed. -/
  check : Nat
deriving DecidableEq, Repr

/-- A staging entry (R112, R241): the key and value halves appended, SPEC, whether it has been confirmed at a commit
point, and whether the pool has written its halves to its run (R242). -/
structure StgEntry where
  rc        : Nat
  layer     : Nat
  hg        : Nat
  pos       : Nat
  spec      : Bool
  key       : Option (List Byte)
  val       : Option (List Byte)
  confirmed : Bool
  written   : Bool
deriving DecidableEq, Repr

/-- One cluster (Table 1-6): cache lines keyed by HBM line address ÷ 256, translation buffer most recently used first,
staging entries in the order they were appended. -/
structure Cluster where
  cache : List (Nat × CacheLine) := []
  tb    : List TbEntry := []
  stg   : List StgEntry := []
deriving DecidableEq, Repr

/-! ## Sync cells and the device operation table -/

/-- A sync cell (R75): value, configuration word (Table 4-7) and deadline slot. -/
structure SyncCell where
  value    : Word := 0
  cfg      : Word32 := 0
  deadline : Word := 0
deriving DecidableEq, Repr

/-- A 64-byte near-bank command as read at the start of its operation (Table 9-4), with the status word once
finished. -/
structure NbCmd where
  bytes   : List Byte
  /-- Its bursts may run: the window was open when its turn came (R211, R213). -/
  started : Bool := false
  status  : Option Word := none
deriving DecidableEq, Repr

/-- The latches of one near-bank unit (Table 9-1): the two operand halves, the scale queue and the result latch. -/
structure NbLatch where
  half0  : List Byte := []
  half1  : List Byte := []
  scales : List Byte := []
  result : List Byte := []
deriving DecidableEq, Repr

/-- A piece of a collective that a member holds or awaits (R329): phase, sender, chunk, piece and its bytes. -/
structure CollPiece where
  phase  : Nat
  sender : Nat
  chunk  : Nat
  piece  : Nat
  data   : List Byte
  /-- Granules landed so far; the piece is whole when its digest has matched. -/
  whole  : Bool
deriving DecidableEq, Repr

/-- A piece sent and not yet acknowledged (R329). -/
structure CollSent where
  dest  : Nat
  phase : Nat
  chunk : Nat
  piece : Nat
  data  : List Byte
  sentAt : Nat
  /-- Not sent for want of a route (R322). -/
  waiting : Bool
  /-- Refused NOT_READY and not yet tried again (R329). -/
  refused : Bool
deriving DecidableEq, Repr

/-- A collective in progress (R327, R328). -/
structure Coll where
  tag      : Word := 0
  root     : Nat := 0
  partials : Nat := 1
  stride   : Nat := 0
  scratch  : Nat := 0
  log      : Nat := 0
  members  : List Nat := []
  op       : Nat := 0
  seed     : Word := 0
  pieces   : List CollPiece := []
  unacked  : List CollSent := []
  /-- Entries written in DIGEST_LOG. -/
  logged   : Nat := 0
  /-- This member's pieces have been sent, and its chunk's sum has been formed. -/
  begun    : Bool := false
  summed   : Bool := false
deriving DecidableEq, Repr

/-- States of a device operation table entry (Table 4-10). -/
inductive DotState where
  | free | active | done | failed | timedOut | cancelled
deriving DecidableEq, Repr

/-- A device operation table entry (Table 4-10) with the operation it runs (Table 5-11). -/
structure DotEntry where
  state     : DotState := .free
  kind      : Nat := 0
  result    : Nat := 0
  autofree  : Bool := false
  dlEn      : Bool := false
  cellEn    : Bool := false
  owner     : Nat := 0
  cell      : Nat := 0
  rc        : Nat := 0
  bytesDone : Nat := 0
  start     : Nat := 0
  deadline  : Nat := 0
  rcEn      : Bool := false
  /-- Physical core and descriptor fields of the operation. -/
  core      : Nat := 0
  src       : Nat := 0
  dst       : Nat := 0
  len       : Nat := 0
  compress  : Bool := false
  srcSp     : Bool := false
  dstSp     : Bool := false
  kw0       : Nat := 0
  kw1       : Nat := 0
  kw2       : Nat := 0
  /-- Limit tick of a tier operation (R173); 0 for none. -/
  limit     : Nat := 0
  nb        : List NbCmd := []
  coll      : Option Coll := none
  /-- Lines FLUSHR or INVR found at its start (R185, R186). -/
  lines     : List Nat := []
  /-- The import's page list, checked at its start (R253); 16-byte records. -/
  imports   : List (List Byte) := []
  /-- Read tag in flight and granules returned, for a source in a peer window (R325, R326). -/
  readTag   : Word := 0
  readGot   : List (Nat × List Byte) := []
  /-- A read not sent for want of a route (R322). -/
  waitRoute : Bool := false
  routeTried : Nat := 0
  /-- Not begun: what it reads first lies in a guarded block under sealing or repair (R155, R158). -/
  waitStart : Bool := false
  /-- Started by the step scheduler, not by a core (R292). -/
  byScheduler : Bool := false
deriving DecidableEq, Repr

/-! ## Images -/

/-- A loaded image (R58, R90): offset and bytes of its code in instruction memory, kind (0 operator, 1 guest), tenant
and entry address. -/
structure Image where
  off    : Nat
  len    : Nat
  guest  : Bool
  tenant : Nat
  entry  : Nat
deriving DecidableEq, Repr

/-! ## The step scheduler -/

/-- A host command fetched and not completed (R284): queue, opcode, command, the tick of its doorbell and the submission
head after it was fetched (R406). -/
structure QCmd where
  queue  : Nat
  opcode : Nat
  cmd    : HostCmd
  tick   : Nat
  head   : Nat
deriving DecidableEq, Repr

/-- A load whose copies are in progress (R58). -/
structure ImageLoad where
  image  : Image
  code   : List Byte
  header : List Byte
  cmd    : QCmd
  /-- The load overlaps an image the step in progress uses: it takes effect at the next boundary. -/
  atBoundary : Bool
deriving DecidableEq, Repr

/-- A batch member of a step (R291, Table 12-9). -/
structure Member where
  rc       : Nat
  prefill  : Bool
  last     : Bool
  c        : Nat
  r        : Nat
  d        : Nat
  adapter  : Nat
  tenant   : Nat
  guest    : Bool
  /-- Inputs of the row as first launched: prompt address, or token (R293). -/
  tokens   : Nat := 0
  /-- In a rerun: the request of the recorded row is no longer there, and the row's results are discarded (R362). -/
  gone     : Bool := false
deriving DecidableEq, Repr

/-- A step formed, in progress or recorded (R291 to R295, R362). -/
structure Step where
  idx       : Nat
  members   : List Member
  /-- Participating physical cores in ascending global ID, and their tile counts. -/
  cores     : List Nat
  /-- Their rate factors as the step was formed (R16). -/
  rates     : List Nat
  tiles     : Nat
  segLog2   : Nat
  launch    : Nat
  rerun     : Bool
  checkOnly : Bool
  /-- The step started a COLL or sent an RPUT (R364). -/
  usedLinks : Bool
  /-- Some core took an operator fault (R88). -/
  faulted   : Bool
  /-- A core load met an uncorrectable word (Table 7-3): the step is rolled back and rerun. -/
  ueHit     : Bool
  /-- Duplicate-list entries placed in the step: check index in the engine's list, role and executing core (R357). -/
  dups      : List (Nat × Nat × Nat)
deriving DecidableEq, Repr

/-- A token in the emission hold (R306): ID, confirming step, due step, whether it is the first generated token. -/
structure Held where
  token : Word32
  step  : Nat
  due   : Nat
  first : Bool
deriving DecidableEq, Repr

/-- What the scheduler keeps of a request beside its descriptor in HBM. -/
structure Req where
  held      : List Held := []
  mayflies  : List Word32 := []
  /-- End codes collected since the last boundary (R304). -/
  codes     : List Nat := []
  /-- TEMIT without SPEC or TVERIFY has confirmed tokens in this step (R119). -/
  confirmed : Bool := false
  /-- KVCMT has confirmed entries in this step (R112). -/
  kvcmt     : Bool := false
  /-- Mayflies proposed and accepted by this step's TVERIFY (R298). -/
  verify    : Option (Nat × Nat) := none
  /-- Tokens confirmed in this step that stand (R303), and tokens charged to the tenant. -/
  tokens    : List Word32 := []
  /-- A NotResident or guest fault has ended the guest call (R74). -/
  guestFault : Bool := false
  /-- Descriptor bytes at the launch of the step in progress (R304), and at the last eight boundaries (R361). -/
  atLaunch  : List Byte := []
  journal   : List (Nat × List Byte) := []
  /-- Tokens charged per step, for refunds (R361). -/
  charges   : List (Nat × Nat) := []
  /-- Pages evicted: step boundary, layer, head group, page; and whether their run has been released (R248). -/
  evicted   : List (Nat × Nat × Nat × Nat × Bool) := []
  /-- Victims chosen by the pass of the step in progress (R247, R248). -/
  victims   : List (Nat × Nat × Nat) := []
  importOp  : Option Nat := none
  needImport : Bool := false
  /-- PARK with SPILL or UNPARK whose completion is still owed (R286). -/
  owed      : Option QCmd := none
  /-- Pages to spill or restore: layer, head group, page (R250, R251), and whether they are restores. -/
  pages     : List (Nat × Nat × Nat) := []
  restoring : Bool := false
  /-- UNPARK is applied and its restore has not started (Table 12-13, order 7). -/
  needRestore : Bool := false
  /-- A spill of the PARK found the zone's pool full (Table 12-8). -/
  spillFull : Bool := false
  /-- Limit tick of the restore or adapter wait (R173, R251, R283); 0 for none. -/
  limit     : Nat := 0
  /-- A share waiting for a page to become sharable (R237): source, positions and its command. -/
  share     : Option (Nat × Nat × QCmd) := none
  /-- Verify steps logged since admission (the place of the next in ACCEPT_LOG, R298). -/
  verifies  : Nat := 0
  /-- Replay list, the output index of its first token, and the number of tokens the TAKEN_OVER notice covers (R346). -/
  replay    : List Word32 := []
  replayFrom : Nat := 0
  covered   : Nat := 0
  adopted   : Bool := false
  mirrored  : Bool := false
  /-- IMAGE and MASK have been sent to the partner since pairing; the last image sent; the step whose STEP_END follows
  the last bulk frame (R348). -/
  maskSent  : Bool := false
  sentImage : List Byte := []
  bulkStep  : Option Nat := none
  /-- The partner had no slot for it: MIRRORED never (R340). -/
  unmirrored : Bool := false
  /-- The state an adopted request was parked from, where that is neither PREFILL nor READY (R344). -/
  parkedFrom : Option Nat := none
  /-- NOTICE entries to be written: code, step, GENERATED (R345, R363). -/
  notices   : List (Nat × Nat × Nat) := []
  /-- The step whose boundary ended the request (Table 12-12). -/
  endStep   : Nat := 0
  /-- The last step launched when the request was admitted. -/
  born      : Nat := 0
  /-- A share has given positions: their number, the boundary's step, and the source's confirmed positions at its last
  boundaries (R245). -/
  shared    : Option (Nat × Nat × List (Nat × Nat)) := none
deriving DecidableEq, Repr

/-- A RETRACTION record that waits for its steps' rerun (R364): its target, S, FLAGS without DIGEST_SAME and the requests it
names; whether a piece digest has been compared, and whether one differed. -/
structure Retraction where
  g      : Nat
  last   : Nat
  flags  : Nat
  named  : List Nat
  seen   : Bool := false
  differ : Bool := false
deriving DecidableEq, Repr

/-- The step scheduler's own state (R284 to R312). -/
structure Sched where
  cmds      : List QCmd := []
  cur       : Option Step := none
  formed    : Option Step := none
  /-- Launched steps, newest first, at most nine (R361, R362). -/
  hist      : List Step := []
  /-- Steps still to rerun, in order (R362). -/
  rerunQ    : List Step := []
  /-- The rollback targets applied, each with its S (R360, R364). -/
  rolledTo  : List (Nat × Nat) := []
  /-- The RETRACTION record owed once the steps rolled back have been rerun (R363, R364). -/
  retraction : Option Retraction := none
  /-- The step in progress is the one rerun of an operator fault (R88). -/
  faultRerun : Bool := false
  /-- The step to be rerun because of an operator fault or an uncorrectable load (R88). -/
  faultStep : Option Nat := none
  /-- Granules whose uncorrectable read rolls the step back (R153, Table 7-3). -/
  ueGranule : List Nat := []
  launches  : List Nat := []
  nextStep  : Nat := 0
  /-- Tenants whose BUDGET a charge of this step has brought to zero (R281). -/
  zeroed    : List Nat := []
  /-- Figure-of-merit window (R312): start tick, ceiling tokens, energy at the start. -/
  fomStart  : Nat := 0
  fomTokens : Nat := 0
  fomEnergy : Nat := 0
  /-- Adapter copies in progress: version, queue and command of the LOAD_ADAPTER (none for bringing in). -/
  adapters  : List (Nat × Option QCmd) := []
  /-- Versions taken up, newest first (R283). -/
  loadOrder : List Nat := []
  /-- LOAD_ADAPTER copies that have ended: the version becomes RESIDENT, or COLD when set, at the next boundary. -/
  landed    : List (Nat × Bool) := []
  /-- GUEST_TABLE copies in progress, oldest first (R289): command, base, bytes, source. -/
  guestCopy : List (QCmd × Nat × Nat × Nat) := []
  /-- Contexts returned to FREE whose pages the next boundary releases (R236, R278): runs, spill runs, addresses of entries. -/
  freeing   : List (List Nat × List Nat × List Nat) := []
  /-- KV_EVICT in force, taken at each boundary (R258). -/
  evict     : Nat := 1
deriving DecidableEq, Repr

/-! ## Guarded ranges, integrity -/

/-- A block under repair (R158): range, block, stage, KW_REPAIR slot in use, limit tick, detection tick. -/
structure Repair where
  range  : Nat
  block  : Nat
  stage  : Nat
  slot   : Option Nat
  limit  : Nat
  began  : Nat
  /-- Granules of the block the partner has sent (stage 2). -/
  got    : List (Nat × List Byte) := []
deriving DecidableEq, Repr

/-- States of a duplicate check (Table 15-6). -/
inductive CheckState where
  | selected | recorded | duplicating | matched | arbitrating | originalWrong | duplicateWrong | unresolved | dropped
deriving DecidableEq, Repr

/-- A duplicate check (R356, R357): original step, layer, tile, expected core, the original record, digests and the
cores of the duplicate and the arbiter. -/
structure Check where
  step  : Nat
  layer : Nat
  tile  : Nat
  core  : Nat
  state : CheckState
  record : List Byte
  d0    : List Byte
  d1    : List Byte
  dup   : Nat
  arb   : Nat
  /-- Global core IDs that the three cores served when they took the tile or the entry. -/
  coreGid : Nat
  dupGid  : Nat
  arbGid  : Nat
  dupStep : Nat
  /-- The step holding the original has been rolled back (R360). -/
  rolled : Bool
deriving DecidableEq, Repr

/-- A unit on which the two trees disagree (R366): kind, index, data-tree state, control-tree state, tick fenced. -/
structure Disagreement where
  kind    : Nat
  index   : Nat
  dataSt  : Nat
  ctrlSt  : Nat
  since   : Nat
deriving DecidableEq, Repr

/-- The integrity engine (R353 to R366). -/
structure Integ where
  checks   : List Check := []
  /-- Due ticks of known-answer tests keyed by physical core, once checks are enabled (R353). -/
  due      : List (Nat × Nat) := []
  /-- Cores newly due whose test waits for a boundary, and cores postponed by one step. -/
  waiting  : List Nat := []
  postponed : List Nat := []
  /-- Cores whose test has ended and that return to service at the next boundary (R354). -/
  passed   : List Nat := []
  /-- The least last good step of the outcomes applied at the boundary in progress (R360). -/
  target   : Option Nat := none
  /-- Physical cores to retire at the next boundary (R359). -/
  losing   : List Nat := []
  /-- Idle spares retired since the last publication (Table 2-14). -/
  spareLost : Bool := false
  /-- Units on which the two trees disagree, and the state both trees hold of the other clusters, peer ports and pseudo-channels
  that are not in service (keyed by 1,024 × kind + index; a core's stands in IN_COREn). -/
  disagree : List Disagreement := []
  units    : List (Nat × Nat) := []
  /-- Records received from peers that await the next boundary: g, sender, bytes; pairs of sender and g forwarded (R364). -/
  received : List (Nat × Nat × List Byte) := []
  forwarded : List (Nat × Nat) := []
  recordSeq : Nat := 0
  /-- Class and source index of the events whose error record has been formed in tick `raisedAt` (R51). -/
  raisedAt : Nat := 0
  raised   : List (Nat × Nat) := []
  /-- A write of 1 to CHECK_EN that the next formation applies (R368). -/
  checkPending : Bool := false
deriving DecidableEq, Repr

/-! ## Links and the mirror -/

/-- A frame in a replay buffer (R317): SEQ, slots (peer port) or mirror frames (port M), tick sent. -/
structure SentFrame where
  seq    : Nat
  ack    : Nat := 0
  nak    : Bool := false
  credits : List Nat := []
  slots  : List Slot
  mslots : List MFrame
  sentAt : Nat
deriving DecidableEq, Repr

/-- A port's own state beside its LK_PORTn registers (R317 to R320). -/
structure Port where
  txSeq   : Nat := 0
  rxSeq   : Nat := 0
  unacked : List SentFrame := []
  /-- Slots queued that have not been sent for want of credit or replay room. -/
  queued  : List Slot := []
  credits : List (Nat × Nat) := []
  /-- Credits the peer holds for this receiver's pools, and those to be returned to it (R318). -/
  granted : List (Nat × Nat) := []
  owed    : List (Nat × Nat) := []
  /-- Frames are discarded until the replay arrives; a NAK, and an ACK, is to be sent with the last SEQ accepted (R317). -/
  gap     : Bool := false
  nakOut  : Bool := false
  ackOut  : Bool := false
  /-- The last IDLE frame sent. -/
  idleOut : Option SentFrame := none
  badRun  : Nat := 0
  replays : Nat := 0
  /-- Tick at which the port entered its state. -/
  since   : Nat := 0
deriving DecidableEq, Repr

/-- An RPUT arriving (R324): source, tag, cell, window offset of its first line, lines in all, the lines that have landed, and
whether it was refused. -/
structure RputIn where
  src   : Nat
  tag   : Word
  cell  : Nat
  base  : Nat
  lines : Nat
  got   : List Nat
  refused : Bool
deriving DecidableEq, Repr

/-- The port an item being forwarded has taken (R322): its source, destination, tag and, for a collective piece, the piece. -/
structure Routed where
  kind  : Nat
  src   : Nat
  dest  : Nat
  tag   : Word
  piece : Nat
  port  : Nat
deriving DecidableEq, Repr

/-- The links' shared state. -/
structure Links where
  ports   : List (Nat × Port) := []
  /-- Turn counter of each destination's route, which its RPUTs, reads and pieces take (R322). -/
  turns   : List (Nat × Nat) := []
  nextTag : Nat := 0
  rputs   : List RputIn := []
  /-- Items being forwarded (R322). -/
  routed  : List Routed := []
  /-- Pieces whose data came before their collective was started, refused by their digest: sender, TAG, chunk and piece; and the
  TAGs of collectives completed here, whose pieces are held (R329). -/
  early   : List (Nat × Word × Nat × Nat) := []
  held    : List Word := []
  /-- DIGEST_LOG entries of the steps a rollback can reach: TAG, sender, chunk, piece, digest (R329, R364). -/
  digests : List (Word × Nat × Nat × Nat × List Byte) := []
  /-- Reads whose guarded block is under repair or sealing (R323). -/
  reads   : List Slot := []
deriving DecidableEq, Repr

/-- A mirrored partner request (R340). Its image lies at MR_TABLE_BASE + 256n. -/
structure MirrorReq where
  rc     : Nat
  slot   : Nat
  /-- IMAGE, CONFIRM and RELEASE records with STEP above the consistent step, and entries for which no run was free, in
  order. -/
  later  : List MFrame
  /-- Ring entries received in RELEASE records: index and bytes; the latest WRITTEN_TAIL and the last tail (R345). -/
  ring   : List (Nat × List Byte)
  written : Nat
  tail   : Nat
  /-- Confirmed tokens that no ring entry received carries yet. -/
  tokens : List Held
  /-- Tokens that its image held at admission here, whose IDs no frame has carried and no ring entry covers yet. -/
  unseen : Nat
  /-- Verify steps whose ACCEPT byte has been placed. -/
  verifies : Nat
  /-- Evicted pages, as `Req.evicted` holds them. -/
  evicted : List (Nat × Nat × Nat × Nat × Bool)
  /-- A STEP_END accepted since its IMAGE: the request is MIRRORED (R348). -/
  mirroredAt : Bool
deriving DecidableEq, Repr

/-- The mirror engine (R333 to R348). -/
structure Mirror where
  /-- Sequenced frames sent and not acknowledged: the frame and the tick sent. -/
  unacked  : List (MFrame × Nat) := []
  /-- Frames queued and not sent (no credit, port down, SUSPECT). -/
  queued   : List MFrame := []
  nextSeq  : Nat := 1
  /-- Highest MSEQ accepted from the partner. -/
  accepted : Nat := 0
  lastBeat : Nat := 0
  /-- The state SUSPECT left (Table 14-1). -/
  prior    : Nat := 0
  /-- The partner's HELLO payload, and the tick our own HELLO carried (R333). -/
  hello    : Option (List Byte) := none
  helloTick : Nat := 0
  partner  : List MirrorReq := []
  /-- Ring writes waiting for the RELEASE acknowledgement: request, step, ring address, entry bytes (R339). -/
  gated    : List (Nat × Nat × Nat × List Byte) := []
  /-- Live requests whose bulk frames are still to be sent (R348). -/
  toMirror : List Nat := []
  /-- The partner's live requests that found no slot here (R340). -/
  slotless : List Nat := []
  /-- Entry halves being assembled from ENTRY slots: rc, layer, head group, position, bytes so far. -/
  partialE : List (Nat × Nat × Nat × Nat × List Byte) := []
  /-- TAKEOVER is accepted and adoption waits for a boundary; adopted requests still to be restored, in order (R344). -/
  adopting : Bool := false
  adoptQueue : List Nat := []
  adoptNow : Option Nat := none
  /-- Mirrored requests that have returned to FREE, to be announced. -/
  ended    : List Nat := []
  /-- Requests rolled back, to be announced (R361): rc, g. -/
  rollbacks : List (Nat × Nat) := []
  /-- An input of the configuration digest has changed since reset: until then MR_DIGEST reads its reset value (R334, R350). -/
  digestFormed : Bool := false
deriving DecidableEq, Repr

/-! ## Power, Kolwin, host interface, pins -/

/-- The governor (R372 to R378). Setpoints in mV keyed by rail. -/
structure Power where
  /-- The governor's core-rail setpoint. -/
  setpoint : Nat := 750
  thermal  : List (Nat × Nat) := []
  limited  : List (Nat × Nat) := []
  nbLimit  : Nat := 2048
  hbmHalf  : Bool := false
  /-- Samples in a row at or below the cap less 3 %, and samples of the excursion in progress. -/
  headroom : Nat := 0
  excursion : Nat := 0
  raised   : Bool := false
  /-- Class 0 sources whose condition holds, and the tick at which each cleared ones' 10 ms ends. -/
  emergency : List Nat := []
  /-- The samples of the last 100 ms in W, newest first, at most 10,000 (MEAN_W). -/
  samples  : List Nat := []
  junctions : List (Nat × Nat) := []
  /-- Tick at which a sample began that the forward step of R47 has cut: it is integrated over its true length. -/
  sampleCut : Option Nat := none
  shutdown : Bool := false
  /-- Rails V0 to V7 and the HBM sub-rails are up; the tier-2 sub-rails are up. -/
  railsUp  : Bool := false
  tier2Up  : Bool := false
  /-- The profile record in force (R382); empty: the shipped record of the profile PW_PROFILE.ACTIVE names. -/
  record   : List Byte := []
  /-- A profile request awaiting a boundary, and a pending PW_MODE value (R381, R383). -/
  profileReq : Option Nat := none
  modeDirty : Bool := false
deriving DecidableEq, Repr

/-- The Kolwin block (R387 to R402). -/
structure Kolwin where
  /-- Firmware image in flash (header and body); the staged image being accumulated or written. -/
  flash    : List Byte := []
  staged   : List (Nat × Byte) := []
  stagedLen : Nat := 0
  writing  : List Byte := []
  /-- The four profile records of 64 bytes (R380); empty list: the shipped record. -/
  profiles : List (Nat × List Byte) := []
  /-- Measurements M0 to M4; empty: 64 zero bytes (R399). -/
  measures : List (Nat × List Byte) := []
  svFuse   : Nat := 0
  /-- The mailbox frames of BAR4, and the response the board controller reads. -/
  mbCmd    : List Host.Cell := []
  /-- The command frame that the mailbox's doorbell submitted, while BUSY (Table 17-16). -/
  mbHeld   : List Byte := []
  mbResp   : List Byte := []
  boardResp : List Byte := []
  /-- The attestation report the board controller reads in chunks (R400). -/
  report   : List Byte := []
  /-- 0 RUN, 1 IDLE, 2 OFF_READY (R402). -/
  powerState : Nat := 0
  /-- The dynamic address that the I3C controller has given the port (R388). -/
  dynamicAddr : Option (BitVec 7) := none
  tier2Trained : Bool := false
  hbmTrained : Bool := false
  /-- Tick at which KW_STATUS.BOOT reached STARTING (R388). -/
  startedAt  : Nat := 0
  /-- A Clailaez publication is due: entry types changed (bit n for type n), and one is in progress. -/
  publish  : Nat := 0
  publishing : Bool := false
  /-- In-band interrupts sent, newest first (R392). -/
  ibis     : List Nat := []
  /-- Host window size in force (as published, R37). -/
  hostWin  : Nat := 0
  /-- Reads that tier 2 and the host do not answer (R165, R174): the 4 KiB page of the device address, and the cause of
  Table 15-9, 7 to 10. No row of the table sets one: it is the outside world's. -/
  readFaults : List (Nat × Nat) := []
  fatal    : Bool := false
  /-- The device reset now in progress absorbs further causes (R401). -/
  resetting : Bool := false
deriving DecidableEq, Repr

/-- What the PCIe function holds beside its link (R403, R404): its interrupt pin register, and BAR2's size as a power of two,
which the Resizable BAR capability sets between 30 and 38. -/
structure Pcie where
  interruptPin : Nat := 0
  bar2Log      : Nat := 36
deriving DecidableEq, Repr

/-- A submission and completion queue pair's own state beside its HQ_SQn registers (R406 to R408). -/
structure Queue where
  tail     : Nat := 0
  /-- Doorbells whose commands are not all fetched, oldest first: the tail each brought and its tick (R287). -/
  bells    : List (Nat × Nat) := []
  cqHead   : Nat := 0
  /-- Commands fetched and not completed. -/
  open_    : Nat := 0
  phase    : Bool := true
  /-- Completions since the last interrupt and the tick of the first of them. -/
  unsent   : Nat := 0
  firstAt  : Nat := 0
  /-- A stopped fetch (R407). -/
  stopped  : Bool := false
deriving DecidableEq, Repr

/-- The pins of Table 18-1 that carry state. -/
structure Pins where
  powered     : Bool := true
  pwrgd       : Bool := true
  /-- RESET_N's level, and whether its deassertion has been taken: the device is out of reset (R420). -/
  resetPin    : Bool := true
  resetN      : Bool := true
  alertN      : Bool := true
  pairPresent : Bool := true
  /-- Tick of the last pulse on FF_SYNC_OUT: the pin is high during that tick (R46). -/
  syncOut     : Option Nat := none
  prof        : Nat := 3
  slotId      : Nat := 31
  /-- Tick at which PWRGD rose. -/
  risenAt     : Nat := 0
deriving DecidableEq, Repr

/-- A follower's alignment (R46 to R48). -/
structure Align where
  follower  : Bool := false
  locked    : Bool := false
  firstLock : Bool := false
  lastPulse : Nat := 0
  /-- The leader's count less this counter, as last seen at a pulse and corrected since. -/
  diff      : Int := 0
  /-- Tick of the last correction while slewing (R48). -/
  slewAt    : Option Nat := none
deriving DecidableEq, Repr

/-- The whole module. -/
structure State where
  /-- Commands waiting, first in, first out. -/
  pending  : List Instr
  /-- The 64-bit tick counter (R44) and the high word latched by a low-word read (R54). -/
  tk       : Nat
  tkLatch  : Option Word32
  align    : Align
  /-- BAR0 registers, keyed by offset, where they differ from their reset value. -/
  regs     : List (Nat × Word32)
  /-- The WC bits that hardware has set in tick `hwSetAt`, newest first, by register offset (R5, Table 0-3). -/
  hwSetAt  : Nat
  hwSet    : List (Nat × Word32)
  /-- The Clailaez window's published bytes, and the snapshot fixed at the last launch (R57). -/
  table    : List Byte
  snapshot : List Byte
  /-- Device physical memory: HBM and plain tier-2 bytes. -/
  mem      : List Host.Cell
  /-- Host memory behind the host window, keyed by PCIe bus address. -/
  hostMem  : List Host.Cell
  /-- HBM words (address ÷ 16) that read uncorrectable, and that read with one symbol in error, to be written back (R151). -/
  badWords : List (Nat × Bool)
  softWords : List (Nat × Bool)
  /-- Near-bank units' latches, by 16 × pseudo-channel + unit (R202). -/
  nbLatches : List (Nat × NbLatch)
  /-- HBM channels in a retraining window, and those whose periodic retrain waits for a step boundary, with the tick it fell
  due (R162). -/
  retraining : List (Nat × Bool)
  retrainDue : List (Nat × Nat)
  /-- Refresh rate in force on a pseudo-channel (0 1×, 1 2×, 2 4×), and refreshes that fell due in a window (R160, R162). -/
  refreshRate : List (Nat × Nat)
  refreshOwed : List (Nat × Nat)
  cores    : List (Nat × Core)
  /-- Global core ID served by a physical core where it differs from its own (R6); 512 for none. -/
  gids     : List (Nat × Nat)
  clusters : List (Nat × Cluster)
  cells    : List (Nat × SyncCell)
  dot      : List (Nat × DotEntry)
  /-- Device timers 0 (heartbeat send), 1 and 2: 0 when not armed (R50); the watchdog's remaining time while stopped (R159). -/
  timer0   : Nat
  timer1   : Nat
  timer2   : Nat
  timer2Left : Option Nat
  /-- Instruction memory: every physical core holds the same bytes (R58, R92). -/
  imem     : List Host.Cell
  images   : List Image
  loads    : List ImageLoad
  reqs     : List (Nat × Req)
  sched    : Sched
  repairs  : List Repair
  integ    : Integ
  links    : Links
  mirror   : Mirror
  power    : Power
  kolwin   : Kolwin
  pcie     : Pcie
  queues   : List (Nat × Queue)
  /-- MSI-X vectors sent, newest first (R409). -/
  msix     : List Nat
  /-- What the device last returned to a read by the host: none for an unsupported-request completion. -/
  readOut  : Option (List Byte)
  /-- BAR2 reads that wait for a guarded block under repair or sealing: address and length (R155, R158). -/
  bar2Reads : List (Nat × Nat)
  pins     : Pins
  /-- The model's own counter behind free values (Config.freeNat); no rule reads it. -/
  free     : Nat
deriving DecidableEq, Repr

/-- The module right after a power-on reset with RESET_N released and the PROF and SLOT_ID pins open (R381, R414):
every register at its reset value, every memory and table empty, BOOT reading ROM. The two listed words are the
fields of Tables 16-12 and 16-13 whose reset value is the profile's: PW_PROFILE (PINS and ACTIVE 3) and
PW_MODE_ACTIVE (profile 3; hold 4, sampling OFF because CHECK_EN is 0, EXACT, eviction OFF, guest BARRED,
compression ON, offload AUTO, speculation OFF), and the word KW_RESET_CAUSE reads after the 50 V input rose. -/
def State.reset : State where
  pending  := []
  tk       := 0
  tkLatch  := none
  align    := {}
  regs     := [(0xA0008, 0xC3#32), (0xA0010, 0xC0402050#32), (0xC0008, 1#32)]
  hwSetAt  := 0
  hwSet    := []
  table    := []
  snapshot := []
  mem      := []
  hostMem  := []
  badWords := []
  softWords := []
  nbLatches := []
  retraining := []
  retrainDue := []
  refreshRate := []
  refreshOwed := []
  cores    := []
  gids     := []
  clusters := []
  cells    := []
  dot      := []
  timer0   := 0
  timer1   := 0
  timer2   := 0
  timer2Left := none
  imem     := []
  images   := []
  loads    := []
  reqs     := []
  sched    := {}
  repairs  := []
  integ    := {}
  links    := {}
  mirror   := {}
  power    := {}
  kolwin   := {}
  pcie     := {}
  queues   := []
  msix     := []
  readOut  := none
  bar2Reads := []
  pins     := {}
  free     := 0

end Sys2Proof.Machine
end

