-- ==== Sys2Proof/Machine/SMap.lean ====
section
/-! DEFINITION. Sparse tables: a list of (index, value) pairs with strictly rising indices, where an unlisted index
has the value of a default function and no listed entry equals it, so equal tables are equal lists. -/
namespace Sys2Proof.Machine

/-- The value at index `k`. -/
def smGet {α : Type} (d : Nat → α) : List (Nat × α) → Nat → α
  | [], k => d k
  | (j, v) :: rest, k => if j = k then v else smGet d rest k

/-- Remove index `k`. -/
def smDel {α : Type} (m : List (Nat × α)) (k : Nat) : List (Nat × α) := m.filter fun e => decide (e.1 ≠ k)

/-- List `v` at index `k`. -/
def smIns {α : Type} : List (Nat × α) → Nat → α → List (Nat × α)
  | [], k, v => [(k, v)]
  | (j, w) :: rest, k, v =>
    if j < k then (j, w) :: smIns rest k v else if j = k then (k, v) :: rest else (k, v) :: (j, w) :: rest

/-- Write `v` at index `k`, keeping the canonical form. -/
def smSet {α : Type} [DecidableEq α] (d : Nat → α) (m : List (Nat × α)) (k : Nat) (v : α) : List (Nat × α) :=
  if v = d k then smDel m k else smIns m k v

/-- Every index of the table is at least `lo`, the indices rise strictly, and no entry equals its default. -/
def smWfFrom {α : Type} [DecidableEq α] (d : Nat → α) (lo : Nat) : List (Nat × α) → Bool
  | [] => true
  | (j, v) :: rest => decide (lo ≤ j) && decide (v ≠ d j) && smWfFrom d (j + 1) rest

/-- The canonical form. -/
def smWf {α : Type} [DecidableEq α] (d : Nat → α) (m : List (Nat × α)) : Bool := smWfFrom d 0 m

end Sys2Proof.Machine
end

