-- ==== Sys2Proof/Machine/Bytes.lean ====
section
/-! DEFINITION. Bytes and byte memories: little-endian numbers (R4), reads and writes of a sparse byte memory, the
copy and clearing of ranges, and the bit-field helpers the rest of the model uses. An unlisted byte reads 0. -/
namespace Sys2Proof.Machine

/-- What an unlisted byte reads as. -/
def byteDefault (_ : Nat) : Byte := 0

/-- Little-endian number of a byte list (R4). -/
def leNat : List Byte → Nat
  | [] => 0
  | b :: bs => b.toNat + 256 * leNat bs

/-- The `n` low bytes of a number, little-endian (R4). -/
def natBytes : Nat → Nat → List Byte
  | 0, _ => []
  | n + 1, v => BitVec.ofNat 8 v :: natBytes n (v / 256)

/-- One byte of a memory. -/
def readByte (m : List Host.Cell) (a : Nat) : Byte := smGet byteDefault m a

/-- `n` bytes from `a` in ascending address. -/
def readBytes (m : List Host.Cell) (a : Nat) : Nat → List Byte
  | 0 => []
  | n + 1 => readByte m a :: readBytes m (a + 1) n

/-- The little-endian number in the `n` bytes at `a`. -/
def readNat (m : List Host.Cell) (a n : Nat) : Nat := leNat (readBytes m a n)

/-- Store one byte. -/
def writeByte (m : List Host.Cell) (a : Nat) (b : Byte) : List Host.Cell := smSet byteDefault m a b

/-- Store bytes from `a` in ascending address. -/
def writeBytes (m : List Host.Cell) (a : Nat) : List Byte → List Host.Cell
  | [] => m
  | b :: bs => writeBytes (writeByte m a b) (a + 1) bs

/-- Store the `n` low bytes of a number. -/
def writeNat (m : List Host.Cell) (a n v : Nat) : List Host.Cell := writeBytes m a (natBytes n v)

/-- The listed bytes of `[a, a + n)`. -/
def cellsIn (m : List Host.Cell) (a n : Nat) : List Host.Cell :=
  m.filter (fun c => decide (a ≤ c.1) && decide (c.1 < a + n))

/-- The listed bytes outside `[a, a + n)`. -/
def clearRange (m : List Host.Cell) (a n : Nat) : List Host.Cell :=
  m.filter (fun c => decide (c.1 < a) || decide (a + n ≤ c.1))

/-- Store listed bytes one by one. -/
def writeCells (m : List Host.Cell) : List Host.Cell → List Host.Cell
  | [] => m
  | c :: cs => writeCells (writeByte m c.1 c.2) cs

/-- Copy `n` bytes from `src` of one memory to `dst` of another: the destination reads as the source did. -/
def copyRange (sm : List Host.Cell) (src : Nat) (dm : List Host.Cell) (dst n : Nat) : List Host.Cell :=
  writeCells (clearRange dm dst n) ((cellsIn sm src n).map fun c => (dst + (c.1 - src), c.2))

/-- Byte memories in canonical form. -/
abbrev Memory.wf (m : List Host.Cell) : Bool := smWf byteDefault m

/-- Bits `hi` to `lo` of a number. -/
def bits (v hi lo : Nat) : Nat := (v / 2 ^ lo) % 2 ^ (hi + 1 - lo)

/-- Bit `i` of a number. -/
def bit (v i : Nat) : Bool := v.testBit i

/-- A number with bits `hi` to `lo` replaced by `x`. -/
def setBits (v hi lo x : Nat) : Nat :=
  v % 2 ^ lo + (x % 2 ^ (hi + 1 - lo)) * 2 ^ lo + (v / 2 ^ (hi + 1)) * 2 ^ (hi + 1)

/-- Bytes `off` to `off + n - 1` of a list, as a little-endian number; bytes past the end read 0. -/
def fieldAt (bs : List Byte) (off n : Nat) : Nat := leNat ((bs.drop off).take n)

/-- A byte list cut or zero-padded to `n` bytes. -/
def padTo (n : Nat) (bs : List Byte) : List Byte := (bs ++ List.replicate (n - bs.length) 0).take n

/-- Replace bytes from `off` of a list. -/
def patch (bs : List Byte) (off : Nat) (x : List Byte) : List Byte :=
  bs.take off ++ x ++ bs.drop (off + x.length)

/-- Cut a list into pieces of `n` elements, at most `fuel` of them. -/
def chunks {α : Type} (n : Nat) : Nat → List α → List (List α)
  | 0, _ => []
  | fuel + 1, l => if l.isEmpty then [] else l.take n :: chunks n fuel (l.drop n)

/-- One or zero. -/
def b2n (b : Bool) : Nat := if b then 1 else 0

/-- Rounded up to a multiple of `n`. -/
def roundUp (v n : Nat) : Nat := (v + n - 1) / n * n

/-- ASCII bytes of a string. -/
def ascii (t : String) : List Byte := t.toList.map fun c => BitVec.ofNat 8 c.toNat

/-- A list with position `i` replaced, unchanged where there is none. -/
def listSet {α : Type} (l : List α) (i : Nat) (v : α) : List α := l.set i v

end Sys2Proof.Machine
end

