-- ==== Sys2Proof/Machine/Crypto.lean ====
section
/-! DEFINITION. The published functions the spec names: SHAKE256 (R21 and others), the CRC-64 of R154, the PEC of
R389 and the counter-based generator of R132. -/
namespace Sys2Proof.Machine

/-- Keccak-f[1600] round constants. -/
def keccakRC : List Word :=
  [0x0000000000000001, 0x0000000000008082, 0x800000000000808A, 0x8000000080008000, 0x000000000000808B,
   0x0000000080000001, 0x8000000080008081, 0x8000000000008009, 0x000000000000008A, 0x0000000000000088,
   0x0000000080008009, 0x000000008000000A] ++
  [0x000000008000808B, 0x800000000000008B, 0x8000000000008089, 0x8000000000008003, 0x8000000000008002,
   0x8000000000000080, 0x000000000000800A, 0x800000008000000A, 0x8000000080008081, 0x8000000000008080,
   0x0000000080000001, 0x8000000080008008]

/-- Rotation of lane (x, y), listed at x + 5y. -/
def keccakRot : List Nat :=
  [0, 1, 62, 28, 27, 36, 44, 6, 55, 20, 3, 10, 43, 25, 39, 41, 45, 15, 21, 8, 18, 2, 61, 56, 14]

/-- Lane `i` of a state of 25 lanes. -/
def lane (a : List Word) (i : Nat) : Word := a.getD i 0

/-- One round of Keccak-f[1600]. -/
def keccakRound (rc : Word) (a : List Word) : List Word :=
  let c := (List.range 5).map fun x => lane a x ^^^ lane a (x + 5) ^^^ lane a (x + 10) ^^^ lane a (x + 15) ^^^ lane a (x + 20)
  let d := (List.range 5).map fun x => lane c ((x + 4) % 5) ^^^ (lane c ((x + 1) % 5)).rotateLeft 1
  let t := (List.range 25).map fun i => lane a i ^^^ lane d (i % 5)
  -- B[y, 2x + 3y] := rot(A[x, y]); lane (x', y') comes from x = (x' + 3y') mod 5, y = x'
  let b := (List.range 25).map fun i =>
    let x := (i % 5 + 3 * (i / 5)) % 5
    let y := i % 5
    (lane t (x + 5 * y)).rotateLeft (keccakRot.getD (x + 5 * y) 0)
  let e := (List.range 25).map fun i =>
    lane b i ^^^ (~~~(lane b ((i % 5 + 1) % 5 + 5 * (i / 5))) &&& lane b ((i % 5 + 2) % 5 + 5 * (i / 5)))
  match e with
  | [] => []
  | x :: xs => (x ^^^ rc) :: xs

/-- The permutation. -/
def keccakF (a : List Word) : List Word := keccakRC.foldl (fun acc rc => keccakRound rc acc) a

/-- Absorb one 136-byte block. -/
def keccakAbsorb (a : List Word) (block : List Byte) : List Word :=
  keccakF ((List.range 25).map fun i =>
    lane a i ^^^ (if i < 17 then BitVec.ofNat 64 (fieldAt block (8 * i) 8) else 0))

/-- Bytes of a state's first 136. -/
def keccakOut (a : List Word) : List Byte := (a.take 17).flatMap fun w => natBytes 8 w.toNat

/-- SHAKE256's padding to whole blocks. -/
def shakePad (msg : List Byte) : List Byte :=
  let r := 136 - msg.length % 136
  if r = 1 then msg ++ [0x9F] else msg ++ [0x1F] ++ List.replicate (r - 2) 0 ++ [0x80]

/-- SHAKE256 of a message, at most 136 bytes of output. -/
def shake256 (msg : List Byte) (n : Nat) : List Byte :=
  let p := shakePad msg
  (keccakOut ((chunks 136 (p.length / 136) p).foldl keccakAbsorb (List.replicate 25 0))).take n

/-- One byte into the CRC-64 of R154: ECMA-182 polynomial, no reflection. -/
def crc64Step (c : Word) (b : Byte) : Word :=
  (List.range 8).foldl (fun (c : Word) _ => if c.msb then (c <<< 1) ^^^ 0x42F0E1EBA9EA3693 else c <<< 1)
    (c ^^^ (b.zeroExtend 64 <<< 56))

/-- CRC-64 of R154 over bytes in ascending address. -/
def crc64 (bs : List Byte) : Word := bs.foldl crc64Step 0

/-- High and low halves of a 32 × 32-bit product. -/
def mulHiLo (a b : Word32) : Word32 × Word32 :=
  let p := a.toNat * b.toNat
  (BitVec.ofNat 32 (p / 2 ^ 32), BitVec.ofNat 32 p)

/-- A Philox-4×32 counter or output. -/
structure Quad where
  x0 : Word32
  x1 : Word32
  x2 : Word32
  x3 : Word32
deriving DecidableEq, Repr

/-- One round of Philox-4×32. -/
def philoxRound (k0 k1 : Word32) (c : Quad) : Quad :=
  let p0 := mulHiLo 0xD2511F53 c.x0
  let p1 := mulHiLo 0xCD9E8D57 c.x2
  ⟨p1.1 ^^^ c.x1 ^^^ k0, p1.2, p0.1 ^^^ c.x3 ^^^ k1, p0.2⟩

/-- `n` rounds, the key bumped between rounds. -/
def philoxRounds : Nat → Word32 → Word32 → Quad → Quad
  | 0, _, _, c => c
  | n + 1, k0, k1, c => philoxRounds n (k0 + 0x9E3779B9) (k1 + 0xBB67AE85) (philoxRound k0 k1 c)

/-- Philox-4×32-10 (R132). -/
def philox (k0 k1 : Word32) (c : Quad) : Quad := philoxRounds 10 k0 k1 c

end Sys2Proof.Machine
end

