-- ==== Sys2Proof/Machine/RegMap.lean ====
section
/-! DEFINITION. The registers of BAR0 (and, at 0x0400_0000 + its offset, of BAR4): one name for each field of the
spec's register tables, and one row for each 32-bit word that software can write or that resets to a nonzero value,
with its RW bits, its WC bits and its reset value (Table 0-3). Bits in neither mask ignore writes. -/
namespace Sys2Proof.Machine

/-- A register field: the offset of its register and its bits, high and low. -/
structure Fld where
  off : Nat
  hi  : Nat
  lo  : Nat
deriving DecidableEq, Repr

namespace Reg

/-! Table 2-15 -/
def clGenGen : Fld := ⟨0x10000, 63, 0⟩
/-! Table 2-16 -/
def clStatusFrozen : Fld := ⟨0x10008, 3, 3⟩
def clStatusUpdating : Fld := ⟨0x10008, 2, 2⟩
def clStatusChanged : Fld := ⟨0x10008, 1, 1⟩
def clStatusValid : Fld := ⟨0x10008, 0, 0⟩
/-! Table 2-17 -/
def clCtrlChangeIrqEn : Fld := ⟨0x1000C, 0, 0⟩
/-! Table 2-18 -/
def clCauseTypeChanged : Fld := ⟨0x10010, 11, 1⟩
/-! Table 3-6 -/
def tkStatusSlewing : Fld := ⟨0x20008, 4, 4⟩
def tkStatusHoldover : Fld := ⟨0x20008, 3, 3⟩
def tkStatusSyncLost : Fld := ⟨0x20008, 2, 2⟩
def tkStatusLocked : Fld := ⟨0x20008, 1, 1⟩
def tkStatusLeader : Fld := ⟨0x20008, 0, 0⟩
/-! Table 3-7 -/
def tkCtrlSyncIrqEn : Fld := ⟨0x2000C, 1, 1⟩
def tkCtrlSyncOutEn : Fld := ⟨0x2000C, 0, 0⟩
/-! Table 7-13 -/
def mcCtrlUeIrqEn : Fld := ⟨0x30000, 4, 4⟩
def mcCtrlRepairHostEn : Fld := ⟨0x30000, 3, 3⟩
def mcCtrlRepairPartnerEn : Fld := ⟨0x30000, 2, 2⟩
def mcCtrlStripe : Fld := ⟨0x30000, 1, 1⟩
def mcCtrlRetrainDefer : Fld := ⟨0x30000, 0, 0⟩
/-! Table 7-14 -/
def mcStatusRepairsPending : Fld := ⟨0x30004, 12, 8⟩
def mcStatusStackLost : Fld := ⟨0x30004, 3, 3⟩
def mcStatusRepairFailed : Fld := ⟨0x30004, 2, 2⟩
def mcStatusUeSeen : Fld := ⟨0x30004, 1, 1⟩
def mcStatusStriping : Fld := ⟨0x30004, 0, 0⟩
/-! Table 7-15 -/
def mcUeValid : Fld := ⟨0x30008, 63, 63⟩
def mcUeGranule : Fld := ⟨0x30008, 47, 8⟩
/-! Table 7-16 -/
def mcStkTemp (i : Nat) : Fld := ⟨0x30100 + 0x20 * i, 31, 0⟩
def mcStkCeCount (i : Nat) : Fld := ⟨0x30104 + 0x20 * i, 31, 0⟩
def mcStkUeCount (i : Nat) : Fld := ⟨0x30108 + 0x20 * i, 31, 0⟩
def mcStkOdeCount (i : Nat) : Fld := ⟨0x3010C + 0x20 * i, 31, 0⟩
def mcStkRetrains (i : Nat) : Fld := ⟨0x30110 + 0x20 * i, 31, 0⟩
def mcStkOvf (i : Nat) : Fld := ⟨0x30114 + 0x20 * i, 31, 0⟩
/-! Table 7-17 -/
def mcGrBase (i : Nat) : Fld := ⟨0x31000 + 0x80 * i, 47, 12⟩
def mcGrSize (i : Nat) : Fld := ⟨0x31008 + 0x80 * i, 47, 12⟩
def mcGrCrcBase (i : Nat) : Fld := ⟨0x31010 + 0x80 * i, 47, 12⟩
def mcGrGolden (i : Nat) : Fld := ⟨0x31018 + 0x80 * i, 47, 12⟩
def mcGrCtrl (i : Nat) : Fld := ⟨0x31020 + 0x80 * i, 1, 0⟩
def mcGrRepairsOvf (i : Nat) : Fld := ⟨0x31024 + 0x80 * i, 8, 8⟩
def mcGrResult (i : Nat) : Fld := ⟨0x31024 + 0x80 * i, 7, 4⟩
def mcGrState (i : Nat) : Fld := ⟨0x31024 + 0x80 * i, 1, 0⟩
def mcGrRepairs (i : Nat) : Fld := ⟨0x31028 + 0x80 * i, 31, 0⟩
def mcGrFailBlock (i : Nat) : Fld := ⟨0x31030 + 0x80 * i, 31, 0⟩
/-! Table 7-18 -/
def mcTzLbase (i : Nat) : Fld := ⟨0x32000 + 0x40 * i, 47, 12⟩
def mcTzLblocks (i : Nat) : Fld := ⟨0x32008 + 0x40 * i, 31, 0⟩
def mcTzMapBase (i : Nat) : Fld := ⟨0x32010 + 0x40 * i, 47, 12⟩
def mcTzPoolBase (i : Nat) : Fld := ⟨0x32018 + 0x40 * i, 47, 12⟩
def mcTzPoolSectors (i : Nat) : Fld := ⟨0x32020 + 0x40 * i, 31, 0⟩
def mcTzFreeSectors (i : Nat) : Fld := ⟨0x32024 + 0x40 * i, 31, 0⟩
def mcTzBitmapBase (i : Nat) : Fld := ⟨0x32030 + 0x40 * i, 47, 12⟩
/-! Table 7-19 -/
def mcTzCtrlAlt (i : Nat) : Fld := ⟨0x32028 + 0x40 * i, 11, 8⟩
def mcTzCtrlTier (i : Nat) : Fld := ⟨0x32028 + 0x40 * i, 4, 4⟩
def mcTzCtrlAltEn (i : Nat) : Fld := ⟨0x32028 + 0x40 * i, 3, 3⟩
def mcTzCtrlInit (i : Nat) : Fld := ⟨0x32028 + 0x40 * i, 1, 1⟩
def mcTzCtrlEnable (i : Nat) : Fld := ⟨0x32028 + 0x40 * i, 0, 0⟩
def mcTzStatusResult (i : Nat) : Fld := ⟨0x3202C + 0x40 * i, 7, 4⟩
def mcTzStatusPoolFull (i : Nat) : Fld := ⟨0x3202C + 0x40 * i, 2, 2⟩
def mcTzStatusInitialising (i : Nat) : Fld := ⟨0x3202C + 0x40 * i, 1, 1⟩
def mcTzStatusReady (i : Nat) : Fld := ⟨0x3202C + 0x40 * i, 0, 0⟩
/-! Table 9-12 -/
def nbCtrlSwLimit : Fld := ⟨0x40000, 27, 16⟩
def nbCtrlOffload : Fld := ⟨0x40000, 1, 0⟩
/-! Table 9-13 -/
def nbStatusActive : Fld := ⟨0x40004, 27, 16⟩
def nbStatusLimit : Fld := ⟨0x40004, 11, 0⟩
/-! Table 9-14 -/
def nbCrossOutputHead : Fld := ⟨0x40008, 15, 12⟩
def nbCrossFeedForward : Fld := ⟨0x40008, 11, 8⟩
def nbCrossOutputProj : Fld := ⟨0x40008, 7, 4⟩
def nbCrossQkv : Fld := ⟨0x40008, 3, 0⟩
/-! Table 9-15 -/
def nbCountCommands : Fld := ⟨0x40010, 31, 0⟩
def nbCountCe : Fld := ⟨0x40014, 31, 0⟩
def nbCountUe : Fld := ⟨0x40018, 31, 0⟩
def nbCountCrcFail : Fld := ⟨0x4001C, 31, 0⟩
def nbCountRefused : Fld := ⟨0x40020, 31, 0⟩
def nbCountOvf : Fld := ⟨0x40024, 31, 0⟩
def nbBytes : Fld := ⟨0x40030, 63, 0⟩
/-! Table 10-11 -/
def kvCtrlEvict : Fld := ⟨0x50000, 3, 3⟩
def kvCtrlEnable : Fld := ⟨0x50000, 0, 0⟩
def kvStatusPageFrames : Fld := ⟨0x50004, 16, 12⟩
def kvStatusResult : Fld := ⟨0x50004, 11, 8⟩
def kvStatusSpillEmpty : Fld := ⟨0x50004, 3, 3⟩
def kvStatusInvBusy : Fld := ⟨0x50004, 2, 2⟩
def kvStatusLive : Fld := ⟨0x50004, 1, 1⟩
def kvStatusEnabled : Fld := ⟨0x50004, 0, 0⟩
/-! Table 10-12 -/
def kvGeomFormat : Fld := ⟨0x50008, 55, 52⟩
def kvGeomHeadDim : Fld := ⟨0x50008, 51, 40⟩
def kvGeomHeads : Fld := ⟨0x50008, 39, 35⟩
def kvGeomDraftHeadGroups : Fld := ⟨0x50008, 31, 24⟩
def kvGeomHeadGroups : Fld := ⟨0x50008, 23, 16⟩
def kvGeomDraftLayers : Fld := ⟨0x50008, 15, 8⟩
def kvGeomLayers : Fld := ⟨0x50008, 7, 0⟩
/-! Table 10-13 -/
def kvPlaceHgCount : Fld := ⟨0x50010, 31, 24⟩
def kvPlaceHgFirst : Fld := ⟨0x50010, 23, 16⟩
def kvPlaceIndex : Fld := ⟨0x50010, 15, 12⟩
def kvPlaceSpan : Fld := ⟨0x50010, 11, 8⟩
def kvPlaceByPosition : Fld := ⟨0x50010, 1, 1⟩
def kvPlaceByHead : Fld := ⟨0x50010, 0, 0⟩
def kvInvAll : Fld := ⟨0x50014, 31, 31⟩
def kvInvBusy : Fld := ⟨0x50014, 30, 30⟩
def kvInvRc : Fld := ⟨0x50014, 15, 0⟩
/-! Table 10-14 -/
def kvEvictKeepPages : Fld := ⟨0x50018, 47, 32⟩
def kvEvictWindowPages : Fld := ⟨0x50018, 31, 16⟩
def kvEvictGlobalPages : Fld := ⟨0x50018, 15, 8⟩
def kvEvictDecay : Fld := ⟨0x50018, 7, 0⟩
/-! Table 10-15 -/
def kvFtBaseBase : Fld := ⟨0x50020, 47, 12⟩
def kvPoolFrames : Fld := ⟨0x50028, 63, 32⟩
def kvPoolFirst : Fld := ⟨0x50028, 31, 0⟩
def kvFstackBase : Fld := ⟨0x50030, 47, 12⟩
def kvFreeCount : Fld := ⟨0x50038, 31, 0⟩
def kvReservedCount : Fld := ⟨0x5003C, 31, 0⟩
def kvSpillBase : Fld := ⟨0x50040, 47, 12⟩
def kvSpillZone : Fld := ⟨0x50040, 3, 0⟩
def kvSpillFreeCount : Fld := ⟨0x50048, 31, 0⟩
/-! Table 10-16 -/
def kvCountTbMiss : Fld := ⟨0x50050, 31, 0⟩
def kvCountCow : Fld := ⟨0x50054, 31, 0⟩
def kvCountShareRefused : Fld := ⟨0x50058, 31, 0⟩
def kvCountEvicted : Fld := ⟨0x5005C, 31, 0⟩
def kvCountSpilled : Fld := ⟨0x50060, 31, 0⟩
def kvCountRestored : Fld := ⟨0x50064, 31, 0⟩
def kvCountPoisoned : Fld := ⟨0x50068, 31, 0⟩
def kvCountOvf : Fld := ⟨0x5006C, 31, 0⟩
/-! Table 10-17 -/
def kvStgOvfBase (i : Nat) : Fld := ⟨0x50100 + 0x10 * i, 47, 12⟩
def kvStgOvfEntries (i : Nat) : Fld := ⟨0x50108 + 0x10 * i, 31, 0⟩
def kvStgUsed (i : Nat) : Fld := ⟨0x5010C + 0x10 * i, 31, 0⟩
/-! Table 11-6 -/
def sqAttnSegments : Fld := ⟨0x60080, 63, 32⟩
def sqAttnPattern : Fld := ⟨0x60080, 11, 11⟩
def sqAttnSegLog2 : Fld := ⟨0x60080, 3, 0⟩
/-! Table 12-16 -/
def sqCtrlMaxBatch : Fld := ⟨0x60000, 28, 16⟩
def sqCtrlPrefillChunk : Fld := ⟨0x60000, 15, 8⟩
def sqCtrlEnable : Fld := ⟨0x60000, 5, 5⟩
def sqCtrlHaltIrqEn : Fld := ⟨0x60000, 4, 4⟩
def sqCtrlDepthCap : Fld := ⟨0x60000, 3, 0⟩
def sqStatusHold : Fld := ⟨0x60004, 15, 12⟩
def sqStatusGuest : Fld := ⟨0x60004, 9, 9⟩
def sqStatusSpec : Fld := ⟨0x60004, 8, 8⟩
def sqStatusHaltSeen : Fld := ⟨0x60004, 2, 2⟩
def sqStatusHalted : Fld := ⟨0x60004, 1, 1⟩
def sqStatusRunning : Fld := ⟨0x60004, 0, 0⟩
/-! Table 12-17 -/
def sqStepStep : Fld := ⟨0x60008, 63, 0⟩
def sqLimitStepLimit : Fld := ⟨0x60010, 31, 0⟩
def sqEstEstStep : Fld := ⟨0x60014, 31, 0⟩
def sqTilesTiles : Fld := ⟨0x6003C, 15, 0⟩
/-! Table 12-18 -/
def sqRcBaseBase : Fld := ⟨0x60018, 47, 12⟩
def sqTenantBaseBase : Fld := ⟨0x60020, 47, 12⟩
def sqAdapterBaseBase : Fld := ⟨0x60028, 47, 12⟩
def sqWorkBaseBase : Fld := ⟨0x60030, 47, 12⟩
def sqWorkBytesBytes : Fld := ⟨0x60038, 31, 0⟩
/-! Table 12-19 -/
def sqCountAdmitted : Fld := ⟨0x60040, 31, 0⟩
def sqCountEndedError : Fld := ⟨0x60044, 31, 0⟩
def sqCountLeftOut : Fld := ⟨0x60048, 31, 0⟩
def sqCountDepthLowered : Fld := ⟨0x6004C, 31, 0⟩
def sqCountOverTbt : Fld := ⟨0x60050, 31, 0⟩
def sqCountBar2Dropped : Fld := ⟨0x60054, 31, 0⟩
def sqCountRollbacks : Fld := ⟨0x60058, 31, 0⟩
def sqCountOvf : Fld := ⟨0x6005C, 31, 0⟩
/-! Table 12-20 -/
def sqTokensCount : Fld := ⟨0x60060, 63, 0⟩
def sqEmittedCount : Fld := ⟨0x60068, 63, 0⟩
def sqFomCeilingTokens : Fld := ⟨0x60070, 63, 32⟩
def sqFomMtpj : Fld := ⟨0x60070, 31, 0⟩
/-! Table 13-10 -/
def lkCtrlDeviceId : Fld := ⟨0x70000, 25, 16⟩
def lkCtrlLanesMin : Fld := ⟨0x70000, 6, 4⟩
def lkCtrlIrqEn : Fld := ⟨0x70000, 1, 1⟩
def lkCtrlEnable : Fld := ⟨0x70000, 0, 0⟩
def lkStatusPortsUp : Fld := ⟨0x70004, 20, 4⟩
def lkStatusIdConflict : Fld := ⟨0x70004, 3, 3⟩
def lkStatusPortEvent : Fld := ⟨0x70004, 2, 2⟩
def lkStatusIdValid : Fld := ⟨0x70004, 1, 1⟩
def lkStatusEnabled : Fld := ⟨0x70004, 0, 0⟩
/-! Table 13-11 -/
def lkPortCtrlLaneOff (i : Nat) : Fld := ⟨0x70100 + 0x40 * i, 8, 3⟩
def lkPortCtrlRetrain (i : Nat) : Fld := ⟨0x70100 + 0x40 * i, 2, 2⟩
def lkPortCtrlEnable (i : Nat) : Fld := ⟨0x70100 + 0x40 * i, 0, 0⟩
def lkPortStatusPeerPort (i : Nat) : Fld := ⟨0x70104 + 0x40 * i, 29, 25⟩
def lkPortStatusPeerId (i : Nat) : Fld := ⟨0x70104 + 0x40 * i, 24, 15⟩
def lkPortStatusLanesUp (i : Nat) : Fld := ⟨0x70104 + 0x40 * i, 14, 9⟩
def lkPortStatusState (i : Nat) : Fld := ⟨0x70104 + 0x40 * i, 2, 0⟩
def lkPortCorrected (i : Nat) : Fld := ⟨0x70108 + 0x40 * i, 31, 0⟩
def lkPortUncorrectable (i : Nat) : Fld := ⟨0x7010C + 0x40 * i, 31, 0⟩
def lkPortCrcFail (i : Nat) : Fld := ⟨0x70110 + 0x40 * i, 31, 0⟩
def lkPortReplays (i : Nat) : Fld := ⟨0x70114 + 0x40 * i, 31, 0⟩
def lkPortRetrains (i : Nat) : Fld := ⟨0x70118 + 0x40 * i, 31, 0⟩
def lkPortLost (i : Nat) : Fld := ⟨0x7011C + 0x40 * i, 31, 0⟩
def lkPortOvf (i : Nat) : Fld := ⟨0x70120 + 0x40 * i, 31, 0⟩
/-! Table 13-12 -/
def lkExpBase (i : Nat) : Fld := ⟨0x70800 + 0x20 * i, 47, 12⟩
def lkExpSize (i : Nat) : Fld := ⟨0x70808 + 0x20 * i, 32, 12⟩
def lkExpCtrlIdHi (i : Nat) : Fld := ⟨0x70810 + 0x20 * i, 31, 22⟩
def lkExpCtrlIdLo (i : Nat) : Fld := ⟨0x70810 + 0x20 * i, 21, 12⟩
def lkExpCtrlWrite (i : Nat) : Fld := ⟨0x70810 + 0x20 * i, 2, 2⟩
def lkExpCtrlRead (i : Nat) : Fld := ⟨0x70810 + 0x20 * i, 1, 1⟩
def lkExpCtrlValid (i : Nat) : Fld := ⟨0x70810 + 0x20 * i, 0, 0⟩
def lkExpStatusBusy (i : Nat) : Fld := ⟨0x70814 + 0x20 * i, 0, 0⟩
def lkExpRefused (i : Nat) : Fld := ⟨0x70818 + 0x20 * i, 31, 0⟩
/-! Table 13-13 -/
def lkRoutePorts (i : Nat) : Fld := ⟨0x71000 + 0x4 * i, 15, 0⟩
/-! Table 13-14 -/
def lkCountRputSent : Fld := ⟨0x70010, 31, 0⟩
def lkCountRputCounted : Fld := ⟨0x70014, 31, 0⟩
def lkCountRefusedIn : Fld := ⟨0x70018, 31, 0⟩
def lkCountRefusedOut : Fld := ⟨0x7001C, 31, 0⟩
def lkCountLost : Fld := ⟨0x70020, 31, 0⟩
def lkCountDigestFail : Fld := ⟨0x70024, 31, 0⟩
def lkCountHopDrop : Fld := ⟨0x70028, 31, 0⟩
def lkCountOvf : Fld := ⟨0x7002C, 31, 0⟩
/-! Table 14-7 -/
def mrCtrlHalf : Fld := ⟨0x80000, 4, 4⟩
def mrCtrlIrqEn : Fld := ⟨0x80000, 3, 3⟩
def mrCtrlEnable : Fld := ⟨0x80000, 0, 0⟩
def mrStatusConfigDiff : Fld := ⟨0x80004, 15, 15⟩
def mrStatusCause : Fld := ⟨0x80004, 14, 12⟩
def mrStatusPartnerFatal : Fld := ⟨0x80004, 9, 9⟩
def mrStatusSuspectSeen : Fld := ⟨0x80004, 8, 8⟩
def mrStatusResult : Fld := ⟨0x80004, 7, 4⟩
def mrStatusState : Fld := ⟨0x80004, 3, 0⟩
/-! Table 14-8 -/
def mrCmdCmd : Fld := ⟨0x80008, 3, 0⟩
def mrSeqSent : Fld := ⟨0x80010, 63, 32⟩
def mrSeqAcked : Fld := ⟨0x80010, 31, 0⟩
def mrOwnStep : Fld := ⟨0x80018, 63, 0⟩
def mrPartnerStep : Fld := ⟨0x80020, 63, 0⟩
def mrTableBase : Fld := ⟨0x80028, 47, 12⟩
def mrWorkBase : Fld := ⟨0x80030, 47, 12⟩
def mrSlotSlots : Fld := ⟨0x80038, 63, 32⟩
def mrSlotSlotBytes : Fld := ⟨0x80038, 31, 0⟩
/-! Table 14-9 -/
def mrCountFramesSent : Fld := ⟨0x80080, 31, 0⟩
def mrCountFramesAccepted : Fld := ⟨0x80084, 31, 0⟩
def mrCountSuspects : Fld := ⟨0x80088, 31, 0⟩
def mrCountUnmirrored : Fld := ⟨0x8008C, 31, 0⟩
def mrCountReplayDiff : Fld := ⟨0x80090, 31, 0⟩
def mrCountDiscarded : Fld := ⟨0x80094, 31, 0⟩
def mrCountRepairsServed : Fld := ⟨0x80098, 31, 0⟩
def mrCountOvf : Fld := ⟨0x8009C, 31, 0⟩
/-! Table 15-13 -/
def inCtrlLogIrqEn : Fld := ⟨0x90000, 3, 3⟩
def inCtrlRetractIrqEn : Fld := ⟨0x90000, 2, 2⟩
def inCtrlCicadaEn : Fld := ⟨0x90000, 1, 1⟩
def inCtrlCheckEn : Fld := ⟨0x90000, 0, 0⟩
def inStatusSample : Fld := ⟨0x90004, 31, 28⟩
def inStatusDisagree : Fld := ⟨0x90004, 4, 4⟩
def inStatusLogFull : Fld := ⟨0x90004, 3, 3⟩
def inStatusReachShort : Fld := ⟨0x90004, 2, 2⟩
def inStatusRerunning : Fld := ⟨0x90004, 1, 1⟩
def inStatusTesting : Fld := ⟨0x90004, 0, 0⟩
/-! Table 15-14 -/
def inSeedSeed : Fld := ⟨0x90008, 63, 0⟩
def inCheckBaseBase : Fld := ⟨0x90010, 47, 12⟩
def inCheckOutBytes : Fld := ⟨0x90018, 63, 40⟩
def inCheckDups : Fld := ⟨0x90018, 39, 24⟩
def inCheckLayers : Fld := ⟨0x90018, 15, 0⟩
def inCicadaPeriod : Fld := ⟨0x90020, 31, 0⟩
def inLogBaseBase : Fld := ⟨0x90028, 47, 12⟩
def inLogEntriesEntries : Fld := ⟨0x90030, 31, 0⟩
def inLogTailTail : Fld := ⟨0x90034, 31, 0⟩
def inLogHeadHead : Fld := ⟨0x90038, 31, 0⟩
def inPeersCount : Fld := ⟨0x90040, 63, 52⟩
def inPeersBase : Fld := ⟨0x90040, 47, 8⟩
def inRetractCell : Fld := ⟨0x90048, 62, 48⟩
def inRetractOffset : Fld := ⟨0x90048, 35, 0⟩
/-! Table 15-15 -/
def inCountCicadaRuns : Fld := ⟨0x90080, 31, 0⟩
def inCountCicadaFails : Fld := ⟨0x90084, 31, 0⟩
def inCountChecks : Fld := ⟨0x90088, 31, 0⟩
def inCountMismatches : Fld := ⟨0x9008C, 31, 0⟩
def inCountChecksDropped : Fld := ⟨0x90090, 31, 0⟩
def inCountRetirements : Fld := ⟨0x90094, 31, 0⟩
def inCountRetractions : Fld := ⟨0x90098, 31, 0⟩
def inCountDisagreements : Fld := ⟨0x9009C, 31, 0⟩
def inCountLogLost : Fld := ⟨0x900A0, 31, 0⟩
def inCountOvf : Fld := ⟨0x900A4, 31, 0⟩
def inCoreState (i : Nat) : Fld := ⟨0x91000 + 0x8 * i, 63, 60⟩
def inCoreVerified (i : Nat) : Fld := ⟨0x91000 + 0x8 * i, 47, 0⟩
/-! Table 16-12 -/
def pwCtrlSwCap : Fld := ⟨0xA0000, 27, 16⟩
def pwCtrlEmergIrqEn : Fld := ⟨0xA0000, 2, 2⟩
def pwCtrlThermIrqEn : Fld := ⟨0xA0000, 1, 1⟩
def pwCtrlBoostEn : Fld := ⟨0xA0000, 0, 0⟩
def pwStatusModeRefused : Fld := ⟨0xA0004, 8, 8⟩
def pwStatusStage : Fld := ⟨0xA0004, 7, 6⟩
def pwStatusEmergency : Fld := ⟨0xA0004, 5, 5⟩
def pwStatusBoosting : Fld := ⟨0xA0004, 4, 4⟩
def pwStatusThermal : Fld := ⟨0xA0004, 3, 3⟩
def pwStatusCoolantAlarm : Fld := ⟨0xA0004, 2, 2⟩
def pwStatusEmergSeen : Fld := ⟨0xA0004, 1, 1⟩
def pwStatusExcursion : Fld := ⟨0xA0004, 0, 0⟩
def pwProfileResult : Fld := ⟨0xA0008, 11, 8⟩
def pwProfilePins : Fld := ⟨0xA0008, 7, 6⟩
def pwProfilePending : Fld := ⟨0xA0008, 5, 5⟩
def pwProfileRequest : Fld := ⟨0xA0008, 3, 2⟩
def pwProfileActive : Fld := ⟨0xA0008, 1, 0⟩
/-! Table 16-13 -/
def pwModePattern : Fld := ⟨0xA000C, 24, 24⟩
def pwModeHold : Fld := ⟨0xA000C, 23, 20⟩
def pwModeSample : Fld := ⟨0xA000C, 19, 16⟩
def pwModeAccum : Fld := ⟨0xA000C, 13, 12⟩
def pwModeEvict : Fld := ⟨0xA000C, 11, 10⟩
def pwModeGuest : Fld := ⟨0xA000C, 9, 8⟩
def pwModeCompress : Fld := ⟨0xA000C, 7, 6⟩
def pwModeOffload : Fld := ⟨0xA000C, 5, 4⟩
def pwModeSpec : Fld := ⟨0xA000C, 3, 2⟩
def pwActiveProfile : Fld := ⟨0xA0010, 31, 30⟩
def pwActivePair : Fld := ⟨0xA0010, 29, 29⟩
/-! Table 16-14 -/
def pwInputVolts : Fld := ⟨0xA0018, 63, 48⟩
def pwInputAmps : Fld := ⟨0xA0018, 47, 32⟩
def pwInputSampleW : Fld := ⟨0xA0018, 31, 16⟩
def pwInputMeanW : Fld := ⟨0xA0018, 15, 0⟩
def pwEnergyUj : Fld := ⟨0xA0020, 63, 0⟩
def pwCoolantFlow : Fld := ⟨0xA0028, 47, 32⟩
def pwCoolantOutlet : Fld := ⟨0xA0028, 31, 16⟩
def pwCoolantInlet : Fld := ⟨0xA0028, 15, 0⟩
def pwRailAmps (i : Nat) : Fld := ⟨0xA0100 + 0x8 * i, 63, 48⟩
def pwRailMeasured (i : Nat) : Fld := ⟨0xA0100 + 0x8 * i, 47, 32⟩
def pwRailSetpoint (i : Nat) : Fld := ⟨0xA0100 + 0x8 * i, 31, 16⟩
def pwRailHottest (i : Nat) : Fld := ⟨0xA0100 + 0x8 * i, 15, 8⟩
def pwCountExcursions : Fld := ⟨0xA0080, 31, 0⟩
def pwCountEmergencies : Fld := ⟨0xA0084, 31, 0⟩
def pwCountThermalSteps : Fld := ⟨0xA0088, 31, 0⟩
def pwCountNbLimited : Fld := ⟨0xA008C, 31, 0⟩
def pwCountProfileChanges : Fld := ⟨0xA0090, 31, 0⟩
def pwCountOvf : Fld := ⟨0xA0094, 31, 0⟩
/-! Table 17-12 -/
def hqCtrlRingIrqEn : Fld := ⟨0xB0000, 1, 1⟩
def hqCtrlEnable : Fld := ⟨0xB0000, 0, 0⟩
def hqStatusWidth : Fld := ⟨0xB0004, 13, 8⟩
def hqStatusSpeed : Fld := ⟨0xB0004, 7, 4⟩
def hqStatusQueueError : Fld := ⟨0xB0004, 1, 1⟩
def hqStatusFatal : Fld := ⟨0xB0004, 0, 0⟩
def hqHostwinSize : Fld := ⟨0xB0008, 46, 12⟩
def hqHostwinBaseBase : Fld := ⟨0xB0010, 63, 12⟩
def hqBar2BaseBase : Fld := ⟨0xB0018, 47, 30⟩
/-! Table 17-13 -/
def hqSqSqBase (i : Nat) : Fld := ⟨0xB1000 + 0x20 * i, 47, 12⟩
def hqSqCqBase (i : Nat) : Fld := ⟨0xB1008 + 0x20 * i, 47, 12⟩
def hqSqCtrlCqLog2 (i : Nat) : Fld := ⟨0xB1010 + 0x20 * i, 12, 8⟩
def hqSqCtrlSqLog2 (i : Nat) : Fld := ⟨0xB1010 + 0x20 * i, 7, 3⟩
def hqSqCtrlIrqEn (i : Nat) : Fld := ⟨0xB1010 + 0x20 * i, 1, 1⟩
def hqSqCtrlEnable (i : Nat) : Fld := ⟨0xB1010 + 0x20 * i, 0, 0⟩
def hqSqHeadsSqHead (i : Nat) : Fld := ⟨0xB1014 + 0x20 * i, 31, 16⟩
def hqSqHeadsCqTail (i : Nat) : Fld := ⟨0xB1014 + 0x20 * i, 15, 0⟩
def hqSqErrIdle (i : Nat) : Fld := ⟨0xB1018 + 0x20 * i, 8, 8⟩
def hqSqErrCause (i : Nat) : Fld := ⟨0xB1018 + 0x20 * i, 2, 0⟩
def hqSqCoalTime (i : Nat) : Fld := ⟨0xB101C + 0x20 * i, 31, 16⟩
def hqSqCoalCount (i : Nat) : Fld := ⟨0xB101C + 0x20 * i, 7, 0⟩
/-! Table 17-15 -/
def kwStatusQuiesced : Fld := ⟨0xC0000, 7, 7⟩
def kwStatusFatal : Fld := ⟨0xC0000, 6, 6⟩
def kwStatusFwWriting : Fld := ⟨0xC0000, 5, 5⟩
def kwStatusI3cMode : Fld := ⟨0xC0000, 4, 4⟩
def kwStatusBoot : Fld := ⟨0xC0000, 3, 0⟩
def kwCtrlMbIrqEn : Fld := ⟨0xC0004, 1, 1⟩
def kwCtrlRepairIrqEn : Fld := ⟨0xC0004, 0, 0⟩
def kwResetCause : Fld := ⟨0xC0008, 2, 0⟩
def kwFwVersion : Fld := ⟨0xC0010, 63, 32⟩
def kwFwSecurity : Fld := ⟨0xC0010, 31, 0⟩
def kwSvFuseMinimum : Fld := ⟨0xC0018, 31, 0⟩
def kwAlertEnable : Fld := ⟨0xC0030, 21, 16⟩
def kwAlertCause : Fld := ⟨0xC0030, 5, 0⟩
def kwRepairRequest (i : Nat) : Fld := ⟨0xC0100 + 0x20 * i, 63, 63⟩
def kwRepairRange (i : Nat) : Fld := ⟨0xC0100 + 0x20 * i, 51, 48⟩
def kwRepairBlock (i : Nat) : Fld := ⟨0xC0100 + 0x20 * i, 31, 0⟩
def kwRepairGolden (i : Nat) : Fld := ⟨0xC0108 + 0x20 * i, 63, 0⟩
def kwRepairCrc (i : Nat) : Fld := ⟨0xC0110 + 0x20 * i, 63, 0⟩
def kwRepairLimit (i : Nat) : Fld := ⟨0xC0118 + 0x20 * i, 63, 0⟩
/-! Table 17-16 -/
def mbDoorbellRing : Fld := ⟨0x4000080, 0, 0⟩
def mbStatusFatal : Fld := ⟨0x4000084, 3, 3⟩
def mbStatusOverrun : Fld := ⟨0x4000084, 2, 2⟩
def mbStatusDone : Fld := ⟨0x4000084, 1, 1⟩
def mbStatusBusy : Fld := ⟨0x4000084, 0, 0⟩

end Reg

/-- How a 32-bit register word answers a write: RW bits, WC bits, and its reset value. -/
structure RegWord where
  off   : Nat
  rw    : Nat
  wc    : Nat
  reset : Nat
deriving DecidableEq, Repr

/-- Words of the CL_ registers. -/
def clWords : List RegWord := [
  ⟨0x10008, 0x0, 0x2, 0x0⟩,
  ⟨0x1000C, 0x1, 0x0, 0x0⟩,
  ⟨0x10010, 0x0, 0xFFE, 0x0⟩]

/-- Words of the TK_ registers. -/
def tkWords : List RegWord := [
  ⟨0x20008, 0x0, 0x4, 0x1⟩,
  ⟨0x2000C, 0x3, 0x0, 0x1⟩]

/-- Words of the MC_ registers. -/
def mcWords : List RegWord := [
  ⟨0x30000, 0x1F, 0x0, 0xD⟩,
  ⟨0x30004, 0x0, 0x6, 0x0⟩]

/-- Words of the NB_ registers. -/
def nbWords : List RegWord := [
  ⟨0x40000, 0xFFF0000, 0x0, 0x8000000⟩,
  ⟨0x40004, 0x0, 0x0, 0x800⟩,
  ⟨0x40024, 0x0, 0xFFFFFFFF, 0x0⟩]

/-- Words of the KV_ registers. -/
def kvWords : List RegWord := [
  ⟨0x50000, 0x1, 0x0, 0x0⟩,
  ⟨0x50004, 0x0, 0x8, 0x0⟩,
  ⟨0x50008, 0xFFFFFFFF, 0x0, 0x0⟩,
  ⟨0x5000C, 0xFFFFF8, 0x0, 0x0⟩,
  ⟨0x50010, 0xFFFFFF03, 0x0, 0x0⟩,
  ⟨0x50018, 0xFFFFFFFF, 0x0, 0x1⟩,
  ⟨0x5001C, 0xFFFF, 0x0, 0x0⟩,
  ⟨0x50020, 0xFFFFF000, 0x0, 0x0⟩,
  ⟨0x50024, 0xFFFF, 0x0, 0x0⟩,
  ⟨0x50028, 0xFFFFFFFF, 0x0, 0x0⟩,
  ⟨0x5002C, 0xFFFFFFFF, 0x0, 0x0⟩,
  ⟨0x50030, 0xFFFFF000, 0x0, 0x0⟩,
  ⟨0x50034, 0xFFFF, 0x0, 0x0⟩,
  ⟨0x50038, 0xFFFFFFFF, 0x0, 0x0⟩,
  ⟨0x50040, 0xFFFFF00F, 0x0, 0x0⟩,
  ⟨0x50044, 0xFFFF, 0x0, 0x0⟩,
  ⟨0x50048, 0xFFFFFFFF, 0x0, 0x0⟩,
  ⟨0x5006C, 0x0, 0xFFFFFFFF, 0x0⟩]

/-- Words of the SQ_ registers. -/
def sqWords : List RegWord := [
  ⟨0x60000, 0x1FFFFF3F, 0x0, 0x1002008⟩,
  ⟨0x60004, 0x0, 0x4, 0x0⟩,
  ⟨0x60010, 0xFFFFFFFF, 0x0, 0x2710⟩,
  ⟨0x60014, 0x0, 0x0, 0x7A120⟩,
  ⟨0x60018, 0xFFFFF000, 0x0, 0x0⟩,
  ⟨0x6001C, 0xFFFF, 0x0, 0x0⟩,
  ⟨0x60020, 0xFFFFF000, 0x0, 0x0⟩,
  ⟨0x60024, 0xFFFF, 0x0, 0x0⟩,
  ⟨0x60028, 0xFFFFF000, 0x0, 0x0⟩,
  ⟨0x6002C, 0xFFFF, 0x0, 0x0⟩,
  ⟨0x60030, 0xFFFFF000, 0x0, 0x0⟩,
  ⟨0x60034, 0xFFFF, 0x0, 0x0⟩,
  ⟨0x60038, 0xFFFFFFFF, 0x0, 0x0⟩,
  ⟨0x6003C, 0xFFFF, 0x0, 0x200⟩,
  ⟨0x6005C, 0x0, 0xFFFFFFFF, 0x0⟩,
  ⟨0x60080, 0xF, 0x0, 0x4⟩]

/-- Words of the LK_ registers. -/
def lkWords : List RegWord := [
  ⟨0x70000, 0x73, 0x0, 0x40⟩,
  ⟨0x70004, 0x0, 0xC, 0x0⟩,
  ⟨0x7002C, 0x0, 0xFFFFFFFF, 0x0⟩]

/-- Words of the MR_ registers. -/
def mrWords : List RegWord := [
  ⟨0x80000, 0x19, 0x0, 0x0⟩,
  ⟨0x80004, 0x0, 0x8300, 0x0⟩,
  ⟨0x80028, 0xFFFFF000, 0x0, 0x0⟩,
  ⟨0x8002C, 0xFFFF, 0x0, 0x0⟩,
  ⟨0x80030, 0xFFFFF000, 0x0, 0x0⟩,
  ⟨0x80034, 0xFFFF, 0x0, 0x0⟩,
  ⟨0x80038, 0xFFFFFFFF, 0x0, 0x0⟩,
  ⟨0x8003C, 0xFFFFFFFF, 0x0, 0x0⟩,
  ⟨0x8009C, 0x0, 0xFFFFFFFF, 0x0⟩]

/-- Words of the IN_ registers. -/
def inWords : List RegWord := [
  ⟨0x90000, 0xF, 0x0, 0x2⟩,
  ⟨0x90004, 0x0, 0xC, 0x0⟩,
  ⟨0x90008, 0xFFFFFFFF, 0x0, 0x0⟩,
  ⟨0x9000C, 0xFFFFFFFF, 0x0, 0x0⟩,
  ⟨0x90010, 0xFFFFF000, 0x0, 0x0⟩,
  ⟨0x90014, 0xFFFF, 0x0, 0x0⟩,
  ⟨0x90018, 0xFF00FFFF, 0x0, 0x0⟩,
  ⟨0x9001C, 0xFFFFFFFF, 0x0, 0x0⟩,
  ⟨0x90020, 0xFFFFFFFF, 0x0, 0x258⟩,
  ⟨0x90028, 0xFFFFF000, 0x0, 0x0⟩,
  ⟨0x9002C, 0xFFFF, 0x0, 0x0⟩,
  ⟨0x90030, 0xFFFFFFFF, 0x0, 0x0⟩,
  ⟨0x90038, 0xFFFFFFFF, 0x0, 0x0⟩,
  ⟨0x90040, 0xFFFFFF00, 0x0, 0x0⟩,
  ⟨0x90044, 0xFFF0FFFF, 0x0, 0x0⟩,
  ⟨0x90048, 0xFFFFFFFF, 0x0, 0x0⟩,
  ⟨0x9004C, 0x7FFF000F, 0x0, 0x0⟩,
  ⟨0x900A4, 0x0, 0xFFFFFFFF, 0x0⟩]

/-- Words of the PW_ registers. -/
def pwWords : List RegWord := [
  ⟨0xA0000, 0xFFF0007, 0x0, 0xFFF0001⟩,
  ⟨0xA0004, 0x0, 0x106, 0x0⟩,
  ⟨0xA000C, 0x1FF3FFC, 0x0, 0xFF3FFC⟩,
  ⟨0xA0094, 0x0, 0xFFFFFFFF, 0x0⟩]

/-- Words of the HQ_ registers. -/
def hqWords : List RegWord := [
  ⟨0xB0000, 0x3, 0x0, 0x0⟩,
  ⟨0xB0008, 0xFFFFF000, 0x0, 0x0⟩,
  ⟨0xB000C, 0x7FFF, 0x0, 0x0⟩,
  ⟨0xB0010, 0xFFFFF000, 0x0, 0x0⟩,
  ⟨0xB0014, 0xFFFFFFFF, 0x0, 0x0⟩,
  ⟨0xB0018, 0xC0000000, 0x0, 0x0⟩,
  ⟨0xB001C, 0xFFFF, 0x0, 0x0⟩]

/-- Words of the KW_ registers. -/
def kwWords : List RegWord := [
  ⟨0xC0000, 0x0, 0x0, 0x10⟩,
  ⟨0xC0004, 0x3, 0x0, 0x0⟩,
  ⟨0xC0030, 0x3F0000, 0x3F, 0x3F0000⟩]

/-- Words of the MB_ registers. -/
def mbWords : List RegWord := [
  ⟨0x4000084, 0x0, 0x6, 0x0⟩]

/-- The words that stand once. -/
def fixedWords : List RegWord :=
  clWords ++ tkWords ++ mcWords ++ nbWords ++ kvWords ++ sqWords ++ lkWords ++ mrWords ++ inWords ++ pwWords ++ hqWords ++ kwWords ++ mbWords

/-- A register repeated `count` times at `stride`; the offset of `word` is that of index 0. -/
structure RegRow where
  stride : Nat
  count  : Nat
  word   : RegWord
deriving DecidableEq, Repr

/-- The words that repeat. -/
def arrayWords : List RegRow := [
  ⟨0x20, 12, ⟨0x30114, 0x0, 0xFFFFFFFF, 0x0⟩⟩,
  ⟨0x80, 16, ⟨0x31000, 0xFFFFF000, 0x0, 0x0⟩⟩,
  ⟨0x80, 16, ⟨0x31004, 0xFFFF, 0x0, 0x0⟩⟩,
  ⟨0x80, 16, ⟨0x31008, 0xFFFFF000, 0x0, 0x0⟩⟩,
  ⟨0x80, 16, ⟨0x3100C, 0xFFFF, 0x0, 0x0⟩⟩,
  ⟨0x80, 16, ⟨0x31010, 0xFFFFF000, 0x0, 0x0⟩⟩,
  ⟨0x80, 16, ⟨0x31014, 0xFFFF, 0x0, 0x0⟩⟩,
  ⟨0x80, 16, ⟨0x31018, 0xFFFFF000, 0x0, 0x0⟩⟩,
  ⟨0x80, 16, ⟨0x3101C, 0xFFFF, 0x0, 0x0⟩⟩,
  ⟨0x80, 16, ⟨0x31024, 0x0, 0x100, 0x0⟩⟩,
  ⟨0x40, 16, ⟨0x32000, 0xFFFFF000, 0x0, 0x0⟩⟩,
  ⟨0x40, 16, ⟨0x32004, 0xFFFF, 0x0, 0x0⟩⟩,
  ⟨0x40, 16, ⟨0x32008, 0xFFFFFFFF, 0x0, 0x0⟩⟩,
  ⟨0x40, 16, ⟨0x32010, 0xFFFFF000, 0x0, 0x0⟩⟩,
  ⟨0x40, 16, ⟨0x32014, 0xFFFF, 0x0, 0x0⟩⟩,
  ⟨0x40, 16, ⟨0x32018, 0xFFFFF000, 0x0, 0x0⟩⟩,
  ⟨0x40, 16, ⟨0x3201C, 0xFFFF, 0x0, 0x0⟩⟩,
  ⟨0x40, 16, ⟨0x32020, 0xFFFFFFFF, 0x0, 0x0⟩⟩,
  ⟨0x40, 16, ⟨0x32030, 0xFFFFF000, 0x0, 0x0⟩⟩,
  ⟨0x40, 16, ⟨0x32034, 0xFFFF, 0x0, 0x0⟩⟩,
  ⟨0x40, 16, ⟨0x32028, 0xF19, 0x0, 0x0⟩⟩,
  ⟨0x40, 16, ⟨0x3202C, 0x0, 0x4, 0x0⟩⟩,
  ⟨0x10, 32, ⟨0x50100, 0xFFFFF000, 0x0, 0x0⟩⟩,
  ⟨0x10, 32, ⟨0x50104, 0xFFFF, 0x0, 0x0⟩⟩,
  ⟨0x10, 32, ⟨0x50108, 0xFFFFFFFF, 0x0, 0x0⟩⟩,
  ⟨0x40, 17, ⟨0x70100, 0x1F9, 0x0, 0x1⟩⟩,
  ⟨0x40, 17, ⟨0x70120, 0x0, 0xFFFFFFFF, 0x0⟩⟩,
  ⟨0x20, 16, ⟨0x70800, 0xFFFFF000, 0x0, 0x0⟩⟩,
  ⟨0x20, 16, ⟨0x70804, 0xFFFF, 0x0, 0x0⟩⟩,
  ⟨0x20, 16, ⟨0x70808, 0xFFFFF000, 0x0, 0x0⟩⟩,
  ⟨0x20, 16, ⟨0x7080C, 0x1, 0x0, 0x0⟩⟩,
  ⟨0x20, 16, ⟨0x70810, 0xFFFFF007, 0x0, 0x0⟩⟩,
  ⟨0x4, 1024, ⟨0x71000, 0xFFFF, 0x0, 0x0⟩⟩,
  ⟨0x20, 256, ⟨0xB1000, 0xFFFFF000, 0x0, 0x0⟩⟩,
  ⟨0x20, 256, ⟨0xB1004, 0xFFFF, 0x0, 0x0⟩⟩,
  ⟨0x20, 256, ⟨0xB1008, 0xFFFFF000, 0x0, 0x0⟩⟩,
  ⟨0x20, 256, ⟨0xB100C, 0xFFFF, 0x0, 0x0⟩⟩,
  ⟨0x20, 256, ⟨0xB1010, 0x1FFB, 0x0, 0x630⟩⟩,
  ⟨0x20, 256, ⟨0xB1018, 0x0, 0x0, 0x100⟩⟩,
  ⟨0x20, 256, ⟨0xB101C, 0xFFFF00FF, 0x0, 0x1⟩⟩]

/-- The word a row has at an offset, when the offset is one of its own. -/
def rowAt (r : RegRow) (off : Nat) : Bool :=
  decide (r.word.off ≤ off) && decide ((off - r.word.off) % r.stride = 0) &&
    decide ((off - r.word.off) / r.stride < r.count)

/-- How the word at an offset answers a write; none where no bit of it is writable and it resets to 0. The MSI-X
table (R404) is plain storage, PRESUMED (notes/assumptions). -/
def regWord (off : Nat) : Option RegWord :=
  match fixedWords.find? (fun w => w.off = off) with
  | some w => some w
  | none =>
    match arrayWords.find? (fun r => rowAt r off) with
    | some r => some r.word
    | none => if 0x200000 ≤ off ∧ off < 0x201100 then some ⟨off, 0xFFFFFFFF, 0, 0⟩ else none

/-- What a register word holds after reset. -/
def regReset (off : Nat) : Word32 :=
  match regWord off with
  | some w => BitVec.ofNat 32 w.reset
  | none => 0

end Sys2Proof.Machine
end

