-- ==== Sys2Proof/Config.lean ====
section
/-! DEFINITION. What the spec leaves to the part or leaves open: constants without a body, so no proof can lean on a
value of them. Each free value is a function of the operands it depends on or of the state's plain counter `free`. -/
namespace Sys2Proof.Config

/-- The part number ordered: true for ZW-PX9-B288-L (R2). -/
opaque variantB : Bool
/-- Completion rate in M per second at grid point (voltage index, temperature index), measured at manufacture (R35). -/
opaque cornerRate (v t : Nat) : Nat
/-- The two ASCII characters of the stepping (Table 2-1). -/
opaque stepping : Nat
/-- The fused serial number, 128 bits (Table 17-15). -/
opaque serial : Nat
/-- A free value: the n-th value the machine leaves open (notes/assumptions). -/
opaque freeNat : Nat → Nat
/-- The global core ID that a record gives for a core that serves none, and ARG2 of the RETIRED record of an idle spare
(Table 15-9): the spec states neither. -/
opaque noCoreId : Nat
opaque idleSpareArg : Nat
/-- FP32 result of VEXP within its 2 ulp: how many representable values above (even) or below (odd) the value just
below the exact one, by sub-function and operand bits (R98). -/
opaque expPick : Nat → Nat → Nat
/-- FP32 result of VRCP (0) or VRSQ (1), BF16 and FP32, within its 1 ulp, by operand bits (R98). -/
opaque rcpPick : Nat → Nat → Nat → Nat
/-- Result bits of an operation whose value the spec does not state for these operands: operation code, format and
operand bits. -/
opaque unstated : Nat → Nat → Nat → Nat → Nat
/-- Which neighbour an inexact rate factor takes (R43): the spec states no rounding. -/
opaque ratePick : Nat → Nat → Nat
/-- The larger number of query heads per head group of the two models (R293): no register of the spec carries it. -/
opaque queryHeads : Nat
/-- Code lengths the block compressor gives the symbols of a block by method (R169): the spec does not state which
length-limited code it forms. Used only where it is a valid table that covers the block. -/
opaque codeLengths : Nat → List Byte → List Nat
/-- The image-signing public key fused into the boot ROM's area, 57 bytes (R393). -/
opaque imageKey : List Byte
/-- The 57-byte private keys that the security engine derives (R398): index 0 the identity key, index 1 the alias key of
the M0 given. The spec states no derivation. -/
opaque privateKey : Nat → List Byte → List Byte
/-- Digest of the known-answer suite that a firmware image body carries (R393, R399): its place in the body is not stated. -/
opaque suiteDigest : List Byte → List Byte
/-- The certificate chain's bytes (R398), by the chain's inputs. -/
opaque certChain : List Byte → List Byte

end Sys2Proof.Config
end

