-- ==== Sys2Proof/Machine/WordCode.lean ====
section
/-! DEFINITION. The code that the memory controllers keep over each 128-bit word of HBM (R149, R150), and where the
interleaves of HBM (R148) and of plain tier 2 (R164) place an address. -/
namespace Sys2Proof.Machine

/-! ## GF(2^8), field polynomial x^8 + x^4 + x^3 + x^2 + 1 -/

/-- Multiply by α, a root of the field polynomial. -/
def gfDouble (a : Byte) : Byte := (a <<< 1) ^^^ (if a.msb then 0x1D else 0)

/-- Multiply two field elements: `b`'s bits from the highest down. -/
def gfMul (a b : Byte) : Byte :=
  [7, 6, 5, 4, 3, 2, 1, 0].foldl (fun acc i => gfDouble acc ^^^ (if b.getLsbD i then a else 0)) 0

/-- The powers of α from `x` on. -/
def gfPowers (x : Byte) : Nat → List Byte
  | 0 => []
  | n + 1 => x :: gfPowers (gfDouble x) n

/-- α^0 to α^17, the locators of symbols c0 to c17. -/
def locators : List Byte := gfPowers 1 18

/-- α^16, and the inverse of α^16 + α^17. -/
def alpha16 : Byte := locators.getD 16 0
def checkInv : Byte := (gfPowers 1 215).getD 214 0

/-! ## The word code (R149) -/

/-- S0 of a word's symbols. -/
def syndrome0 (c : List Byte) : Byte := c.foldl (· ^^^ ·) 0

/-- S1 of a word's symbols. -/
def syndrome1 (c : List Byte) : Byte :=
  ((List.zip c locators).map fun p => gfMul p.1 p.2).foldl (· ^^^ ·) 0

/-- The check bytes c16 and c17 of a word's 16 bytes: the pair for which both syndromes are zero. -/
def checkBytes (c : List Byte) : Byte × Byte :=
  let c17 := gfMul (syndrome1 c ^^^ gfMul (syndrome0 c) alpha16) checkInv
  (syndrome0 c ^^^ c17, c17)

/-- What a controller makes of a word's 18 symbols (Table 7-2). -/
inductive WordOutcome where
  | asRead
  | corrected (i : Nat)
  | uncorrectable
deriving DecidableEq, Repr

/-- Table 7-2: symbol i is in error when S1 = S0 α^i. -/
def wordOutcome (c : List Byte) : WordOutcome :=
  let s0 := syndrome0 c
  let s1 := syndrome1 c
  if s0 = 0 ∧ s1 = 0 then .asRead
  else if s0 = 0 ∨ s1 = 0 then .uncorrectable
  else match (List.zip locators (List.range 18)).find? fun p => decide (gfMul s0 p.1 = s1) with
    | some p => .corrected p.2
    | none => .uncorrectable

/-- A word's 16 bytes as its controller delivers them: symbol i corrected by adding S0, an uncorrectable word zero (R150,
R153). -/
def wordDelivered (c : List Byte) : List Byte :=
  match wordOutcome c with
  | .asRead => c.take 16
  | .corrected i => (c.set i (c.getD i 0 ^^^ syndrome0 c)).take 16
  | .uncorrectable => List.replicate 16 0

/-! ## A burst's metadata bits (R149) -/

/-- The 32 metadata bits of a burst, from the data of its two words. -/
def burstMetadata (w0 w1 : List Byte) : Word32 :=
  (checkBytes w1).2 ++ (checkBytes w1).1 ++ (checkBytes w0).2 ++ (checkBytes w0).1

/-- The check bytes that a burst's metadata bits hold for word 0 or 1 of the burst. -/
def metadataChecks (m : Word32) (word : Nat) : List Byte :=
  [m.extractLsb' (16 * word) 8, m.extractLsb' (16 * word + 8) 8]

/-- The four metadata bits that beat `b` of the burst carries. -/
def metadataBeat (m : Word32) (b : Nat) : BitVec 4 := m.extractLsb' (4 * b) 4

/-- The 18 symbols of a word as the array returns it: its data bytes, and its check bytes out of its burst's metadata. -/
def wordSymbols (data : BitVec 128) (m : Word32) (word : Nat) : List Byte :=
  natBytes 16 data.toNat ++ metadataChecks m word

/-! ## The interleave of HBM (R148) -/

/-- Where the hash of R148 places a granule. -/
structure Place where
  stack   : Nat
  channel : Nat
  pseudo  : Nat
  unit    : Nat
  bank    : Nat
  row     : Nat
  column  : Nat
deriving DecidableEq, Repr

/-- The interleave hash, identifier 0x0001 (R148). -/
def interleave (a : Nat) : Place :=
  let g := a / 256
  let t := g / 128 % 3
  let l := g / 128 / 3
  let f := l % 128 ^^^ l / 128 % 128 ^^^ l / 16384 % 128 ^^^ l / 2097152 % 2
  let u := g % 128 ^^^ f
  let e := l / 3
  let unit := e % 16 ^^^ e / 65536 % 16
  let off := e / 16 % 65536
  { stack := 4 * t + u % 4, channel := u / 4 % 16, pseudo := u / 64, unit := unit, bank := 3 * unit + l % 3,
    row := off / 4, column := off % 4 }

/-- Global pseudo-channel index of an address. -/
def pseudoChannel (a : Nat) : Nat :=
  let p := interleave a
  32 * p.stack + 2 * p.channel + p.pseudo

/-! ## Plain tier 2 (R164) -/

/-- First address of tier 2 (Table 1-7). -/
def tier2Base : Nat := 0x100000000000

/-- Tier 2 has 2^k channels (Table 7-8). -/
def tier2LogChannels : Nat := if Config.variantB then 6 else 5

/-- Where a plain tier-2 address lies: channel, block within the channel, and the channel's quarter. -/
structure Tier2Place where
  channel : Nat
  block   : Nat
  quarter : Nat
deriving DecidableEq, Repr

def tier2Place (a : Nat) : Tier2Place :=
  let k := tier2LogChannels
  let b := (a - tier2Base) / 4096
  let ch := b % 2 ^ k ^^^ b / 2 ^ k % 2 ^ k
  { channel := ch, block := b / 2 ^ k, quarter := ch % 4 }

end Sys2Proof.Machine
end

