-- ==== Sys2Proof/Machine/Ops.lean ====
section
/-! DEFINITION. The named operations over the state: the tick, registers and their access codes (R5), units and their
identifiers (R6), the device address map (R10), host writes (R201), interrupts (R409), alerts (R392) and error
records (R365, R425). -/
namespace Sys2Proof.Machine

/-! ## Tick and free values -/

/-- Tick `t` lies ahead of tick `n` on the 64-bit counter, by less than half its range (R44). -/
def ahead (n t : Nat) : Bool := if n ≤ t then decide (t - n < 2 ^ 63) else decide (2 ^ 63 < n - t)

/-- The counter value at which an event sampled in tick `t` is presented, from counter value `n`: an event of an earlier
tick has waited and is presented now (R50). -/
def reach (n t : Nat) : Nat := if ahead n (t % 2 ^ 64) then t % 2 ^ 64 else n

/-- The state when an event sampled in tick `t` is presented (R49, R50): the counter has reached `t`. -/
def atTick (s : State) (t : Nat) : State := { s with tk := reach s.tk t }

/-- The free value the state's counter now names. -/
def freeNow (s : State) : Nat := Config.freeNat s.free

/-- The state after one free value has been taken. -/
def tookFree (s : State) : State := { s with free := s.free + 1 }

/-- Low 48 bits of the counter (R45). -/
def tick48 (s : State) : Nat := s.tk % 2 ^ 48

/-! ## Registers -/

/-- The 32-bit word at a register offset. -/
def regGet (s : State) (off : Nat) : Word32 := smGet regReset s.regs off

/-- Set the 32-bit word at a register offset, as hardware does. -/
def regPut (s : State) (off : Nat) (v : Word32) : State := { s with regs := smSet regReset s.regs off v }

/-- The 64-bit register at an offset, as a number. -/
def reg64 (s : State) (off : Nat) : Nat := (regGet s off).toNat + 2 ^ 32 * (regGet s (off + 4)).toNat

/-- Set a 64-bit register. -/
def setReg64 (s : State) (off v : Nat) : State :=
  regPut (regPut s off (BitVec.ofNat 32 v)) (off + 4) (BitVec.ofNat 32 (v / 2 ^ 32))

/-- A field's value. -/
def fld (s : State) (f : Fld) : Nat :=
  if f.hi < 32 then bits (regGet s f.off).toNat f.hi f.lo else bits (reg64 s f.off) f.hi f.lo

/-- The WC bits of a word that hardware has set in the current tick (R5, Table 0-3). -/
def heldBits (s : State) (off : Nat) : Word32 :=
  if s.hwSetAt = s.tk then (s.hwSet.filter fun p => decide (p.1 = off)).foldl (fun m p => m ||| p.2) 0 else 0

/-- Note the WC bits that hardware sets by writing `x` to a field: a field of one bit, set again or not, and the bits of a
wider field that become 1. -/
def noteSet (s : State) (f : Fld) (x : Nat) : State :=
  let m := BitVec.ofNat 32 ((regWord f.off).elim 0 (·.wc)) &&& BitVec.ofNat 32 (setBits 0 f.hi f.lo x) &&&
    (if f.hi = f.lo then BitVec.allOnes 32 else ~~~regGet s f.off)
  if m = 0 then s
  else { s with hwSetAt := s.tk, hwSet := (f.off, m) :: if s.hwSetAt = s.tk then s.hwSet else [] }

/-- Set a field, as hardware does. -/
def setFld (s : State) (f : Fld) (x : Nat) : State :=
  if f.hi < 32 then regPut (noteSet s f x) f.off (BitVec.ofNat 32 (setBits (regGet s f.off).toNat f.hi f.lo x))
  else setReg64 s f.off (setBits (reg64 s f.off) f.hi f.lo x)

/-- Set bit `i` of a field, as hardware does; its other bits stay. -/
def setBit (s : State) (f : Fld) (i : Nat) : State := setFld s ⟨f.off, f.lo + i, f.lo + i⟩ 1

/-- A one-bit field is set. -/
def flag (s : State) (f : Fld) : Bool := decide (fld s f ≠ 0)

/-- Address held in a field [47:lo] of a base register, with its low bits zero. -/
def baseFld (s : State) (f : Fld) : Nat := fld s f * 2 ^ f.lo

/-- Add to a saturating 32-bit counter; reaching the largest value sets its OVF bit (R367). -/
def countUp (s : State) (ctr ovf : Fld) (ovfBit n : Nat) : State :=
  let v := fld s ctr + n
  if 0xFFFFFFFF ≤ v then
    setBit (setFld s ctr 0xFFFFFFFF) ovf ovfBit
  else setFld s ctr v

/-- Add to a 64-bit running total (R367). -/
def addTotal (s : State) (f : Fld) (n : Nat) : State := setReg64 s f.off ((reg64 s f.off + n) % 2 ^ 64)

/-- Copy bytes into consecutive register words (IN_LAST, digests). -/
def regPutBytes (s : State) (off : Nat) (bs : List Byte) : State :=
  (List.range ((bs.length + 3) / 4)).foldl
    (fun st i => regPut st (off + 4 * i) (BitVec.ofNat 32 (fieldAt bs (4 * i) 4))) s

/-- Bytes held in consecutive register words. -/
def regBytes (s : State) (off n : Nat) : List Byte :=
  (List.range (n / 4)).flatMap fun i => natBytes 4 (regGet s (off + 4 * i)).toNat

/-- What a 32-bit write leaves in a word under the access codes of Table 0-3: RW bits take the value written, a 1
clears a WC bit unless hardware has set it in the same tick (`held`), every other bit keeps its value. -/
def writeWord (w : RegWord) (old held v : Word32) : Word32 :=
  (old &&& ~~~(BitVec.ofNat 32 w.rw) &&& ~~~(BitVec.ofNat 32 w.wc &&& v &&& ~~~held)) ||| (v &&& BitVec.ofNat 32 w.rw)

/-- Kolwin forms the configuration digest anew (R334). -/
def formDigest (s : State) : State := { s with mirror := { s.mirror with digestFormed := true } }

/-- The bits of a register word that the configuration digest covers: KV_GEOM, KV_PLACE, KV_EVICT, SQ_TILES and SEG_LOG2 (R334). -/
def digestMask (off : Nat) : Word32 :=
  if off = 0x50008 ∨ off = 0x5000C ∨ off = 0x50010 ∨ off = 0x50018 ∨ off = 0x5001C then BitVec.allOnes 32
  else if off = 0x6003C then 0xFFFF
  else if off = 0x60080 then 0xF
  else 0

/-- A 32-bit write to a register word with no behaviour of its own (R5). A change of what the configuration digest covers
has it formed anew (R334). -/
def plainWrite (s : State) (off : Nat) (v : Word32) : State :=
  match regWord off with
  | some w =>
    let x := writeWord w (regGet s off) (heldBits s off) v
    let s1 := regPut s off x
    if (x ^^^ regGet s off) &&& digestMask off = 0 then s1 else formDigest s1
  | none => s

/-! ## Units -/

/-- The number of physical cores (Table 0-4). -/
def numCores : Nat := 544

def clusterOf (k : Nat) : Nat := k / 17
def quarterOf (k : Nat) : Nat := k / 136
/-- The core rail of a physical core (R14). -/
def railOf (k : Nat) : Nat := k / 17 % 8

/-- The global ID a physical core serves when nothing has been substituted; 512 for a spare (R6). -/
def homeGid (k : Nat) : Nat := if k % 17 < 16 ∧ k < numCores then 16 * (k / 17) + k % 17 else 512

/-- The global ID a physical core serves; 512 for none. -/
def gidOf (s : State) (k : Nat) : Nat := smGet homeGid s.gids k

def setGid (s : State) (k g : Nat) : State := { s with gids := smSet homeGid s.gids k g }

/-- The physical core that serves a global ID (R6), if any does. -/
def physOf (s : State) (g : Nat) : Option Nat :=
  if g < 512 then (List.range 17).findSome? fun i =>
    let k := 17 * (g / 16) + i
    if gidOf s k = g then some k else none
  else none

def coreDefault (_ : Nat) : Core := {}
def getCore (s : State) (k : Nat) : Core := smGet coreDefault s.cores k
def setCore (s : State) (k : Nat) (c : Core) : State := { s with cores := smSet coreDefault s.cores k c }

def clusterDefault (_ : Nat) : Cluster := {}
def getCluster (s : State) (n : Nat) : Cluster := smGet clusterDefault s.clusters n
def setCluster (s : State) (n : Nat) (c : Cluster) : State := { s with clusters := smSet clusterDefault s.clusters n c }

def cellDefault (_ : Nat) : SyncCell := {}
def getCell (s : State) (n : Nat) : SyncCell := smGet cellDefault s.cells n
def setCell (s : State) (n : Nat) (c : SyncCell) : State := { s with cells := smSet cellDefault s.cells n c }

def dotDefault (_ : Nat) : DotEntry := {}
def getDot (s : State) (m : Nat) : DotEntry := smGet dotDefault s.dot m
def setDot (s : State) (m : Nat) (e : DotEntry) : State := { s with dot := smSet dotDefault s.dot m e }

def reqDefault (_ : Nat) : Req := {}
def getReq (s : State) (n : Nat) : Req := smGet reqDefault s.reqs n
def setReq (s : State) (n : Nat) (r : Req) : State := { s with reqs := smSet reqDefault s.reqs n r }

def queueDefault (_ : Nat) : Queue := {}
def getQueue (s : State) (n : Nat) : Queue := smGet queueDefault s.queues n
def setQueue (s : State) (n : Nat) (q : Queue) : State := { s with queues := smSet queueDefault s.queues n q }

def portDefault (_ : Nat) : Port := {}
def getPort (s : State) (n : Nat) : Port := smGet portDefault s.links.ports n
def setPort (s : State) (n : Nat) (p : Port) : State :=
  { s with links := { s.links with ports := smSet portDefault s.links.ports n p } }

def natDefault (_ : Nat) : Nat := 0
def boolDefault (_ : Nat) : Bool := false

/-! ## The device address map (R10, Table 1-7) -/

/-- The rows of Table 1-7. -/
inductive Row where
  | hbm | tier2 | host | peer | none
deriving DecidableEq, Repr

def hbmBytes : Nat := 0x4800000000
def hostBase : Nat := 0x800000000000
def peerBase : Nat := 0xC00000000000
def peerBytes : Nat := 0x1000000000

/-- Populated bytes of tier 2 (R2, Table 2-8). -/
def tier2Bytes : Nat := if Config.variantB then 0x10000000000 else 0x8000000000

/-- The row that covers every byte of `[a, a + n)` within its populated size. -/
def rowOf (s : State) (a n : Nat) : Row :=
  if a + n ≤ hbmBytes then .hbm
  else if tier2Base ≤ a ∧ a + n ≤ tier2Base + tier2Bytes then .tier2
  else if hostBase ≤ a ∧ a + n ≤ min (hostBase + s.kolwin.hostWin) peerBase then .host
  else if peerBase ≤ a ∧ a + n ≤ 0x1000000000000 then .peer
  else .none

/-- The PCIe bus address of a host-window address (R405). -/
def busAddr (s : State) (a : Nat) : Nat := baseFld s Reg.hqHostwinBaseBase + (a - hostBase)

/-- Bytes of HBM, tier 2 or host memory at a device address. -/
def physRead (s : State) (a n : Nat) : List Byte :=
  if hostBase ≤ a ∧ a < peerBase then readBytes s.hostMem (busAddr s a) n else readBytes s.mem a n

/-- Why a read of tier 2 or of host memory fails: the cause of Table 15-9 (R165, R174). -/
def readFault (s : State) (a n : Nat) : Option Nat :=
  (s.kolwin.readFaults.find? fun p => decide (0 < n ∧ a < 4096 * (p.1 + 1) ∧ 4096 * p.1 < a + n)).map (·.2)

/-- Bytes of the host window that can be read. -/
def hostReads (s : State) (a n : Nat) : Bool := decide (rowOf s a n = .host) && (readFault s a n).isNone

/-- A little-endian number at a device address. -/
def physNat (s : State) (a n : Nat) : Nat := leNat (physRead s a n)

/-- Clear the error marks of the 16-byte words a write overlays whole: a fresh word is encoded afresh (R149). -/
def freshWords (m : List (Nat × Bool)) (a n : Nat) : List (Nat × Bool) :=
  m.filter fun c => !(decide (a ≤ 16 * c.1) && decide (16 * c.1 + 16 ≤ a + n))

/-- Store bytes of HBM or tier 2, each whole word encoded afresh. -/
def store (s : State) (a : Nat) (bs : List Byte) : State :=
  { s with
    mem := writeBytes s.mem a bs
    badWords := freshWords s.badWords a bs.length
    softWords := freshWords s.softWords a bs.length }

/-- Store bytes of host memory at an address of the host window. -/
def hostStore (s : State) (a : Nat) (bs : List Byte) : State :=
  { s with hostMem := writeBytes s.hostMem (busAddr s a) bs }

/-- The lowest word of `[a, a + n)` that reads uncorrectable (R150), as a byte address. -/
def badIn (s : State) (a n : Nat) : Option Nat :=
  (s.badWords.find? fun c => decide (a / 16 ≤ c.1) && decide (16 * c.1 < a + n)).map fun c => 16 * c.1

/-- Uncorrectable words that a read of `[a, a + n)` meets, as word indices. -/
def badWordsIn (s : State) (a n : Nat) : List Nat :=
  (s.badWords.filter fun c => decide (a / 16 ≤ c.1) && decide (16 * c.1 < a + n)).map (·.1)

/-- Correctable words that a read of `[a, a + n)` meets. -/
def softWordsIn (s : State) (a n : Nat) : List Nat :=
  (s.softWords.filter fun c => decide (a / 16 ≤ c.1) && decide (16 * c.1 < a + n)).map (·.1)

/-- Copy `n` bytes from one device address to another. -/
def physCopy (s : State) (src dst n : Nat) : State :=
  let sh := decide (hostBase ≤ src) && decide (src < peerBase)
  let dh := decide (hostBase ≤ dst) && decide (dst < peerBase)
  let sm := if sh then s.hostMem else s.mem
  let sa := if sh then busAddr s src else src
  if dh then { s with hostMem := copyRange sm sa s.hostMem (busAddr s dst) n }
  else { s with
    mem := copyRange sm sa s.mem dst n
    badWords := freshWords s.badWords dst n
    softWords := freshWords s.softWords dst n }

/-! ## Interrupts and alerts -/

/-- The device is FENCED: it issues no PCIe write (R342). -/
def fenced (s : State) : Bool := decide (fld s Reg.mrStatusState = 5)

/-- Send an MSI-X vector (R409). A FATAL device sends none but vector 267 (R410), a FENCED one none (R342). -/
def sendVector (s : State) (v : Nat) : State :=
  if (s.kolwin.fatal ∧ v ≠ 267) ∨ fenced s then s else { s with msix := v :: s.msix }

/-- Send a vector governed by an enable field. -/
def sendIf (s : State) (en : Fld) (v : Nat) : State := if flag s en then sendVector s v else s

/-- ALERT_N follows KW_ALERT: low while an enabled cause is set (R392). -/
def driveAlert (s : State) : State :=
  { s with pins := { s.pins with alertN := decide (fld s Reg.kwAlertCause &&& fld s Reg.kwAlertEnable = 0) } }

/-- Set a KW_ALERT cause (R392): the enabled cause also sends an in-band interrupt when the port runs I3C. -/
def setAlert (s : State) (i : Nat) : State :=
  let s1 := setBit s Reg.kwAlertCause i
  let s2 := if bit (fld s1 Reg.kwAlertEnable) i ∧ flag s1 Reg.kwStatusI3cMode
    then { s1 with kolwin := { s1.kolwin with ibis := i :: s1.kolwin.ibis } } else s1
  driveAlert s2

/-! ## Error records (R365, R425) -/

/-- An error record before its device, tick and number are filled in (Table 15-8). -/
structure ErrRec where
  type : Nat
  cls  : Nat := 0xFF
  src  : Nat := 0xFFFF
  rc   : Nat := 0xFFFF
  step : Nat := 0
  a0   : Nat := 0
  a1   : Nat := 0
  a2   : Nat := 0
  a3   : Nat := 0
  /-- Request contexts of the continuation records. -/
  more : List Nat := []
deriving DecidableEq, Repr

/-- DEVICE of an error record (R425). -/
def deviceField (s : State) : Nat := if flag s Reg.lkStatusIdValid then fld s Reg.lkCtrlDeviceId else 0xFFFF

/-- Continuation records: up to 31 request contexts each, unused places 0xFFFF (Table 15-8). -/
def contRecords (rcs : List Nat) : List (List Byte) :=
  (chunks 31 rcs.length rcs).map fun g =>
    [0xFF, 0] ++ g.flatMap (natBytes 2) ++ List.replicate (62 - 2 * g.length) 0xFF

/-- The 64 bytes of an error record (Table 15-8). -/
def recordBytes (s : State) (r : ErrRec) : List Byte :=
  natBytes 1 r.type ++ natBytes 1 r.cls ++ natBytes 2 r.src ++ natBytes 2 (deviceField s) ++ natBytes 2 r.rc ++
  natBytes 8 s.tk ++ natBytes 8 r.step ++ natBytes 8 r.a0 ++ natBytes 8 r.a1 ++ natBytes 8 r.a2 ++ natBytes 8 r.a3 ++
  natBytes 4 s.integ.recordSeq ++ natBytes 2 (contRecords r.more).length ++ natBytes 2 0

/-- IN_LOG_ENTRIES as it acts: a power of two from 64 to 1,048,576, else 0 (R425). -/
def logEntries (s : State) : Nat :=
  let e := fld s Reg.inLogEntriesEntries
  if (List.range 15).any (fun i => e = 2 ^ (i + 6)) then e else 0

/-- Write records to consecutive slots of the log ring, advancing IN_LOG_TAIL. -/
def logPut (s : State) (entries : Nat) : List (List Byte) → State
  | [] => s
  | r :: rs =>
    let t := fld s Reg.inLogTailTail
    let s1 := hostStore s (baseFld s Reg.inLogBaseBase + 64 * (t % entries)) r
    logPut (setFld s1 Reg.inLogTailTail ((t + 1) % 2 ^ 32)) entries rs

/-- The step in progress, or the last step launched when none is. -/
def stepNow (s : State) : Nat :=
  match s.sched.cur with
  | some p => p.idx
  | none => reg64 s Reg.sqStepStep.off

/-- The event of Table 3-3 that raises a record has already raised one in this tick: signals of one source sampled in one
tick are one event, which carries the first error's record (R51, R425). -/
def alreadyRaised (s : State) (r : ErrRec) : Bool :=
  decide (r.cls ≠ 0xFF ∧ s.integ.raisedAt = s.tk) && s.integ.raised.contains (r.cls, r.src)

/-- Note the event that raises a record. -/
def noteRaised (s : State) (r : ErrRec) : State :=
  if r.cls = 0xFF then s
  else { s with integ := { s.integ with
    raisedAt := s.tk, raised := (r.cls, r.src) :: if s.integ.raisedAt = s.tk then s.integ.raised else [] } }

/-- Form an error record: IN_LAST takes it, SEQ advances, and it is written to the log ring with its continuation
records, or dropped whole when the ring is full or a slot lies outside the host window (R201, R365, R425). A FATAL
device writes none (R410), a FENCED one puts none in the ring (R342), and a second error of one event's source in its tick
has none of its own (R51). -/
def errorRecord (s0 : State) (r : ErrRec) : State :=
  if s0.kolwin.fatal ∨ alreadyRaised s0 r then s0
  else
    let s := noteRaised s0 r
    let bytes := recordBytes s r
    let recs := bytes :: contRecords r.more
    let s1 := regPutBytes s 0x900C0 bytes
    let s2 := { s1 with integ := { s1.integ with recordSeq := (s1.integ.recordSeq + 1) % 2 ^ 32 } }
    let e := logEntries s2
    let used := (fld s2 Reg.inLogTailTail + 2 ^ 32 - fld s2 Reg.inLogHeadHead) % 2 ^ 32
    let inside := (List.range recs.length).all fun i =>
      rowOf s2 (baseFld s2 Reg.inLogBaseBase + 64 * ((fld s2 Reg.inLogTailTail + i) % e)) 64 = .host
    let s3 :=
      if e = 0 ∨ fenced s2 then s2
      else if used + recs.length ≤ e ∧ inside then logPut s2 e recs
      else setFld (countUp s2 Reg.inCountLogLost Reg.inCountOvf 8 1) Reg.inStatusLogFull 1
    sendIf s3 Reg.inCtrlLogIrqEn 263

/-- A host write whose address lies outside the host window is not issued; a WRITE_DROPPED record names it (R201). -/
def hostPut (s : State) (a : Nat) (bs : List Byte) : State :=
  if rowOf s a bs.length = .host then hostStore s a bs
  else errorRecord s { type := 0x0A, step := stepNow s, a0 := a }

/-! ## Words of HBM as they are read and written (R150 to R153) -/

/-- A word is corrected on a read: the correctable count of its stack advances (R150). -/
def countWord (s : State) (w : Nat) : State :=
  let k := (interleave (16 * w)).stack
  countUp s (Reg.mcStkCeCount k) (Reg.mcStkOvf k) 0 1

/-- Correctable words count once for each read of them (R150). -/
def countSoft (s : State) (a n : Nat) : State := (softWordsIn s a n).foldl countWord s

/-- The class 4 event of an uncorrectable word outside a guarded range (R153): its stack counts it, MC_UE_ADDR and an
error record name its granule, and UE_SEEN is set. `kind` is the reader kind of Table 15-9. -/
def ueEvent (s : State) (addr kind rc : Nat) : State :=
  let k := (interleave addr).stack
  let s1 := countUp s (Reg.mcStkUeCount k) (Reg.mcStkOvf k) 1 1
  let s2 := setReg64 s1 Reg.mcUeValid.off (2 ^ 63 + addr / 256 * 256)
  let s3 := setFld s2 Reg.mcStatusUeSeen 1
  let s4 := errorRecord s3
    { type := 0x02, cls := 4, src := 32 + k, rc := rc, step := stepNow s, a0 := addr / 256 * 256, a1 := kind }
  sendIf s4 Reg.mcCtrlUeIrqEn 259

/-- A write was dropped (R152, R157). -/
def dropWrite (s : State) (a : Nat) : State := errorRecord s { type := 0x0A, step := stepNow s, a0 := a }

/-- The words that a write of `[a, a + n)` covers in part: the first and the last at most. -/
def partWords (a n : Nat) : List Nat :=
  if n = 0 then []
  else (if a / 16 = (a + n - 1) / 16 then [a / 16] else [a / 16, (a + n - 1) / 16]).filter fun w => !(decide (a ≤ 16 * w) && decide (16 * w + 16 ≤ a + n))

/-- Read-modify-write of a word that a write covers in part (R152): the read counts a correction, and an uncorrectable
word takes nothing, with its error recorded. -/
def mergeRead (s : State) (a w : Nat) : State :=
  if smGet boolDefault s.badWords w then dropWrite (ueEvent s (16 * w) 8 0xFFFF) (max a (16 * w))
  else countSoft s (16 * w) 16

/-- The bytes a write leaves: those of an uncorrectable word covered in part stay as they are. -/
def mergedBytes (s : State) (a : Nat) (ws : List Nat) (bs : List Byte) : List Byte :=
  (List.zip (List.range bs.length) bs).map fun p =>
    let w := (a + p.1) / 16
    if ws.contains w ∧ smGet boolDefault s.badWords w then readByte s.mem (a + p.1) else p.2

/-- Store bytes of HBM or tier 2, or of host memory, at a device address. A word of HBM covered in part that is in error is
merged by read-modify-write (R152); merged, it is written afresh. -/
def physWrite (s : State) (a : Nat) (bs : List Byte) : State :=
  if hostBase ≤ a ∧ a < peerBase then hostStore s a bs
  else
    let ws := (partWords a bs.length).filter fun w => smGet boolDefault s.badWords w || smGet boolDefault s.softWords w
    if ws.isEmpty then store s a bs
    else
      let s1 := store (ws.foldl (fun st w => mergeRead st a w) s) a (mergedBytes s a ws bs)
      { s1 with softWords := s1.softWords.filter fun c => !ws.contains c.1 }

/-- Store the `n` low bytes of a number. -/
def physPut (s : State) (a n v : Nat) : State := physWrite s a (natBytes n v)

/-- Make `[a, a + n)` read zero. -/
def physClear (s : State) (a n : Nat) : State :=
  { s with
    mem := clearRange s.mem a n
    badWords := freshWords s.badWords a n
    softWords := freshWords s.softWords a n }

/-! ## Presentation of events (R49 to R52) -/

/-- The device runs: powered, out of reset and not FATAL. -/
def alive (s : State) : Bool := s.pins.powered && s.pins.resetN && !s.kolwin.fatal

/-- Present an event in tick `t`: discarded when the device is FATAL or not running (R52). -/
def present (s : State) (t : Nat) (f : State → State) : Host.Outcome State Fault Refusal :=
  let s1 := atTick s t
  if alive s1 then .next (f s1) else .next s1

/-- Present an event that a FATAL device still takes: class 0 events and board commands (R52). -/
def presentAlways (s : State) (t : Nat) (f : State → State) : Host.Outcome State Fault Refusal :=
  let s1 := atTick s t
  if s1.pins.powered && s1.pins.resetN then .next (f s1) else .next s1

/-- Present an event about unit `n` of `count`: a unit that does not exist is a fault of the command. -/
def presentUnit (s : State) (t n count : Nat) (f : State → State) : Host.Outcome State Fault Refusal :=
  if n < count then present s t f else .fault .noSuchUnit

end Sys2Proof.Machine
end

