-- ==== Sys2Proof/Machine/Operands.lean ====
section
/-! DEFINITION. Operand forms of the core instructions: the register files (R63), the fields of MOD and IMM16, and
which words of each instruction are encodings (R93, R95), with the opcode maps (Tables 5-22, 5-23). -/
namespace Sys2Proof.Machine

/-! ## Registers of a core -/

def wordDefault (_ : Nat) : Word := 0
def vecDefault (_ : Nat) : VecReg := 0

/-- Scalar register; s0 reads zero (R63). -/
def readS (c : Core) (i : BitVec 5) : Word := if i = 0 then 0 else smGet wordDefault c.s i.toNat
/-- Write a scalar register; a write to s0 is discarded (R63). -/
def writeS (c : Core) (i : BitVec 5) (v : Word) : Core :=
  if i = 0 then c else { c with s := smSet wordDefault c.s i.toNat v }
/-- Predicate register; p0 reads one (R63). -/
def readP (c : Core) (i : Nat) : Bool := decide (i = 0) || c.p.getLsbD i
/-- Write a predicate; a write to p0 is discarded (R63). -/
def writeP (c : Core) (i : Nat) (b : Bool) : Core :=
  if i = 0 then c
  else { c with p := BitVec.ofNat 8 (setBits c.p.toNat i i (b2n b)) }
/-- Vector register. -/
def readV (c : Core) (i : BitVec 5) : VecReg := smGet vecDefault c.v i.toNat
/-- Write a vector register. -/
def writeV (c : Core) (i : BitVec 5) (v : VecReg) : Core := { c with v := smSet vecDefault c.v i.toNat v }

/-- IMM16 sign-extended. -/
def simm (i : BitVec 16) : Word := i.signExtend 64
/-- Operand B of a scalar instruction: IMM16 sign-extended when IMMB is set. -/
def operandB (c : Core) (w : FmtT) : Word := if w.md.getLsbD 13 then simm w.imm else readS c w.b

/-- Instruction bits [hi:lo] of MOD, which is bits [29:16] of the word (Table 5-1). -/
def modBits (w : FmtT) (hi lo : Nat) : Nat := bits w.md.toNat (hi - 16) (lo - 16)
/-- Lane format of a vector instruction (Table 5-6). -/
def vFmt (w : FmtT) : Nat := modBits w 29 26
def vFn (w : FmtT) : Nat := modBits w 25 23
def vSeg (w : FmtT) : Nat := modBits w 22 20
/-- Format code of a matrix instruction (Table 5-8). -/
def mFmt (w : FmtT) : Nat := modBits w 27 24
def mSeg (w : FmtT) : Nat := modBits w 23 21

/-- Bits of one element of a format code (Table 2-10). -/
def fmtBits (f : Nat) : Nat :=
  if f = 1 ∨ f = 4 then 4 else if f = 2 ∨ f = 3 ∨ f = 5 then 8 else if f = 6 ∨ f = 7 then 16 else 32
/-- Lanes of a format in a vector register (Table 4-2). -/
def fmtLanes (f : Nat) : Nat := 2048 / fmtBits f

/-! ## Encodings -/

/-- How an instruction uses a register field (R95). -/
inductive Use where
  | zero | reg | p | acc | pair
deriving DecidableEq, Repr

def useOk (u : Use) (f : BitVec 5) : Bool :=
  match u with
  | .zero => decide (f = 0)
  | .reg => true
  | .p => decide (f.toNat < 8)
  | .acc => decide (f.toNat < 4)
  | .pair => decide (f.toNat % 2 = 0)

/-- What the opcode maps say of an instruction: its format, whether a guest may execute it (R123), and which words of
it are encodings. -/
structure OpInfo where
  long  : Bool := false
  guest : Bool := false
  /-- Placed in the memory queue (Table 4-3). -/
  mem   : Bool := false
  /-- Outside the memory queue, reads or writes scratchpad or every scalar register (R65). -/
  wide  : Bool := false
  /-- Register fields that name scalars, D A B C from bit 3 (R65). -/
  scal  : Nat := 0
  okT   : FmtT → Bool := fun _ => false
  okL   : FmtL → Bool := fun _ => false

/-- Register fields D, A, B, C of a format T word. -/
def regsOk (d a b c : Use) (w : FmtT) : Bool := useOk d w.d && useOk a w.a && useOk b w.b && useOk c w.c

/-- A format T instruction that uses neither MOD nor IMM16. -/
def plainT (guest : Bool) (d a b c : Use) : OpInfo :=
  { guest := guest, okT := fun w => regsOk d a b c w && decide (w.md = 0) && decide (w.imm = 0) }

/-- A format L instruction (all use IMM32; none uses MOD). -/
def plainL (guest : Bool) (d a : Use) : OpInfo :=
  { long := true, guest := guest, okL := fun w => useOk d w.d && useOk a w.a && decide (w.md = 0) }

/-- A scalar instruction with operand B: IMMB at MOD [29], then field B is zero and IMM16 is used. `cond`: CMP. -/
def scalarInfo (d c : Use) (cond : Bool) : OpInfo :=
  { guest := true
    okT := fun w =>
      regsOk d .reg (if w.md.getLsbD 13 then .zero else .reg) c w &&
      (w.md.getLsbD 13 || decide (w.imm = 0)) &&
      (if cond then decide (modBits w 28 26 ≤ 5) else decide (modBits w 28 26 = 0)) &&
      decide (modBits w 25 16 = 0) }

/-- A vector instruction: permitted formats, largest FN, and whether IMM16 is unused. -/
def vecInfo (d a b c : Use) (fmts : List Nat) (fnMax : Nat) : OpInfo :=
  { guest := true
    okT := fun w => regsOk d a b c w && fmts.contains (vFmt w) && decide (vFn w ≤ fnMax) && decide (vSeg w = 0) &&
      decide (modBits w 19 16 = 0) && decide (w.imm = 0) }

/-- VCVT and VCVTSR: source and destination formats, SEG below the ratio of the lane counts (R98). -/
def cvtInfo (b c : Use) (srcs dsts : List Nat) : OpInfo :=
  { guest := true
    okT := fun w =>
      let f := vFmt w
      let g := bits w.imm.toNat 3 0
      regsOk .reg .reg b c w && srcs.contains f && dsts.contains g && decide (vFn w = 0) &&
      decide (vSeg w < max (fmtBits f) (fmtBits g) / min (fmtBits f) (fmtBits g)) &&
      decide (modBits w 19 16 = 0) && decide (bits w.imm.toNat 15 4 = 0) }

/-- A matrix instruction: register uses, the SEL bits it uses, formats, and the IMM16 bits it uses. -/
def matInfo (d a b c : Use) (selMax : Nat) (fmts : List Nat) (segMax immTop : Nat) : OpInfo :=
  { okT := fun w => regsOk d a b c w && decide (modBits w 29 28 ≤ selMax) && fmts.contains (mFmt w) &&
      decide (mSeg w ≤ segMax) && decide (modBits w 20 16 = 0) && decide (w.imm.toNat < immTop) }

/-- An instruction that uses IMM16 below `immTop` and no MOD bit. -/
def immInfo (guest : Bool) (d a b c : Use) (immTop : Nat) : OpInfo :=
  { guest := guest, okT := fun w => regsOk d a b c w && decide (w.md = 0) && decide (w.imm.toNat < immTop) }

/-- A sync instruction with a scope code at MOD [29:27] (0 to 5, or 7); `rest`: MOD [26:24] is used (WAIT). -/
def syncInfo (d a b c : Use) (rest : Bool) : OpInfo :=
  { okT := fun w => regsOk d a b c w && decide (modBits w 29 27 ≠ 6) &&
      (rest || decide (modBits w 26 24 = 0)) && decide (modBits w 23 16 = 0) && decide (w.imm = 0) }

/-- An instruction of the memory queue. -/
def OpInfo.inMem (i : OpInfo) : OpInfo := { i with mem := true }
/-- The scalar fields an instruction names, and whether it touches scratchpad (R65). -/
def OpInfo.uses (i : OpInfo) (scal : Nat) (wide : Bool := false) : OpInfo := { i with scal := scal, wide := wide }

/-- An instruction that the head of its core's memory queue holds: one of the same queue (R114), or one that needs what an
NBRD still has to write (R65; notes/assumptions/141.md). -/
def heldBehind (c : Core) (i : OpInfo) (fields : List (BitVec 5)) : Bool :=
  match c.memHold with
  | .none => false
  | .nbfnc _ => i.mem
  | .nbrd _ d _ _ => i.mem || i.wide || (decide (d ≠ 0) &&
      (List.zip [3, 2, 1, 0] fields).any fun p => bit i.scal p.1 && decide (p.2.toNat = d))

def fmtAny : List Nat := [1, 2, 3, 4, 5, 6, 7, 8]
def fmtFloat : List Nat := [6, 7, 8]

def infoNone : OpInfo := plainT true .zero .zero .zero .zero
def infoBr : OpInfo := plainL true .zero .zero
def infoBrc : OpInfo := (plainL true .zero .reg).uses 4
def infoCall : OpInfo := (plainL false .reg .zero).uses 8
def infoCallr : OpInfo := (plainT false .reg .reg .zero .zero).uses 12
def infoRet : OpInfo := (plainT false .zero .reg .zero .zero).uses 4
def infoYield : OpInfo := plainT false .zero .zero .zero .zero
def infoGcall : OpInfo := (plainT false .reg .reg .reg .zero).uses 14 true
def infoScalar : OpInfo := (scalarInfo .reg .zero false).uses 14
def infoSel : OpInfo := (scalarInfo .reg .p false).uses 14
def infoCmp : OpInfo := (scalarInfo .p .zero true).uses 6
def infoMovi : OpInfo := (plainL true .reg .zero).uses 8
def infoPred : OpInfo := plainT true .p .p .p .zero
def infoVec3 : OpInfo := vecInfo .reg .reg .reg .zero fmtFloat 0
def infoVfma : OpInfo := vecInfo .reg .reg .reg .reg fmtFloat 0
def infoVexp : OpInfo := vecInfo .reg .reg .zero .zero [6, 8] 1
def infoVrcp : OpInfo := vecInfo .reg .reg .zero .zero [6, 8] 0
def infoVred : OpInfo := vecInfo .reg .reg .zero .zero fmtFloat 1
def infoVcmp : OpInfo := vecInfo .reg .reg .reg .zero fmtFloat 5
def infoVcvt : OpInfo := cvtInfo .zero .zero fmtAny fmtAny
def infoVcvtsr : OpInfo := (cvtInfo .reg .reg fmtFloat [1, 2, 3, 6, 7]).uses 3
def infoVtopk : OpInfo := (vecInfo .pair .reg .reg .reg fmtFloat 0).uses 7 true
def infoVrand : OpInfo := (vecInfo .reg .reg .reg .zero [8] 1).uses 6
def infoVbcast : OpInfo := (vecInfo .reg .reg .zero .zero fmtAny 0).uses 4
def infoVext : OpInfo :=
  { guest := true, scal := 8
    okT := fun w => regsOk .reg .reg .zero .zero w && fmtAny.contains (vFmt w) && decide (modBits w 25 16 = 0) &&
      decide (w.imm.toNat < 512) }
def infoVsel : OpInfo := vecInfo .reg .reg .reg .reg fmtAny 0
def infoWld : OpInfo := (matInfo .zero .reg .reg .reg 1 [1, 2, 3, 4, 5, 6, 7] 0 1).uses 7 true
def infoMma : OpInfo := (matInfo .acc .reg .reg .zero 1 [1, 2, 3, 4, 5, 6, 7] 0 65536).uses 6 true
def infoApre : OpInfo := (matInfo .acc .reg .reg .zero 1 [6, 8] 0 128).uses 6 true
def infoAcfg : OpInfo := (matInfo .acc .reg .reg .zero 3 [0] 0 1).uses 6
def infoAst : OpInfo := (matInfo .reg .reg .reg .acc 1 [2, 3, 6, 7, 8] 0 128).uses 14 true
def infoAclr : OpInfo := matInfo .acc .zero .zero .zero 0 [0] 0 1
def infoArd : OpInfo := (matInfo .reg .reg .zero .acc 0 [0] 1 1).uses 4
def infoLds : OpInfo :=
  { guest := true, mem := true, okT := fun w => regsOk .reg .reg .zero .zero w && decide (modBits w 26 16 = 0) }
def infoSts : OpInfo :=
  { guest := true, mem := true, okT := fun w => regsOk .reg .reg .zero .zero w && decide (modBits w 27 16 = 0) }
def infoVld : OpInfo := (immInfo true .reg .reg .zero .zero 65536).inMem
def infoLdc : OpInfo := (immInfo true .zero .reg .reg .zero 256).inMem
def infoLines : OpInfo := (immInfo false .zero .reg .reg .zero 256).inMem
def infoLongOp : OpInfo := (plainT false .reg .reg .zero .p).inMem
def infoKv : OpInfo := (plainT false .reg .reg .zero .zero).inMem
def infoNbfnc : OpInfo := (plainT false .zero .zero .zero .zero).inMem
def infoNbrd : OpInfo := (immInfo false .reg .reg .reg .zero 256).inMem
def infoRput : OpInfo := (immInfo false .zero .reg .reg .reg 256).inMem
def infoAmrg : OpInfo :=
  { okT := fun w => regsOk .pair .pair .pair .reg w && decide (modBits w 28 16 = 0) && decide (w.imm = 0) }
def infoTemit : OpInfo :=
  { scal := 14, okT := fun w => regsOk .reg .reg .reg .zero w && decide (modBits w 28 16 = 0) && decide (w.imm = 0) }
def infoTverify : OpInfo := (plainT false .reg .reg .reg .reg).uses 15
def infoSccfg : OpInfo := (plainT false .reg .reg .reg .reg).uses 15
def infoScrd : OpInfo := (syncInfo .reg .reg .zero .p false).uses 12
def infoScset : OpInfo := (syncInfo .zero .reg .reg .zero false).uses 6
def infoScadd : OpInfo := (syncInfo .reg .reg .reg .zero false).uses 14
def infoScdl : OpInfo := (plainT false .zero .reg .reg .zero).uses 6
def infoWait : OpInfo := (syncInfo .p .reg .reg .zero true).uses 6
def infoDotrd : OpInfo := (immInfo false .reg .reg .zero .zero 4).uses 12
def infoDotp : OpInfo := (plainT false .p .reg .zero .zero).uses 4
def infoSysrd : OpInfo := (immInfo true .reg .zero .zero .zero 16).uses 8
def infoTbrd : OpInfo := (immInfo false .reg .reg .zero .zero 65536).uses 12

/-- The instructions of a class in ascending OP; `none` raises ENCODING (Tables 5-22, 5-23). -/
def classOps (cls : Nat) : List (Option OpInfo) :=
  match cls with
  | 0 => [infoNone, infoBr, infoBrc, infoBrc, infoCall, infoCallr, infoRet, none, infoYield, infoGcall, infoNone]
  | 1 => (List.replicate 17 infoScalar ++ [infoSel, infoCmp, infoMovi, infoMovi, infoPred, infoPred, infoPred]).map some
  | 2 => ([infoVec3, infoVec3, infoVec3, infoVfma, infoVec3, infoVec3, infoVexp, infoVrcp, infoVrcp] ++
         [infoVred, infoVcvt, infoVcvtsr, infoVtopk, infoVrand, infoVbcast, infoVext, infoVsel, infoVcmp]).map some
  | 3 => [infoWld, infoMma, infoApre, infoAcfg, infoAst, infoAclr, infoArd]
  | 4 => ([infoLds, infoSts, infoVld, infoVld, infoLdc, infoLines, infoLines, infoLines] ++
         [infoLongOp, infoLongOp, infoLongOp]).map some
  | 5 => [infoKv, infoKv, infoKv, infoKv, infoLongOp]
  | 6 => [infoLongOp, infoNbfnc, infoNbrd]
  | 7 => [infoRput, infoLongOp]
  | 8 => [infoAmrg]
  | 9 => [infoTemit, infoTverify]
  | 10 => [infoSccfg, infoScrd, infoScset, infoScadd, infoScdl, infoWait, infoDotrd, infoDotp, infoDotp, infoSysrd,
           infoTbrd]
  | _ => []

/-- The fields of a 64-bit word read as format T (Table 5-1). -/
def fieldsT (w : Word) : FmtT :=
  { pg := w.extractLsb' 51 3, pn := w.extractLsb' 50 1, d := w.extractLsb' 45 5, a := w.extractLsb' 40 5,
    b := w.extractLsb' 35 5, c := w.extractLsb' 30 5, md := w.extractLsb' 16 14, imm := w.extractLsb' 0 16 }

/-- The fields of a 64-bit word read as format L (Table 5-2). -/
def fieldsL (w : Word) : FmtL :=
  { pg := w.extractLsb' 51 3, pn := w.extractLsb' 50 1, d := w.extractLsb' 45 5, a := w.extractLsb' 40 5,
    md := w.extractLsb' 32 8, imm := w.extractLsb' 0 32 }

/-- The instruction a word names, when it is an encoding (R93). -/
def decodeWord (w : Word) : Option OpInfo :=
  match ((classOps (w.extractLsb' 60 4).toNat).getD (w.extractLsb' 54 6).toNat none : Option OpInfo) with
  | some i => if (if i.long then i.okL (fieldsL w) else i.okT (fieldsT w)) then some i else none
  | none => none

end Sys2Proof.Machine
end

