-- ==== Sys2Proof/Decode.lean ====
section
/-! DEFINITION. The commands that a table word spells, and the instruction that a 64-bit core word spells. The table of
operations gives no row of this hardware any bits: the commands come from outside (a register access, a host or management
command, a pin, an internal event). The words of core instructions are those of R91, and their opcodes those of R123. -/
namespace Sys2Proof
open Sys2Proof.Machine

/-- The command spelt by `nbits` table bits: none, since no row has bits. -/
def decodeTableWord (_nbits _w : Nat) : Option Instr := none

/-- Class 0x0 in ascending OP (Tables 5-22, 5-23). -/
def controlRow (k : Nat) (t : FmtT) (l : FmtL) : List (Option Instr) :=
  [some (.nop k t), some (.br k l), some (.brz k l), some (.brnz k l), some (.call k l), some (.callr k t),
   some (.ret k t), none, some (.yield k t), some (.gcall k t), some (.gret k t)]

/-- Class 0x1 in ascending OP (Tables 5-22, 5-23). -/
def scalarRow (k : Nat) (t : FmtT) (l : FmtL) : List (Option Instr) :=
  [some (.add k t), some (.sub k t), some (.mul k t), some (.mulhu k t), some (.mulhs k t), some (.divu k t),
   some (.remu k t), some (.and k t), some (.or k t), some (.xor k t), some (.shl k t), some (.shr k t),
   some (.sar k t), some (.min k t), some (.max k t), some (.minu k t), some (.maxu k t), some (.sel k t),
   some (.cmp k t), some (.movi k l), some (.movhi k l), some (.pand k t), some (.por k t), some (.pxor k t)]

/-- Class 0x2 in ascending OP (Tables 5-22, 5-23). -/
def vectorRow (k : Nat) (t : FmtT) : List (Option Instr) :=
  [some (.vadd k t), some (.vsub k t), some (.vmul k t), some (.vfma k t), some (.vmax k t), some (.vmin k t),
   some (.vexp k t), some (.vrcp k t), some (.vrsq k t), some (.vred k t), some (.vcvt k t),
   some (.vcvtsr k t), some (.vtopk k t), some (.vrand k t), some (.vbcast k t), some (.vext k t),
   some (.vsel k t), some (.vcmp k t)]

/-- Class 0x3 in ascending OP (Tables 5-22, 5-23). -/
def matrixRow (k : Nat) (t : FmtT) : List (Option Instr) :=
  [some (.wld k t), some (.mma k t), some (.apre k t), some (.acfg k t), some (.ast k t), some (.aclr k t),
   some (.ard k t)]

/-- Class 0x4 in ascending OP (Tables 5-22, 5-23). -/
def memoryRow (k : Nat) (t : FmtT) : List (Option Instr) :=
  [some (.lds k t), some (.sts k t), some (.vld k t), some (.vst k t), some (.ldc k t), some (.stc k t),
   some (.ldv k t), some (.stv k t), some (.dma k t), some (.flushr k t), some (.invr k t)]

/-- Class 0x5 in ascending OP (Tables 5-22, 5-23). -/
def keyValueRow (k : Nat) (t : FmtT) : List (Option Instr) :=
  [some (.kvld k t), some (.kvapp k t), some (.kvcmt k t), some (.kvdrop k t), some (.kvimp k t)]

/-- Class 0x6 in ascending OP (Tables 5-22, 5-23). -/
def nearBankRow (k : Nat) (t : FmtT) : List (Option Instr) :=
  [some (.nbiss k t), some (.nbfnc k t), some (.nbrd k t)]

/-- Class 0x7 in ascending OP (Tables 5-22, 5-23). -/
def linkRow (k : Nat) (t : FmtT) : List (Option Instr) :=
  [some (.rput k t), some (.coll k t)]

/-- Class 0x8 in ascending OP (Tables 5-22, 5-23). -/
def attentionRow (k : Nat) (t : FmtT) : List (Option Instr) :=
  [some (.amrg k t)]

/-- Class 0x9 in ascending OP (Tables 5-22, 5-23). -/
def tokenRow (k : Nat) (t : FmtT) : List (Option Instr) :=
  [some (.temit k t), some (.tverify k t)]

/-- Class 0xA in ascending OP (Tables 5-22, 5-23). -/
def syncRow (k : Nat) (t : FmtT) : List (Option Instr) :=
  [some (.sccfg k t), some (.scrd k t), some (.scset k t), some (.scadd k t), some (.scdl k t),
   some (.wait k t), some (.dotrd k t), some (.dotcan k t), some (.dotrel k t), some (.sysrd k t),
   some (.tbrd k t)]

/-- The instruction a core issues for a word: its CLASS and OP pick the row (R123), when the word is an encoding (R93). -/
def coreInstr (k : Nat) (w : BitVec 64) : Option Instr :=
  let op := (w.extractLsb' 54 6).toNat
  let t := fieldsT w
  let l := fieldsL w
  if (decodeWord w).isNone then none
  else
    match (w.extractLsb' 60 4).toNat with
    | 0 => (controlRow k t l).getD op none
    | 1 => (scalarRow k t l).getD op none
    | 2 => (vectorRow k t).getD op none
    | 3 => (matrixRow k t).getD op none
    | 4 => (memoryRow k t).getD op none
    | 5 => (keyValueRow k t).getD op none
    | 6 => (nearBankRow k t).getD op none
    | 7 => (linkRow k t).getD op none
    | 8 => (attentionRow k t).getD op none
    | 9 => (tokenRow k t).getD op none
    | 10 => (syncRow k t).getD op none
    | _ => none

end Sys2Proof
end

