-- ==== Sys2Proof/Machine/Flags.lean ====
section
/-! DEFINITION. The flag computations of the instruction set: scalar comparison conditions (Table 5-5), sync-cell wait
conditions (Table 4-8) and the per-tile flag word of an accumulator (Table 6-7). -/
namespace Sys2Proof.Machine

/-- CMP's condition COND (Table 5-5). -/
def cmpCond (cond : Nat) (a b : Word) : Bool :=
  match cond with
  | 0 => decide (a = b)
  | 1 => decide (a ≠ b)
  | 2 => a.slt b
  | 3 => a.ult b
  | 4 => a.sle b
  | _ => a.ule b

/-- Width of a sync cell's value by its KIND (R76). -/
def cellWidth (kind : Nat) : Nat := if kind = 2 then 48 else 64

/-- WAIT's condition (Table 4-8), the target taken modulo 2^w. -/
def waitMet (cond kind : Nat) (value target : Word) : Bool :=
  let w := cellWidth kind
  let t := target.toNat % 2 ^ w
  let v := value.toNat
  match cond with
  | 0 => decide ((v + 2 ^ w - t) % 2 ^ w < 2 ^ (w - 1))
  | 1 => decide (v = t)
  | 2 => decide (v ≠ t)
  | _ => decide (v &&& t ≠ 0)

/-- The bits of a tile flag word (Table 6-7). -/
structure TileFlags where
  scaleNan   : Bool := false
  nan        : Bool := false
  inf        : Bool := false
  windowHigh : Bool := false
  windowLow  : Bool := false
  overflow   : Bool := false
  underflow  : Bool := false
  inexact    : Bool := false
deriving DecidableEq, Repr

/-- Flags of two parts of one tile together. -/
def orFlags (a b : TileFlags) : TileFlags :=
  { scaleNan := a.scaleNan || b.scaleNan, nan := a.nan || b.nan, inf := a.inf || b.inf,
    windowHigh := a.windowHigh || b.windowHigh, windowLow := a.windowLow || b.windowLow,
    overflow := a.overflow || b.overflow, underflow := a.underflow || b.underflow, inexact := a.inexact || b.inexact }

/-- MODE code of a tile flag word (Table 6-7). -/
def modeCode (m : AccMode) : Nat :=
  match m with
  | .nearest => 0
  | .stochastic => 1
  | .exact => 2

/-- The flag word (Table 6-7). -/
def flagWord (m : AccMode) (f : TileFlags) : Word :=
  BitVec.ofNat 64 (1024 * modeCode m + 256 * b2n f.scaleNan + 128 * b2n f.nan + 64 * b2n f.inf +
    32 * b2n f.windowHigh + 16 * b2n f.windowLow + 8 * b2n f.overflow + 4 * b2n f.underflow + 2 * b2n f.inexact)

/-- The accumulated flags an accumulator holds, read back from their places in the flag word. -/
def flagsOf (w : Word) : TileFlags :=
  { scaleNan := w.getLsbD 8, nan := w.getLsbD 7, inf := w.getLsbD 6, windowHigh := w.getLsbD 5,
    windowLow := w.getLsbD 4, overflow := w.getLsbD 3, underflow := w.getLsbD 2, inexact := w.getLsbD 1 }

end Sys2Proof.Machine
end

