-- ==== Sys2Proof/Machine/Issue.lean ====
section
/-! DEFINITION. Issue of a core instruction: the order of its checks, the guard, what a fault does at operator and at
guest privilege, and how the PC advances (R61, R64, R72 to R74, R87, R88, R93 to R96). One command is one instruction:
the in-order result of R65. -/
namespace Sys2Proof.Machine

/-- The fault codes of Table 4-12. -/
def fEncoding : Nat := 0x01
def fPrivilege : Nat := 0x02
def fAddress : Nat := 0x03
def fAlignment : Nat := 0x04
def fWindow : Nat := 0x05
def fBudget : Nat := 0x06
def fSyncConfig : Nat := 0x07
def fSyncHeld : Nat := 0x08
def fCodeRange : Nat := 0x09
def fFeature : Nat := 0x0A
def fStepTimeout : Nat := 0x0B

/-- What an instruction's own effect answers: go on at PC + 8, go on at a target, stop issue with the PC left, or
raise a fault with nothing done. -/
inductive Res where
  | done (s : State)
  | jump (s : State) (target : Int)
  | hold (s : State)
  | flt (code : Nat)

/-- Apply a change to a core's own state. -/
def modCore (s : State) (k : Nat) (f : Core → Core) : State := setCore s k (f (getCore s k))

/-- The 8-byte word at `pc` lies in an image control may reach: any loaded image at operator privilege, the call's
image at guest privilege (R96). -/
def inCode (s : State) (k : Nat) (pc : Nat) : Bool :=
  match (getCore s k).guest with
  | some g => decide (g.imgBase ≤ pc) && decide (pc + 8 ≤ g.imgBase + g.imgLen)
  | none => s.images.any fun i => decide (i.off ≤ pc) && decide (pc + 8 ≤ i.off + i.len)

/-- The part of a step in progress that an operator fault changes (R88): it will be rolled back. -/
def stepFaulted (s : State) : State :=
  { s with sched := { s.sched with cur := s.sched.cur.map fun p => { p with faulted := true } } }

/-- A fault at operator privilege (R88): the error record is written and the core's part ends. -/
def operatorFault (s : State) (k code pc : Nat) : State :=
  let s1 := errorRecord s
    { type := 0x01, step := stepNow s, a0 := code, a1 := pc, a2 := gidOf s k, a3 := b2n s.sched.faultRerun }
  stepFaulted (modCore s1 k fun c => { c with phase := .ended, wait := .none, memHold := .none, guest := none, faulted := true })

/-- Control reaches `pc` at operator privilege: outside every image it raises CODE_RANGE (R96). -/
def operatorAt (s : State) (k pc : Nat) : State :=
  let s1 := modCore s k fun c => { c with pc := pc }
  if inCode s1 k pc then s1 else operatorFault s1 k fCodeRange pc

/-- Return from a guest call with its two results (R74): the operator's registers are restored and written. -/
def guestReturn (s : State) (k : Nat) (g : GuestCall) (sd se : Word) : State :=
  let s1 := modCore s k fun c =>
    let c1 := { c with s := g.savedS, p := g.savedP, v := g.savedV, guest := none }
    writeS (writeS c1 (BitVec.ofNat 5 g.sd) sd) (BitVec.ofNat 5 g.se) se
  operatorAt s1 k g.retPc

/-- Take a fault raised at `pc` (R87): a guest fault ends the call and marks its request (R74). -/
def takeFault (s : State) (k code pc : Nat) : State :=
  match (getCore s k).guest with
  | some g =>
    let s1 := setReq s g.rc { getReq s g.rc with guestFault := true }
    guestReturn s1 k g (BitVec.ofNat 64 code) (BitVec.ofNat 64 pc)
  | none => operatorFault s k code pc

/-- One instruction retired: a guest's budget counts it (R73). -/
def retire (c : Core) : Core :=
  { c with guest := c.guest.map fun g => { g with left := g.left - 1 } }

/-- Issue goes on at `pc` with nothing transferred: running past the image's last word raises CODE_RANGE or WINDOW. -/
def flowTo (s : State) (k pc : Nat) : State :=
  let s1 := modCore s k fun c => { retire c with pc := pc }
  if inCode s1 k pc then s1
  else takeFault s1 k (if (getCore s1 k).guest.isSome then fWindow else fCodeRange) pc

/-- Issue goes on at PC + 8 (R96). -/
def advance (s : State) (k : Nat) : State := flowTo s k ((getCore s k).pc + 8)

/-- A transfer of control (R96): the target is checked before anything is written, and the fault is the transferring
instruction's. -/
def jumpTo (s0 : State) (k : Nat) (s1 : State) (target : Int) : State :=
  let pc := (getCore s0 k).pc
  if target % 8 ≠ 0 then takeFault s0 k fAlignment pc
  else if target < 0 then takeFault s0 k (if (getCore s0 k).guest.isSome then fWindow else fCodeRange) pc
  else if inCode s0 k target.toNat then modCore s1 k fun c => { retire c with pc := target.toNat }
  else takeFault s0 k (if (getCore s0 k).guest.isSome then fWindow else fCodeRange) pc

/-- The core issues instructions now: its part of the step is running and nothing holds its issue (R59, R61, R78). -/
def issuing (s : State) (k : Nat) : Bool :=
  alive s && decide ((getCore s k).phase = .issuing) && decide ((getCore s k).wait = .none)

/-- The guard after PN (R94). -/
def guardOn (c : Core) (pg : BitVec 3) (pn : BitVec 1) : Bool := readP c pg.toNat ^^ decide (pn = 1)

/-- Apply an instruction's answer. -/
def finish (s : State) (k : Nat) (r : Res) : State :=
  match r with
  | .done s1 => advance s1 k
  | .jump s1 t => jumpTo s k s1 t
  | .hold s1 => s1
  | .flt code => takeFault s k code (getCore s k).pc

/-- Issue one instruction: ENCODING before every other check (R93); then the budget of a guest (R73); then the guard
(R94); then privilege (R72); then its effect. A core that does not issue ignores the command (notes/assumptions). -/
def issueOn (s : State) (k : Nat) (guestOk enc : Bool) (pg : BitVec 3) (pn : BitVec 1) (eff : Core → Res) : State :=
  let c := getCore s k
  if !issuing s k then s
  else if !inCode s k c.pc then takeFault s k (if c.guest.isSome then fWindow else fCodeRange) c.pc
  else if !enc then takeFault s k fEncoding c.pc
  else if (c.guest.map fun g => decide (g.left = 0)) = some true then takeFault s k fBudget c.pc
  else if !guardOn c pg pn then advance s k
  else if c.guest.isSome && !guestOk then takeFault s k fPrivilege c.pc
  else finish s k (eff c)

/-- The word in instruction memory at the core's PC names an instruction: a cell marked — in Tables 5-22 and 5-23, or a
field outside its encoding, raises ENCODING whichever instruction the sender names there (R93, R123). -/
def wordOk (s : State) (k : Nat) : Bool := (decodeWord (BitVec.ofNat 64 (readNat s.imem (getCore s k).pc 8))).isSome

/-- Issue a format T instruction on physical core `k`, unless the head of the memory queue holds it (R64, R65, R114). -/
def issueT (k : Nat) (w : FmtT) (s : State) (i : OpInfo) (eff : Core → Res) : Host.Outcome State Fault Refusal :=
  if k < numCores then
    .next (if heldBehind (getCore s k) i [w.d, w.a, w.b, w.c] then s else issueOn s k i.guest (i.okT w && wordOk s k) w.pg w.pn eff)
  else .fault .noSuchUnit

/-- Issue a format L instruction on physical core `k`. -/
def issueL (k : Nat) (w : FmtL) (s : State) (i : OpInfo) (eff : Core → Res) : Host.Outcome State Fault Refusal :=
  if k < numCores then
    .next (if heldBehind (getCore s k) i [w.d, w.a] then s else issueOn s k i.guest (i.okL w && wordOk s k) w.pg w.pn eff)
  else .fault .noSuchUnit

/-- An instruction whose effect is on the core's registers alone. -/
def regOp (s : State) (k : Nat) (f : Core → Core) : Res := .done (modCore s k f)

end Sys2Proof.Machine
end

