-- ==== Sys2Proof/Machine/Control.lean ====
section
/-! DEFINITION. Class 0x0, the control instructions (Table 5-4, R61, R69 to R74, R96). -/
namespace Sys2Proof.Machine

/-- Target of a relative transfer: PC + 8 × IMM32. -/
def relTarget (c : Core) (w : FmtL) : Int := (c.pc : Int) + 8 * w.imm.toInt

/-- The link address, PC + 8. -/
def linkAddr (c : Core) : Word := BitVec.ofNat 64 (c.pc + 8)

/-- The guest-programs mode in force is ALLOWED (Table 16-13). -/
def guestAllowed (s : State) : Bool := decide (bits (regGet s 0xA0010).toNat 9 8 = 1)

/-- Bytes of the scratchpad (Table 2-5). -/
def scratchBytes : Nat := 0x100000

/-- A region in scratchpad, 256-byte aligned in base and length (R70). -/
def regionOk (base len : Nat) : Bool := decide (base % 256 = 0 ∧ len % 256 = 0 ∧ base + len ≤ scratchBytes)

/-- Two ranges share no byte. -/
def apart (a n b m : Nat) : Bool := decide (n = 0 ∨ m = 0 ∨ a + n ≤ b ∨ b + m ≤ a)

/-- The fields of a guest call block (Table 4-5). -/
structure CallBlock where
  entry  : Nat
  budget : Nat
  inB    : Nat
  inL    : Nat
  wkB    : Nat
  wkL    : Nat
  tbB    : Nat
  tbL    : Nat
  arg    : Nat
  rc     : Nat
  tenant : Nat
deriving DecidableEq, Repr

/-- Read a guest call block. -/
def callBlock (b : List Byte) : CallBlock :=
  { entry := fieldAt b 0 4, budget := fieldAt b 4 4, inB := fieldAt b 8 4, inL := fieldAt b 0xC 4,
    wkB := fieldAt b 0x10 4, wkL := fieldAt b 0x14 4, tbB := fieldAt b 0x18 8, tbL := fieldAt b 0x20 8,
    arg := fieldAt b 0x28 8, rc := fieldAt b 0x30 2, tenant := fieldAt b 0x32 2 }

/-- The guest image of the tenant that holds the entry address, in the guest code region (R70, R71). -/
def entryImage (s : State) (b : CallBlock) : Option Image :=
  if 0xC000 ≤ b.entry ∧ b.entry % 8 = 0 then
    s.images.find? fun i => i.guest && decide (i.tenant = b.tenant) && decide (i.off ≤ b.entry) &&
      decide (b.entry + 8 ≤ i.off + i.len)
  else none

/-- The other checks of R70. -/
def blockOk (b : CallBlock) (off : Nat) : Bool :=
  regionOk b.inB b.inL && regionOk b.wkB b.wkL && apart b.inB b.inL b.wkB b.wkL && apart b.inB b.inL off 64 &&
  apart b.wkB b.wkL off 64 && decide (1 ≤ b.budget) && decide (b.budget ≤ 1048576) && decide (b.tbL ≤ 268435456)

/-- Scalar registers at guest entry: s1 to s8 hold the call block's fields (Table 4-5). -/
def guestEntryS (b : CallBlock) : List (Nat × Word) :=
  ([(1, b.inB), (2, b.inL), (3, b.wkB), (4, b.wkL), (5, b.tbB), (6, b.tbL), (7, b.arg), (8, b.rc)] : List (Nat × Nat)).foldl
    (fun m e => smSet wordDefault m e.1 (BitVec.ofNat 64 e.2)) []

/-- Enter the guest (R69). -/
def guestEnter (c : Core) (w : FmtT) (b : CallBlock) (i : Image) : Core :=
  { c with
    s := guestEntryS b, p := 0, v := [], pc := b.entry
    guest := some
      { sd := w.d.toNat, se := w.b.toNat, retPc := c.pc + 8, savedS := c.s, savedP := c.p, savedV := c.v,
        inBase := b.inB, inLen := b.inL, wkBase := b.wkB, wkLen := b.wkL, tbBase := b.tbB, tbLen := b.tbL,
        rc := b.rc, tenant := b.tenant, left := b.budget, imgBase := i.off, imgLen := i.len } }

/-- A GCALL that enters no guest: sd takes the refusal code, se zero (R70). -/
def gcallRefuse (s : State) (k : Nat) (w : FmtT) (code : Word) : Res :=
  regOp s k fun c => writeS (writeS c w.d code) w.b 0

/-- GCALL (R69, R70, R96). -/
def gcallEff (s : State) (k : Nat) (w : FmtT) (c : Core) : Res :=
  let off := (readS c w.a).toNat
  if off % 64 ≠ 0 then .flt fAlignment
  else if scratchBytes < off + 64 then .flt fAddress
  else if !guestAllowed s then gcallRefuse s k w 0xFE
  else
    let b := callBlock (readBytes c.scratch off 64)
    match entryImage s b with
    | some i => if blockOk b off then .hold (modCore s k fun c => guestEnter c w b i) else gcallRefuse s k w 0xFD
    | none => gcallRefuse s k w 0xFD

/-- GRET (R74): sd receives 0 and se the guest's s1. At operator privilege it returns from no call and has no effect
(notes/assumptions). -/
def gretEff (s : State) (k : Nat) (c : Core) : Res :=
  match c.guest with
  | some g => .hold (guestReturn s k g 0 (readS c 1))
  | none => .done s

def execNop (k : Nat) (w : FmtT) (s : State) : Host.Outcome State Fault Refusal :=
  issueT k w s infoNone fun _ => .done s
def execBr (k : Nat) (w : FmtL) (s : State) : Host.Outcome State Fault Refusal :=
  issueL k w s infoBr fun c => .jump s (relTarget c w)
def execBrz (k : Nat) (w : FmtL) (s : State) : Host.Outcome State Fault Refusal :=
  issueL k w s infoBrc fun c => if readS c w.a = 0 then .jump s (relTarget c w) else .done s
def execBrnz (k : Nat) (w : FmtL) (s : State) : Host.Outcome State Fault Refusal :=
  issueL k w s infoBrc fun c => if readS c w.a ≠ 0 then .jump s (relTarget c w) else .done s
def execCall (k : Nat) (w : FmtL) (s : State) : Host.Outcome State Fault Refusal :=
  issueL k w s infoCall fun c => .jump (modCore s k fun c => writeS c w.d (linkAddr c)) (relTarget c w)
/-- CALLR: the target is sA as read before the link is written. -/
def execCallr (k : Nat) (w : FmtT) (s : State) : Host.Outcome State Fault Refusal :=
  issueT k w s infoCallr fun c => .jump (modCore s k fun c => writeS c w.d (linkAddr c)) (readS c w.a).toNat
def execRet (k : Nat) (w : FmtT) (s : State) : Host.Outcome State Fault Refusal :=
  issueT k w s infoRet fun c => .jump s (readS c w.a).toNat
/-- YIELD (R61): issue stops; the part ends at CORE_PART_END. -/
def execYield (k : Nat) (w : FmtT) (s : State) : Host.Outcome State Fault Refusal :=
  issueT k w s infoYield fun _ => .hold (modCore s k fun c => { c with phase := .yielded, pc := c.pc + 8 })
def execGcall (k : Nat) (w : FmtT) (s : State) : Host.Outcome State Fault Refusal :=
  issueT k w s infoGcall fun c => gcallEff s k w c
def execGret (k : Nat) (w : FmtT) (s : State) : Host.Outcome State Fault Refusal :=
  issueT k w s infoNone fun c => gretEff s k c

end Sys2Proof.Machine
end

