-- ==== Sys2Proof/Machine/Float.lean ====
section
/-! DEFINITION. Number formats, conversions and exact arithmetic (R124 to R131, R143): every finite value is a sign, a
magnitude and a power of two, operations are exact on these, and each result is rounded once. -/
namespace Sys2Proof.Machine

/-- A value of an operand format: (−1)^neg × m × 2^e, an infinity, or NaN. -/
inductive FVal where
  | nan
  | inf (neg : Bool)
  | fin (neg : Bool) (m : Nat) (e : Int)
deriving DecidableEq, Repr

/-- Layout of a floating-point format (Table 6-1): exponent bits, significand bits, bias, and whether it has
infinities. -/
structure FloatFmt where
  eb   : Nat
  mb   : Nat
  bias : Nat
  inf  : Bool
deriving DecidableEq, Repr

/-- Floating-point formats by code; integers have none. -/
def floatFmt (f : Nat) : Option FloatFmt :=
  match f with
  | 1 => some ⟨2, 1, 1, false⟩
  | 2 => some ⟨4, 3, 7, false⟩
  | 3 => some ⟨5, 2, 15, true⟩
  | 6 => some ⟨8, 7, 127, true⟩
  | 7 => some ⟨5, 10, 15, true⟩
  | 8 => some ⟨8, 23, 127, true⟩
  | _ => none

/-- The largest exponent field of finite values. -/
def maxExp (x : FloatFmt) : Nat := if x.inf then 2 ^ x.eb - 2 else 2 ^ x.eb - 1

/-- The largest finite magnitude's bits: all ones but, for E4M3, the NaN pattern's last (Table 6-1). -/
def maxBits (f : Nat) (x : FloatFmt) : Nat :=
  if f = 2 then 0x7E else maxExp x * 2 ^ x.mb + (2 ^ x.mb - 1)

/-- Value of an element's bits (R124). -/
def decodeF (f : Nat) (v : Nat) : FVal :=
  match floatFmt f with
  | some x =>
    let neg := bit v (x.eb + x.mb)
    let e := bits v (x.eb + x.mb - 1) x.mb
    let m := v % 2 ^ x.mb
    if x.inf && e = 2 ^ x.eb - 1 then (if m = 0 then .inf neg else .nan)
    else if f = 2 ∧ v % 128 = 127 then .nan
    else if e = 0 then .fin neg m (1 - (x.bias : Int) - x.mb)
    else .fin neg (2 ^ x.mb + m) ((e : Int) - x.bias - x.mb)
  | none =>
    let w := fmtBits f
    let n := v % 2 ^ w
    if bit n (w - 1) then .fin true (2 ^ w - n) 0 else .fin false n 0

/-- The NaN a conversion writes (Table 6-3). -/
def nanBits (f : Nat) : Nat :=
  match f with
  | 2 => 0x7F
  | 3 => 0x7E
  | 6 => 0x7FC0
  | 7 => 0x7E00
  | 8 => 0x7FC00000
  | _ => 0

/-- Sign bit of a floating-point format. -/
def signBit (x : FloatFmt) (neg : Bool) : Nat := if neg then 2 ^ (x.eb + x.mb) else 0

/-- What an infinity converts to, magnitude bits (Table 6-3). -/
def infBits (f : Nat) (x : FloatFmt) : Nat := if x.inf then (2 ^ x.eb - 1) * 2 ^ x.mb else maxBits f x

/-- A rounded element with its store flags (Table 6-7). -/
structure Rounded where
  bits  : Nat
  ovfl  : Bool := false
  under : Bool := false
  inex  : Bool := false
deriving DecidableEq, Repr

/-- How the bits below the last place decide (R129, R130): to nearest even; toward zero; or stochastically, with the
24 random bits R. -/
inductive RMode where
  | nearest | down | stoch (r : Nat)
deriving DecidableEq, Repr

/-- `rem / 2^sh` of a unit lies above `n`: whether to go to `n + 1`. -/
def roundUpP (mode : RMode) (n rem sh : Nat) : Bool :=
  match mode with
  | .nearest => decide (2 ^ sh < 2 * rem) || (decide (2 * rem = 2 ^ sh) && decide (n % 2 = 1))
  | .down => false
  | .stoch r => decide (r < rem * 2 ^ 24 / 2 ^ sh)

/-- The value m × 2^e in units of 2^q, rounded, and whether anything was lost. -/
def quantize (mode : RMode) (m : Nat) (e q : Int) : Nat × Bool :=
  if q ≤ e then (m * 2 ^ (e - q).toNat, false)
  else
    let sh := (q - e).toNat
    let n := m / 2 ^ sh
    let rem := m % 2 ^ sh
    (if roundUpP mode n rem sh then n + 1 else n, decide (rem ≠ 0))

/-- Is m × 2^e above n × 2^q. -/
def magLt (n : Nat) (q : Int) (m : Nat) (e : Int) : Bool :=
  if q ≤ e then decide (n < m * 2 ^ (e - q).toNat) else decide (n * 2 ^ (q - e).toNat < m)

/-- Round a finite magnitude into a floating-point format (R129, R130). A value beyond the largest finite converts to
nearest whatever the mode (R130, step 1). -/
def roundFloat (f : Nat) (x : FloatFmt) (mode : RMode) (neg : Bool) (m : Nat) (e : Int) : Rounded :=
  if m = 0 then { bits := signBit x neg }
  else
    let emin : Int := 1 - (x.bias : Int) - x.mb
    let top : Int := (Nat.log2 m : Int) + e
    let q : Int := max (top - x.mb) emin
    let big := maxBits f x
    let bigN := 2 ^ x.mb + big % 2 ^ x.mb
    let bigQ : Int := (big / 2 ^ x.mb : Nat) - (x.bias : Int) - x.mb
    let beyond := magLt bigN bigQ m e
    let md := if beyond ∧ mode ≠ .down then RMode.nearest else mode
    let nr := quantize md m e q
    let n := nr.1
    let past := magLt bigN bigQ n q
    if past then
      if mode = .down then { bits := signBit x neg + big, ovfl := true, inex := true }
      else { bits := signBit x neg + infBits f x, ovfl := true, inex := true }
    else
      let mag := if n < 2 ^ x.mb then n else ((q - emin + 1).toNat) * 2 ^ x.mb + (n - 2 ^ x.mb)
      { bits := signBit x neg + mag
        ovfl := beyond && !x.inf
        under := decide (n = 0)
        inex := nr.2 }

/-- Round a finite value to an integer format, saturating (Table 6-3). -/
def roundInt (f : Nat) (mode : RMode) (neg : Bool) (m : Nat) (e : Int) : Rounded :=
  let w := fmtBits f
  let nr := quantize mode m e 0
  let lim := if neg then 2 ^ (w - 1) else 2 ^ (w - 1) - 1
  let n := min nr.1 lim
  { bits := if neg then (2 ^ w - n) % 2 ^ w else n
    ovfl := decide (lim < nr.1), under := decide (n = 0 ∧ m ≠ 0), inex := nr.2 || decide (lim < nr.1) }

/-- Convert a value to a format (R129, Table 6-3; R130 with a stochastic mode). -/
def roundTo (f : Nat) (mode : RMode) (v : FVal) : Rounded :=
  match floatFmt f, v with
  | _, .nan => { bits := nanBits f }
  | some x, .inf neg => { bits := signBit x neg + infBits f x }
  | some x, .fin neg m e => roundFloat f x mode neg m e
  | none, .inf neg => { bits := if neg then 2 ^ (fmtBits f - 1) else 2 ^ (fmtBits f - 1) - 1 }
  | none, .fin neg m e => roundInt f mode neg m e

/-- Bits of a value rounded to nearest even. -/
def encodeF (f : Nat) (v : FVal) : Nat := (roundTo f .nearest v).bits

/-! ## Exact operations -/

/-- A signed integer times 2^e; zero has the sign given. -/
def finOfInt (zeroNeg : Bool) (n : Int) (e : Int) : FVal :=
  if n = 0 then .fin zeroNeg 0 0 else .fin (decide (n < 0)) n.natAbs e

/-- The signed magnitude of a finite value in units of 2^q, q at or below its exponent. -/
def inUnits (neg : Bool) (m : Nat) (e q : Int) : Int :=
  let n : Int := (m * 2 ^ (e - q).toNat : Nat)
  if neg then -n else n

def negF (v : FVal) : FVal :=
  match v with
  | .nan => .nan
  | .inf s => .inf (!s)
  | .fin s m e => .fin (!s) m e

/-- Exact sum. Opposite infinities make NaN. An exact cancellation is +0, and zeros keep −0 only when both are −0. -/
def addF (a b : FVal) : FVal :=
  match a, b with
  | .nan, _ => .nan
  | _, .nan => .nan
  | .inf s, .inf t => if s = t then .inf s else .nan
  | .inf s, _ => .inf s
  | _, .inf t => .inf t
  | .fin s m e, .fin t n g =>
    if m = 0 ∧ n = 0 then .fin (s && t) 0 0
    else
      let q := min e g
      finOfInt false (inUnits s m e q + inUnits t n g q) q

/-- Exact product. An infinity times zero is NaN. -/
def mulF (a b : FVal) : FVal :=
  match a, b with
  | .nan, _ => .nan
  | _, .nan => .nan
  | .inf s, .inf t => .inf (s ^^ t)
  | .inf s, .fin t n _ => if n = 0 then .nan else .inf (s ^^ t)
  | .fin s m _, .inf t => if m = 0 then .nan else .inf (s ^^ t)
  | .fin s m e, .fin t n g => .fin (s ^^ t) (m * n) (e + g)

/-- a < b on values that are not NaN. -/
def ltF (a b : FVal) : Bool :=
  match a, b with
  | .nan, _ => false
  | _, .nan => false
  | .inf s, .inf t => s && !t
  | .inf s, .fin _ _ _ => s
  | .fin _ _ _, .inf t => !t
  | .fin s m e, .fin t n g =>
    let q := min e g
    decide (inUnits s m e q < inUnits t n g q)

/-- a = b as numbers: −0 equals +0, NaN equals nothing. -/
def eqF (a b : FVal) : Bool :=
  match a, b with
  | .nan, _ => false
  | _, .nan => false
  | _, _ => !ltF a b && !ltF b a

def isNan (v : FVal) : Bool := decide (v = .nan)
def isZero (v : FVal) : Bool :=
  match v with
  | .fin _ m _ => decide (m = 0)
  | _ => false

/-- FP32 addition, rounded to nearest even. -/
def fadd32 (a b : Nat) : Nat := encodeF 8 (addF (decodeF 8 a) (decodeF 8 b))
/-- FP32 multiplication, rounded to nearest even. -/
def fmul32 (a b : Nat) : Nat := encodeF 8 (mulF (decodeF 8 a) (decodeF 8 b))

/-! ## Quotients, roots and exponentials -/

/-- An approximation from below: the value lies at m × 2^e, or strictly between it and (m + 1) × 2^e when `above`.
Doubled so that one sticky bit carries the difference. -/
def sticky (neg : Bool) (m : Nat) (above : Bool) (e : Int) : FVal := .fin neg (2 * m + b2n above) (e - 1)

/-- Exact quotient of finite values, divisor not zero, to 40 bits and a sticky bit. -/
def divFin (neg : Bool) (m : Nat) (e : Int) (n : Nat) (g : Int) : FVal :=
  let sh := 40 + Nat.log2 n + 1
  let p := m * 2 ^ sh
  sticky neg (p / n) (decide (p % n ≠ 0)) (e - g - sh)

/-- FP32 division rounded to nearest even (R117), for a divisor that is not zero. -/
def divF (a b : FVal) : FVal :=
  match a, b with
  | .nan, _ => .nan
  | _, .nan => .nan
  | .inf _, .inf _ => .nan
  | .inf s, .fin t _ _ => .inf (s ^^ t)
  | .fin s _ _, .inf t => .fin (s ^^ t) 0 0
  | .fin s m e, .fin t n g => if m = 0 then .fin (s ^^ t) 0 0 else divFin (s ^^ t) m e n g

/-- Integer square root from the top bit down. -/
def isqrtFrom : Nat → Nat → Nat → Nat
  | 0, _, r => r
  | b + 1, n, r => isqrtFrom b n (if (r + 2 ^ b) * (r + 2 ^ b) ≤ n then r + 2 ^ b else r)

def isqrt (n : Nat) : Nat := isqrtFrom (Nat.log2 n / 2 + 1) n 0

/-- 1/√(m × 2^e) for m > 0, to more than 40 bits and a sticky bit. -/
def rsqrtFin (m : Nat) (e : Int) : FVal :=
  let m2 := if e % 2 = 0 then m else 2 * m
  let h : Int := (if e % 2 = 0 then e else e - 1) / 2
  let t := Nat.log2 m2 + 90
  let v := 2 ^ (2 * t) / m2
  let r := isqrt v
  sticky false r (decide (r * r * m2 ≠ 2 ^ (2 * t))) (-(t : Int) - h)

/-- Fraction bits of the fixed-point exponential. -/
def expBits : Nat := 420

/-- Σ t^i / i! in fixed point, from term i on; t in units of 2^−expBits. -/
def expTerms : Nat → Nat → Int → Int → Int → Int
  | 0, _, _, _, acc => acc
  | fuel + 1, i, t, term, acc =>
    let next := term * t / ((2 ^ expBits : Nat) : Int) / (i : Int)
    expTerms fuel (i + 1) t next (acc + next)

/-- Squared `n` times in fixed point. -/
def sqTimes : Nat → Int → Int
  | 0, v => v
  | n + 1, v => sqTimes n (v * v / ((2 ^ expBits : Nat) : Int))

/-- e^t for |t| below 2^8, t in units of 2^−expBits, result in the same units: t/1,024 by its series, then squared ten
times. -/
def expFixed (t : Int) : Int :=
  sqTimes 10 (expTerms 60 1 (t / 1024) ((2 ^ expBits : Nat) : Int) ((2 ^ expBits : Nat) : Int))

/-- ln 2 in units of 2^−expBits: Σ 1/(i 2^i). -/
def ln2Fixed : Int := (((List.range 430).map fun i => 2 ^ (expBits + 20) / ((i + 1) * 2 ^ (i + 1))).sum / 2 ^ 20 : Nat)

/-- A finite value in units of 2^−expBits. -/
def toFixed (neg : Bool) (m : Nat) (e : Int) : Int :=
  let n : Nat := if 0 ≤ e + expBits then m * 2 ^ (e + expBits).toNat else m / 2 ^ (-(e + expBits)).toNat
  if neg then -(n : Int) else n

/-- e^x (fn 0) or 2^x (fn 1) of a finite x, by its magnitude: beyond every format's range it is given as a value that
rounds there; within, to far more bits than any format has, with a sticky bit where it cannot be exact. -/
def expFin (fn : Nat) (neg : Bool) (m : Nat) (e : Int) : FVal :=
  if m = 0 then .fin false 1 0
  else if 8 ≤ (Nat.log2 m : Int) + e then (if neg then .fin false 1 (-400) else .fin false 1 400)
  else if (Nat.log2 m : Int) + e < -200 then
    (if neg then sticky false (2 ^ 100 - 1) true (-100) else sticky false (2 ^ 100) true (-100))
  else
    let x := toFixed neg m e
    if fn = 0 then sticky false (expFixed x).toNat true (-(expBits : Int))
    else
      let one : Int := (2 ^ expBits : Nat)
      let i := x / one
      let fr := x % one
      if fr = 0 then .fin false 1 i
      else sticky false (expFixed (fr * ln2Fixed / one)).toNat true (i - expBits)

/-- e^x or 2^x: +∞ of +∞, +0 of −∞ (R98), NaN of NaN. -/
def expF (fn : Nat) (v : FVal) : FVal :=
  match v with
  | .nan => .nan
  | .inf true => .fin false 0 0
  | .inf false => .inf false
  | .fin s m e => expFin fn s m e

/-- Magnitude bits of a result the spec bounds by `n` units in the last place: the representable value at or below the
exact one moved by a free choice among those within the bound (R98). -/
def withinUlp (f n pick : Nat) (v : FVal) : Nat :=
  match floatFmt f, v with
  | some x, .fin neg m e =>
    let lo := roundFloat f x .down false m e
    let choices := if lo.inex then 2 * n else 2 * n + 1
    let below := if lo.inex then n - 1 else n
    if lo.ovfl then signBit x neg + infBits f x
    else signBit x neg + min (lo.bits + pick % choices - below) (infBits f x)
  | _, _ => encodeF f v

/-! ## Sums -/

/-- tree_sum of FP32 partials in ascending index (R143), by rounds. -/
def pairUp (op : Nat → Nat → Nat) : List Nat → List Nat
  | a :: b :: rest => op a b :: pairUp op rest
  | l => l

def treeFold (op : Nat → Nat → Nat) : Nat → List Nat → Nat
  | 0, l => l.headD 0
  | fuel + 1, l =>
    match l with
    | [] => 0
    | [a] => a
    | l => treeFold op fuel (pairUp op l)

/-- R143. -/
def treeSum (ps : List Nat) : Nat := treeFold fadd32 (Nat.log2 ps.length + 1) ps

/-- The largest ⌊log2 |t|⌋ over the finite nonzero terms (R134). -/
def topExp : List FVal → Option Int
  | [] => none
  | .fin _ m e :: rest =>
    if m = 0 then topExp rest
    else
      let t : Int := (Nat.log2 m : Int) + e
      match topExp rest with
      | some u => some (max t u)
      | none => some t
  | _ :: rest => topExp rest

/-- A term truncated toward zero to a multiple of 2^q, in those units. -/
def truncUnits (q : Int) (v : FVal) : Int :=
  match v with
  | .fin s m e =>
    let n : Nat := if q ≤ e then m * 2 ^ (e - q).toNat else m / 2 ^ (q - e).toNat
    if s then -(n : Int) else n
  | _ => 0

/-- Every term is a zero with a negative sign. -/
def allNegZero (ts : List FVal) : Bool :=
  ts.all fun t =>
    match t with
    | .fin s m _ => s && decide (m = 0)
    | _ => false

/-- The value of a set of terms under the window rule (R134) and the special values of R135, before its one
rounding. -/
def windowSum (ts : List FVal) : FVal :=
  let pos := ts.contains (.inf false)
  let neg := ts.contains (.inf true)
  if ts.any isNan || (pos && neg) then .nan
  else if pos then .inf false
  else if neg then .inf true
  else
    match topExp ts with
    | none => .fin (allNegZero ts) 0 0
    | some t =>
      let q := t - 47
      finOfInt false ((ts.map (truncUnits q)).foldl (· + ·) 0) q

/-- The value of an E8M0 block scale: 2^(e − 127), or NaN (R126). -/
def scaleVal (b : Nat) : FVal := if b = 0xFF then .nan else .fin false 1 ((b : Int) - 127)

end Sys2Proof.Machine
end

