-- ==== Sys2Proof/Machine/Vector.lean ====
section
/-! DEFINITION. Class 0x2, the vector instructions (Tables 5-6 and 5-7, R98 to R100). -/
namespace Sys2Proof.Machine

/-! ## Lanes and scratchpad ranges -/

/-- Bits of lane `i` of a format (R125). -/
def laneBits (f : Nat) (v : VecReg) (i : Nat) : Nat := v.toNat / 2 ^ (fmtBits f * i) % 2 ^ fmtBits f

/-- All lanes of a format, lowest first. -/
def lanesOf (f : Nat) (v : VecReg) : List Nat := (List.range (fmtLanes f)).map (laneBits f v)

/-- A register from lanes, lowest first. -/
def packNat (w : Nat) : List Nat → Nat
  | [] => 0
  | x :: xs => x % 2 ^ w + 2 ^ w * packNat w xs

def packLanes (f : Nat) (ls : List Nat) : VecReg := BitVec.ofNat 2048 (packNat (fmtBits f) ls)

/-- Lane-wise functions of one, two and three registers. -/
def lanes1 (f : Nat) (g : Nat → Nat) (a : VecReg) : VecReg := packLanes f ((lanesOf f a).map g)
def lanes2 (f : Nat) (g : Nat → Nat → Nat) (a b : VecReg) : VecReg :=
  packLanes f ((List.range (fmtLanes f)).map fun i => g (laneBits f a i) (laneBits f b i))
def lanes3 (f : Nat) (g : Nat → Nat → Nat → Nat) (a b c : VecReg) : VecReg :=
  packLanes f ((List.range (fmtLanes f)).map fun i => g (laneBits f a i) (laneBits f b i) (laneBits f c i))

/-- A range lies in a guest's region. -/
def inRegion (base len off n : Nat) : Bool := decide (base ≤ off ∧ off + n ≤ base + len)

/-- The fault of a scratchpad access: ADDRESS beyond the scratchpad (R105); at guest privilege WINDOW outside the
input and work regions, or outside the work region for a store (R72). -/
def scratchFault (c : Core) (store : Bool) (off n : Nat) : Option Nat :=
  match c.guest with
  | some g =>
    if inRegion g.wkBase g.wkLen off n || (!store && inRegion g.inBase g.inLen off n) then none else some fWindow
  | none => if off + n ≤ scratchBytes then none else some fAddress

/-! ## Arithmetic -/

/-- A lane operation on values, rounded to nearest even. -/
def arith2 (f : Nat) (g : FVal → FVal → FVal) (a b : Nat) : Nat := encodeF f (g (decodeF f a) (decodeF f b))

/-- Fused multiply-add with a single rounding. -/
def fmaLane (f a b c : Nat) : Nat := encodeF f (addF (mulF (decodeF f a) (decodeF f b)) (decodeF f c))

/-- A lane whose value the spec does not state: free bits of the operands (notes/assumptions), except that a NaN the device
writes is the positive encoding of Table 6-3 (R129). -/
def openLane (code f a b : Nat) : Nat :=
  let x := Config.unstated code f a b % 2 ^ fmtBits f
  if isNan (decodeF f x) then nanBits f else x

/-- Maximum (or minimum) of two lanes. The spec states no result for a NaN operand, nor which zero of two of opposite
sign: those are free values of the operands (notes/assumptions). -/
def pickLane (f : Nat) (maxi : Bool) (a b : Nat) : Nat :=
  let x := decodeF f a
  let y := decodeF f b
  if isNan x || isNan y then openLane (b2n maxi) f a b
  else if eqF x y ∧ a ≠ b then (if Config.unstated (b2n maxi) f a b % 2 = 0 then a else b)
  else if ltF x y = maxi then b else a

/-- VCMP's condition (Table 5-7). -/
def vcond (fn : Nat) (a b : FVal) : Bool :=
  match fn with
  | 0 => eqF a b
  | 1 => !eqF a b
  | 2 => ltF a b
  | 3 => ltF a b || eqF a b
  | 4 => ltF b a
  | _ => ltF b a || eqF a b

/-- VEXP of a lane: correctly rounded for BF16, within 2 ulp for FP32 (R98). -/
def expLane (f fn a : Nat) : Nat :=
  let v := expF fn (decodeF f a)
  match decodeF f a with
  | .fin _ _ _ => if f = 8 then withinUlp 8 2 (Config.expPick fn a) v else encodeF f v
  | _ => encodeF f v

/-- VRCP of a lane: within 1 ulp; 1/±∞ is ±0; the spec states no result for 1/±0. -/
def rcpLane (f a : Nat) : Nat :=
  match decodeF f a with
  | .nan => nanBits f
  | .inf s => encodeF f (.fin s 0 0)
  | .fin s m e =>
    if m = 0 then openLane 2 f a 0
    else withinUlp f 1 (Config.rcpPick 0 f a) (divFin s 1 0 m e)

/-- VRSQ of a lane: within 1 ulp; the spec states no result for zero or a negative operand. -/
def rsqLane (f a : Nat) : Nat :=
  match decodeF f a with
  | .nan => nanBits f
  | .inf s => if s then openLane 3 f a 0 else encodeF f (.fin false 0 0)
  | .fin s m e =>
    if m = 0 ∨ s then openLane 3 f a 0
    else withinUlp f 1 (Config.rcpPick 1 f a) (rsqrtFin m e)

/-- VRED: lanes exactly to FP32, then the fixed pairwise tree (R98). -/
def vredWord (f fn : Nat) (v : VecReg) : Nat :=
  let ps := (lanesOf f v).map fun x => encodeF 8 (decodeF f x)
  treeFold (if fn = 0 then fadd32 else pickLane 8 true) 10 ps

/-- A conversion of the L elements of the wider format (R98): into segment SEG of a narrower destination, whose other
lanes keep their value, or from segment SEG into every lane of a wider one. -/
def convertLanes (src dst seg : Nat) (conv : Nat → Nat → Nat) (old a : VecReg) : VecReg :=
  let l := min (fmtLanes src) (fmtLanes dst)
  if fmtLanes src < fmtLanes dst then
    packLanes dst ((List.range (fmtLanes dst)).map fun j =>
      if seg * l ≤ j ∧ j < seg * l + l then conv (j - seg * l) (laneBits src a (j - seg * l)) else laneBits dst old j)
  else packLanes dst ((List.range l).map fun i => conv i (laneBits src a (seg * l + i)))

/-- Word 0 of the generator for a 64-bit seed and counter (R132, Table 6-5). -/
def keyedWord (seed ctr c2 c3 : Nat) : Nat :=
  (philox (BitVec.ofNat 32 seed) (BitVec.ofNat 32 (seed / 2 ^ 32))
    ⟨BitVec.ofNat 32 ctr, BitVec.ofNat 32 (ctr / 2 ^ 32), BitVec.ofNat 32 c2, BitVec.ofNat 32 c3⟩).x0.toNat

/-- Stochastic conversion of one element: R is bits [31:8] of the generator word (R130). -/
def convSr (src dst : Nat) (word x : Nat) : Nat := (roundTo dst (.stoch (word / 256)) (decodeF src x)).bits

/-- Insert an element into a descending list, after those it does not exceed (ascending index among equals). -/
def topInsert (x : Nat × FVal × Nat) : List (Nat × FVal × Nat) → List (Nat × FVal × Nat)
  | [] => [x]
  | y :: ys => if ltF y.2.1 x.2.1 then x :: y :: ys else y :: topInsert x ys

/-- The k largest of elements (index, value, bits), NaN never selected (R100). -/
def topK (k : Nat) (xs : List (Nat × FVal × Nat)) : List (Nat × FVal × Nat) :=
  xs.foldl (fun acc x => if isNan x.2.1 then acc else (topInsert x acc).take k) []

/-- VTOPK (R100). Lanes at and above k are not stated: free values of the operands. -/
def vtopkEff (s : State) (k : Nat) (w : FmtT) (c : Core) : Res :=
  let f := vFmt w
  let off := (readS c w.a).toNat
  let n := (readS c w.b).toNat
  let kk := max 1 (min 64 (readS c w.c).toNat)
  let eb := fmtBits f / 8
  if off % 256 ≠ 0 then .flt fAlignment
  else
    match scratchFault c false off (n * eb) with
    | some code => .flt code
    | none =>
      let xs := (List.range n).map fun i =>
        let b := readNat c.scratch (off + eb * i) eb
        (i, decodeF f b, b)
      let top := topK kk xs
      let vals := (List.range 64).map fun i =>
        if h : i < top.length then encodeF 8 top[i].2.1
        else if i < kk then 0xFF800000 else openLane 4 8 (16 * i + f) off
      let idxs := (List.range 64).map fun i =>
        if h : i < top.length then top[i].1
        else if i < kk then 0xFFFFFFFF else Config.unstated 5 f i off % 2 ^ 32
      regOp s k fun c => writeV (writeV c w.d (packLanes 8 vals)) (w.d + 1) (packLanes 8 idxs)

/-! ## The instructions -/

/-- vD := g vA vB, lane-wise on values. -/
def vec2Eff (s : State) (k : Nat) (w : FmtT) (g : Nat → Nat → Nat) : Res :=
  regOp s k fun c => writeV c w.d (lanes2 (vFmt w) g (readV c w.a) (readV c w.b))

def execVadd (k : Nat) (w : FmtT) (s : State) : Host.Outcome State Fault Refusal :=
  issueT k w s infoVec3 fun _ => vec2Eff s k w (arith2 (vFmt w) addF)
def execVsub (k : Nat) (w : FmtT) (s : State) : Host.Outcome State Fault Refusal :=
  issueT k w s infoVec3 fun _ => vec2Eff s k w (arith2 (vFmt w) fun a b => addF a (negF b))
def execVmul (k : Nat) (w : FmtT) (s : State) : Host.Outcome State Fault Refusal :=
  issueT k w s infoVec3 fun _ => vec2Eff s k w (arith2 (vFmt w) mulF)
def execVfma (k : Nat) (w : FmtT) (s : State) : Host.Outcome State Fault Refusal :=
  issueT k w s infoVfma fun _ => regOp s k fun c =>
    writeV c w.d (lanes3 (vFmt w) (fmaLane (vFmt w)) (readV c w.a) (readV c w.b) (readV c w.c))
def execVmax (k : Nat) (w : FmtT) (s : State) : Host.Outcome State Fault Refusal :=
  issueT k w s infoVec3 fun _ => vec2Eff s k w (pickLane (vFmt w) true)
def execVmin (k : Nat) (w : FmtT) (s : State) : Host.Outcome State Fault Refusal :=
  issueT k w s infoVec3 fun _ => vec2Eff s k w (pickLane (vFmt w) false)
def execVcmp (k : Nat) (w : FmtT) (s : State) : Host.Outcome State Fault Refusal :=
  issueT k w s infoVcmp fun _ => vec2Eff s k w fun a b =>
    if vcond (vFn w) (decodeF (vFmt w) a) (decodeF (vFmt w) b) then 2 ^ fmtBits (vFmt w) - 1 else 0
def execVexp (k : Nat) (w : FmtT) (s : State) : Host.Outcome State Fault Refusal :=
  issueT k w s infoVexp fun _ => regOp s k fun c =>
    writeV c w.d (lanes1 (vFmt w) (expLane (vFmt w) (vFn w)) (readV c w.a))
def execVrcp (k : Nat) (w : FmtT) (s : State) : Host.Outcome State Fault Refusal :=
  issueT k w s infoVrcp fun _ => regOp s k fun c => writeV c w.d (lanes1 (vFmt w) (rcpLane (vFmt w)) (readV c w.a))
def execVrsq (k : Nat) (w : FmtT) (s : State) : Host.Outcome State Fault Refusal :=
  issueT k w s infoVrcp fun _ => regOp s k fun c => writeV c w.d (lanes1 (vFmt w) (rsqLane (vFmt w)) (readV c w.a))
def execVred (k : Nat) (w : FmtT) (s : State) : Host.Outcome State Fault Refusal :=
  issueT k w s infoVred fun _ => regOp s k fun c =>
    writeV c w.d (BitVec.ofNat 2048 (vredWord (vFmt w) (vFn w) (readV c w.a)))
def execVcvt (k : Nat) (w : FmtT) (s : State) : Host.Outcome State Fault Refusal :=
  let dst := bits w.imm.toNat 3 0
  issueT k w s infoVcvt fun _ => regOp s k fun c =>
    writeV c w.d (convertLanes (vFmt w) dst (vSeg w) (fun _ x => encodeF dst (decodeF (vFmt w) x)) (readV c w.d) (readV c w.a))
def execVcvtsr (k : Nat) (w : FmtT) (s : State) : Host.Outcome State Fault Refusal :=
  let dst := bits w.imm.toNat 3 0
  issueT k w s infoVcvtsr fun _ => regOp s k fun c =>
    writeV c w.d (convertLanes (vFmt w) dst (vSeg w)
      (fun i x => convSr (vFmt w) dst (keyedWord (readS c w.b).toNat (((readS c w.c).toNat + i) % 2 ^ 64) 0 2) x)
      (readV c w.d) (readV c w.a))
def execVtopk (k : Nat) (w : FmtT) (s : State) : Host.Outcome State Fault Refusal :=
  issueT k w s infoVtopk fun c => vtopkEff s k w c
/-- VRAND (R99): FN 0 raw words, FN 1 the top 24 bits of each × 2^−24 as FP32. -/
def execVrand (k : Nat) (w : FmtT) (s : State) : Host.Outcome State Fault Refusal :=
  issueT k w s infoVrand fun _ => regOp s k fun c =>
    writeV c w.d (packLanes 8 ((List.range 64).map fun i =>
      let x := keyedWord (readS c w.a).toNat (((readS c w.b).toNat + i) % 2 ^ 64) 0 1
      if vFn w = 0 then x else encodeF 8 (.fin false (x / 256) (-24))))
def execVbcast (k : Nat) (w : FmtT) (s : State) : Host.Outcome State Fault Refusal :=
  issueT k w s infoVbcast fun _ => regOp s k fun c =>
    writeV c w.d (packLanes (vFmt w) (List.replicate (fmtLanes (vFmt w)) (readS c w.a).toNat))
def execVext (k : Nat) (w : FmtT) (s : State) : Host.Outcome State Fault Refusal :=
  issueT k w s infoVext fun _ => regOp s k fun c =>
    writeS c w.d (BitVec.ofNat 64 (laneBits (vFmt w) (readV c w.a) (w.imm.toNat % fmtLanes (vFmt w))))
/-- VSEL: vA where the lane of vC is nonzero, else vB. Nonzero is read of the lane's bits, so −0 selects vA: the model's choice
(notes/assumptions/124.md). -/
def execVsel (k : Nat) (w : FmtT) (s : State) : Host.Outcome State Fault Refusal :=
  issueT k w s infoVsel fun _ => regOp s k fun c =>
    writeV c w.d (lanes3 (vFmt w) (fun a b m => if m ≠ 0 then a else b) (readV c w.a) (readV c w.b) (readV c w.c))

end Sys2Proof.Machine
end

