-- ==== Sys2Proof/Machine/Attn.lean ====
section
/-! DEFINITION. Class 0x8: AMRG, the merge of two partial attention results (R117). -/
namespace Sys2Proof.Machine

/-- −∞ in FP32. -/
def negInf32 : Nat := 0xFF800000

/-- exp of a difference in FP32, each operation rounded to nearest even (R117). -/
def expDiff (a b : Nat) : Nat := encodeF 8 (expF 0 (decodeF 8 (encodeF 8 (addF (decodeF 8 a) (negF (decodeF 8 b))))))

/-- The merged row maximum, and what each partial is weighted by; none when both partials are empty. -/
def amrgWeights (m1 m2 : Nat) : Nat × Option (Nat × Nat) :=
  let m := pickLane 8 true m1 m2
  (m, if m = negInf32 then none else some (expDiff m1 m, expDiff m2 m))

/-- a1·x1 + a2·x2, each operation rounded. -/
def weighted (a : Option (Nat × Nat)) (x1 x2 : Nat) : Nat :=
  match a with
  | some p => fadd32 (fmul32 p.1 x1) (fmul32 p.2 x2)
  | none => 0

/-- A FP32 number is a zero. -/
def zero32 (x : Nat) : Bool := decide (x % 2 ^ 31 = 0)

/-- One lane of o: divided by l when FINAL is set, +0 when l is zero. -/
def amrgLane (a : Option (Nat × Nat)) (final : Bool) (l x1 x2 : Nat) : Nat :=
  let o := weighted a x1 x2
  if final then (if zero32 l then 0 else encodeF 8 (divF (decodeF 8 o) (decodeF 8 l))) else o

/-- AMRG (R117): o to vD:vD+1; m, l and the empty-row flag to lanes 0 to 2 of vC, +0 to its other lanes. Where vC is one of the
pair, the write of vC stands: the model's choice (notes/assumptions/128.md). -/
def amrgDo (w : FmtT) (c : Core) : Core :=
  let v := readV c w.c
  let a := amrgWeights (laneBits 8 v 0) (laneBits 8 v 2)
  let l := weighted a.2 (laneBits 8 v 1) (laneBits 8 v 3)
  let final := decide (modBits w 29 29 = 1)
  let o := fun (d : BitVec 5) => lanes2 8 (amrgLane a.2 final l) (readV c (w.a + d)) (readV c (w.b + d))
  let c1 := writeV (writeV c w.d (o 0)) (w.d + 1) (o 1)
  writeV c1 w.c (packLanes 8 [a.1, l, if final && zero32 l then 0x3F800000 else 0])

def execAmrg (k : Nat) (w : FmtT) (s : State) : Host.Outcome State Fault Refusal :=
  issueT k w s infoAmrg fun _ => regOp s k (amrgDo w)

end Sys2Proof.Machine
end

