-- ==== Sys2Proof/Machine/Ed448.lean ====
section
/-! DEFINITION. Ed448 with an empty context (R393, R398, R400), as RFC 8032 section 5.2 defines it; the spec names that
document and does not restate it (PRESUMED, notes/assumptions). -/
namespace Sys2Proof.Machine

/-- The field's prime, 2^448 - 2^224 - 1. -/
def edP : Nat := 2 ^ 448 - 2 ^ 224 - 1

/-- The order of the base point. -/
def edL : Nat := 2 ^ 446 - 13818066809895115352007386748515426880336692474882178609894547503885

/-- The curve constant d = -39081. -/
def edD : Nat := edP - 39081

/-- A point in projective coordinates: (X/Z, Y/Z). -/
structure EdPoint where
  x : Nat
  y : Nat
  z : Nat
deriving DecidableEq, Repr

/-- The neutral element. -/
def edZero : EdPoint := ⟨0, 1, 1⟩

/-- The base point. -/
def edBase : EdPoint :=
  ⟨224580040295924300187604334099896036246789641632564134246125461686950415467406032909029192869357953282578032075146446173674602635247710,
   298819210078481492676017930443930673437544040154080242095928241372331506189835876003536878655418784733982303233503462500531545062832660,
   1⟩

/-- The sum of two points; the law is complete, so it doubles too. -/
def edAdd (p q : EdPoint) : EdPoint :=
  let a := p.z * q.z % edP
  let b := a * a % edP
  let c := p.x * q.x % edP
  let d := p.y * q.y % edP
  let e := edD * (c * d % edP) % edP
  let f := (b + edP - e) % edP
  let g := (b + e) % edP
  let h := (p.x + p.y) * (q.x + q.y) % edP
  ⟨a * f % edP * ((h + 2 * edP - c - d) % edP) % edP, a * g % edP * ((d + edP - c) % edP) % edP, f * g % edP⟩

/-- Bits of a number below 2^n, highest first. -/
def bitsDown (n k : Nat) : List Bool := (List.range n).map fun i => decide (k / 2 ^ (n - 1 - i) % 2 = 1)

/-- A multiple of a point; the factor is below 2^456. -/
def edMul (k : Nat) (p : EdPoint) : EdPoint :=
  (bitsDown 456 k).foldl (fun acc b => let t := edAdd acc acc; if b then edAdd t p else t) edZero

/-- A power in the field; the exponent is below 2^456. -/
def edPow (x k : Nat) : Nat :=
  (bitsDown 456 k).foldl (fun acc b => let t := acc * acc % edP; if b then t * x % edP else t) 1

/-- Two points are equal. -/
def edEq (p q : EdPoint) : Bool := decide (p.x * q.z % edP = q.x * p.z % edP) && decide (p.y * q.z % edP = q.y * p.z % edP)

/-- A point in 57 bytes: y, and the low bit of x in the top bit. -/
def edEncode (p : EdPoint) : List Byte :=
  let zi := edPow p.z (edP - 2)
  natBytes 57 (p.y * zi % edP + 2 ^ 455 * (p.x * zi % edP % 2))

/-- The point that 57 bytes encode, if any. -/
def edDecode (bs : List Byte) : Option EdPoint :=
  let n := leNat bs
  let y := n % 2 ^ 455
  let sign := n / 2 ^ 455 % 2
  let u := (y * y + edP - 1) % edP
  let v := (edD * (y * y % edP) + edP - 1) % edP
  let x := u * u % edP * u % edP * v % edP *
    edPow (u * u % edP * (u * u % edP) % edP * u % edP * (v * v % edP * v % edP) % edP) ((edP - 3) / 4) % edP
  if bs.length ≠ 57 ∨ edP ≤ y ∨ v * (x * x % edP) % edP ≠ u ∨ (x = 0 ∧ sign = 1) then none
  else some ⟨if x % 2 = sign then x else edP - x, y, 1⟩

/-- The prefix of every hash: pure Ed448, empty context. -/
def edDom : List Byte := ascii "SigEd448" ++ [0, 0]

/-- The hash as a number. -/
def edHash (bs : List Byte) : Nat := leNat (shake256 (edDom ++ bs) 114)

/-- The secret scalar of a 57-byte private key. -/
def edScalar (key : List Byte) : Nat :=
  let h := leNat ((shake256 key 114).take 56)
  h / 4 * 4 % 2 ^ 447 + 2 ^ 447

/-- The public key of a private key. -/
def ed448Public (key : List Byte) : List Byte := edEncode (edMul (edScalar key) edBase)

/-- The 114-byte signature of a message. -/
def ed448Sign (key msg : List Byte) : List Byte :=
  let a := ed448Public key
  let r := edHash ((shake256 key 114).drop 57 ++ msg) % edL
  let rs := edEncode (edMul r edBase)
  let k := edHash (rs ++ a ++ msg) % edL
  rs ++ natBytes 57 ((r + k * edScalar key) % edL)

/-- Whether a signature verifies. -/
def ed448Verify (pub msg sig : List Byte) : Bool :=
  match edDecode pub, edDecode (sig.take 57) with
  | some a, some r =>
    let s := leNat (sig.drop 57)
    let k := edHash (sig.take 57 ++ pub ++ msg) % edL
    decide (sig.length = 114 ∧ s < edL) && edEq (edMul 4 (edMul s edBase)) (edMul 4 (edAdd r (edMul k a)))
  | _, _ => false

end Sys2Proof.Machine
end

