-- ==== Sys2Proof/Machine/Hbm.lean ====
section
/-! DEFINITION. HBM as its readers and writers meet it: the interleave (R148), uncorrectable words (R150, R153), the
guarded ranges that a read checks and a write is refused by (R154 to R159), and the cluster caches (R182 to R186). -/
namespace Sys2Proof.Machine

/-! ## Uncorrectable and corrected words -/

/-- Bytes at the point of coherence as a reader receives them: an uncorrectable word's bytes read zero (R153). -/
def pocRead (s : State) (a n : Nat) : List Byte :=
  let bs := physRead s a n
  if (badIn s a n).isNone then bs
  else (List.zip (List.range n) bs).map fun p => if smGet boolDefault s.badWords ((a + p.1) / 16) then 0 else p.2

/-- A word lies in no range that is not OFF: no block's check reads it. -/
def wordOpen (s : State) (w : Nat) : Bool :=
  (List.range 16).all fun i => decide (fld s (Reg.mcGrState i) = 0) ||
    !(decide (baseFld s (Reg.mcGrBase i) ≤ 16 * w) && decide (16 * w < baseFld s (Reg.mcGrBase i) + baseFld s (Reg.mcGrSize i)))

/-- A read of `[a, a + n)`: its correctable words count, those apart that the check of a guarded block has read
(notes/assumptions/142.md). -/
def readSoft (s : State) (a n : Nat) : State := ((softWordsIn s a n).filter (wordOpen s)).foldl countWord s

/-- A read of `[a, a + n)` whose guarded blocks have passed: corrections are counted, and each uncorrectable word raises its
event. The answer names the first uncorrectable word. -/
def pocReadEvents (s : State) (a n kind rc : Nat) : State × Option Nat :=
  let s1 := readSoft s a n
  ((badWordsIn s1 a n).foldl (fun st w => ueEvent st (16 * w) kind rc) s1, badIn s a n)

/-! ## Refresh and retraining (R160, R162) -/

/-- The refresh rate a stack's temperature selects: 0 1×, 1 2×, 2 4× (Table 7-16). -/
def stackRate (s : State) (k : Nat) : Nat := bits (fld s (Reg.mcStkTemp k)) 17 16

/-- The rate after a reading (R160): it rises past 85 °C and 95 °C and falls 2 °C below them. -/
def rateAt (cur celsius : Nat) : Nat :=
  let up := if 95 < celsius then 2 else if 85 < celsius then 1 else 0
  let down := if celsius ≤ 83 then 0 else if celsius ≤ 93 then 1 else 2
  max up (min cur down)

/-- A refresh issues on a pseudo-channel: a changed rate takes effect. -/
def issueRefresh (s : State) (pc : Nat) : State :=
  { s with refreshRate := smSet natDefault s.refreshRate pc (stackRate s (pc / 32)) }

/-- A channel's window opens, and its stack counts it. -/
def openWindow (s : State) (ch : Nat) : State :=
  if smGet boolDefault s.retraining ch then s
  else
    countUp { s with retraining := smSet boolDefault s.retraining ch true } (Reg.mcStkRetrains (ch / 16)) (Reg.mcStkOvf (ch / 16)) 3 1

/-- The channels whose retrain waits for a step boundary retrain together. -/
def openDue (s : State) : State := (s.retrainDue.map (·.1)).foldl openWindow { s with retrainDue := [] }

/-! ## Guarded ranges -/

def grState (s : State) (i : Nat) : Nat := fld s (Reg.mcGrState i)
def grBase (s : State) (i : Nat) : Nat := baseFld s (Reg.mcGrBase i)
def grSize (s : State) (i : Nat) : Nat := baseFld s (Reg.mcGrSize i)
def grCrcBase (s : State) (i : Nat) : Nat := baseFld s (Reg.mcGrCrcBase i)
def grGolden (s : State) (i : Nat) : Nat := baseFld s (Reg.mcGrGolden i)

/-- Two address ranges share a byte. -/
def overlaps (a n b m : Nat) : Bool := decide (0 < n ∧ 0 < m ∧ a < b + m ∧ b < a + n)

/-- A range that is not OFF holds a byte of `[a, a + n)`: a write there is refused (R157). -/
def guarded (s : State) (a n : Nat) : Bool :=
  (List.range 16).any fun i => decide (grState s i ≠ 0) && overlaps a n (grBase s i) (grSize s i)

/-- Blocks of ranges that are not OFF which `[a, a + n)` touches, as (range, block). -/
def guardBlocks (s : State) (a n : Nat) : List (Nat × Nat) :=
  (List.range 16).flatMap fun i =>
    let b := grBase s i
    let lo := max a b - b
    let hi := min (a + n) (b + grSize s i) - b
    if grState s i ≠ 0 ∧ overlaps a n b (grSize s i) then
      (List.range ((hi - 1) / 4096 - lo / 4096 + 1)).map fun j => (i, lo / 4096 + j)
    else []

/-- The block fails its check (R156): its CRC differs from the table's, or a word of the block or of its table entry is
uncorrectable. -/
def blockFails (s : State) (i b : Nat) : Bool :=
  let a := grBase s i + 4096 * b
  let t := grCrcBase s i + 8 * b
  (badIn s a 4096).isSome || (badIn s t 8).isSome ||
    decide ((crc64 (readBytes s.mem a 4096)).toNat ≠ readNat s.mem t 8)

/-- REPAIRS_PENDING: blocks under repair, at most 16 (R159). -/
def showRepairs (s : State) : State := setFld s Reg.mcStatusRepairsPending (min 16 s.repairs.length)

/-- The step watchdog stops while a repair is pending and resumes with its remaining time (R159). -/
def holdWatchdog (s : State) : State :=
  if s.repairs.isEmpty then
    match s.timer2Left with
    | some r => { s with timer2 := s.tk + r, timer2Left := none }
    | none => s
  else if s.timer2 = 0 then s
  else { s with timer2Left := some (s.timer2 - s.tk), timer2 := 0 }

/-- Repairs that hold a repair slot, the first 16 in order of detection; those in quarantine start stage 1. Its limit
counts from detection with the quarantine's own (Table 7-5). -/
def startRepairs (s : State) : State :=
  let rs := (List.zip (List.range s.repairs.length) s.repairs).map fun p =>
    if p.1 < 16 ∧ p.2.stage = 0 then { p.2 with stage := 1, limit := s.tk + 10100 } else p.2
  holdWatchdog (showRepairs { s with repairs := rs })

/-- A block is under repair or in quarantine. -/
def inRepair (s : State) (i b : Nat) : Bool := s.repairs.any fun r => decide (r.range = i ∧ r.block = b)

/-- Quarantine a failing block (R158, R159): one repair serves all its readers. -/
def beginRepair (s : State) (i b : Nat) : State :=
  if inRepair s i b then s
  else startRepairs { s with
    repairs := s.repairs ++ [{ range := i, block := b, stage := 0, slot := none, limit := s.tk + 100, began := s.tk }] }

/-- The words that a block's check reads are counted as corrected: its own and its table entry's (R150, R156). -/
def blockSoft (s : State) (p : Nat × Nat) : State :=
  countSoft (countSoft s (grBase s p.1 + 4096 * p.2) 4096) (grCrcBase s p.1 + 8 * p.2) 8

/-- The check a reader makes of one block (R155, R156): a block of a SEALING range or one under repair makes it wait; a
failing block is quarantined and makes it wait. -/
def checkBlock (s : State) (p : Nat × Nat) : State × Bool :=
  if grState s p.1 = 1 ∨ inRepair s p.1 p.2 then (s, false)
  else if blockFails s p.1 p.2 then (beginRepair (blockSoft s p) p.1 p.2, false)
  else (blockSoft s p, true)

/-- Check every guarded block a read touches; the read goes on when all pass. -/
def checkBlocks : State → List (Nat × Nat) → State × Bool
  | s, [] => (s, true)
  | s, p :: ps =>
    let r := checkBlock s p
    let q := checkBlocks r.1 ps
    (q.1, r.2 && q.2)

/-- Every guarded byte of `[a, a + n)` may be consumed (R156). -/
def readReady (s : State) (a n : Nat) : State × Bool := checkBlocks s (guardBlocks s a n)

/-- An area of memory may be consumed: outside HBM there is no guarded block. -/
def areaReady (s : State) (a n : Nat) : State × Bool := if rowOf s a n = .hbm then readReady s a n else (s, true)

/-! ## Cluster caches -/

/-- Lines of an 8 MiB cluster cache (Table 1-3). -/
def cacheLines : Nat := 32768

/-- The cached line of an HBM line number, if present. -/
def cacheGet (cl : Cluster) (g : Nat) : Option CacheLine := (cl.cache.find? fun e => decide (e.1 = g)).map (·.2)

/-- Put a line in a cluster's cache. -/
def cachePut (s : State) (n g : Nat) (l : CacheLine) : State :=
  let cl := getCluster s n
  setCluster s n { cl with cache := smIns cl.cache g l }

/-- Drop a line from a cluster's cache without writing it back. -/
def cacheDrop (s : State) (n g : Nat) : State :=
  let cl := getCluster s n
  setCluster s n { cl with cache := smDel cl.cache g }

/-- Write a dirty line back to the point of coherence, where it replaces the whole granule, and leave it clean (R182). A
write-back into a guarded range is refused (R157). -/
def writeBack (s : State) (n g : Nat) : State :=
  match cacheGet (getCluster s n) g with
  | some l =>
    if l.dirty then
      let s1 := if guarded s (256 * g) 256 then s else physWrite s (256 * g) l.data
      cachePut s1 n g { l with dirty := false }
    else s
  | none => s

/-- Room for one more line: a full cache evicts a line of its own choosing, a free value, and writes it back. -/
def cacheRoom (s : State) (n g : Nat) : State :=
  let cl := getCluster s n
  if (cacheGet cl g).isSome ∨ cl.cache.length < cacheLines then s
  else
    match cl.cache[freeNow s % cl.cache.length]? with
    | some e => cacheDrop (writeBack (tookFree s) n e.1) n e.1
    | none => s

/-- Install a line. -/
def cacheInstall (s : State) (n g : Nat) (dirty : Bool) (data : List Byte) : State :=
  cachePut (cacheRoom s n g) n g { dirty := dirty, data := data }

/-- Install the lines of the guarded blocks that a fill fetched whole, those not present, clean (R156). -/
def installBlocks (s : State) (n : Nat) (ps : List (Nat × Nat)) : State :=
  ps.foldl (fun st p =>
    (List.range 16).foldl (fun st j =>
      let a := grBase st p.1 + 4096 * p.2 + 256 * j
      if (cacheGet (getCluster st n) (a / 256)).isSome then st
      else cacheInstall st n (a / 256) false (physRead st a 256)) st) s

/-- An uncorrectable word met on the step's behalf (Table 7-3): the step is rolled back and rerun once; a second
uncorrectable read of the granule in the rerun halts as an operator fault of the rerun does. -/
def stepUe (s : State) (addr : Nat) : State :=
  let gran := addr / 256
  let again := s.sched.faultRerun && s.sched.ueGranule.contains gran
  { s with sched := { s.sched with
      ueGranule := if s.sched.ueGranule.contains gran then s.sched.ueGranule else gran :: s.sched.ueGranule
      cur := s.sched.cur.map fun p => { p with ueHit := true, faulted := p.faulted || again } } }

/-- What a core load meets at an uncorrectable word (Table 7-3): a guest load ends the call's request with MEM_UE at the
end of the step; any other load ends the core's part and rolls the step back, as an operator fault does (R88). -/
def coreLoadUe (s : State) (k addr : Nat) : State :=
  match (getCore s k).guest with
  | some g =>
    let r := getReq s g.rc
    setReq s g.rc { r with codes := r.codes ++ [0x12] }
  | none => modCore (stepUe s addr) k fun c => { c with phase := .ended }

/-- Reader kind of a core load (Table 15-9). -/
def loadKind (s : State) (k : Nat) : Nat := if (getCore s k).guest.isSome then 2 else 1

/-- Request of a core load, 0xFFFF for none. -/
def loadRc (s : State) (k : Nat) : Nat := ((getCore s k).guest.map (·.rc)).getD 0xFFFF

/-- Read one line at the point of coherence for core `k`: none while the read must wait (R155, R158). -/
def pocLine (s : State) (k a : Nat) : State × Option (List Byte) :=
  match guardBlocks s a 256 with
  | [] =>
    let r := pocReadEvents s a 256 (loadKind s k) (loadRc s k)
    match r.2 with
    | some w => (coreLoadUe r.1 k w, some (pocRead s a 256))
    | none => (r.1, some (physRead s a 256))
  | ps =>
    let r := checkBlocks s ps
    (r.1, if r.2 then some (physRead s a 256) else none)

/-- LDC of one line (R183): the cached line, else the line filled from the point of coherence and installed. A line
with an uncorrectable word is delivered and not kept. -/
def ldcLine (s : State) (k a : Nat) : State × Option (List Byte) :=
  let n := clusterOf k
  match cacheGet (getCluster s n) (a / 256) with
  | some l => (s, some l.data)
  | none =>
    let r := pocLine s k a
    match r.2 with
    | some bs =>
      match guardBlocks s a 256 with
      | [] => (if (badIn s a 256).isSome then r.1 else cacheInstall r.1 n (a / 256) false bs, some bs)
      | ps => (installBlocks r.1 n ps, some bs)
    | none => r

/-- LDV of one line (R106, R184): an own dirty copy is written back first; no copy is installed or refreshed. -/
def ldvLine (s : State) (k a : Nat) : State × Option (List Byte) :=
  let s1 := writeBack s (clusterOf k) (a / 256)
  pocLine s1 k a

/-- STC of one line (R183): into the cluster cache, write-back. -/
def stcLine (s : State) (k a : Nat) (bs : List Byte) : State := cacheInstall s (clusterOf k) (a / 256) true bs

/-- STV of one line (R106, R184): an own dirty copy is written back, the line is written at the point of coherence, and
an own copy takes the bytes and stays clean. A later acquire of any scope reads the new bytes, where R194 leaves an acquirer outside
the scope's instance the old or the new: the model's choice (notes/assumptions/132.md). -/
def stvLine (s : State) (k a : Nat) (bs : List Byte) : State :=
  let n := clusterOf k
  let s1 := physWrite (writeBack s n (a / 256)) a bs
  if (cacheGet (getCluster s1 n) (a / 256)).isSome then cachePut s1 n (a / 256) { dirty := false, data := bs } else s1

end Sys2Proof.Machine
end

