-- ==== Sys2Proof/Machine/Cells.lean ====
section
/-! DEFINITION. Sync cells and their waiters (R75 to R80), and the device operation table: allocation, completion
signals and the states an entry leaves ACTIVE for (R82 to R86). -/
namespace Sys2Proof.Machine

/-! ## Sync cells -/

def numCells : Nat := 32768
/-- First held cell (R32, R80). -/
def heldFirst : Nat := 32512

def SyncCell.kind (c : SyncCell) : Nat := bits c.cfg.toNat 31 29
def SyncCell.scope (c : SyncCell) : Nat := bits c.cfg.toNat 28 26
def SyncCell.dlEn (c : SyncCell) : Bool := c.cfg.getLsbD 25
def SyncCell.wrapped (c : SyncCell) : Bool := c.cfg.getLsbD 24

/-- A cell with a value added under R76: modulo its width, WRAPPED set when the sum passes the largest value. -/
def SyncCell.plus (c : SyncCell) (x : Nat) : SyncCell :=
  let m := 2 ^ cellWidth c.kind
  let v := c.value.toNat + x
  { c with
    value := BitVec.ofNat 64 (v % m)
    cfg := if m ≤ v then c.cfg ||| 0x1000000#32 else c.cfg }

/-- End a core's WAIT with its predicate (R78): issue goes on after it. -/
def endWait (s : State) (k pd : Nat) (v : Bool) : State :=
  advance (modCore s k fun c => { writeP c pd v with wait := .none }) k

/-- End core `k`'s wait when it waits on cell `n` and `f` answers: the predicate to end it with. -/
def endIf (s : State) (n k : Nat) (f : Nat → Word → Bool → Option Bool) : State :=
  match (getCore s k).wait with
  | .cell m cond target pd timed =>
    if m = n then
      match f cond target timed with
      | some v => endWait s k pd v
      | none => s
    else s
  | _ => s

/-- Go through every core that has state, in ascending physical index. -/
def overCores (s : State) (f : State → Nat → State) : State := (s.cores.map (·.1)).foldl f s

/-- Test the waiters of a cell after a change of its value (R78). -/
def wakeCell (s : State) (n : Nat) : State :=
  let c := getCell s n
  overCores s fun st k => endIf st n k fun cond target _ =>
    if waitMet cond c.kind c.value target then some true else none

/-- Change a cell's value and test its waiters. -/
def putCell (s : State) (n : Nat) (c : SyncCell) : State := wakeCell (setCell s n c) n

/-- Reconfigure a cell (R75): every waiter ends with its predicate cleared (R78). -/
def configureCell (s : State) (n : Nat) (cfg : Word32) (value deadline : Word) : State :=
  let w := cellWidth (bits cfg.toNat 31 29)
  let s1 := setCell s n { value := BitVec.ofNat 64 (value.toNat % 2 ^ w), cfg := cfg, deadline := deadline }
  overCores s1 fun st k => endIf st n k fun _ _ _ => some false

/-- A cell's deadline is presented (R79): timed waiters whose condition is not met end with the predicate cleared, and
the slot is cleared. -/
def cellDeadline (s : State) (n : Nat) : State :=
  let c := getCell s n
  let s1 := setCell s n { c with deadline := 0 }
  overCores s1 fun st k => endIf st n k fun cond target timed =>
    if timed && !waitMet cond c.kind c.value target then some false else none

/-! ## Requests' end codes -/

/-- An end code for a request, settled at the next step boundary (R304). -/
def addCode (s : State) (rc code : Nat) : State :=
  let r := getReq s rc
  setReq s rc { r with codes := r.codes ++ [code] }

/-! ## The device operation table -/

def numDot : Nat := 4096

/-- Operation kinds (Table 4-10). -/
def kDma : Nat := 1
def kTier : Nat := 2
def kNear : Nat := 3
def kColl : Nat := 4
def kImport : Nat := 5
def kFlush : Nat := 6
def kInval : Nat := 7

/-- STATE codes (Table 4-10). -/
def dotCode (st : DotState) : Nat :=
  match st with
  | .free => 0
  | .active => 1
  | .done => 2
  | .failed => 3
  | .timedOut => 4
  | .cancelled => 5

/-- The four words DOTRD reads (Table 4-10); a FREE entry reads zero. -/
def dotWord (e : DotEntry) (i : Nat) : Word :=
  if e.state = .free then 0
  else BitVec.ofNat 64 (match i with
    | 0 => dotCode e.state * 2 ^ 60 + e.kind * 2 ^ 56 + e.result * 2 ^ 48 + b2n e.autofree * 2 ^ 47 +
        b2n e.dlEn * 2 ^ 46 + b2n e.cellEn * 2 ^ 45 + e.owner * 2 ^ 32 + e.cell * 2 ^ 16 + e.rc
    | 1 => e.bytesDone
    | 2 => e.start
    | _ => e.deadline)

/-- The lowest-numbered FREE entry (R82). -/
def freeEntry (s : State) : Option Nat := (List.range numDot).find? fun m => decide ((getDot s m).state = .free)

/-- The completion signal (R84): 1 is added to the cell as it stands; an UNCONFIGURED cell discards it with a record. -/
def signalCell (s : State) (m : Nat) (e : DotEntry) : State :=
  if !e.cellEn then s
  else
    let c := getCell s e.cell
    if c.kind = 0 then errorRecord s { type := 0x09, step := stepNow s, a0 := e.cell, a1 := 2 ^ 63 + m }
    else putCell s e.cell (c.plus 1)

/-- NBRD's entry has left ACTIVE: the lines of its status area are copied, or RESULT is written instead (Table 5-16). -/
def endNbrd (s : State) (k m d lines off : Nat) : State :=
  let e := getDot s m
  if e.state = .done then
    let data := pocRead s e.dst (256 * lines)
    modCore s k fun c =>
      writeS { c with scratch := writeBytes c.scratch off data, memHold := .none } (BitVec.ofNat 5 d) 0
  else modCore s k fun c => writeS { c with memHold := .none } (BitVec.ofNat 5 d) (BitVec.ofNat 64 e.result)

/-- Complete an NBRD of entry `m` at the head of a core's memory queue, or an NBFNC once every entry it waits for has left
ACTIVE (R114). -/
def releaseNb (s : State) (m k : Nat) : State :=
  match (getCore s k).memHold with
  | .nbrd m' d lines off => if m' = m then endNbrd s k m d lines off else s
  | .nbfnc ops =>
    if ops.contains m then
      modCore s k fun c => { c with memHold := match ops.filter (fun o => o ≠ m) with
        | [] => .none
        | rest => .nbfnc rest }
    else s
  | .none => s

/-- Entry `m` leaves ACTIVE (R84, Table 4-11): its cell is signalled, its request may end, and AUTOFREE frees it once
DONE. -/
def leaveActive (s : State) (m : Nat) (st : DotState) (result : Nat) : State :=
  let e := getDot s m
  if e.state ≠ .active then s
  else
    let s1 := signalCell (setDot s m { e with state := st, result := result }) m e
    let s2 := if e.rcEn ∧ (st = .failed ∨ (st = .timedOut ∧ result ≠ 0)) then addCode s1 e.rc result else s1
    let s3 := overCores s2 fun s' k => releaseNb s' m k
    if st = .done ∧ e.autofree then setDot s3 m {} else s3

/-! ## Near-bank commands that may run -/

/-- Finished commands in the unbroken run from the start of a list. -/
def finishedRun : List NbCmd → Nat
  | [] => 0
  | c :: cs => if c.status.isSome then 1 + finishedRun cs else 0

/-- FENCE of a command (Table 9-4). -/
def NbCmd.fence (c : NbCmd) : Bool := bit (fieldAt c.bytes 3 1) 2

/-- Commands start in list order, none behind a FENCE that waits for its earlier ones; `run` commands from the start have
finished and `i` is the place of the first here (R211). -/
def startCmds (run : Nat) : Nat → List NbCmd → List NbCmd
  | _, [] => []
  | i, c :: cs => if c.fence ∧ run < i then c :: cs else { c with started := true } :: startCmds run (i + 1) cs

/-- While units may burst, every command whose turn has come starts (R211, R213). -/
def startNear (s : State) : State :=
  if fld s Reg.nbStatusLimit = 0 then s
  else { s with dot := s.dot.map fun p =>
    if p.2.state = .active ∧ p.2.kind = kNear then (p.1, { p.2 with nb := startCmds (finishedRun p.2.nb) 0 p.2.nb }) else p }

/-- Device timer 1 follows the earliest limit tick of the tier operations that carry one (R173), the restores and
bringings-in of the page mover and the scheduler among them (R251, R283). -/
def armTierTimer (s : State) : State :=
  let ls := (s.dot.filterMap fun p => if p.2.state = .active ∧ p.2.limit ≠ 0 then some p.2.limit else none) ++
    (s.reqs.filterMap fun p => if p.2.limit ≠ 0 then some p.2.limit else none)
  { s with timer1 := match ls with
    | [] => 0
    | l :: rest => rest.foldl min l }

end Sys2Proof.Machine
end

