-- ==== Sys2Proof/Machine/Profile.lean ====
section
/-! DEFINITION. Profile records (R380, Tables 2-13, 16-7, 16-8), the record in force, and the modes in force with
their sources (R383, Tables 16-9, 16-13). -/
namespace Sys2Proof.Machine

/-! ## Records -/

/-- The shipped summary of profile `i` (Table 2-13). -/
def shippedSummary (i : Nat) : List Byte :=
  let row : String × List Nat := match i with
    | 0 => ("Balanced", [750, 800, 600, 2000, 2400, 10, 2000, 2, 6, 0, 0x3A, 40])
    | 1 => ("Latency", [800, 850, 700, 2000, 2400, 10, 1000, 1, 6, 0, 0x1B, 30])
    | 2 => ("Efficiency", [700, 750, 600, 1700, 2000, 10, 4000, 2, 7, 0, 0x3B, 50])
    | _ => ("Service", [750, 750, 600, 2000, 2400, 10, 2000, 4, 4, 2, 0x0A, 40])
  let v := fun j => row.2.getD j 0
  padTo 16 (ascii row.1) ++ (List.range 6).flatMap (fun j => natBytes 2 (v j)) ++ natBytes 4 (v 6) ++
    (List.range 5).flatMap (fun j => natBytes 1 (v (7 + j))) ++ [0, 0, 0]

/-- The values beyond the summary (Table 16-8). -/
def shippedRest (i : Nat) : List Byte :=
  let row := match i with
    | 0 => [0x4222, 95]
    | 1 => [0x4222, 100]
    | 2 => [0x4444, 90]
    | _ => [0x0000, 95]
  natBytes 2 (row.getD 0 0) ++ natBytes 1 (row.getD 1 0) ++ [2, 0, 1, 0, 0]

/-- A record with its check (Table 16-7). -/
def withCheck (body : List Byte) : List Byte := body ++ shake256 body 16

/-- The shipped record of profile `i`. -/
def shippedRecord (i : Nat) : List Byte := withCheck (shippedSummary i ++ shippedRest i)

/-- The record stored for profile `i` (R380). -/
def storedRecord (s : State) (i : Nat) : List Byte :=
  match s.kolwin.profiles.find? (fun p => decide (p.1 = i)) with
  | some p => p.2
  | none => shippedRecord i

def between (lo v hi : Nat) : Bool := decide (lo ≤ v) && decide (v ≤ hi)

/-- A record's fields are valid (R380); the check is apart. -/
def recordFieldsOk (r : List Byte) : Bool :=
  let f := fun o n => fieldAt r o n
  let modes := f 0x23 1
  decide (f 0x2D 1 = 1) && decide (f 0x14 2 ≤ f 0x10 2) && decide (f 0x10 2 ≤ f 0x12 2) &&
  between 600 (f 0x14 2) 850 && between 600 (f 0x12 2) 850 &&
  between (if f 0x14 2 = 600 then 1400 else 1850) (f 0x16 2) 2000 && between (f 0x16 2) (f 0x18 2) 2400 &&
  between 1 (f 0x1A 2) 10 && between 100 (f 0x1C 4) 60000000 && decide (f 0x20 1 ≤ 8) &&
  (decide (f 0x21 1 = 0) || between 4 (f 0x21 1) 10) && decide (f 0x22 1 ≤ 2) &&
  decide (bits modes 2 1 ≤ 2) && decide (bits modes 7 6 = 0) && decide (f 0x24 1 ≤ 100) &&
  (List.range 4).all (fun i => decide (bits (f 0x28 2) (4 * i + 3) (4 * i) ≤ 4)) &&
  between 80 (f 0x2A 1) 100 && between 1 (f 0x2B 1) 16 &&
  decide (f 0x25 3 = 0) && decide (f 0x2C 1 = 0) && decide (f 0x2E 2 = 0)

/-- A record is valid (R380). -/
def recordOk (r : List Byte) : Bool :=
  decide (r.length = 64) && decide (r.drop 48 = shake256 (r.take 48) 16) && recordFieldsOk r

/-- The record in force (R382). -/
def activeRecord (s : State) : List Byte :=
  if s.power.record.isEmpty then shippedRecord (fld s Reg.pwProfileActive) else s.power.record

/-- A field of the record in force. -/
def prof (s : State) (off n : Nat) : Nat := fieldAt (activeRecord s) off n

/-- Tier wait limit in ticks (R173). -/
def tierWait (s : State) : Nat := 100 * prof s 0x1C 4
/-- Draft acceptance threshold in percent (R298). -/
def acceptThreshold (s : State) : Nat := prof s 0x24 1
/-- Near-bank floor in units (Table 16-7). -/
def nearFloor (s : State) : Nat := 128 * prof s 0x2B 1
/-- Throttle temperature (Table 16-7). -/
def throttle (s : State) : Nat := prof s 0x2A 1

/-! ## Modes -/

/-- Emission hold a PW_MODE code or the profile gives. -/
def holdOf (code dflt : Nat) : Nat := if code = 15 then dflt else min code 8

/-- Duplicate sampling: 0 OFF, n for 1/2^n. -/
def sampleOf (code dflt : Nat) : Nat := if code = 15 then dflt else if code = 0 then 0 else max 4 (min code 10)

/-- The modes in force as PW_MODE_ACTIVE [24:2] holds them (Tables 16-9, 16-13), from a profile record, PW_MODE and
IN_CTRL.CHECK_EN. -/
def modesOf (r : List Byte) (m : Nat) (checkEn : Bool) : Nat :=
  let d := fieldAt r 0x23 1
  let two := fun (code dflt : Nat) => if 2 ≤ code then dflt else code
  2 ^ 24 * bits m 24 24 + 2 ^ 20 * holdOf (bits m 23 20) (fieldAt r 0x20 1) +
  2 ^ 16 * (if checkEn then sampleOf (bits m 19 16) (fieldAt r 0x21 1) else 0) +
  2 ^ 12 * (if bits m 13 12 = 3 then fieldAt r 0x22 1 else bits m 13 12) +
  2 ^ 10 * two (bits m 11 10) (bits d 5 5) + 2 ^ 8 * two (bits m 9 8) (bits d 4 4) +
  2 ^ 6 * two (bits m 7 6) (bits d 3 3) +
  2 ^ 4 * (if bits m 5 4 = 3 then bits d 2 1 else bits m 5 4) + 2 ^ 2 * two (bits m 3 2) (bits d 0 0)

/-- PW_MODE_ACTIVE. -/
def modeReg (s : State) : Nat := (regGet s 0xA0010).toNat

def modeWindowed (s : State) : Bool := bit (modeReg s) 24
def modeHold (s : State) : Nat := bits (modeReg s) 23 20
def modeSample (s : State) : Nat := bits (modeReg s) 19 16
def modeExact (s : State) : Bool := decide (bits (modeReg s) 13 12 = 2)
def modeEvict (s : State) : Bool := decide (bits (modeReg s) 11 10 = 1)
def modeGuest (s : State) : Bool := decide (bits (modeReg s) 9 8 = 1)
def modeCompress (s : State) : Bool := decide (bits (modeReg s) 7 6 = 1)
/-- Near-bank offload: 0 OFF, 1 AUTO, 2 FORCE. -/
def modeOffload (s : State) : Nat := bits (modeReg s) 5 4
def modeSpec (s : State) : Bool := decide (bits (modeReg s) 3 2 = 1)

end Sys2Proof.Machine
end

