-- ==== Sys2Proof/Machine/Frames.lean ====
section
/-! DEFINITION. Request contexts, tenants and adapter versions as they lie in memory (R278 to R283, Tables 12-2 to 12-4),
the geometry of pages (R226 to R228) and the frame table with its stack (R233, R234). -/
namespace Sys2Proof.Machine

/-! ## Request contexts -/

/-- Address of a descriptor (R279). -/
def rcAddr (s : State) (n : Nat) : Nat := baseFld s Reg.sqRcBaseBase + 256 * n
/-- The `w` bytes at offset `off` of a descriptor, as a number. -/
def rcGet (s : State) (n off w : Nat) : Nat := readNat s.mem (rcAddr s n + off) w
def rcPut (s : State) (n off w v : Nat) : State := physPut s (rcAddr s n + off) w v

def stFree : Nat := 0
def stImporting : Nat := 1
def stPrefill : Nat := 2
def stReady : Nat := 3
def stParked : Nat := 4
def stPaused : Nat := 5
def stEnding : Nat := 6

def rcState (s : State) (n : Nat) : Nat := rcGet s n 0 1
def rcFlags (s : State) (n : Nat) : Nat := rcGet s n 2 2
def rcTenant (s : State) (n : Nat) : Nat := rcGet s n 4 2
def rcAdapter (s : State) (n : Nat) : Nat := rcGet s n 6 2
def rcRb (s : State) (n : Nat) : Nat := rcGet s n 0x20 1
def rcPos (s : State) (n : Nat) : Nat := rcGet s n 0x30 4
def setRcState (s : State) (n st : Nat) : State := rcPut s n 0 1 st
def setRcFlag (s : State) (n b : Nat) (v : Bool) : State := rcPut s n 2 2 (setBits (rcFlags s n) b b (b2n v))

def numRcs : Nat := 65536

/-- A context is live (R278). -/
def rcLive (s : State) (n : Nat) : Bool := decide (rcState s n ≠ stFree)
/-- CANCEL_PENDING (Table 12-2). -/
def rcCancelled (s : State) (n : Nat) : Bool := bit (rcFlags s n) 3

/-- The live contexts, ascending: the listed STATE bytes of the descriptor table. -/
def liveRcs (s : State) : List Nat :=
  let b := baseFld s Reg.sqRcBaseBase
  (cellsIn s.mem b (256 * numRcs)).filterMap fun c => if (c.1 - b) % 256 = 0 then some ((c.1 - b) / 256) else none

/-! ## Tenants and adapter versions -/

def tenAddr (s : State) (t : Nat) : Nat := baseFld s Reg.sqTenantBaseBase + 64 * t
def tenGet (s : State) (t off w : Nat) : Nat := readNat s.mem (tenAddr s t + off) w
def tenPut (s : State) (t off w v : Nat) : State := physPut s (tenAddr s t + off) w v
def tenUnmetered (s : State) (t : Nat) : Bool := bit (tenGet s t 0x2C 4) 0
def tenGuestOk (s : State) (t : Nat) : Bool := bit (tenGet s t 0x2C 4) 1
def tenBudget (s : State) (t : Nat) : Nat := bits (tenGet s t 0 8) 47 0
def numTenants : Nat := 4096

def adAddr (s : State) (v : Nat) : Nat := baseFld s Reg.sqAdapterBaseBase + 32 * v
def adGet (s : State) (v off w : Nat) : Nat := readNat s.mem (adAddr s v + off) w
def adPut (s : State) (v off w x : Nat) : State := physPut s (adAddr s v + off) w x
def numAdapters : Nat := 1024

/-! ## Page geometry (R226) -/

def kvEnabled (s : State) : Bool := flag s Reg.kvStatusEnabled
/-- Bytes of an element. -/
def kvEb (s : State) : Nat := if fld s Reg.kvGeomFormat = 6 then 2 else 1
def kvH (s : State) : Nat := fld s Reg.kvGeomHeads
def kvD (s : State) : Nat := fld s Reg.kvGeomHeadDim
/-- Bytes of one half of an entry, hd·eb. -/
def kvHalf (s : State) : Nat := kvH s * kvD s * kvEb s
def entryBytes (s : State) : Nat := 2 * kvHalf s
def pageBytes (s : State) : Nat := 32 * kvHalf s
/-- Frames of a page, PF. -/
def kvPf (s : State) : Nat := kvHalf s / 128
def kvL (s : State) : Nat := fld s Reg.kvGeomLayers
def kvLd (s : State) : Nat := fld s Reg.kvGeomDraftLayers
def kvHg (s : State) : Nat := fld s Reg.kvGeomHeadGroups
def kvDhg (s : State) : Nat := fld s Reg.kvGeomDraftHeadGroups
def kvHmax (s : State) : Nat := max (kvHg s) (kvDhg s)
/-- Layers of both models. -/
def kvLayers (s : State) : Nat := kvL s + kvLd s
/-- Head groups of a layer's model. -/
def layerHgs (s : State) (layer : Nat) : Nat := if layer < kvL s then kvHg s else kvDhg s

/-- A head group and position are held here under KV_PLACE (R254). -/
def heldHere (s : State) (layer hg pos : Nat) : Bool :=
  let byHead := !flag s Reg.kvPlaceByHead || decide (kvL s ≤ layer) ||
    (decide (fld s Reg.kvPlaceHgFirst ≤ hg) && decide (hg < fld s Reg.kvPlaceHgFirst + fld s Reg.kvPlaceHgCount))
  let byPos := !flag s Reg.kvPlaceByPosition ||
    decide (pos / 8192 % (fld s Reg.kvPlaceSpan + 1) = fld s Reg.kvPlaceIndex)
  byHead && byPos

/-- Byte places within a page of the key half of position `t` (Table 10-1). -/
def keyPlaces (s : State) (t : Nat) : List Nat := (List.range (kvHalf s)).map fun i => t * kvHalf s + i

/-- Byte places within a page of the value half of position `t` (Table 10-1), in the order of head, dimension and byte. -/
def valPlaces (s : State) (t : Nat) : List Nat :=
  let eb := kvEb s
  let d := kvD s
  (List.range (kvH s)).flatMap fun j => (List.range d).flatMap fun x => (List.range eb).map fun b =>
    16 * kvHalf s + ((j * d / 16 + x / 16) * 256 + 16 * (x % 16) + t) * eb + b

/-- The pairs (layer, head group) of both models. -/
def kvPairs (s : State) : List (Nat × Nat) :=
  (List.range (kvLayers s)).flatMap fun l => (List.range (layerHgs s l)).map fun g => (l, g)

/-! ## Root tables and page-table entries (R229, R230) -/

def rootIndex (s : State) (n layer hg pos : Nat) : Nat := (layer * kvHmax s + hg) * rcRb s n + pos / 8192
def rootAddr (s : State) (n layer hg pos : Nat) : Nat := rcGet s n 8 8 + 8 * rootIndex s n layer hg pos

/-- A page-table entry (Table 10-3). -/
structure Pte where
  score : Nat
  hg    : Nat
  count : Nat
  valid : Bool
  shared : Bool
  tier  : Bool
  spec  : Bool
  evicted : Bool
  exempt : Bool
  frame : Nat
deriving DecidableEq, Repr

def pteOf (v : Nat) : Pte :=
  { score := bits v 63 56, hg := bits v 55 48, count := bits v 47 43, valid := bit v 42, shared := bit v 41,
    tier := bit v 40, spec := bit v 39, evicted := bit v 38, exempt := bit v 37, frame := bits v 31 0 }

def pteNat (p : Pte) : Nat :=
  2 ^ 56 * p.score + 2 ^ 48 * p.hg + 2 ^ 43 * p.count + 2 ^ 42 * b2n p.valid + 2 ^ 41 * b2n p.shared +
    2 ^ 40 * b2n p.tier + 2 ^ 39 * b2n p.spec + 2 ^ 38 * b2n p.evicted + 2 ^ 37 * b2n p.exempt + p.frame

/-- The root entry of a position: its leaf block, when VALID (Table 10-2). -/
def leafBlock (s : State) (n layer hg pos : Nat) : Option Nat :=
  let r := readNat s.mem (rootAddr s n layer hg pos) 8
  if bit r 0 then some (bits r 47 12 * 4096) else none

/-- Address of the page-table entry of a position in its leaf block. -/
def pteIn (block pos : Nat) : Nat := block + 8 * (pos / 16 % 512)

/-- The page-table entry of a page and its address, when it is in use. -/
def findPte (s : State) (n layer hg page : Nat) : Option (Nat × Pte) :=
  match leafBlock s n layer hg (16 * page) with
  | some b =>
    let p := pteOf (readNat s.mem (pteIn b (16 * page)) 8)
    if p.valid then some (pteIn b (16 * page), p) else none
  | none => none

/-- Every page of a request in use: layer, head group, page, entry address, entry. -/
def allPages (s : State) (n : Nat) : List (Nat × Nat × Nat × Nat × Pte) :=
  (kvPairs s).flatMap fun q => (List.range (rcRb s n)).flatMap fun blk =>
    match leafBlock s n q.1 q.2 (8192 * blk) with
    | some _ => (List.range 512).filterMap fun i =>
        (findPte s n q.1 q.2 (512 * blk + i)).map fun e => (q.1, q.2, 512 * blk + i, e.1, e.2)
    | none => []

/-- Leaf blocks of a request: layer, head group, block, root entry address, leaf address. -/
def allLeaves (s : State) (n : Nat) : List (Nat × Nat × Nat × Nat × Nat) :=
  (kvPairs s).flatMap fun q => (List.range (rcRb s n)).filterMap fun blk =>
    (leafBlock s n q.1 q.2 (8192 * blk)).map fun b => (q.1, q.2, blk, rootAddr s n q.1 q.2 (8192 * blk), b)

/-! ## The frame table (R233, R234) -/

def poolFirst (s : State) : Nat := fld s Reg.kvPoolFirst
def poolFrames (s : State) : Nat := fld s Reg.kvPoolFrames
/-- A frame lies in the pool. -/
def inPool (s : State) (f : Nat) : Bool := decide (poolFirst s ≤ f) && decide (f < poolFirst s + poolFrames s)
def ftAddr (s : State) (f : Nat) : Nat := baseFld s Reg.kvFtBaseBase + 4 * (f - poolFirst s)

/-- A frame-table entry (Table 10-5). -/
structure Fte where
  owner    : Nat
  shared   : Bool
  poisoned : Bool
  moving   : Bool
  table    : Bool
  refs     : Nat
deriving DecidableEq, Repr

def fteOf (v : Nat) : Fte :=
  { owner := bits v 31 20, shared := bit v 19, poisoned := bit v 18, moving := bit v 17, table := bit v 16, refs := bits v 15 0 }
def fteNat (f : Fte) : Nat :=
  2 ^ 20 * f.owner + 2 ^ 19 * b2n f.shared + 2 ^ 18 * b2n f.poisoned + 2 ^ 17 * b2n f.moving + 2 ^ 16 * b2n f.table + f.refs

def ftGet (s : State) (f : Nat) : Fte := fteOf (readNat s.mem (ftAddr s f) 4)
def ftPut (s : State) (f : Nat) (e : Fte) : State := physPut s (ftAddr s f) 4 (fteNat e)

/-- First frame of the run that holds a frame. -/
def runOf (s : State) (f : Nat) : Nat := f - f % max 1 (kvPf s)

/-- The frame-table entry of the run that covers a device address, when it lies in the pool. -/
def runAt (s : State) (a : Nat) : Option Nat := if inPool s (a / 4096) then some (runOf s (a / 4096)) else none

/-- Take the top entry of the free-run stack (R234). `own`: from the runs reserved for the step. -/
def popRun (s : State) (own : Bool) : Option (Nat × State) :=
  let n := fld s Reg.kvFreeCount
  if n = 0 then none
  else
    let f := readNat s.mem (baseFld s Reg.kvFstackBase + 4 * (n - 1)) 4
    let s1 := setFld s Reg.kvFreeCount (n - 1)
    some (f, if own then setFld s1 Reg.kvReservedCount (fld s1 Reg.kvReservedCount - 1) else s1)

/-- Push a run back on the stack. -/
def pushRun (s : State) (f : Nat) : State :=
  let n := fld s Reg.kvFreeCount
  setFld (physPut s (baseFld s Reg.kvFstackBase + 4 * n) 4 f) Reg.kvFreeCount (n + 1)

/-- Allocate a run for a tenant (R234). -/
def allocRun (s : State) (tenant : Nat) (table own : Bool) : Option (Nat × State) :=
  (popRun s own).map fun r =>
    (r.1, ftPut r.2 r.1 { owner := tenant, shared := false, poisoned := false, moving := false, table := table, refs := 1 })

/-- One entry fewer refers to a run (R236): it returns to the stack at 0 unless POISONED. A run whose frame-table entry is
unreadable is never released (R255). -/
def dropRef (s : State) (f : Nat) : State :=
  if (badIn s (ftAddr s f) 4).isSome then s
  else
    let e := ftGet s f
    if e.refs ≤ 1 then
      if e.poisoned then ftPut s f { e with refs := 0 } else pushRun (physPut s (ftAddr s f) 4 0) f
    else ftPut s f { e with refs := e.refs - 1 }

/-- Mark a run POISONED (R255). -/
def poisonRun (s : State) (f : Nat) : State :=
  let e := ftGet s f
  if e.poisoned then s else countUp (ftPut s f { e with poisoned := true }) Reg.kvCountPoisoned Reg.kvCountOvf 6 1

/-- Free runs not reserved for the step. -/
def unreserved (s : State) : Nat := fld s Reg.kvFreeCount - fld s Reg.kvReservedCount

/-- The tenant of a request may read a run (R235). -/
def mayRead (s : State) (rc : Nat) (e : Fte) : Bool := decide (e.owner = rcTenant s rc) || e.shared

end Sys2Proof.Machine
end

