-- ==== Sys2Proof/Machine/Links.lean ====
section
/-! DEFINITION. Sending over the links: slots, pools and credits (R318), the replay buffer (R317), routes (R322), remote
reads (R325, R326), and what a port that leaves service discards (R320). -/
namespace Sys2Proof.Machine

/-- This device's ID (R321). -/
def ownId (s : State) : Nat := fld s Reg.lkCtrlDeviceId

def portState (s : State) (p : Nat) : Nat := fld s (Reg.lkPortStatusState p)
def portUp (s : State) (p : Nat) : Bool := decide (portState s p = 2)

/-- Largest frames a replay buffer holds (R317). -/
def replayFrames : Nat := 1024

/-- Class of a slot type: A 0, B 1, C 2, D 3 (Table 13-3). -/
def slotClass (ty : Nat) : Nat := if ty = 2 then 1 else if ty = 3 then 2 else if ty = 1 ∨ ty = 4 ∨ ty = 5 then 0 else 3

/-- HOP of a slot (Table 13-2). -/
def slotHop (x : Slot) : Nat := bits x.flags.toNat 3 2
/-- The pool a slot travels in (R318). -/
def slotPool (x : Slot) : Nat := 4 * slotClass x.type.toNat + slotHop x

/-- Two lists taken alternately. -/
def alternate {α : Type} : List α → List α → List α
  | [], bs => bs
  | a :: as, bs =>
    match bs with
    | [] => a :: as
    | b :: bs' => a :: b :: alternate as bs'

/-- Service order of queued slots: class D, then C, then A and B alternately (R318). -/
def serveOrder (q : List Slot) : List Slot :=
  let cls := fun k => q.filter fun x => decide (slotClass x.type.toNat = k)
  cls 3 ++ cls 2 ++ alternate (cls 0) (cls 1)

/-- Credit left in a pool. -/
def creditIn (cr : List (Nat × Nat)) (p : Nat) : Nat := smGet natDefault cr p

/-- Take from a queue what credits and room allow: sent, kept, credits left. -/
def takeSlots : List (Nat × Nat) → Nat → List Slot → List Slot × List Slot × List (Nat × Nat)
  | cr, _, [] => ([], [], cr)
  | cr, room, x :: xs =>
    if 0 < room ∧ 0 < creditIn cr (slotPool x) then
      let r := takeSlots (smSet natDefault cr (slotPool x) (creditIn cr (slotPool x) - 1)) (room - 1) xs
      (x :: r.1, r.2.1, r.2.2)
    else
      let r := takeSlots cr room xs
      (r.1, x :: r.2.1, r.2.2)

/-- Frames of up to four slots with consecutive sequence numbers (R316, R317). -/
def formFrames (tk : Nat) : Nat → List (List Slot) → List SentFrame
  | _, [] => []
  | seq, g :: gs => { seq := seq % 4096, slots := g, mslots := [], sentAt := tk } :: formFrames tk (seq + 1) gs

/-- The CREDITS bytes of the next frame: what is owed, 255 to a pool at most (Table 13-1). -/
def creditBytes (q : Port) : List Nat := (List.range 16).map fun p => min 255 (creditIn q.owed p)

/-- A frame that leaves now carries ACK with the last SEQ accepted, NAK and credits (R316, R317). -/
def withLink (q : Port) (f : SentFrame) : SentFrame := { f with ack := q.rxSeq, nak := q.nakOut, credits := creditBytes q }

/-- Frames that leave together: the first carries the credits and the NAK. -/
def withLinks (q : Port) : List SentFrame → List SentFrame
  | [] => []
  | f :: fs => withLink q f :: fs.map fun g => { g with ack := q.rxSeq, credits := List.replicate 16 0 }

/-- Add to a pool's count. -/
def poolAdd (m : List (Nat × Nat)) (p n : Nat) : List (Nat × Nat) := smSet natDefault m p (creditIn m p + n)
def poolTake (m : List (Nat × Nat)) (p n : Nat) : List (Nat × Nat) := smSet natDefault m p (creditIn m p - n)

/-- The port once such a frame has left: the credits returned are the peer's again (R318). -/
def linkSent (q : Port) : Port :=
  let cs := List.zip (List.range 16) (creditBytes q)
  { q with nakOut := false, ackOut := false
           owed := cs.foldl (fun m c => poolTake m c.1 c.2) q.owed
           granted := cs.foldl (fun m c => poolAdd m c.1 c.2) q.granted }

/-- With nothing else sent, an IDLE frame carries acknowledgements and credits (R317). -/
def sendIdle (s : State) (p : Nat) : State :=
  let q := getPort s p
  if portUp s p && decide (fld s Reg.mrStatusState ≠ 5) && (q.nakOut || q.ackOut || (creditBytes q).any fun c => decide (c ≠ 0)) then
    setPort s p { linkSent q with idleOut := some (withLink q { seq := 0, slots := [], mslots := [], sentAt := s.tk }) }
  else s

/-- Send what an UP port can send; a FENCED device sends nothing (R342). -/
def flushPort (s : State) (p : Nat) : State :=
  if !portUp s p || decide (fld s Reg.mrStatusState = 5) then s
  else
    let q := getPort s p
    let r := takeSlots q.credits (4 * (replayFrames - q.unacked.length)) (serveOrder q.queued)
    let fs := formFrames s.tk q.txSeq (chunks 4 (r.1.length + 1) r.1)
    let q1 := { q with
      txSeq := (q.txSeq + fs.length) % 4096, unacked := q.unacked ++ withLinks q fs, queued := r.2.1, credits := r.2.2 }
    setPort s p (if fs.isEmpty then q1 else linkSent q1)

/-- Queue slots on a port and send what can be sent. -/
def queueSlots (s : State) (p : Nat) (xs : List Slot) : State :=
  let q := getPort s p
  flushPort (setPort s p { q with queued := q.queued ++ xs }) p

/-- UP ports of the mask that leads towards a device, ascending (R322). -/
def routePorts (s : State) (d : Nat) : List Nat :=
  let m := fld s (Reg.lkRoutePorts d)
  (List.range 16).filter fun p => bit m p && portUp s p

/-- The next port in turn towards a device, and the state with the turn moved on. -/
def takeRoute (s : State) (d : Nat) : Option (Nat × State) :=
  let ps := routePorts s d
  let t := smGet natDefault s.links.turns d
  match ps[t % ps.length]? with
  | some p => some (p, { s with links := { s.links with turns := smSet natDefault s.links.turns d (t + 1) } })
  | none => none

/-- The port an answer, a read response or a forwarded item takes: the turn stays with the RPUTs, reads and pieces of this device
(R322, R329; notes/assumptions/139.md). -/
def sidePort (s : State) (d : Nat) : Option Nat :=
  let ps := routePorts s d
  ps[smGet natDefault s.links.turns d % ps.length]?

/-- Send such slots; none when no port of the mask is UP. -/
def sendSide (s : State) (d : Nat) (xs : List Slot) : Option State := (sidePort s d).map fun p => queueSlots s p xs

/-- Send the slots of one item on one port; none when no port of the mask is UP. -/
def sendItem (s : State) (d : Nat) (xs : List Slot) : Option State :=
  (takeRoute s d).map fun r => queueSlots r.2 r.1 xs

/-- A slot from this device. -/
def mkSlot (s : State) (ty d cell off : Nat) (tag : Word) (line lines : Nat) (data : List Byte) (last poison : Bool) : Slot :=
  { type := BitVec.ofNat 8 ty, flags := BitVec.ofNat 8 (b2n last + 2 * b2n poison), dest := BitVec.ofNat 16 d,
    src := BitVec.ofNat 16 (ownId s), cell := BitVec.ofNat 16 cell, offset := BitVec.ofNat 64 off, tag := tag,
    line := BitVec.ofNat 16 line, lines := BitVec.ofNat 16 lines, data := padTo 256 data }

/-- Count lines lost for want of a route. -/
def linkLost (s : State) (n : Nat) : State := countUp s Reg.lkCountLost Reg.lkCountOvf 4 n

/-- A fresh tag. -/
def freshTag (s : State) : Word := BitVec.ofNat 64 s.links.nextTag
def tookTags (s : State) (n : Nat) : State := { s with links := { s.links with nextTag := (s.links.nextTag + n) % 2 ^ 64 } }

/-- Send the lines of an RPUT to a peer window (R115, R322): with no route they are discarded and counted. -/
def sendRput (s : State) (d off cell : Nat) (lines : List (List Byte)) : State :=
  let n := lines.length
  let tag := freshTag s
  let xs := (List.zip (List.range n) lines).map fun p =>
    mkSlot s 1 d cell (off + 256 * p.1) tag p.1 n p.2 (decide (p.1 + 1 = n)) false
  match sendItem (tookTags s 1) d xs with
  | some s1 => countUp s1 Reg.lkCountRputSent Reg.lkCountOvf 0 1
  | none => linkLost (tookTags s 1) n

/-- Send the read requests of `len` bytes at a window offset, 256 granules at most each, with consecutive tags (R326);
none when no route is UP. -/
def sendReads (s : State) (d off len : Nat) (tag : Word) : Nat → Option State
  | 0 => some s
  | i + 1 =>
    match sendReads s d off len tag i with
    | none => none
    | some s1 =>
      let n := min 256 ((len - 65536 * i) / 256)
      sendItem s1 d [mkSlot s1 2 d 0 (off + 65536 * i) (tag + BitVec.ofNat 64 i) 0 n [] true false]

/-- Requests that `len` bytes need. -/
def readRequests (len : Nat) : Nat := (len + 65535) / 65536

/-- Start the remote read of an operation's source (R326): its tags are taken; without a route it waits (R322). -/
def startRead (s : State) (m addr len : Nat) : State :=
  let d := (addr - peerBase) / peerBytes
  let off := (addr - peerBase) % peerBytes
  let tag := freshTag s
  let k := readRequests len
  let s1 := tookTags s k
  match sendReads s1 d off len tag k with
  | some s2 => setDot s2 m { getDot s2 m with readTag := tag, waitRoute := false, readGot := [] }
  | none => setDot s1 m { getDot s1 m with readTag := tag, waitRoute := true, routeTried := s.tk, readGot := [] }

/-! ## Leaving service (R320) -/

/-- A record for each RPUT or read whose lines a port discards: destination, tag, lines and port. -/
def lostRecords (s : State) (p : Nat) : List (Byte × Nat × Word) → List Slot → State
  | [], _ => s
  | (ty, d, tag) :: ks, xs =>
    let n := (xs.filter fun x => decide (x.type = ty ∧ x.dest.toNat = d ∧ x.tag = tag)).length
    lostRecords (errorRecord s { type := 0x06, cls := 5, src := p, step := stepNow s, a0 := d, a1 := tag.toNat, a2 := n, a3 := p }) p ks xs

/-- Distinct items (type, destination, tag) in order of first appearance. -/
def slotKeys (xs : List Slot) : List (Byte × Nat × Word) := (xs.map fun x => (x.type, x.dest.toNat, x.tag)).eraseDups

/-- A port that enters DOWN or DISABLED discards its unacknowledged frames and queued slots, port M those of the mirror (R320,
R336). -/
def discardPort (s : State) (p : Nat) : State :=
  let q := getPort s p
  let xs := q.unacked.flatMap (·.slots) ++ q.queued
  let waiting := if p = 16 then s.mirror.queued else []
  let n := xs.length + (q.unacked.map (·.mslots.length)).sum + (waiting.map fun f => max 1 ((f.data.length + 255) / 256)).sum
  let s1 := setPort s p { q with unacked := [], queued := [] }
  let s2 := if p = 16 then { s1 with mirror := { s1.mirror with queued := [] } } else s1
  let s3 := countUp (countUp s2 (Reg.lkPortLost p) (Reg.lkPortOvf p) 5 n) Reg.lkCountLost Reg.lkCountOvf 4 n
  let named := xs.filter fun x => decide (x.type = 1 ∨ x.type = 2 ∨ x.type = 3)
  lostRecords s3 p (slotKeys named) named

end Sys2Proof.Machine
end

