-- ==== Sys2Proof/Machine/Zones.lean ====
section
/-! DEFINITION. The block compressor (Scarab) and the compressed zones (R166 to R170): the sector format, its Huffman
codes, and the reads and writes of logical blocks. -/
namespace Sys2Proof.Machine

/-! ## Huffman codes (R168) -/

/-- Kraft sum of code lengths in units of 2^−15. -/
def kraft (ls : List Nat) : Nat := (ls.map fun l => if l = 0 then 0 else 2 ^ (15 - l)).sum

/-- A table is valid when its lengths lie in 0 to 15 and meet the Kraft sum with equality, or have a single nonzero
length of 1. -/
def tableValid (ls : List Nat) : Bool :=
  ls.all (fun l => decide (l ≤ 15)) && (decide (kraft ls = 2 ^ 15) || decide (ls.filter (fun l => l ≠ 0) = [1]))

/-- Symbols of one code length, ascending. -/
def symsOfLen (ls : List Nat) (l : Nat) : List Nat := (List.range ls.length).filter fun j => decide (ls.getD j 0 = l)

/-- How many codes each length from 1 to 15 has. -/
def lenCounts (ls : List Nat) : List Nat := (List.range 15).map fun i => (symsOfLen ls (i + 1)).length

/-- Symbols in canonical order: by length, then ascending. -/
def canonSyms (ls : List Nat) : List Nat := (List.range 15).flatMap fun i => symsOfLen ls (i + 1)

/-- Read one canonical code, most significant bit first, from bit `pos`: its rank among the codes and the position after
it, or none when the bits are no code. -/
def huffRank (bitAt : Nat → Bool) : List Nat → Nat → Nat → Nat → Nat → Option (Nat × Nat)
  | [], _, _, _, _ => none
  | n :: ns, code, first, index, pos =>
    let code := code + b2n (bitAt pos)
    if code < first + n then some (index + (code - first), pos + 1)
    else huffRank bitAt ns (2 * code) (2 * (first + n)) (index + n) (pos + 1)

/-- Decode `n` symbols from bit `pos`, within `limit` bits. The causes of Table 15-9: 3 no code, 4 past the sectors. -/
def huffDecode (bitAt : Nat → Bool) (counts syms : List Nat) (limit : Nat) : Nat → Nat → Except Nat (List Nat)
  | 0, _ => .ok []
  | n + 1, pos =>
    match huffRank bitAt counts 0 0 0 pos with
    | none => .error (if limit < pos + 15 then 4 else 3)
    | some (r, p) =>
      if limit < p then .error 4
      else
        match huffDecode bitAt counts syms limit n p with
        | .ok rest => .ok (syms.getD r 0 :: rest)
        | .error e => .error e

/-- The first canonical code of length `l`. -/
def firstCode (counts : List Nat) : Nat → Nat
  | 0 => 0
  | 1 => 0
  | l + 2 => 2 * (firstCode counts (l + 1) + counts.getD l 0)

/-- The bits of a symbol's canonical code, most significant first. -/
def codeBits (ls counts : List Nat) (sym : Nat) : List Bool :=
  let l := ls.getD sym 0
  let code := firstCode counts l + ((symsOfLen ls l).filter fun j => decide (j < sym)).length
  (List.range l).map fun i => bit code (l - 1 - i)

/-- Pack bits into ascending positions of ascending bytes. -/
def packBits (bs : List Bool) : List Byte :=
  (chunks 8 (bs.length + 1) bs).map fun c =>
    BitVec.ofNat 8 ((List.zip (List.range 8) c).foldl (fun a p => a + b2n p.2 * 2 ^ p.1) 0)

/-- Two code lengths to a byte, the lower symbol in the low nibble. -/
def packLengths (ls : List Nat) : List Byte :=
  (List.range (ls.length / 2)).map fun i => BitVec.ofNat 8 (ls.getD (2 * i) 0 + 16 * ls.getD (2 * i + 1) 0)

def unpackLengths (bs : List Byte) : List Nat := bs.flatMap fun b => [b.toNat % 16, b.toNat / 16]

/-- Symbols of a block: nibbles, low first (method 2), or bytes (method 3). -/
def blockSyms (method : Nat) (block : List Byte) : List Nat :=
  if method = 2 then block.flatMap fun b => [b.toNat % 16, b.toNat / 16] else block.map (·.toNat)

/-- A block's bytes from its symbols. -/
def symBytes (method : Nat) (syms : List Nat) : List Byte :=
  if method = 2 then (chunks 2 syms.length syms).map fun c => BitVec.ofNat 8 (c.getD 0 0 + 16 * c.getD 1 0)
  else syms.map (BitVec.ofNat 8)

def symCount (method : Nat) : Nat := if method = 2 then 16 else 256
def tableBytes (method : Nat) : Nat := symCount method / 2

/-- The code lengths the compressor forms: its own, where they are a valid table for the block, else the flat code. -/
def codeTable (method : Nat) (block : List Byte) : List Nat :=
  let ls := Config.codeLengths method block
  if ls.length = symCount method ∧ tableValid ls = true ∧ (blockSyms method block).all (fun j => decide (ls.getD j 0 ≠ 0))
  then ls else List.replicate (symCount method) (if method = 2 then 4 else 8)

/-- A block's encoding by NIBBLE or BYTE: table, then codes. -/
def huffEncode (method : Nat) (block : List Byte) : List Byte :=
  let ls := codeTable method block
  let counts := lenCounts ls
  packLengths ls ++ packBits ((blockSyms method block).flatMap (codeBits ls counts))

/-- A block as written (R169): its method, sectors and payload. `off`: the tier-compression mode is OFF. The shorter encoding is the
one of fewer bytes: the model's choice (notes/assumptions/131.md). -/
def compressBlock (off : Bool) (block : List Byte) : Nat × Nat × List Byte :=
  if off then (1, 8, block)
  else if block.all (fun b => decide (b = 0)) then (0, 0, [])
  else
    let e2 := huffEncode 2 block
    let e3 := huffEncode 3 block
    let p := if e3.length < e2.length then (3, e3) else (2, e2)
    let n := (p.2.length + 511) / 512
    if 8 ≤ n then (1, 8, block) else (p.1, n, padTo (512 * n) p.2)

/-- A payload's 4,096 bytes, or the cause of the failure (R168, R170, Table 15-9). -/
def expandBlock (method sectors : Nat) (payload : List Byte) : Except Nat (List Byte) :=
  match method with
  | 0 => .ok (List.replicate 4096 0)
  | 1 => if sectors < 8 then .error 4 else .ok (payload.take 4096)
  | 2 | 3 =>
    let ls := unpackLengths (payload.take (tableBytes method))
    if payload.length < tableBytes method then .error 4
    else if !tableValid ls then .error 2
    else
      let n := if method = 2 then 8192 else 4096
      let bitAt := fun p => ((payload.getD (p / 8) 0).getLsbD (p % 8))
      match huffDecode bitAt (lenCounts ls) (canonSyms ls) (8 * payload.length) n (8 * tableBytes method) with
      | .ok syms => .ok (symBytes method syms)
      | .error e => .error e
  | _ => .error 1

/-! ## Zones (R166, R167) -/

def tzTier (s : State) (z : Nat) : Nat := 2 + fld s (Reg.mcTzCtrlTier z)
def tzReady (s : State) (z : Nat) : Bool := flag s (Reg.mcTzStatusReady z)
def tzMap (s : State) (z : Nat) : Nat := baseFld s (Reg.mcTzMapBase z)
def tzPool (s : State) (z : Nat) : Nat := baseFld s (Reg.mcTzPoolBase z)
def tzBitmap (s : State) (z : Nat) : Nat := baseFld s (Reg.mcTzBitmapBase z)
def tzSectors (s : State) (z : Nat) : Nat := fld s (Reg.mcTzPoolSectors z)
def tzBlocks (s : State) (z : Nat) : Nat := fld s (Reg.mcTzLblocks z)

/-- The enabled zone and logical block of a logical address, if one covers it (R166). -/
def zoneOf (s : State) (a : Nat) : Option (Nat × Nat) :=
  (List.range 16).findSome? fun z =>
    let b := baseFld s (Reg.mcTzLbase z)
    if tzReady s z ∧ b ≤ a ∧ a < b + 4096 * tzBlocks s z then some (z, (a - b) / 4096) else none

/-- `[a, a + n)` touches an enabled zone's map, bitmap or pool (R166). -/
def touchesZone (s : State) (a n : Nat) : Bool :=
  (List.range 16).any fun z => tzReady s z &&
    (overlaps a n (tzMap s z) (16 * tzBlocks s z) || overlaps a n (tzBitmap s z) (tzSectors s z / 8) ||
     overlaps a n (tzPool s z) (512 * tzSectors s z))

/-- A map entry (Table 7-9). -/
structure MapEntry where
  crc     : Nat
  method  : Nat
  sectors : Nat
  first   : Nat
deriving DecidableEq, Repr

def mapEntry (s : State) (z j : Nat) : MapEntry :=
  let v := physNat s (tzMap s z + 16 * j) 16
  { crc := bits v 127 64, method := bits v 63 60, sectors := bits v 59 56, first := bits v 31 0 }

def mapEntryBytes (e : MapEntry) : List Byte :=
  natBytes 16 (e.crc * 2 ^ 64 + e.method * 2 ^ 60 + e.sectors * 2 ^ 56 + e.first)

/-- Read logical block `j` of one zone: its bytes, or the cause of the tier failure (R170). -/
def zoneReadOne (s : State) (z j : Nat) : Except Nat (List Byte) :=
  let e := mapEntry s z j
  let a := tzPool s z + 512 * e.first
  let n := 512 * min e.sectors 8
  match readFault s (tzMap s z + 16 * j) 16, readFault s a n with
  | some c, _ => .error (if c = 7 then 6 else c)
  | none, some c => .error c
  | none, none =>
    match expandBlock e.method e.sectors (physRead s a n) with
    | .ok bs => if (crc64 bs).toNat = e.crc then .ok bs else .error 5
    | .error c => .error c

/-- Striped mode is in force (R171): STRIPE, or Kolwin's setting for start-up, for known-answer tests or for a takeover. The
STRIPING bit reads it. -/
def striping (s : State) : Bool :=
  flag s Reg.mcCtrlStripe || decide (fld s Reg.kwStatusBoot < 3) || flag s Reg.inStatusTesting ||
    decide (fld s Reg.mrStatusState = 6)

/-- A tier-2 zone has an alternate that may serve its blocks: one in tier 3, itself enabled (R167, R171). -/
def hasAlternate (s : State) (z : Nat) : Bool :=
  let x := fld s (Reg.mcTzCtrlAlt z)
  flag s (Reg.mcTzCtrlAltEn z) && decide (tzTier s z = 2) && decide (tzTier s x = 3) && tzReady s x

/-- In striped mode each block of a zone with an alternate comes from the zone or from the alternate, by a free value (R171). -/
def draws (s : State) (z : Nat) : Bool := striping s && hasAlternate s z

/-- Read a logical block: a failed read from the alternate is read once from the primary (R170). -/
def zoneBlock (s : State) (z j : Nat) : Except Nat (List Byte) :=
  if draws s z ∧ freeNow s % 2 = 1 then
    match zoneReadOne s (fld s (Reg.mcTzCtrlAlt z)) j with
    | .ok bs => .ok bs
    | .error _ => zoneReadOne s z j
  else zoneReadOne s z j

/-- The free value that chose a block's side has been taken. -/
def tookBlock (s : State) (z : Nat) : State := if draws s z then tookFree s else s

/-- Read a logical block, each with a free value of its own. -/
def zoneRead (s : State) (z j : Nat) : State × Except Nat (List Byte) := (tookBlock s z, zoneBlock s z j)

/-- Sector `i` is in use (bitmap bit i). -/
def sectorUsed (s : State) (z i : Nat) : Bool := bit (physNat s (tzBitmap s z + i / 8) 1) (i % 8)

/-- Mark sectors in use or free. -/
def markSectors (s : State) (z first n : Nat) (used : Bool) : State :=
  (List.range n).foldl (fun st i =>
    let a := tzBitmap s z + (first + i) / 8
    let b := (first + i) % 8
    physPut st a 1 (setBits (physNat st a 1) b b (b2n used))) s

/-- The first run of `n` free sectors, searching upward from 0 (R169). -/
def freeRun (s : State) (z n : Nat) : Option Nat :=
  (List.range (tzSectors s z + 1 - n)).find? fun i => (List.range n).all fun j => !sectorUsed s z (i + j)

/-- Write logical block `j` (R169): none when no run is free, the old block being kept and POOL_FULL set. -/
def zoneWrite (s : State) (z j : Nat) (block : List Byte) : State × Bool :=
  let off := decide (bits (regGet s 0xA0010).toNat 7 6 = 0)
  let w := compressBlock off block
  let old := mapEntry s z j
  let finish := fun (st : State) (first : Nat) =>
    let st1 := if w.2.1 = 0 then st else physWrite st (tzPool s z + 512 * first) w.2.2
    let st2 := physWrite st1 (tzMap s z + 16 * j)
      (mapEntryBytes { crc := (crc64 block).toNat, method := w.1, sectors := w.2.1, first := first })
    setFld st2 (Reg.mcTzFreeSectors z) (fld s (Reg.mcTzFreeSectors z) + old.sectors - w.2.1)
  if w.2.1 = old.sectors then (finish s old.first, true)
  else
    let s1 := markSectors s z old.first old.sectors false
    match freeRun s1 z w.2.1 with
    | some i => (finish (markSectors s1 z i w.2.1 true) i, true)
    | none => (setFld s (Reg.mcTzStatusPoolFull z) 1, false)

/-! ## INIT and ENABLE (R176, Tables 7-18, 7-19) -/

/-- A zone's map, bitmap and pool lie in populated memory of its tier and overlap neither each other nor another enabled
zone's, nor do the logical windows of enabled zones overlap. -/
def zoneLayoutOk (s : State) (z : Nat) : Bool :=
  let row := if tzTier s z = 2 then Row.tier2 else Row.host
  let regions := [(tzMap s z, 16 * tzBlocks s z), (tzBitmap s z, (tzSectors s z + 7) / 8), (tzPool s z, 512 * tzSectors s z)]
  let others := (List.range 16).filter fun y => decide (y ≠ z) && flag s (Reg.mcTzCtrlEnable y)
  let lb := baseFld s (Reg.mcTzLbase z)
  let rowBase := if tzTier s z = 2 then tier2Base else hostBase
  let rowEnd := if tzTier s z = 2 then 0x110000000000 else peerBase
  regions.all (fun r => decide (rowOf s r.1 r.2 = row)) &&
  (List.range 3).all (fun i => (List.range 3).all fun j =>
    decide (i = j) || !overlaps (regions.getD i (0, 0)).1 (regions.getD i (0, 0)).2 (regions.getD j (0, 0)).1 (regions.getD j (0, 0)).2) &&
  others.all (fun y => regions.all fun r =>
    !(overlaps r.1 r.2 (tzMap s y) (16 * tzBlocks s y) || overlaps r.1 r.2 (tzBitmap s y) ((tzSectors s y + 7) / 8) ||
      overlaps r.1 r.2 (tzPool s y) (512 * tzSectors s y))) &&
  others.all (fun y => !overlaps lb (4096 * tzBlocks s z) (baseFld s (Reg.mcTzLbase y)) (4096 * tzBlocks s y)) &&
  decide (rowBase ≤ lb ∧ lb + 4096 * tzBlocks s z ≤ rowEnd)

/-- Some ACTIVE tier operation names the zone: its tier side, or a logical address it covers, lies there. -/
def zoneBusy (s : State) (z : Nat) : Bool :=
  s.dot.any fun p => decide (p.2.state = .active) && decide (p.2.kind = kTier) && p.2.compress &&
    ((!p.2.srcSp && overlaps p.2.src p.2.len (baseFld s (Reg.mcTzLbase z)) (4096 * tzBlocks s z)) ||
     (!p.2.dstSp && overlaps p.2.dst p.2.len (baseFld s (Reg.mcTzLbase z)) (4096 * tzBlocks s z)))

/-- Free sectors by the bitmap. -/
def countFree (s : State) (z : Nat) : Nat := ((List.range (tzSectors s z)).filter fun i => !sectorUsed s z i).length

end Sys2Proof.Machine
end

