-- ==== Sys2Proof/Machine/LongOp.lean ====
section
/-! DEFINITION. Long operations (R82, R107, Table 5-11): the descriptor, allocation of an entry, and the data movement
of DMA and tier transfers (R108, R166 to R174), FLUSHR and INVR (R109, R185, R186). -/
namespace Sys2Proof.Machine

/-! ## The descriptor -/

/-- A long-operation descriptor (Table 5-11). -/
structure Desc where
  src      : Nat
  dst      : Nat
  len      : Nat
  deadline : Nat
  rc       : Nat
  cell     : Nat
  cellEn   : Bool
  autofree : Bool
  rcEn     : Bool
  compress : Bool
  srcSp    : Bool
  dstSp    : Bool
  kw0      : Nat
  kw1      : Nat
  kw2      : Nat
deriving DecidableEq, Repr

def descOf (b : List Byte) : Desc :=
  let fl := fieldAt b 0x24 1
  { src := fieldAt b 0 8, dst := fieldAt b 8 8, len := fieldAt b 0x10 8, deadline := fieldAt b 0x18 8,
    rc := fieldAt b 0x20 2, cell := fieldAt b 0x22 2 % 32768, cellEn := bit (fieldAt b 0x22 2) 15,
    autofree := bit fl 0, rcEn := bit fl 1, compress := bit fl 2, srcSp := bit fl 3, dstSp := bit fl 4,
    kw0 := fieldAt b 0x28 8, kw1 := fieldAt b 0x30 8, kw2 := fieldAt b 0x38 8 }

/-- The zero fields every descriptor has. -/
def descZero (b : List Byte) : Bool := decide (fieldAt b 0x24 1 < 32) && decide (fieldAt b 0x25 3 = 0)

/-- The entry a descriptor starts (Table 4-10). -/
def entryOf (s : State) (k kind : Nat) (d : Desc) : DotEntry :=
  { state := .active, kind := kind, autofree := d.autofree, dlEn := decide (d.deadline ≠ 0), cellEn := d.cellEn,
    owner := gidOf s k, cell := d.cell, rc := d.rc, start := s.tk, deadline := d.deadline, rcEn := d.rcEn, core := k,
    src := d.src, dst := d.dst, len := d.len, compress := d.compress, srcSp := d.srcSp, dstSp := d.dstSp,
    kw0 := d.kw0, kw1 := d.kw1, kw2 := d.kw2 }

/-- No operation starts: sD receives `v` and pC is cleared (R82). -/
def startNone (s : State) (k : Nat) (w : FmtT) (v : Word) : Res :=
  regOp s k fun c => writeP (writeS c w.d v) w.c.toNat false

/-- The descriptor's bytes at sA, or the fault its offset raises (R107). -/
def readDesc (c : Core) (w : FmtT) : Except Nat (List Byte) :=
  let off := (readS c w.a).toNat
  if off % 64 ≠ 0 then .error fAlignment
  else if scratchBytes < off + 64 then .error fAddress
  else .ok (readBytes c.scratch off 64)

/-- A completion cell must be COUNTER or ARRIVE (R82). -/
def cellFault (s : State) (d : Desc) : Option Nat :=
  if d.cellEn && decide ((getCell s d.cell).kind = 0) then some fSyncConfig else none

/-- Start a long operation (R82, R107): the faults of the descriptor in `check`'s order, then the lowest FREE entry, whose
index sD receives while pC is set; `go` carries out what happens at the start. A Length of 0 completes at once where
`zeroDone` holds. -/
def longStart (s : State) (k : Nat) (w : FmtT) (c : Core) (kindOf : Desc → Nat) (zeroFields : Desc → Bool)
    (check : Desc → Option Nat) (zeroDone : Bool) (go : State → Nat → State) : Res :=
  match readDesc c w with
  | .error f => .flt f
  | .ok b =>
    let d := descOf b
    if !(descZero b && zeroFields d) then .flt fEncoding
    else
      match cellFault s d with
      | some f => .flt f
      | none =>
        match check d with
        | some f => .flt f
        | none =>
          match freeEntry s with
          | none => startNone s k w (BitVec.allOnes 64)
          | some m =>
            let s1 := setDot s m (entryOf s k (kindOf d) d)
            let s2 := modCore s1 k fun c => writeP (writeS c w.d (BitVec.ofNat 64 m)) w.c.toNat true
            .done (if zeroDone && decide (d.len = 0) then leaveActive s2 m .done 0 else go s2 m)

/-- The kind words and Destination are zero fields for this operation (Table 5-11). -/
def kwZero (d : Desc) : Bool := decide (d.kw0 = 0 ∧ d.kw1 = 0 ∧ d.kw2 = 0)

/-! ## How an operation fails -/

/-- The request an entry's records name. -/
def entryRc (e : DotEntry) : Nat := if e.rcEn then e.rc else 0xFFFF

/-- An ACTIVE operation fails (R108, R153, R174, R330): its record or event, then RESULT. -/
def failOp (s : State) (m : Nat) (why : OpFailure) : State :=
  let e := getDot s m
  match why with
  | .denied => leaveActive s m .failed 0x41
  | .ue a => leaveActive (ueEvent s a 3 (entryRc e)) m .failed 0x12
  | .tier t c b =>
    leaveActive (errorRecord s
      { type := 0x05, cls := 4, src := 42 + t, rc := entryRc e, step := stepNow s, a0 := t, a1 := b, a2 := c }) m .failed 0x11
  | .digest d ch pc =>
    leaveActive (errorRecord s
      { type := 0x08, rc := entryRc e, step := stepNow s, a0 := d, a1 := (e.coll.map (·.tag.toNat)).getD 0, a2 := ch, a3 := pc })
      m .failed 0x12

/-! ## DMA and tier transfers -/

/-- An address of the tier-2 or tier-3 row (R166). -/
def inTierRow (a : Nat) : Bool := (decide (tier2Base ≤ a) && decide (a < 0x110000000000)) || (decide (hostBase ≤ a) && decide (a < peerBase))

/-- The source, or the destination, lies in tier 2 or tier 3. -/
def srcTier (e : DotEntry) : Bool := !e.srcSp && inTierRow e.src
def dstTier (e : DotEntry) : Bool := !e.dstSp && inTierRow e.dst
def srcPeer (e : DotEntry) : Bool := !e.srcSp && decide (peerBase ≤ e.src ∧ e.src < 0x1000000000000)
def dstPeer (e : DotEntry) : Bool := !e.dstSp && decide (peerBase ≤ e.dst ∧ e.dst < 0x1000000000000)

/-- Bytes of one unit of movement: a compressed block at a compressed destination, else a granule. -/
def moveUnit (e : DotEntry) : Nat := if e.compress && dstTier e then 4096 else 256

/-- Bytes of a peer's window that have arrived at offset `off` of the source. -/
def gotBytes (e : DotEntry) (off n : Nat) : List Byte :=
  (List.range (n / 256)).flatMap fun i => smGet (fun _ => []) e.readGot ((off + 256 * i) / 256)

/-- Read `n` bytes at offset `off` of the source. -/
def srcPiece (s : State) (e : DotEntry) (off n : Nat) : Except OpFailure (List Byte) :=
  let a := e.src + off
  if e.srcSp then .ok (readBytes (getCore s e.core).scratch a n)
  else if srcPeer e then .ok (gotBytes e off n)
  else if e.compress && srcTier e then
    match zoneOf s a with
    | some (z, j) =>
      match zoneBlock s z j with
      | .ok bs => .ok ((bs.drop (a % 4096)).take n)
      | .error c => .error (.tier (tzTier s z) c j)
    | none => .error .denied
  else
    match rowOf s a n with
    | .hbm =>
      match badIn s a n with
      | some w => .error (.ue w)
      | none => .ok (physRead s a n)
    | .tier2 =>
      match readFault s a n with
      | some c => .error (.tier 2 c ((a - tier2Base) / 4096))
      | none => .ok (physRead s a n)
    | .host =>
      match readFault s a n with
      | some c => .error (.tier 3 c ((a - hostBase) / 4096))
      | none => .ok (physRead s a n)
    | .peer | .none => .error .denied

/-- Write a piece at offset `off` of the destination. -/
def dstPiece (s : State) (e : DotEntry) (off : Nat) (bs : List Byte) : State × Option OpFailure :=
  let a := e.dst + off
  if e.dstSp then (modCore s e.core fun c => { c with scratch := writeBytes c.scratch a bs }, none)
  else if e.compress && dstTier e then
    match zoneOf s a with
    | some (z, j) =>
      let r := zoneWrite s z j bs
      (r.1, if r.2 then none else some (.tier (tzTier s z) 11 j))
    | none => (s, some .denied)
  else
    match rowOf s a bs.length with
    | .hbm => if guarded s a bs.length then (s, some .denied) else (physWrite s a bs, none)
    | .tier2 | .host => (physWrite s a bs, none)
    | .peer | .none => (s, some .denied)

/-- The read of a piece has been made: corrected words of HBM are counted (R150), and with the last granule of a compressed
block the choice of its side is over. -/
def pieceRead (s : State) (e : DotEntry) (off n : Nat) : State :=
  let a := e.src + off
  if e.srcSp || srcPeer e then s
  else if e.compress && srcTier e then
    match zoneOf s a with
    | some (z, _) => if (off + n) % 4096 = 0 then tookBlock s z else s
    | none => s
  else if rowOf s a n = .hbm then readSoft s a n
  else s

/-- Move `n` units from offset `off`, those `pick` takes: the state, the bytes moved in order and the failure that
stopped the move. -/
def moveUnits (e : DotEntry) (pick : Nat → Bool) : Nat → Nat → State → State × Nat × Option OpFailure
  | 0, off, s => (s, off, none)
  | n + 1, off, s =>
    if pick off then
      match srcPiece s e off (moveUnit e) with
      | .error f => (s, off, some f)
      | .ok bs =>
        let r := dstPiece (pieceRead s e off (moveUnit e)) e off bs
        match r.2 with
        | some f => (r.1, off, some f)
        | none => moveUnits e pick n (off + moveUnit e) r.1
    else moveUnits e pick n (off + moveUnit e) s

/-- Some zone the transfer names is INITIALISING (Table 7-19). -/
def zonesWaiting (s : State) (e : DotEntry) : Bool :=
  e.compress && (List.range 16).any fun z =>
    flag s (Reg.mcTzStatusInitialising z) &&
      ((srcTier e && overlaps e.src e.len (baseFld s (Reg.mcTzLbase z)) (4096 * tzBlocks s z)) ||
       (dstTier e && overlaps e.dst e.len (baseFld s (Reg.mcTzLbase z)) (4096 * tzBlocks s z)))

/-- Every granule of a remote source has arrived. -/
def sourceIn (e : DotEntry) : Bool := !srcPeer e || decide (e.len / 256 ≤ e.readGot.length)

/-- A transfer ends (R108): not while its source has a block to be repaired, a zone it names is INITIALISING or a remote
granule is still to come. -/
def transferDone (s : State) (m kind : Nat) : State :=
  let e := getDot s m
  if e.state ≠ .active ∨ e.kind ≠ kind then s
  else if zonesWaiting s e || !sourceIn e then s
  else
    let r := if e.srcSp || srcPeer e || srcTier e then (s, true) else readReady s e.src e.len
    if !r.2 then r.1
    else
      let v := moveUnits e (fun _ => true) (e.len / moveUnit e) 0 r.1
      let s1 := setDot v.1 m { getDot v.1 m with bytesDone := v.2.1, readGot := [] }
      armTierTimer (match v.2.2 with
        | none => leaveActive s1 m .done 0
        | some f => failOp s1 m f)

/-- A range that a request's operation names holds a run its tenant may not read, or write (R68, R235). -/
def foreignRuns (s : State) (rc a n : Nat) (write : Bool) : Bool :=
  kvEnabled s && (List.range ((a + n + 4095) / 4096 - a / 4096)).any fun i =>
    match runAt s (a + 4096 * i) with
    | some f =>
      let e := ftGet s f
      decide (e.refs ≠ 0) && (if write then decide (e.owner ≠ rcTenant s rc) else !mayRead s rc e)
    | none => false

/-- What ends a transfer FAILED with RESULT 0x41 at its start (R166, R326, R68). -/
def transferRefused (s : State) (e : DotEntry) : Bool :=
  let outside := fun a => !(List.range (e.len / 4096)).all fun i => (zoneOf s (a + 4096 * i)).isSome
  dstPeer e || (srcPeer e && (decide ((e.src - peerBase) / peerBytes = ownId s) || decide (rowOf s e.src e.len ≠ .peer))) ||
  (e.compress && srcTier e && outside e.src) || (e.compress && dstTier e && outside e.dst) ||
  ((!e.compress || !srcTier e) && !e.srcSp && touchesZone s e.src e.len) ||
  ((!e.compress || !dstTier e) && !e.dstSp && touchesZone s e.dst e.len) ||
  (e.rcEn && ((!e.srcSp && foreignRuns s e.rc e.src e.len false) || (!e.dstSp && foreignRuns s e.rc e.dst e.len true)))

/-- Arm a tier operation that serves a request with its limit tick (R173). -/
def armLimit (s : State) (m : Nat) : State :=
  let e := getDot s m
  if e.rcEn then
    let l := e.start + tierWait s
    armTierTimer (setDot s m { e with limit := if e.dlEn then min l e.deadline else l })
  else s

/-- A transfer starts: COMPRESS is ignored while the tier-compression mode is OFF (R108). -/
def transferStart (s : State) (m : Nat) : State :=
  let s1 := setDot s m { getDot s m with compress := (getDot s m).compress && modeCompress s }
  let e := getDot s1 m
  if transferRefused s1 e then leaveActive s1 m .failed 0x41
  else
    let s2 := if e.kind = kTier then armLimit s1 m else s1
    if srcPeer e then startRead s2 m e.src e.len else s2

def dmaKind (d : Desc) : Nat :=
  if (!d.srcSp && inTierRow d.src) || (!d.dstSp && inTierRow d.dst) then kTier else kDma

/-- ALIGNMENT and ADDRESS faults of a DMA descriptor (R108). -/
def dmaCheck (s : State) (d : Desc) : Option Nat :=
  let comp := d.compress && modeCompress s
  let tierSide := fun sp a => comp && !sp && inTierRow a
  if d.src % 256 ≠ 0 ∨ d.dst % 256 ≠ 0 ∨ d.len % 256 ≠ 0 then some fAlignment
  else if (tierSide d.srcSp d.src && decide (d.src % 4096 ≠ 0 ∨ d.len % 4096 ≠ 0)) ||
      (tierSide d.dstSp d.dst && decide (d.dst % 4096 ≠ 0 ∨ d.len % 4096 ≠ 0)) then some fAlignment
  else if (d.srcSp && decide (scratchBytes < d.src + d.len)) || (d.dstSp && decide (scratchBytes < d.dst + d.len)) then
    some fAddress
  else none

def execDma (k : Nat) (w : FmtT) (s : State) : Host.Outcome State Fault Refusal :=
  issueT k w s infoLongOp fun c => longStart s k w c dmaKind kwZero (dmaCheck s) true transferStart

/-! ## FLUSHR and INVR -/

/-- Base and length of a range are 256-byte aligned (R109). -/
def rangeCheck (d : Desc) : Option Nat := if d.src % 256 ≠ 0 ∨ d.len % 256 ≠ 0 then some fAlignment else none

/-- Lines of the range in the issuing core's cluster cache, dirty ones alone when `dirty`. -/
def linesIn (s : State) (e : DotEntry) (dirty : Bool) : List Nat :=
  ((getCluster s (clusterOf e.core)).cache.filter fun l =>
    decide (e.src ≤ 256 * l.1) && decide (256 * l.1 < e.src + e.len) && (!dirty || l.2.dirty)).map (·.1)

/-- What the operation finds at its start. -/
def rangeStart (dirty : Bool) (s : State) (m : Nat) : State :=
  let e := getDot s m
  setDot s m { e with lines := linesIn s e dirty }

/-- Act on lines: write back, or discard. -/
def actLines (s : State) (n : Nat) (drop : Bool) (ls : List Nat) : State :=
  ls.foldl (fun st g => if drop then cacheDrop st n g else writeBack st n g) s

/-- FLUSHR or INVR completes (R185, R186). -/
def rangeDone (s : State) (m kind : Nat) : State :=
  let e := getDot s m
  if e.state ≠ .active ∨ e.kind ≠ kind then s
  else leaveActive (actLines s (clusterOf e.core) (decide (kind = kInval)) e.lines) m .done 0

def execFlushr (k : Nat) (w : FmtT) (s : State) : Host.Outcome State Fault Refusal :=
  issueT k w s infoLongOp fun c => longStart s k w c (fun _ => kFlush) kwZero rangeCheck true (rangeStart true)
def execInvr (k : Nat) (w : FmtT) (s : State) : Host.Outcome State Fault Refusal :=
  issueT k w s infoLongOp fun c => longStart s k w c (fun _ => kInval) kwZero rangeCheck true (rangeStart false)

/-! ## Completion events -/

def execDmaDone (t m : Nat) (s : State) : Host.Outcome State Fault Refusal :=
  presentUnit s t m numDot fun s => transferDone s m kDma
def execTierDone (t m : Nat) (s : State) : Host.Outcome State Fault Refusal :=
  presentUnit s t m numDot fun s => transferDone s m kTier
def execFlushDone (t m : Nat) (s : State) : Host.Outcome State Fault Refusal :=
  presentUnit s t m numDot fun s => rangeDone s m kFlush
def execInvalidateDone (t m : Nat) (s : State) : Host.Outcome State Fault Refusal :=
  presentUnit s t m numDot fun s => rangeDone s m kInval

end Sys2Proof.Machine
end

