-- ==== Sys2Proof/Machine/MemOps.lean ====
section
/-! DEFINITION. Class 0x4, the scratchpad, cached and volatile accesses (Table 5-10, R105, R106, R182 to R184). -/
namespace Sys2Proof.Machine

/-! ## Scratchpad -/

/-- Offset sA + IMM16. -/
def spOffset (c : Core) (w : FmtT) : Nat := (readS c w.a + simm w.imm).toNat

/-- Access `n` bytes of scratchpad at sA + IMM16: ALIGNMENT, then ADDRESS or WINDOW. -/
def spAccess (c : Core) (w : FmtT) (store : Bool) (n : Nat) (f : Nat → Res) : Res :=
  let off := spOffset c w
  if off % n ≠ 0 then .flt fAlignment
  else
    match scratchFault c store off n with
    | some code => .flt code
    | none => f off

def accessWidth (w : FmtT) : Nat := 2 ^ modBits w 29 28

/-- A loaded value: sign- or zero-extended from `n` bytes. -/
def extendTo64 (sign : Bool) (n v : Nat) : Word :=
  if sign && bit v (8 * n - 1) then BitVec.ofNat 64 (v + (2 ^ 64 - 2 ^ (8 * n))) else BitVec.ofNat 64 v

def ldsEff (s : State) (k : Nat) (w : FmtT) (c : Core) : Res :=
  spAccess c w false (accessWidth w) fun off =>
    let v := extendTo64 (decide (modBits w 27 27 = 1)) (accessWidth w) (readNat c.scratch off (accessWidth w))
    regOp s k fun c => writeS c w.d v

def stsEff (s : State) (k : Nat) (w : FmtT) (c : Core) : Res :=
  spAccess c w true (accessWidth w) fun off =>
    regOp s k fun c => { c with scratch := writeNat c.scratch off (accessWidth w) (readS c w.d).toNat }

def vldEff (s : State) (k : Nat) (w : FmtT) (c : Core) : Res :=
  spAccess c w false 256 fun off => regOp s k fun c => writeV c w.d (BitVec.ofNat 2048 (readNat c.scratch off 256))

def vstEff (s : State) (k : Nat) (w : FmtT) (c : Core) : Res :=
  spAccess c w true 256 fun off =>
    regOp s k fun c => { c with scratch := writeNat c.scratch off 256 (readV c w.d).toNat }

/-! ## Lines -/

/-- A guest's line load (R72, R105): within the table region, every frame of it in a run the frame table records as owned
by the call's tenant. -/
def tableAllowed (s : State) (g : GuestCall) (a n : Nat) : Bool :=
  inRegion g.tbBase g.tbLen a n &&
  (List.range ((a + n + 4095) / 4096 - a / 4096)).all fun i =>
    match runAt s (a + 4096 * i) with
    | some f => decide ((ftGet s f).owner = g.tenant) && decide ((ftGet s f).refs ≠ 0)
    | none => false

/-- The checks of a line transfer: alignment, the HBM row, the scratchpad range; a guest's bounds raise WINDOW. `store`:
the lines go to memory, where a range that is not OFF refuses them (R157). -/
def lineFault (s : State) (c : Core) (store : Bool) (a off n : Nat) : Option Nat :=
  if a % 256 ≠ 0 ∨ off % 256 ≠ 0 then some fAlignment
  else
    match scratchFault c (!store) off n with
    | some code => some code
    | none =>
      match c.guest with
      | some g => if tableAllowed s g a n then none else some fWindow
      | none => if rowOf s a n ≠ .hbm then some fAddress else if store && guarded s a n then some fAddress else none

/-- Lines of the transfer. -/
def lineCount (w : FmtT) : Nat := w.imm.toNat % 256 + 1

/-- The guarded blocks of the lines a load must fetch from the point of coherence: for LDC, the lines not cached. -/
def fetchBlocks (s : State) (k a n : Nat) (cached : Bool) : List (Nat × Nat) :=
  (List.range n).flatMap fun i =>
    let la := a + 256 * i
    if cached && (cacheGet (getCluster s (clusterOf k)) (la / 256)).isSome then [] else guardBlocks s la 256

/-- Load lines one after the other. -/
def loadLines (one : State → Nat → State × Option (List Byte)) : Nat → Nat → State → State × List Byte
  | 0, _, s => (s, [])
  | n + 1, a, s =>
    let r := one s a
    let q := loadLines one n (a + 256) r.1
    (q.1, r.2.getD [] ++ q.2)

/-- Store lines one after the other. -/
def storeLines (one : State → Nat → List Byte → State) : Nat → Nat → List Byte → State → State
  | 0, _, _, s => s
  | n + 1, a, bs, s => storeLines one n (a + 256) (bs.drop 256) (one s a (bs.take 256))

/-- LDC and LDV: issue waits while a guarded block is sealing or under repair (R155, R158), and the instruction is tried
again. A load that meets an uncorrectable word delivers its bytes as zero, and issue stops there (R153, Table 7-3). -/
def loadEff (s : State) (k : Nat) (w : FmtT) (c : Core) (cached : Bool) : Res :=
  let a := (readS c w.a).toNat
  let off := (readS c w.b).toNat
  let n := lineCount w
  match lineFault s c false a off (256 * n) with
  | some code => .flt code
  | none =>
    let r := checkBlocks s (fetchBlocks s k a n cached)
    if !r.2 then .hold r.1
    else
      let q := loadLines (fun st la => if cached then ldcLine st k la else ldvLine st k la) n a r.1
      let s1 := modCore q.1 k fun c => { c with scratch := writeBytes c.scratch off q.2 }
      if (getCore s1 k).phase = .ended then .hold s1 else .done s1

/-- STC and STV. -/
def storeEff (s : State) (k : Nat) (w : FmtT) (c : Core) (cached : Bool) : Res :=
  let a := (readS c w.a).toNat
  let off := (readS c w.b).toNat
  let n := lineCount w
  match lineFault s c true a off (256 * n) with
  | some code => .flt code
  | none =>
    .done (storeLines (fun st la bs => if cached then stcLine st k la bs else stvLine st k la bs) n a
      (readBytes c.scratch off (256 * n)) s)

def execLds (k : Nat) (w : FmtT) (s : State) : Host.Outcome State Fault Refusal :=
  issueT k w s infoLds fun c => ldsEff s k w c
def execSts (k : Nat) (w : FmtT) (s : State) : Host.Outcome State Fault Refusal :=
  issueT k w s infoSts fun c => stsEff s k w c
def execVld (k : Nat) (w : FmtT) (s : State) : Host.Outcome State Fault Refusal :=
  issueT k w s infoVld fun c => vldEff s k w c
def execVst (k : Nat) (w : FmtT) (s : State) : Host.Outcome State Fault Refusal :=
  issueT k w s infoVld fun c => vstEff s k w c
def execLdc (k : Nat) (w : FmtT) (s : State) : Host.Outcome State Fault Refusal :=
  issueT k w s infoLdc fun c => loadEff s k w c true
def execStc (k : Nat) (w : FmtT) (s : State) : Host.Outcome State Fault Refusal :=
  issueT k w s infoLines fun c => storeEff s k w c true
def execLdv (k : Nat) (w : FmtT) (s : State) : Host.Outcome State Fault Refusal :=
  issueT k w s infoLines fun c => loadEff s k w c false
def execStv (k : Nat) (w : FmtT) (s : State) : Host.Outcome State Fault Refusal :=
  issueT k w s infoLines fun c => storeEff s k w c false

end Sys2Proof.Machine
end

