-- ==== Sys2Proof/Machine/Walker.lean ====
section
/-! DEFINITION. The page-table walker (R231, R232, R239, R240), the claim on a run before a write (R238), creation of
pages (R230, R232), and the staging pool's writes to runs (R241 to R243). -/
namespace Sys2Proof.Machine

/-! ## Translation buffers -/

/-- Entries of a translation buffer. -/
def tbSize : Nat := 512

def tbKey (rc layer hg page : Nat) (e : TbEntry) : Bool :=
  decide (e.rc = rc ∧ e.layer = layer ∧ e.hg = hg ∧ e.page = page)

/-- Drop what `p` selects from every translation buffer (R240). -/
def dropTb (s : State) (p : TbEntry → Bool) : State :=
  (List.range 32).foldl (fun st n =>
    let cl := getCluster st n
    if cl.tb.any p then setCluster st n { cl with tb := cl.tb.filter fun e => !p e } else st) s

/-- Write a page-table entry: it is first dropped from every buffer (R240). -/
def putPte (s : State) (rc layer hg page addr : Nat) (p : Pte) : State :=
  physPut (dropTb s (tbKey rc layer hg page)) addr 8 (pteNat p)

/-- The status that the checks of R232 on an entry's frame give, 0 for none that fails. An evicted page's frame is not read
(R249), and a page in tier 2 has none. -/
def frameCheck (s : State) (rc : Nat) (p : Pte) : Nat :=
  if p.evicted || p.tier then 0
  else if !inPool s p.frame || decide (rowOf s (ftAddr s p.frame) 4 ≠ .hbm) || (badIn s (ftAddr s p.frame) 4).isSome then 0x12
  else if !mayRead s rc (ftGet s p.frame) then 0x41
  else if (ftGet s p.frame).poisoned then 0x12
  else 0

/-- The buffer entries of a leaf granule, every valid one (R239). -/
def granuleEntries (s : State) (rc layer hg page addr : Nat) : List TbEntry :=
  (List.range 32).filterMap fun i =>
    let v := readNat s.mem (addr / 256 * 256 + 8 * i) 8
    if (pteOf v).valid then
      some { rc := rc, layer := layer, hg := hg, page := page / 32 * 32 + i, pte := v, check := frameCheck s rc (pteOf v) }
    else none

/-- The walker reads the frame-table entries that its buffer entries name: what the reads count and raise (R150, R153). -/
def frameReads (s : State) (rc : Nat) (es : List TbEntry) : State :=
  es.foldl (fun st e =>
    let p := pteOf e.pte
    if p.evicted || p.tier || !inPool st p.frame then st else (pocReadEvents st (ftAddr st p.frame) 4 4 rc).1) s

/-- Install entries, the walked one most recently used; the least recently used leave. -/
def tbInstall (s : State) (n : Nat) (es : List TbEntry) (first : TbEntry → Bool) : State :=
  let cl := getCluster s n
  let old := cl.tb.filter fun o => !es.any fun e => tbKey o.rc o.layer o.hg o.page e
  setCluster s n { cl with tb := ((es.filter first) ++ es.filter (fun e => !first e) ++ old).take tbSize }

/-! ## Walks -/

/-- A context may be named by an instruction: its refusal status otherwise (Table 10-4). -/
def ctxStatus (s : State) (rc : Nat) : Option Nat :=
  if !kvEnabled s || !rcLive s rc then some 0xF0 else if rcCancelled s rc then some 0x50 else none

/-- Layer, head group and position in range and held here (Table 10-4). -/
def kvInRange (s : State) (rc layer hg pos : Nat) : Bool :=
  decide (layer < kvLayers s) && decide (hg < layerHgs s layer) && decide (pos < rcRb s rc * 8192) && heldHere s layer hg pos

/-- The walker reads bytes of a table: the state after the events, and whether they can be used. -/
def tableRead (s : State) (a n kind rc : Nat) : State × Bool :=
  if rowOf s a n ≠ .hbm then (s, false)
  else
    let r := pocReadEvents s a n kind rc
    (r.1, r.2.isNone)

/-- What a translation-buffer entry answers (R232, R239). A read that finds EVICTED set is answered as R249 sets out, whatever
has become of the page's run. -/
def tbAnswer (e : TbEntry) (hg : Nat) : Except Nat Pte :=
  let p := pteOf e.pte
  if p.hg ≠ hg then .error 0x12
  else if p.evicted then .ok p
  else if e.check ≠ 0 then .error e.check
  else if p.tier then .error 0xF3
  else .ok p

/-- A walk that misses the buffer (R232, R239): the root entry, then the leaf granule of 32 entries. An uncorrectable word in
the granule poisons the leaf block's run (R255). -/
def walkMiss (s : State) (n rc layer hg page : Nat) : State × Except Nat Pte :=
  let s0 := countUp s Reg.kvCountTbMiss Reg.kvCountOvf 0 1
  let r := tableRead s0 (rootAddr s rc layer hg (16 * page)) 8 4 rc
  if !r.2 then (r.1, .error 0x12)
  else
    match leafBlock s rc layer hg (16 * page) with
    | none => (r.1, .error 0xF1)
    | some b =>
      let a := pteIn b (16 * page)
      let q := tableRead r.1 (a / 256 * 256) 256 4 rc
      if !q.2 then (if inPool s (b / 4096) then poisonRun q.1 (runOf s (b / 4096)) else q.1, .error 0x12)
      else
        let es := granuleEntries s rc layer hg page a
        let s1 := tbInstall (frameReads q.1 rc es) n es (tbKey rc layer hg page)
        match es.find? (tbKey rc layer hg page) with
        | some e => (s1, tbAnswer e hg)
        | none => (s1, .error 0xF1)

/-- Translate a page for a key-value instruction or a near-bank command issued in cluster `n` (R232, R239). -/
def translate (s : State) (n rc layer hg page : Nat) : State × Except Nat Pte :=
  if !kvInRange s rc layer hg (16 * page) then (s, .error 0xF1)
  else
    match (getCluster s n).tb.find? (tbKey rc layer hg page) with
    | some e =>
      (tbInstall s n [e] (fun _ => true), tbAnswer e hg)
    | none => walkMiss s n rc layer hg page

/-! ## Creating pages -/

/-- Create the leaf block of a page where there is none, from the reserved runs when `own`; none when no run is free. -/
def ensureLeaf (s : State) (rc layer hg page : Nat) (own : Bool) : Option State :=
  match leafBlock s rc layer hg (16 * page) with
  | some _ => some s
  | none =>
    (allocRun s (rcTenant s rc) true own).map fun r =>
      physPut (physClear r.2 (4096 * r.1) 4096) (rootAddr s rc layer hg (16 * page)) 8 (4096 * r.1 + 1)

/-- A new page's entry: VALID, EXEMPT below GLOBAL_PAGES (R248). -/
def newPte (s : State) (hg page frame count : Nat) (exempt : Bool) : Pte :=
  { score := 0, hg := hg, count := count, valid := true, shared := false, tier := false, spec := false, evicted := false,
    exempt := exempt || decide (page < bits s.sched.evict 15 8), frame := frame }

/-- Create a page's entry where there is none (R232). -/
def ensurePage (s : State) (rc layer hg page : Nat) : Option State :=
  match ensureLeaf s rc layer hg page true with
  | none => none
  | some s1 =>
    match findPte s1 rc layer hg page with
    | some _ => some s1
    | none =>
      match leafBlock s1 rc layer hg (16 * page) with
      | none => some s1
      | some b =>
        (allocRun s1 (rcTenant s rc) false true).map fun r =>
          putPte r.2 rc layer hg page (pteIn b (16 * page)) (newPte s hg page r.1 0 false)

/-! ## Claims and writes to runs -/

/-- Outcome of a claim (R238): the run to write, or the status of the request. -/
inductive Claim where
  | run (s : State) (f : Nat)
  | bad (s : State)
  | full

/-- The claim before a write into a page's run (R238): in place when its tenant alone owns it, else into a copy. -/
def claim (s : State) (rc layer hg page addr : Nat) (p : Pte) : Claim :=
  let f := ftGet s p.frame
  if f.refs = 1 ∧ f.owner = rcTenant s rc then
    .run (if p.shared then putPte s rc layer hg page addr { p with shared := false } else s) p.frame
  else
    let r := pocReadEvents s (4096 * p.frame) (4096 * kvPf s) 5 rc
    match r.2 with
    | some _ => .bad (addCode (poisonRun r.1 p.frame) rc 0x12)
    | none =>
      match allocRun r.1 (rcTenant s rc) false true with
      | none => .full
      | some q =>
        let s1 := putPte (dropRef q.2 p.frame) rc layer hg page addr { p with shared := false, frame := q.1 }
        .run (countUp (physCopy s1 (4096 * p.frame) (4096 * q.1) (4096 * kvPf s)) Reg.kvCountCow Reg.kvCountOvf 1 1) q.1

/-- Byte spans of a page that reading or merging the halves of position `t` touches: the granules of its key, and the value
half, each of whose granules holds all sixteen positions (Table 10-1). -/
def halfSpans (s : State) (t : Nat) (key val : Bool) : List (Nat × Nat) :=
  let K := kvHalf s
  (if key then [(t * K / 256 * 256, ((t * K + K + 255) / 256 - t * K / 256) * 256)] else []) ++
    (if val then [(16 * K, 16 * K)] else [])

/-- Store bytes at scattered places of a page. -/
def scatter (s : State) (base : Nat) : List Nat → List Byte → State
  | [], _ => s
  | _, [] => s
  | o :: os, b :: bs => scatter (store s (base + o) [b]) base os bs

/-- The granules of spans are written whole: a corrected word's write-back is superseded (R151). -/
def mendSpans (s : State) (base : Nat) (sp : List (Nat × Nat)) : State :=
  sp.foldl (fun st q => { st with softWords := freshWords st.softWords (base + q.1) q.2 }) s

/-- Read spans of a page for a reader: the state after the events, and whether none was uncorrectable. -/
def readSpans (s : State) (base kind rc : Nat) (sp : List (Nat × Nat)) : State × Bool :=
  sp.foldl (fun r q =>
    let x := pocReadEvents r.1 (base + q.1) q.2 kind rc
    (x.1, r.2 && x.2.isNone)) (s, true)

/-- Write the halves of one position into its page's run by read-merge-write (R242). An uncorrectable word there poisons
the run and ends the request with MEM_UE (R255). -/
def writeHalves (s : State) (rc layer hg pos : Nat) (key val : Option (List Byte)) : State :=
  match findPte s rc layer hg (pos / 16) with
  | none => s
  | some (addr, p) =>
    match claim s rc layer hg (pos / 16) addr p with
    | .full => s
    | .bad s1 => s1
    | .run s1 f =>
      let t := pos % 16
      let r := readSpans s1 (4096 * f) 5 rc (halfSpans s t key.isSome val.isSome)
      if r.2 then
        let s1 := mendSpans r.1 (4096 * f) (halfSpans s t key.isSome val.isSome)
        let s2 := match key with
          | some b => scatter s1 (4096 * f) (keyPlaces s t) b
          | none => s1
        match val with
        | some b => scatter s2 (4096 * f) (valPlaces s t) b
        | none => s2
      else addCode (poisonRun r.1 f) rc 0x12

/-! ## Staging pools -/

/-- A cluster's staging entries that hold a place in its pool or overflow area (R241). -/
def placesUsed (cl : Cluster) : Nat := (cl.stg.filter fun e => e.spec || !e.written).length

/-- Refresh KV_STGn.USED. -/
def showUsed (s : State) (n : Nat) : State := setFld s (Reg.kvStgUsed n) (placesUsed (getCluster s n))

/-- Change a cluster's staging entries. -/
def modStg (s : State) (n : Nat) (f : List StgEntry → List StgEntry) : State :=
  let cl := getCluster s n
  showUsed (setCluster s n { cl with stg := f cl.stg }) n

/-- Change every cluster's staging entries. -/
def modAllStg (s : State) (f : List StgEntry → List StgEntry) : State :=
  (List.range 32).foldl (fun st n => if (getCluster st n).stg.isEmpty then st else modStg st n f) s

/-- Every staging entry, with its cluster. -/
def allStg (s : State) : List (Nat × StgEntry) := s.clusters.flatMap fun p => p.2.stg.map fun e => (p.1, e)

/-- The staging slot of a request, layer and head group (R241). -/
def slotOf (s : State) (rc layer hg : Nat) : List (Nat × StgEntry) :=
  (allStg s).filter fun p => decide (p.2.rc = rc ∧ p.2.layer = layer ∧ p.2.hg = hg)

def sameEntry (a b : StgEntry) : Bool := decide (a.rc = b.rc ∧ a.layer = b.layer ∧ a.hg = b.hg ∧ a.pos = b.pos)

/-- Both halves of an entry's position have been appended (R112). A slot's entries lie in the pools of the clusters that
appended them, and the halves of one entry may come from two (notes/assumptions/122.md). -/
def stgWhole (s : State) (e : StgEntry) : Bool :=
  let es := (slotOf s e.rc e.layer e.hg).filter fun q => sameEntry e q.2
  es.any (·.2.key.isSome) && es.any (·.2.val.isSome)

/-- The pool writes the entries of cluster `n` that `p` selects, non-speculative and not yet written (R242). -/
def flushStg (s : State) (n : Nat) (p : StgEntry → Bool) : State :=
  let es := (getCluster s n).stg.filter fun e => p e && !e.spec && !e.written
  let s1 := es.foldl (fun st e => writeHalves st e.rc e.layer e.hg e.pos e.key e.val) s
  if es.isEmpty then s1
  else modStg s1 n fun l => l.map fun e => if p e && !e.spec && !e.written then { e with written := true } else e

/-- Clear SPEC on a slot's pages that hold no speculative entry any more (R243, R244). -/
def settleSpec (s : State) (rc layer hg page : Nat) : State :=
  if (slotOf s rc layer hg).any fun q => q.2.spec && decide (q.2.pos / 16 = page) then s
  else
    match findPte s rc layer hg page with
    | some (a, p) => if p.spec then putPte s rc layer hg page a { p with spec := false } else s
    | none => s

/-- Remove staging entries whole (R245). -/
def removeStg (s : State) (p : StgEntry → Bool) : State :=
  let gone := (allStg s).filter fun q => p q.2
  if gone.isEmpty then s
  else
    let s1 := modAllStg s fun l => l.filter fun e => !p e
    gone.foldl (fun st q => if q.2.spec then settleSpec st q.2.rc q.2.layer q.2.hg (q.2.pos / 16) else st) s1

/-- First page of a layer and head group held here that is not full of confirmed positions, from page `i` on. -/
def confirmedFrom (s : State) (rc layer hg : Nat) : Nat → Nat → Nat
  | 0, i => 16 * i
  | n + 1, i =>
    if !heldHere s layer hg (16 * i) then confirmedFrom s rc layer hg n (i + 1)
    else
      match findPte s rc layer hg i with
      | some (_, p) => if p.count = 16 then confirmedFrom s rc layer hg n (i + 1) else 16 * i + p.count
      | none => 16 * i

/-- The first position of a layer and head group that is not confirmed (R112). -/
def confirmedEnd (s : State) (rc layer hg : Nat) : Nat := confirmedFrom s rc layer hg (512 * rcRb s rc) 0

/-- The next position of one half of a slot (R112). -/
def nextPos (s : State) (rc layer hg : Nat) (key : Bool) : Nat :=
  match ((slotOf s rc layer hg).filter fun q => if key then q.2.key.isSome else q.2.val.isSome).map (·.2.pos) with
  | [] => confirmedEnd s rc layer hg
  | p :: ps => ps.foldl max p + 1

end Sys2Proof.Machine
end

