-- ==== Sys2Proof/Machine/KvOps.lean ====
section
/-! DEFINITION. Class 0x5, key-value instructions (Table 5-15, R111 to R113), and imports (R252, R253). -/
namespace Sys2Proof.Machine

/-! ## Descriptors and statuses -/

/-- A key-value access descriptor (Table 5-14). -/
structure KvDesc where
  rc    : Nat
  layer : Nat
  hg    : Nat
  flags : Nat
  first : Nat
  count : Nat
  off   : Nat
  zero  : Bool
deriving DecidableEq, Repr

def kvDescOf (b : List Byte) : KvDesc :=
  { rc := fieldAt b 0 2, layer := fieldAt b 2 2, hg := fieldAt b 4 2, flags := fieldAt b 6 2, first := fieldAt b 8 4,
    count := fieldAt b 12 4, off := fieldAt b 16 4, zero := decide (fieldAt b 0x14 12 = 0) && decide (fieldAt b 6 2 < 8) }

def KvDesc.keys (d : KvDesc) : Bool := bit d.flags 0
def KvDesc.vals (d : KvDesc) : Bool := bit d.flags 1
def KvDesc.spec (d : KvDesc) : Bool := bit d.flags 2

/-- A status that is a completion code ends the named request with that code (R111). -/
def endsRequest (st : Nat) : Bool := decide (st = 0x11 ∨ st = 0x12 ∨ st = 0x41)

/-- Answer of a key-value instruction: go on with a status, or wait. -/
inductive KvRes where
  | status (s : State) (st : Nat)
  | wait (s : State)

/-- Run a key-value instruction on its descriptor: context first (Table 10-4), then the zero fields (R112); the status goes
to sD and may end the request (R111). -/
def kvRun (s : State) (k : Nat) (w : FmtT) (c : Core) (f : KvDesc → KvRes) : Res :=
  let off := (readS c w.a).toNat
  if off % 32 ≠ 0 then .flt fAlignment
  else if scratchBytes < off + 32 then .flt fAddress
  else
    let d := kvDescOf (readBytes c.scratch off 32)
    let put := fun (st : State) (v : Nat) =>
      modCore (if endsRequest v then addCode st d.rc v else st) k fun c => writeS c w.d (BitVec.ofNat 64 v)
    match ctxStatus s d.rc with
    | some v => .done (put s v)
    | none =>
      if !d.zero then .done (put s 0xF1)
      else
        match f d with
        | .status s1 v => .done (put s1 v)
        | .wait s1 => .hold s1

/-- A scratchpad area of the descriptor: aligned and within the scratchpad; otherwise BAD_ARGUMENT, since descriptor
contents raise no fault (R112). -/
def kvArea (d : KvDesc) (n : Nat) : Bool := decide (d.off % 256 = 0) && decide (d.off + n ≤ scratchBytes)

/-! ## KVLD -/

/-- Translate pages `p` onward: the entries in order, or the first failing status. -/
def translatePages (s : State) (n rc layer hg : Nat) : Nat → Nat → State × Except Nat (List Pte)
  | 0, _ => (s, .ok [])
  | m + 1, p =>
    let r := translate s n rc layer hg p
    match r.2 with
    | .error v => (r.1, .error v)
    | .ok e =>
      let q := translatePages r.1 n rc layer hg m (p + 1)
      match q.2 with
      | .error v => (q.1, .error v)
      | .ok es => (q.1, .ok (e :: es))

/-- Bytes of unread content: a value the spec does not state. -/
def freeBytes (s : State) (salt n : Nat) : List Byte :=
  (List.range n).map fun i => BitVec.ofNat 8 (Config.unstated 16 s.free salt i)

/-- What KVLD delivers for one half of a position (R112, R246, R249): a visible staging entry's, zeros for an evicted page,
the frame's for a confirmed position; for a position with none of these the spec states nothing. -/
def halfBytes (s : State) (n : Nat) (d : KvDesc) (pos : Nat) (p : Pte) (key : Bool) : List Byte :=
  let mine := (getCluster s n).stg.find? fun e =>
    decide (e.rc = d.rc ∧ e.layer = d.layer ∧ e.hg = d.hg ∧ e.pos = pos) && (d.spec || !e.spec) &&
      (if key then e.key.isSome else e.val.isSome)
  match mine with
  | some e => (if key then e.key else e.val).getD []
  | none =>
    if p.evicted then List.replicate (kvHalf s) 0
    else if pos % 16 < p.count then
      (if key then keyPlaces s (pos % 16) else valPlaces s (pos % 16)).map fun o => readByte s.mem (4096 * p.frame + o)
    else freeBytes s (2 * pos + b2n key) (kvHalf s)

/-- A position's half comes from the page's frames. -/
def fromFrame (s : State) (n : Nat) (d : KvDesc) (pos : Nat) (p : Pte) : Bool :=
  !p.evicted && decide (pos % 16 < p.count) &&
    !((getCluster s n).stg.any fun e => decide (e.rc = d.rc ∧ e.layer = d.layer ∧ e.hg = d.hg ∧ e.pos = pos) && (d.spec || !e.spec))

/-- Read the frames the positions need: the run of the first page with an uncorrectable word is poisoned (R255). -/
def readFrames (s : State) (n : Nat) (d : KvDesc) (first : Nat) : List Pte → State × Bool
  | [] => (s, true)
  | p :: ps =>
    let need := (List.range 16).filter fun t =>
      decide (d.first ≤ 16 * first + t ∧ 16 * first + t < d.first + d.count) && fromFrame s n d (16 * first + t) p
    let key := if d.keys then need.flatMap fun t => halfSpans s t true false else []
    let val := if d.vals && !need.isEmpty then halfSpans s 0 false true else []
    let r := readSpans s (4096 * p.frame) 4 d.rc (key ++ val)
    if r.2 then readFrames r.1 n d (first + 1) ps else (poisonRun r.1 p.frame, false)

/-- Store bytes at scattered places of a scratchpad page image. -/
def scatterSp (m : List Host.Cell) (base : Nat) : List Nat → List Byte → List Host.Cell
  | [], _ => m
  | _, [] => m
  | o :: os, b :: bs => scatterSp (writeByte m (base + o) b) base os bs

/-- Load the positions' named halves at their places in the page layout; other bytes of the page images keep their
values. -/
def loadPositions (s : State) (n : Nat) (d : KvDesc) (es : List Pte) (sp : List Host.Cell) : List Host.Cell :=
  (List.range d.count).foldl (fun m i =>
    let pos := d.first + i
    let pg := pos / 16 - d.first / 16
    match es[pg]? with
    | none => m
    | some p =>
      let base := d.off + pg * pageBytes s
      let m1 := if d.keys then scatterSp m base (keyPlaces s (pos % 16)) (halfBytes s n d pos p true) else m
      if d.vals then scatterSp m1 base (valPlaces s (pos % 16)) (halfBytes s n d pos p false) else m1) sp

/-- KVLD (R112). -/
def kvldDo (s : State) (k : Nat) (d : KvDesc) : KvRes :=
  if !d.keys && !d.vals then .status s 0xF1
  else if d.count = 0 then .status s 0
  else if rcRb s d.rc * 8192 < d.first + d.count then .status s 0xF1
  else
    let pages := (d.first + d.count - 1) / 16 - d.first / 16 + 1
    if !kvArea d (pages * pageBytes s) then .status s 0xF1
    else
      let n := clusterOf k
      let r := translatePages s n d.rc d.layer d.hg pages (d.first / 16)
      match r.2 with
      | .error v => .status r.1 v
      | .ok es =>
        let q := readFrames r.1 n d (d.first / 16) es
        if q.2 then
          .status (tookFree (modCore q.1 k fun c => { c with scratch := loadPositions q.1 n d es c.scratch })) 0
        else .status q.1 0x12

/-! ## KVAPP -/

/-- The positions the step's length table declares for a request (R241, R293): first and count. -/
def declared (s : State) (rc : Nat) : Nat × Nat :=
  match s.sched.cur with
  | some p => ((p.members.find? fun m => decide (m.rc = rc) && !m.gone).map fun m => (m.c, m.r)).getD (0, 0)
  | none => (0, 0)

/-- Add one position's halves to a list of staging entries. -/
def stgAdd (l : List StgEntry) (e : StgEntry) : List StgEntry :=
  if l.any (sameEntry e) then
    l.map fun o => if sameEntry e o then
      { o with key := if e.key.isSome then e.key else o.key, val := if e.val.isSome then e.val else o.val, written := false }
    else o
  else l ++ [e]

/-- The entries KVAPP appends: Count consecutive entries of the source, key then value. -/
def appEntries (s : State) (c : Core) (d : KvDesc) : List StgEntry :=
  (List.range d.count).map fun i =>
    let a := d.off + i * entryBytes s
    { rc := d.rc, layer := d.layer, hg := d.hg, pos := d.first + i, spec := d.spec,
      key := if d.keys then some (readBytes c.scratch a (kvHalf s)) else none,
      val := if d.vals then some (readBytes c.scratch (a + kvHalf s) (kvHalf s)) else none,
      confirmed := false, written := false }

/-- Every position of a page is confirmed or holds a complete entry of the slot (R242). -/
def pageComplete (s : State) (rc layer hg page : Nat) : Bool :=
  let cnt := ((findPte s rc layer hg page).map (·.2.count)).getD 0
  (List.range 16).all fun t => decide (t < cnt) ||
    (slotOf s rc layer hg).any fun q => decide (q.2.pos = 16 * page + t) && stgWhole s q.2

/-- Translate the pages of an append; a walk that finds no root entry or page-table entry creates it (R232). -/
def makePages (s : State) (n rc layer hg : Nat) : Nat → Nat → Option (State × Except Nat Unit)
  | 0, _ => some (s, .ok ())
  | m + 1, p =>
    let r := translate s n rc layer hg p
    match r.2 with
    | .ok _ => makePages r.1 n rc layer hg m (p + 1)
    | .error v =>
      if v = 0xF1 ∧ kvInRange s rc layer hg (16 * p) = true then
        match ensurePage r.1 rc layer hg p with
        | none => none
        | some s1 => makePages s1 n rc layer hg m (p + 1)
      else some (r.1, .error v)

/-- Set SPEC on the pages a speculative append covers (R243). -/
def markSpec (s : State) (rc layer hg : Nat) : Nat → Nat → State
  | 0, _ => s
  | m + 1, p =>
    match findPte s rc layer hg p with
    | some (a, e) => markSpec (if e.spec then s else putPte s rc layer hg p a { e with spec := true }) rc layer hg m (p + 1)
    | none => markSpec s rc layer hg m (p + 1)

/-- The writes of KVAPP's own (R112, R242): earlier pages of the slot, the whole pool when it and its overflow area are
full (R241), and after the append each page that is complete. -/
def appendEntries (s : State) (k : Nat) (c : Core) (d : KvDesc) (p0 pages : Nat) : State :=
  let n := clusterOf k
  let mine := fun (e : StgEntry) => decide (e.rc = d.rc ∧ e.layer = d.layer ∧ e.hg = d.hg)
  let flush := fun (st : State) (p : StgEntry → Bool) =>
    (List.range 32).foldl (fun st n => if (getCluster st n).stg.isEmpty then st else flushStg st n p) st
  let s1 := flush s fun e => mine e && decide (e.pos / 16 < p0 + pages - 1)
  let room := 2097152 / entryBytes s + fld s (Reg.kvStgOvfEntries n)
  let s2 := if room < placesUsed (getCluster s1 n) + d.count then flushStg s1 n (fun _ => true) else s1
  let s3 := modStg s2 n fun l => (appEntries s2 c d).foldl stgAdd l
  let s4 := if d.spec then markSpec s3 d.rc d.layer d.hg pages p0 else s3
  (List.range pages).foldl (fun st i =>
    if pageComplete st d.rc d.layer d.hg (p0 + i) then
      flush st fun e => mine e && decide (e.pos / 16 = p0 + i)
    else st) s4

/-- KVAPP (R112, R241). -/
def kvappDo (s : State) (k : Nat) (c : Core) (d : KvDesc) : KvRes :=
  let dec := declared s d.rc
  let slot := slotOf s d.rc d.layer d.hg
  if (!d.keys && !d.vals) || decide (d.count = 0 ∨ 16 < d.count) then .status s 0xF1
  else if d.first < dec.1 ∨ dec.1 + dec.2 < d.first + d.count then .status s 0xF1
  else if !kvInRange s d.rc d.layer d.hg d.first || !kvInRange s d.rc d.layer d.hg (d.first + d.count - 1) then .status s 0xF1
  else if !kvArea d (d.count * entryBytes s) then .status s 0xF1
  else if (d.keys && decide (d.first ≠ nextPos s d.rc d.layer d.hg true)) ||
      (d.vals && decide (d.first ≠ nextPos s d.rc d.layer d.hg false)) then .status s 0xF1
  else if slot.any fun q => decide (d.first ≤ q.2.pos ∧ q.2.pos < d.first + d.count) && (q.2.spec ^^ d.spec) then .status s 0xF1
  else
    let p0 := d.first / 16
    let pages := (d.first + d.count - 1) / 16 - p0 + 1
    match makePages s (clusterOf k) d.rc d.layer d.hg pages p0 with
    | none => .wait s
    | some (s1, .error v) => .status s1 v
    | some (s1, .ok _) => .status (appendEntries s1 k c d p0 pages) 0

/-! ## KVCMT and KVDROP -/

/-- KVCMT (R112): confirms the complete entries appended without SPEC. -/
def kvcmtDo (s : State) (d : KvDesc) : KvRes :=
  let r := getReq s d.rc
  let mine := fun (e : StgEntry) => decide (e.rc = d.rc) && !e.spec && !e.confirmed
  let es := (allStg s).filter fun q => mine q.2
  if r.kvcmt then .status s 0xF2
  else if es.any fun q => !stgWhole s q.2 then .status s 0xF1
  else if es.isEmpty then .status s 0
  else .status (modAllStg (setReq s d.rc { r with kvcmt := true })
    fun l => l.map fun e => if mine e then { e with confirmed := true } else e) 0

/-- KVDROP (R245). -/
def kvdropDo (s : State) (d : KvDesc) : KvRes :=
  if kvLayers s ≤ d.layer ∨ layerHgs s d.layer ≤ d.hg then .status s 0xF1
  else .status (removeStg s fun e =>
    decide (e.rc = d.rc ∧ e.layer = d.layer ∧ e.hg = d.hg ∧ d.first ≤ e.pos) && !e.confirmed) 0

def execKvld (k : Nat) (w : FmtT) (s : State) : Host.Outcome State Fault Refusal :=
  issueT k w s infoKv fun c => kvRun s k w c fun d => kvldDo s k d
def execKvapp (k : Nat) (w : FmtT) (s : State) : Host.Outcome State Fault Refusal :=
  issueT k w s infoKv fun c => kvRun s k w c fun d => kvappDo s k c d
def execKvcmt (k : Nat) (w : FmtT) (s : State) : Host.Outcome State Fault Refusal :=
  issueT k w s infoKv fun c => kvRun s k w c fun d => kvcmtDo s d
def execKvdrop (k : Nat) (w : FmtT) (s : State) : Host.Outcome State Fault Refusal :=
  issueT k w s infoKv fun c => kvRun s k w c fun d => kvdropDo s d

/-! ## Import -/

/-- An import record (Table 10-7). -/
structure ImpRec where
  src   : Nat
  layer : Nat
  hg    : Nat
  first : Nat
  count : Nat
  flags : Nat
  zero  : Nat
deriving DecidableEq, Repr

def impRec (b : List Byte) : ImpRec :=
  { src := fieldAt b 0 4, layer := fieldAt b 4 2, hg := fieldAt b 6 2, first := fieldAt b 8 4, count := fieldAt b 12 1,
    flags := fieldAt b 13 1, zero := fieldAt b 14 2 }

/-- The import reads host memory (kind word bit 15). -/
def importHost (e : DotEntry) : Bool := bit e.kw2 15

/-- Source lies where the kind word says (R252). Bits of kind word 0x38 that have no meaning must be zero: the model's choice
(notes/assumptions/126.md). -/
def importSourceOk (s : State) (e : DotEntry) : Bool :=
  decide (e.kw2 / 65536 = 0 ∧ bits e.kw2 14 10 = 0) &&
  (if importHost e then decide (hostBase ≤ e.src ∧ e.src < peerBase)
   else decide (peerBase ≤ e.src ∧ (e.src - peerBase) / peerBytes = e.kw2 % 1024 ∧ e.kw2 % 1024 ≠ ownId s))

/-- One record is in range and names a page that is not valid yet (R253). -/
def recOk (s : State) (rc : Nat) (r : ImpRec) : Bool :=
  decide (r.first % 16 = 0) && kvInRange s rc r.layer r.hg r.first && between 1 r.count 16 && decide (r.flags < 2) &&
    decide (r.zero = 0) && (findPte s rc r.layer r.hg (r.first / 16)).isNone

/-- The whole list passes (R253). -/
def listOk (s : State) (rc : Nat) (rs : List ImpRec) : Bool :=
  let idx := List.zip (List.range rs.length) rs
  rs.all (recOk s rc) &&
  idx.all fun p => idx.all fun q =>
    decide (p.1 = q.1) ||
      !(decide (p.2.layer = q.2.layer ∧ p.2.hg = q.2.hg) &&
        (decide (p.2.first = q.2.first) || (decide (p.2.count < 16) && decide (p.2.first < q.2.first))))

/-- Start an import's remote reads, a request a page (R326): tags rise in list order. -/
def importReads (s : State) (e : DotEntry) (tag : Word) : Nat → List ImpRec → Option State
  | _, [] => some s
  | i, r :: rs =>
    let d := (e.src - peerBase) / peerBytes
    let off := (e.src - peerBase) % peerBytes + pageBytes s * r.src
    match sendItem s d [mkSlot s 2 d 0 off (tag + BitVec.ofNat 64 i) 0 (pageBytes s / 256) [] true false] with
    | none => none
    | some s1 => importReads s1 e tag (i + 1) rs

/-- Send an import's reads, or leave it waiting for a route (R322). -/
def importSend (s : State) (m : Nat) (tag : Word) : State :=
  let e := getDot s m
  match importReads s e tag 0 (e.imports.map impRec) with
  | some s1 => setDot s1 m { getDot s1 m with readTag := tag, waitRoute := false, readGot := [] }
  | none => setDot s m { e with readTag := tag, waitRoute := true, routeTried := s.tk, readGot := [] }

/-- An import starts (R113, R253): its whole list is checked before any data moves. It waits while a guarded block of the
list is sealed or repaired (R155, R156, R158). -/
def importStart (s0 : State) (m : Nat) : State :=
  let e := getDot s0 m
  let n := 16 * e.kw1
  let g := areaReady s0 e.kw0 n
  let s := setDot g.1 m { e with waitStart := !g.2 }
  if !e.rcEn || decide (e.kw0 % 256 ≠ 0 ∨ 65536 < e.kw1) || decide (rowOf s e.kw0 n ≠ .hbm) || !kvEnabled s ||
      !rcLive s e.rc || !importSourceOk s e then leaveActive (setDot g.1 m e) m .failed 0x41
  else if !g.2 then s
  else
    let r := pocReadEvents s e.kw0 n 3 e.rc
    match r.2 with
    | some _ => leaveActive r.1 m .failed 0x12
    | none =>
      let recs := chunks 16 e.kw1 (readBytes s.mem e.kw0 n)
      let s1 := setDot r.1 m { getDot r.1 m with imports := recs }
      if !listOk s1 e.rc (recs.map impRec) then leaveActive s1 m .failed 0x41
      else if importHost e then armLimit s1 m
      else importSend (tookTags s1 e.kw1) m (freshTag s1)

/-- Runs an import needs: its pages and the leaf blocks that are missing. -/
def importRuns (s : State) (rc : Nat) (rs : List ImpRec) : Nat :=
  let keys := rs.foldl (fun ks r =>
    let k := (r.layer, r.hg, r.first / 8192)
    if (leafBlock s rc r.layer r.hg r.first).isSome || ks.contains k then ks else k :: ks) ([] : List (Nat × Nat × Nat))
  rs.length + keys.length

/-- Bytes of source page `i` of the list. -/
def importBytes (s : State) (e : DotEntry) (i : Nat) (r : ImpRec) : List Byte :=
  if importHost e then physRead s (e.src + pageBytes s * r.src) (pageBytes s)
  else (List.range (pageBytes s / 256)).flatMap fun j => smGet (fun _ => []) e.readGot (256 * i + j)

/-- Bring in one page: its run, its bytes, its entry. -/
def importPage (s : State) (e : DotEntry) (i : Nat) (r : ImpRec) : State :=
  let page := r.first / 16
  match ensureLeaf s e.rc r.layer r.hg page false with
  | none => s
  | some s1 =>
    match leafBlock s1 e.rc r.layer r.hg r.first, allocRun s1 (rcTenant s e.rc) false false with
    | some b, some (f, s2) =>
      putPte (physWrite s2 (4096 * f) (importBytes s e i r)) e.rc r.layer r.hg page (pteIn b r.first)
        (newPte s r.hg page f r.count (bit r.flags 0))
    | _, _ => s1

/-- Every page of the source can be read: in the host window as it stands, or arrived from the peer. -/
def importReadable (s : State) (e : DotEntry) (rs : List ImpRec) : Bool :=
  if importHost e then rs.all fun r => decide (rowOf s (e.src + pageBytes s * r.src) (pageBytes s) = .host)
  else true

/-- The first page of a source in the host window that cannot be read: the cause and its 4 KiB block (R165, R174). -/
def importFault (s : State) (e : DotEntry) (rs : List ImpRec) : Option (Nat × Nat) :=
  if importHost e then
    (rs.filterMap fun r =>
      let a := e.src + pageBytes s * r.src
      (readFault s a (pageBytes s)).map fun c => (c, (a - hostBase) / 4096)).head?
  else none

/-- A mirrored request's entries are to be sent whole at the next boundary (R253, R335). -/
def oweMirror (s : State) (rc : Nat) : State :=
  if (getReq s rc).maskSent = true ∧ s.mirror.toMirror.contains rc = false then
    { s with mirror := { s.mirror with toMirror := s.mirror.toMirror ++ [rc] } }
  else s

/-- An import completes (R253): every page and entry at once, then the completion addition. It waits for pages still to
come and for free runs (R234). -/
def importDone (s : State) (m : Nat) : State :=
  let e := getDot s m
  let rs := e.imports.map impRec
  if e.state ≠ .active ∨ e.kind ≠ kImport ∨ e.waitStart = true then s
  else if !importHost e && decide (e.readGot.length < rs.length * (pageBytes s / 256)) then s
  else if !importReadable s e rs then armTierTimer (leaveActive s m .failed 0x41)
  else if unreserved s < importRuns s e.rc rs then s
  else if let some f := importFault s e rs then armTierTimer (failOp s m (.tier 3 f.1 f.2))
  else
    let s1 := (List.zip (List.range rs.length) rs).foldl (fun st p => importPage st e p.1 p.2) s
    let s2 := leaveActive s1 m .done 0
    let s3 := if e.byScheduler then rcPut (setRcState s2 e.rc stReady) e.rc 0x30 4 (rcGet s2 e.rc 0x24 4) else s2
    armTierTimer (oweMirror s3 e.rc)

/-- Destination is a zero field of KVIMP (R113). -/
def impZero (d : Desc) : Bool := decide (d.dst = 0)

def execKvimp (k : Nat) (w : FmtT) (s : State) : Host.Outcome State Fault Refusal :=
  issueT k w s infoLongOp fun c => longStart s k w c (fun _ => kImport) impZero (fun _ => none) true importStart
def execKvImportDone (t m : Nat) (s : State) : Host.Outcome State Fault Refusal :=
  presentUnit s t m numDot fun s => importDone s m

end Sys2Proof.Machine
end

