-- ==== Sys2Proof/Machine/Mirror.lean ====
section
/-! DEFINITION. The mirror engine's sending side (R334 to R338, Tables 14-1, 14-3, 14-4): pair states, the configuration
digest, mirror frames, their queues and the state SUSPECT (R341). -/
namespace Sys2Proof.Machine

/-! ## Pair states (Table 14-1) -/

def msSolo : Nat := 0
def msPairing : Nat := 1
def msSyncing : Nat := 2
def msPaired : Nat := 3
def msSuspect : Nat := 4
def msFenced : Nat := 5
def msTakingOver : Nat := 6
def msTakenOver : Nat := 7

/-- Port M (R333). -/
def portM : Nat := 16

def mState (s : State) : Nat := fld s Reg.mrStatusState

/-- The pair-role mode reads PAIRED in a state. -/
def roleIn (x : Nat) : Bool := !decide (x = msSolo ∨ x = msFenced ∨ x = msTakenOver)
def pairRole (s : State) : Bool := roleIn (mState s)

/-- Heartbeats are due: port M is UP, and the state is neither SOLO nor FENCED (R337). -/
def mayBeat (s : State) : Bool := portUp s portM && !decide (mState s = msSolo ∨ mState s = msFenced)

/-- Device timer 0 runs while heartbeats are due. -/
def armBeat (s : State) : State :=
  { s with timer0 := if mayBeat s then (if s.timer0 = 0 then s.tk + 100 else s.timer0) else 0 }

/-- Enter a pair state: the role and device timer 0 follow it, and CAUSE reads 0 outside SUSPECT. -/
def setMState (s : State) (x : Nat) : State :=
  let s1 := armBeat (setFld (setFld s Reg.mrStatusState x) Reg.pwActivePair (b2n (roleIn x)))
  if x = msSuspect then s1 else setFld s1 Reg.mrStatusCause 0

/-- RESULT of Table 14-7. -/
def setMResult (s : State) (x : Nat) : State := setFld s Reg.mrStatusResult x

/-! ## The configuration digest (R334) -/

/-- DIGEST of a guarded range, zero while it is OFF. -/
def grDigest (s : State) (i : Nat) : List Byte :=
  if grState s i = 0 then List.replicate 64 0 else regBytes s (0x31040 + 0x80 * i) 64

/-- The bytes the digest covers. -/
def configBytes (s : State) : List Byte :=
  (List.range 16).flatMap (grDigest s) ++ regBytes s 0x50008 12 ++ regBytes s 0x50018 8 ++
    natBytes 2 (fld s Reg.sqTilesTiles) ++ natBytes 1 (fld s Reg.sqAttnSegLog2) ++
    natBytes 1 (fld s Reg.pwProfileActive) ++ readBytes s.imem 0 0xC000

def configDigest (s : State) : List Byte := shake256 (configBytes s) 64

/-! ## Frames -/

/-- Queue of a frame type: control 0, record 1, repair 2, entry 3 (Table 14-4). -/
def mQueue (ty : Nat) : Nat :=
  if ty < 0x10 ∨ ty = 0x30 then 0 else if ty < 0x20 then 1 else if ty = 0x31 then 2 else 3

/-- Sequenced types (Table 14-4). -/
def mSequenced (ty : Nat) : Bool := decide (0x10 ≤ ty ∧ ty ≤ 0x15) || decide (ty = 0x20 ∨ ty = 0x21)

/-- Types of Table 14-4. -/
def mKnown (ty : Nat) : Bool := decide (1 ≤ ty ∧ ty ≤ 4) || mSequenced ty || decide (ty = 0x30 ∨ ty = 0x31)

/-- Pool of a frame: class D for control, C for records, B for repair data, A for entries, HOP 0 (R318, R337). -/
def mPool (f : MFrame) : Nat := 4 * (3 - mQueue f.type.toNat)

/-- A frame whose sequence numbers are still to be filled in. -/
def mkFrame (ty rc layer step arg : Nat) (data : List Byte) : MFrame :=
  { type := BitVec.ofNat 8 ty, flags := 0, rc := BitVec.ofNat 16 rc, mseq := 0, mack := 0,
    len := BitVec.ofNat 16 data.length, layer := BitVec.ofNat 16 layer, step := BitVec.ofNat 64 step,
    arg := BitVec.ofNat 64 arg, data := data }

/-- The slots of a frame, 256 payload bytes each, LAST on the last of several (R336). -/
def mSlots (f : MFrame) : List MFrame :=
  let cs := if f.data.isEmpty then [[]] else chunks 256 f.data.length f.data
  (List.zip (List.range cs.length) cs).map fun p =>
    { f with flags := BitVec.ofNat 8 (b2n (decide (1 < cs.length ∧ p.1 + 1 = cs.length))),
             len := BitVec.ofNat 16 p.2.length, data := padTo 256 p.2 }

/-- Link frames that carry a frame's slots, four at most in each (R316). -/
def mLinkFrames (tk : Nat) : Nat → List (List MFrame) → List SentFrame
  | _, [] => []
  | seq, g :: gs => { seq := seq % 4096, slots := [], mslots := g, sentAt := tk } :: mLinkFrames tk (seq + 1) gs

/-- Send one frame where credit and replay room allow it whole: it takes its MSEQ and MACK now (R337). -/
def sendFrame (s : State) (f : MFrame) : Option State :=
  let q := getPort s portM
  let sq := mSequenced f.type.toNat
  let f1 := { f with mseq := if sq then BitVec.ofNat 32 s.mirror.nextSeq else 0, mack := BitVec.ofNat 32 s.mirror.accepted }
  let xs := mSlots f1
  let gs := chunks 4 xs.length xs
  let cr := creditIn q.credits (mPool f)
  if cr < xs.length ∨ replayFrames < q.unacked.length + gs.length then none
  else
    let fs := mLinkFrames s.tk q.txSeq gs
    let s1 := setPort s portM { linkSent q with
      txSeq := (q.txSeq + fs.length) % 4096, unacked := q.unacked ++ withLinks q fs
      credits := smSet natDefault q.credits (mPool f) (cr - xs.length) }
    if sq then
      let n := s1.mirror.nextSeq
      let s2 := { s1 with mirror := { s1.mirror with nextSeq := (n + 1) % 2 ^ 32, unacked := s1.mirror.unacked ++ [(f1, s.tk)] } }
      some (countUp (setFld s2 Reg.mrSeqSent n) Reg.mrCountFramesSent Reg.mrCountOvf 0 1)
    else some s1

/-- Send frames of one queue in order, up to the first that must wait. -/
def sendRun : State → List MFrame → State × List MFrame
  | s, [] => (s, [])
  | s, f :: fs =>
    match sendFrame s f with
    | some s1 => sendRun s1 fs
    | none => (s, f :: fs)

/-- Port M may carry mirror frames (R342). -/
def mayStream (s : State) : Bool := portUp s portM && decide (mState s ≠ msFenced)

/-- Send what can be sent: control frames first, then records, repair data and entries (R337). -/
def flushMirror (s : State) : State :=
  if !mayStream s then s
  else
    (List.range 4).foldl (fun st i =>
      let mine := st.mirror.queued.filter fun f => decide (mQueue f.type.toNat = i)
      let r := sendRun st mine
      let rest := st.mirror.queued.filter fun f => decide (mQueue f.type.toNat ≠ i)
      { r.1 with mirror := { r.1.mirror with queued := rest ++ r.2 } }) s

/-- Queue frames and send what can be sent. -/
def queueFrames (s : State) (fs : List MFrame) : State :=
  flushMirror { s with mirror := { s.mirror with queued := s.mirror.queued ++ fs } }

/-- HEARTBEAT (R337, Table 14-4). -/
def heartbeat (s : State) : MFrame :=
  mkFrame 0x01 0 0 0 0 (natBytes 8 s.tk ++ natBytes 1 (mState s) ++ natBytes 7 0 ++ (configDigest s).take 16)

/-- HELLO (R333, Table 14-4). -/
def hello (s : State) : MFrame :=
  mkFrame 0x02 0 0 0 0 (natBytes 2 (ownId s) ++ natBytes 1 s.pins.slotId ++ natBytes 1 (fld s Reg.mrCtrlHalf) ++
    natBytes 4 0 ++ natBytes 8 s.tk ++ configDigest s)

/-- DYING, sent once on entering FATAL while paired (R341, R379). -/
def sendDying (s : State) : State := if pairRole s then queueFrames s [mkFrame 0x03 0 0 0 0 []] else s

/-! ## Suspicion (R341) -/

/-- A class 2 event of source `src`: a PAIRED or SYNCING device becomes SUSPECT. -/
def suspect (s : State) (src : Nat) : State :=
  let s0 := if src = 3 then setFld s Reg.mrStatusPartnerFatal 1 else s
  let st := mState s0
  if st = msPaired ∨ st = msSyncing then
    let s1 := setMState { s0 with mirror := { s0.mirror with prior := st } } msSuspect
    let s2 := setFld (setFld s1 Reg.mrStatusCause (2 ^ src)) Reg.mrStatusSuspectSeen 1
    let s3 := sendIf (countUp s2 Reg.mrCountSuspects Reg.mrCountOvf 2 1) Reg.mrCtrlIrqEn 262
    setAlert s3 0
  else s0

/-- SUSPECT ends once heartbeats have resumed and every sequenced frame sent is acknowledged (Table 14-1). -/
def unsuspect (s : State) : State :=
  if mState s = msSuspect ∧ s.mirror.unacked.isEmpty = true ∧ s.tk < s.mirror.lastBeat + 300 ∧ portUp s portM = true then
    setMState s s.mirror.prior
  else s

end Sys2Proof.Machine
end

