-- ==== Sys2Proof/Machine/Near.lean ====
section
/-! DEFINITION. Near-bank units: class 0x6 (Table 5-16, R114), command lists and what a command returns (R204 to R223). -/
namespace Sys2Proof.Machine

/-! ## Commands -/

/-- A near-bank command's fields (Table 9-4). -/
structure NbFields where
  kind    : Nat
  fmt     : Nat
  vecs    : Nat
  flags   : Nat
  rc      : Nat
  adapter : Nat
  source  : Nat
  scales  : Nat
  rows    : Nat
  kk      : Nat
  first   : Nat
  layer   : Nat
  hg      : Nat
  vector  : Nat
  result  : Nat
  zero    : Nat
deriving DecidableEq, Repr

def nbFields (b : List Byte) : NbFields :=
  { kind := fieldAt b 0 1, fmt := fieldAt b 1 1, vecs := fieldAt b 2 1, flags := fieldAt b 3 1, rc := fieldAt b 4 2,
    adapter := fieldAt b 6 2, source := fieldAt b 8 8, scales := fieldAt b 0x10 8, rows := fieldAt b 0x18 4,
    kk := fieldAt b 0x1C 4, first := fieldAt b 0x20 4, layer := fieldAt b 0x24 2, hg := fieldAt b 0x26 2,
    vector := fieldAt b 0x28 8, result := fieldAt b 0x30 8, zero := fieldAt b 0x38 8 }

def NbFields.rcEn (f : NbFields) : Bool := bit f.flags 0
def NbFields.pin (f : NbFields) : Bool := bit f.flags 1

/-- The fields lie in range (Table 9-4, R208, R209); else BAD_ARGUMENT. -/
def nbFieldsOk (s : State) (f : NbFields) : Bool :=
  decide (f.flags < 8 ∧ f.zero = 0 ∧ f.vector % 256 = 0 ∧ f.result % 256 = 0) && between 1 f.rows 1048576 &&
  (if f.kind = 1 then
    between 1 f.fmt 3 && between 1 f.vecs 4 && decide (f.source % 256 = 0 ∧ f.scales % 256 = 0) &&
      (decide (f.fmt = 1) || decide (f.scales = 0)) && decide (f.kk ≠ 0 ∧ f.kk % (if f.fmt = 1 then 512 else 256) = 0) &&
      decide (f.first = 0 ∧ f.layer = 0 ∧ f.hg = 0)
   else between 2 f.kind 3 && between 2 f.fmt 3 && between 1 f.vecs 8 && f.rcEn &&
      decide (f.source = 0 ∧ f.scales = 0 ∧ f.kk = 0 ∧ f.first % 16 = 0) &&
      decide (kvH s = 1 ∧ kvD s = 128 ∧ kvEb s = 1))

/-- Bytes of the result area, whole granules (R216). -/
def nbResultBytes (f : NbFields) : Nat :=
  roundUp (match f.kind with
    | 1 => 4 * f.vecs * f.rows
    | 2 => 4 * f.vecs * f.rows
    | _ => 512 * f.vecs) 256

/-- P of R209: ROWS rounded up to a multiple of 128. -/
def nbPitch (f : NbFields) : Nat := roundUp f.rows 128

/-- Weights of an MV, which the units read (R208). -/
def nbWeights (f : NbFields) : List (Nat × Nat) := if f.kind = 1 then [(f.source, f.rows * f.kk * fmtBits f.fmt / 8)] else []

/-- Operands the sequencer reads and delivers over the bus: scales and vectors (R203, R208, R209, R214). -/
def nbDelivered (f : NbFields) : List (Nat × Nat) :=
  match f.kind with
  | 1 => (if f.fmt = 1 then [(f.scales, f.rows * f.kk / 32)] else []) ++ [(f.vector, 2 * f.kk * f.vecs)]
  | 2 => [(f.vector, 256 * f.vecs)]
  | _ => [(f.vector, 2 * f.vecs * nbPitch f)]

/-- Operand ranges outside page frames. -/
def nbRanges (f : NbFields) : List (Nat × Nat) := nbWeights f ++ nbDelivered f

/-! ## Arithmetic (R142, R215) -/

/-- A granule's partial: groups of 128 terms under the window rule, added in order to an FP32 running value. That a group's sum
is added as it stands, rounded with the addition alone, is the model's choice (notes/assumptions/130.md). -/
def nbPartial (ts : List FVal) : Nat :=
  (chunks 128 (ts.length + 1) ts).foldl (fun run g => encodeF 8 (addF (decodeF 8 run) (windowSum g))) 0

/-- A stored operand: element `i` of packed elements at a byte address. -/
def nbElem (m : List Host.Cell) (base fmt i : Nat) : FVal :=
  if fmt = 1 then
    let b := (readByte m (base + i / 2)).toNat
    decodeF 1 (if i % 2 = 0 then b % 16 else b / 16)
  else decodeF fmt (readByte m (base + i)).toNat

/-- BF16 element `i` at a byte address. -/
def bf16At (m : List Host.Cell) (base i : Nat) : FVal := decodeF 6 (readNat m (base + 2 * i) 2)

/-- Reduction positions of one granule of an MV: a slice (R214). -/
def nbSlice (f : NbFields) : Nat := if f.fmt = 1 then 512 else 256

/-- First byte of row `n` of the weights (R208). -/
def nbRow (f : NbFields) (n : Nat) : Nat := f.source + n * f.kk * fmtBits f.fmt / 8

/-- Partial of output n of vector i over slice `j` of an MV (R208, R215). -/
def mvPartial (m : List Host.Cell) (f : NbFields) (i n j : Nat) : Nat :=
  nbPartial ((List.range (nbSlice f)).map fun t =>
    let p := nbSlice f * j + t
    let w := nbElem m (nbRow f n) f.fmt p
    let ws := if f.fmt = 1 then mulF w (scaleVal (readByte m (f.scales + n * f.kk / 32 + p / 32)).toNat) else w
    mulF ws (bf16At m (f.vector + 2 * f.kk * i) p))

/-- Output n of vector i of an MV (R208, R215): partials by slice, combined by the tree. -/
def mvOut (m : List Host.Cell) (f : NbFields) (i n : Nat) : Nat :=
  treeSum ((List.range (f.kk / nbSlice f)).map (mvPartial m f i n))

/-- Address of the page of a position, its frame's first byte. -/
def framePage (es : List Pte) (first pos : Nat) : Option Pte := es[pos / 16 - first / 16]?

/-- Score of query j against position t (R209, R249). -/
def scoreOut (m : List Host.Cell) (f : NbFields) (es : List Pte) (j t : Nat) : Nat :=
  match framePage es f.first (f.first + t) with
  | some p =>
    if p.evicted then 0xFF800000
    else nbPartial ((List.range 128).map fun d =>
      mulF (bf16At m (f.vector + 256 * j) d) (nbElem m (4096 * p.frame + 128 * (t % 16)) f.fmt d))
  | none => 0

/-- Partial of dimension d of query j over page `i` of a VALUE (R209, R215). -/
def valuePartial (m : List Host.Cell) (f : NbFields) (frame i j d : Nat) : Nat :=
  nbPartial ((List.range (min 16 (f.rows - 16 * i))).map fun t =>
    mulF (bf16At m (f.vector + 2 * (j * nbPitch f)) (16 * i + t))
      (nbElem m (4096 * frame + 2048 + 256 * (d / 16) + 16 * (d % 16)) f.fmt t))

/-- Output dimension d of query j of a VALUE (R209, R215, R249): partials by page; an evicted page's is +0. -/
def valueOut (m : List Host.Cell) (f : NbFields) (es : List Pte) (j d : Nat) : Nat :=
  treeSum ((List.zip (List.range es.length) es).map fun q =>
    if q.2.evicted then 0 else valuePartial m f q.2.frame q.1 j d)

/-- The result area's bytes (R208, R209, R216). -/
def nbResult (m : List Host.Cell) (f : NbFields) (es : List Pte) : List Byte :=
  let out : List Nat := match f.kind with
    | 1 => (List.range f.vecs).flatMap fun i => (List.range f.rows).map fun n => mvOut m f i n
    | 2 => (List.range f.vecs).flatMap fun j => (List.range f.rows).map fun t => scoreOut m f es j t
    | _ => (List.range f.vecs).flatMap fun j => (List.range 128).map fun d => valueOut m f es j d
  padTo (nbResultBytes f) (out.flatMap (natBytes 4))

/-! ## Running a command -/

/-- How a command comes out: a status with the granules read, or a wait for a repair (R218). -/
inductive NbOut where
  | done (s : State) (status granules : Nat)
  | wait (s : State)

/-- Pages of a SCORE or VALUE that the units accept (Table 9-6): not speculative, and valid for every position asked. -/
def nbPagesOk (f : NbFields) (es : List Pte) : Bool :=
  (List.zip (List.range es.length) es).all fun q =>
    q.2.evicted || (!q.2.spec && decide (min 16 (f.rows - 16 * q.1) ≤ q.2.count))

/-- Granules of a page that a SCORE or VALUE reads: the keys of the positions asked, or the values (Table 9-5). -/
def pageGranules (f : NbFields) (i : Nat) : Nat := if f.kind = 2 then (min 16 (f.rows - 16 * i) + 1) / 2 else 8

/-- Granules a completed command has read. -/
def nbGranules (f : NbFields) (es : List Pte) : Nat :=
  if f.kind = 1 then f.rows * f.kk * fmtBits f.fmt / 8 / 256
  else ((List.zip (List.range es.length) es).map fun q => if q.2.evicted then 0 else pageGranules f q.1).sum

/-- Frame bytes that a SCORE or VALUE reads. -/
def nbFrames (f : NbFields) (es : List Pte) : List (Nat × Nat) :=
  if f.kind = 1 then []
  else (List.zip (List.range es.length) es).filterMap fun q =>
    if q.2.evicted then none else some (4096 * q.2.frame + (if f.kind = 2 then 0 else 2048), 256 * pageGranules f q.1)

/-- What the units read: weights, keys or values. -/
def nbUnitRanges (f : NbFields) (es : List Pte) : List (Nat × Nat) := nbWeights f ++ nbFrames f es

/-- The correctable and uncorrectable words that units meet advance NB_COUNT.CE and NB_COUNT.UE (R217). -/
def nbCountWords (s : State) (ce ue : Nat) : State :=
  countUp (countUp s Reg.nbCountCe Reg.nbCountOvf 1 ce) Reg.nbCountUe Reg.nbCountOvf 2 ue

/-- First bytes of the guarded blocks that units read. -/
def blockBase (s : State) (p : Nat × Nat) : Nat := grBase s p.1 + 4096 * p.2

/-- The event of each uncorrectable word (R217): reader kind 6. -/
def nbEvents (s : State) (f : NbFields) (ws : List Nat) : State :=
  ws.foldl (fun st w => ueEvent st (16 * w) 6 (if f.rcEn then f.rc else 0xFFFF)) s

/-- What the units do with guarded blocks, `bs` of them their own (R217, R218): every block is checked; a failing one counts
in CRC_FAIL, its uncorrectable words in UE with their events, and the command waits. -/
def nbBlocks (s : State) (f : NbFields) (all bs : List (Nat × Nat)) : State × Bool :=
  let failing := (bs.filter fun b => decide (grState s b.1 ≠ 1) && !inRepair s b.1 b.2 && blockFails s b.1 b.2).eraseDups
  let c := checkBlocks s all
  let bad := failing.flatMap fun b => badWordsIn s (blockBase s b) 4096
  (nbEvents (nbCountWords (countUp c.1 Reg.nbCountCrcFail Reg.nbCountOvf 3 failing.length) 0 bad.length) f bad, c.2)

/-- An uncorrectable word that a command has met outside guarded ranges (R217): in a key-value frame its run is poisoned; else,
in an MV without RC_EN, the step is rolled back. -/
def nbBadWord (s : State) (f : NbFields) (w : Nat) : State :=
  match (if kvEnabled s then runAt s (16 * w) else none) with
  | some r => poisonRun s r
  | none => if f.kind = 1 ∧ !f.rcEn then stepUe s (16 * w) else s

/-- A command ends at uncorrectable words (R217). The granules read until then are not stated. -/
def nbUe (s : State) (f : NbFields) (es : List Pte) (ws : List Nat) : NbOut :=
  let s1 := ws.foldl (fun st w => nbBadWord st f w) s
  .done (tookFree s1) 0x12 (freeNow s1 % (nbGranules f es + 1))

/-! ## Latches (R202, R203, R214) -/

/-- What one unit's latches take with one granule: the operand half it multiplies from, the vector's bytes, the scale bytes and
the results. -/
structure NbLoad where
  granule : Nat
  second  : Bool
  operand : List Byte
  scales  : List Byte
  result  : List Byte
deriving DecidableEq, Repr

/-- The granules of a command in the order of its slices or pages (R214), each with what its unit's latches take. -/
def nbLoads (m : List Host.Cell) (f : NbFields) (es : List Pte) : List NbLoad :=
  let vs := List.range f.vecs
  match f.kind with
  | 1 => (List.range (f.kk / nbSlice f)).flatMap fun j => (List.range f.rows).map fun n =>
    { granule := nbRow f n + 256 * j, second := decide (j % 2 = 1)
      operand := vs.flatMap fun i => readBytes m (f.vector + 2 * f.kk * i + 2 * nbSlice f * j) (2 * nbSlice f)
      scales := if f.fmt = 1 then readBytes m (f.scales + n * f.kk / 32 + 16 * j) 16 else []
      result := vs.flatMap fun i => natBytes 4 (mvPartial m f i n j) }
  | 2 => (List.zip (List.range es.length) es).flatMap fun q =>
    if q.2.evicted then []
    else (List.range (pageGranules f q.1)).map fun g =>
      { granule := 4096 * q.2.frame + 256 * g, second := false, operand := readBytes m f.vector (256 * f.vecs), scales := []
        result := vs.flatMap fun i => [0, 1].flatMap fun t => natBytes 4 (scoreOut m f es i (16 * q.1 + 2 * g + t)) }
  | _ => (List.zip (List.range es.length) es).flatMap fun q =>
    if q.2.evicted then []
    else (List.range 8).map fun g =>
      { granule := 4096 * q.2.frame + 2048 + 256 * g, second := false
        operand := vs.flatMap fun i => readBytes m (f.vector + 2 * (i * nbPitch f + 16 * q.1)) 32, scales := []
        result := vs.flatMap fun i => (List.range 16).flatMap fun d => natBytes 4 (valuePartial m f q.2.frame q.1 i (16 * g + d)) }

def latchDefault (_ : Nat) : NbLatch := {}

/-- The latches of the unit that a granule belongs to. -/
def nbUnitOf (a : Nat) : Nat := 16 * pseudoChannel a + (interleave a).unit

/-- Latch one granule's operands and results. -/
def latchLoad (l : List (Nat × NbLatch)) (x : NbLoad) : List (Nat × NbLatch) :=
  let u := nbUnitOf x.granule
  let o := smGet latchDefault l u
  smSet latchDefault l u
    { half0 := if x.second then o.half0 else x.operand, half1 := if x.second then x.operand else o.half1
      scales := x.scales, result := x.result }

/-- The latches after a command over memory `m`: what the units last took stays until the next (notes/assumptions/138.md). -/
def nbLatched (s : State) (m : List Host.Cell) (f : NbFields) (es : List Pte) : State :=
  { s with nbLatches := (nbLoads m f es).foldl latchLoad s.nbLatches }

/-! ## Results -/

/-- Read the operands and write the results. -/
def nbCompute (s : State) (f : NbFields) (es : List Pte) : NbOut :=
  let units := nbUnitRanges f es
  let rs := units ++ nbDelivered f
  let bs := (units.flatMap fun r => guardBlocks s r.1 r.2).eraseDups
  let c := nbBlocks s f (rs.flatMap fun r => guardBlocks s r.1 r.2).eraseDups bs
  if !c.2 then .wait c.1
  else
    let open_ := fun (ws : List Nat) => ws.filter (wordOpen s)
    let ce := (units.map fun r => (open_ (softWordsIn s r.1 r.2)).length).sum +
      (bs.map fun b => (softWordsIn s (blockBase s b) 4096).length).sum
    let ue := (units.map fun r => (badWordsIn s r.1 r.2).length).sum
    let s1 := nbCountWords c.1 ce ue
    let s2 := rs.foldl (fun st r => (pocReadEvents st r.1 r.2 6 (if f.rcEn then f.rc else 0xFFFF)).1) s1
    match rs.flatMap fun r => badWordsIn s r.1 r.2 with
    | [] => .done (nbLatched (physWrite s2 f.result (nbResult s.mem f es)) s.mem f es) 0 (nbGranules f es)
    | ws => nbUe s2 f es ws

/-- Run one command issued from cluster `n` (R210, Table 9-6): fields, context, pin, addresses, tenant (R68), pages, operands. -/
def nbRun (s : State) (n : Nat) (f : NbFields) : NbOut :=
  if !nbFieldsOk s f then .done s 0xF1 0
  else
    match (if f.rcEn then ctxStatus s f.rc else none) with
    | some v => .done s v 0
    | none =>
      if f.pin && decide (rcAdapter s f.rc ≠ f.adapter ∨ !rcLive s f.rc) then .done s 0x41 0
      else if (nbRanges f).any (fun r => decide (rowOf s r.1 r.2 ≠ .hbm)) || decide (rowOf s f.result (nbResultBytes f) ≠ .hbm) ||
          guarded s f.result (nbResultBytes f) then .done s 0x41 0
      else if f.rcEn && ((nbRanges f).any (fun r => foreignRuns s f.rc r.1 r.2 false) ||
          foreignRuns s f.rc f.result (nbResultBytes f) true) then .done s 0x41 0
      else if f.kind = 1 then nbCompute s f []
      else
        let pages := (f.rows + 15) / 16
        let r := translatePages s n f.rc f.layer f.hg pages (f.first / 16)
        match r.2 with
        | .error v => .done r.1 v 0
        | .ok es => if nbPagesOk f es then nbCompute r.1 f es else .done r.1 0xF1 0

/-- Command `i` of entry `m` finishes (R210, R211, R213), once it has started. A status word refused by a guarded range ends the
operation (R157). -/
def nbCommandFinish (s : State) (m i : Nat) : State :=
  let e := getDot s m
  match e.nb[i]? with
  | none => s
  | some c =>
    let f := nbFields c.bytes
    if e.state ≠ .active ∨ e.kind ≠ kNear ∨ c.status.isSome ∨ !c.started then s
    else if guarded s (e.dst + 8 * i) 8 then leaveActive s m .failed 0x41
    else
      match nbRun s (clusterOf e.core) f with
      | .wait s1 => s1
      | .done s1 st g =>
        let word := BitVec.ofNat 64 (st + 65536 * f.rc + 2 ^ 32 * g)
        let s2 := physWrite s1 (e.dst + 8 * i) (natBytes 8 word.toNat)
        let nb := e.nb.set i { c with status := some word }
        let s3 := startNear (setDot s2 m { getDot s2 m with nb := nb, bytesDone := 8 * finishedRun nb })
        let s4 := countUp (addTotal s3 Reg.nbBytes (256 * g)) Reg.nbCountCommands Reg.nbCountOvf 0 1
        let s5 := if st = 0x41 ∨ 0xF0 ≤ st then countUp s4 Reg.nbCountRefused Reg.nbCountOvf 4 1 else s4
        if f.rcEn && endsRequest st then addCode s5 f.rc st else s5

/-- The operation ends DONE when every command has finished (R210). -/
def nbDone (s : State) (m : Nat) : State :=
  let e := getDot s m
  if e.state = .active ∧ e.kind = kNear ∧ finishedRun e.nb = e.nb.length then leaveActive s m .done 0 else s

/-- A near-bank operation starts: its list is read whole (R207). FAILED for a misaligned list or status area is the model's choice
(notes/assumptions/133.md). -/
def nbStart (s : State) (m : Nat) : State :=
  let e := getDot s m
  let n := e.kw1
  if n = 0 ∨ 4096 < n then leaveActive s m .failed 0x41
  else if decide (e.kw0 % 256 ≠ 0 ∨ e.dst % 256 ≠ 0 ∨ rowOf s e.kw0 (64 * n) ≠ .hbm ∨ rowOf s e.dst (8 * n) ≠ .hbm) ||
      guarded s e.kw0 (64 * n) || guarded s e.dst (8 * n) ||
      (e.rcEn && (foreignRuns s e.rc e.kw0 (64 * n) false || foreignRuns s e.rc e.dst (8 * n) true)) then leaveActive s m .failed 0x41
  else
    let r := pocReadEvents s e.kw0 (64 * n) 3 (entryRc e)
    match r.2 with
    | some _ => leaveActive r.1 m .failed 0x12
    | none =>
      let cmds := (chunks 64 n (readBytes s.mem e.kw0 (64 * n))).map fun b => ({ bytes := b } : NbCmd)
      modCore (startNear (setDot r.1 m { getDot r.1 m with nb := cmds })) e.core
        fun c => { c with nbOps := m :: c.nbOps.filter fun o => o ≠ m }

/-- Kind word 0x38 is a zero field of NBISS. -/
def nbZero (d : Desc) : Bool := decide (d.kw2 = 0)

/-- NBISS (R205, R207): refused with a value of its own while the offload mode is OFF. -/
def nbissEff (s : State) (k : Nat) (w : FmtT) (c : Core) : Res :=
  if modeOffload s = 0 then startNone s k w 0xFFFFFFFFFFFFFFFE
  else longStart s k w c (fun _ => kNear) nbZero (fun _ => none) true nbStart

/-- NBFNC (R114): holds the memory queue for the core's operations still ACTIVE. -/
def nbfncEff (s : State) (k : Nat) (c : Core) : Res :=
  match c.nbOps.filter fun m =>
    decide ((getDot s m).state = .active ∧ (getDot s m).kind = kNear ∧ (getDot s m).core = k) with
  | [] => regOp s k fun c => { c with nbOps := [] }
  | ops => regOp s k fun c => { c with nbOps := ops, memHold := .nbfnc ops }

/-- NBRD (R114): an ACTIVE entry holds the memory queue. ADDRESS of an index of 4,096 or more is the model's choice
(notes/assumptions/127.md). -/
def nbrdEff (s : State) (k : Nat) (w : FmtT) (c : Core) : Res :=
  let m := (readS c w.a).toNat
  let off := (readS c w.b).toNat
  let n := lineCount w
  if numDot ≤ m then .flt fAddress
  else if off % 256 ≠ 0 then .flt fAlignment
  else if scratchBytes < off + 256 * n then .flt fAddress
  else
    let e := getDot s m
    if e.state = .free ∨ e.kind ≠ kNear then regOp s k fun c => writeS c w.d 0xF1
    else if e.state = .active then regOp s k fun c => { c with memHold := .nbrd m w.d.toNat n off }
    else .done (endNbrd s k m w.d.toNat n off)

def execNbiss (k : Nat) (w : FmtT) (s : State) : Host.Outcome State Fault Refusal :=
  issueT k w s infoLongOp fun c => nbissEff s k w c
def execNbfnc (k : Nat) (w : FmtT) (s : State) : Host.Outcome State Fault Refusal :=
  issueT k w s infoNbfnc fun c => nbfncEff s k c
def execNbrd (k : Nat) (w : FmtT) (s : State) : Host.Outcome State Fault Refusal :=
  issueT k w s infoNbrd fun c => nbrdEff s k w c

def execNearBankCommandFinish (t m i : Nat) (s : State) : Host.Outcome State Fault Refusal :=
  presentUnit s t m numDot fun s => nbCommandFinish s m i
def execNearBankDone (t m : Nat) (s : State) : Host.Outcome State Fault Refusal :=
  presentUnit s t m numDot fun s => nbDone s m

end Sys2Proof.Machine
end

