-- ==== Sys2Proof/Machine/Coll.lean ====
section
/-! DEFINITION. Class 0x7: RPUT (R115) and collectives (R116, R327 to R330). -/
namespace Sys2Proof.Machine

/-! ## The group descriptor -/

/-- A group descriptor (Table 13-5). -/
structure Group where
  tag      : Nat
  m        : Nat
  root     : Nat
  partials : Nat
  zero0    : Nat
  stride   : Nat
  scratch  : Nat
  size     : Nat
  log      : Nat
  zero1    : Nat
  members  : List Nat
deriving DecidableEq, Repr

def groupOf (s : State) (a : Nat) : Group :=
  let f := fun o n => readNat s.mem (a + o) n
  { tag := f 0 8, m := f 8 2, root := f 0xA 2, partials := f 0xC 2, zero0 := f 0xE 2, stride := f 0x10 8,
    scratch := f 0x18 8, size := f 0x20 8, log := f 0x28 8, zero1 := f 0x30 16,
    members := (List.range (min (f 8 2) 1024)).map fun i => f (0x40 + 2 * i) 2 }

/-- Chunk bytes c of the sum operations (R328). -/
def chunkC (len m : Nat) : Nat := (len + 256 * m - 1) / (256 * m) * 256
/-- Bytes of chunk j; the last chunks are shorter or empty. -/
def chunkLen (len m j : Nat) : Nat := min len ((j + 1) * chunkC len m) - min len (j * chunkC len m)

/-- Scratch bytes an operation needs (Table 13-6). -/
def scratchNeed (op len m : Nat) : Nat :=
  match op with
  | 0 => len + chunkC len m * (m - 1)
  | 1 => m * len
  | 2 => chunkC len m * m
  | _ => len

def ascending : List Nat → Bool
  | a :: b :: rest => decide (a < b) && ascending (b :: rest)
  | _ => true

/-- The start checks of R327. -/
def groupOk (s : State) (e : DotEntry) (g : Group) : Bool :=
  decide (e.kw1 ≤ 3) && between 1 g.m 1024 && between 1 g.partials 64 && (decide (e.kw1 ≠ 3) || decide (g.partials = 1)) &&
  (if e.kw1 = 3 then g.members.contains g.root else decide (g.root = 0)) && decide (g.zero0 = 0 ∧ g.zero1 = 0) &&
  decide (g.stride % 256 = 0 ∧ g.scratch % 256 = 0) && g.members.all (fun d => decide (d < 1024)) && ascending g.members &&
  g.members.contains (ownId s) && decide (e.len ≠ 0 ∧ e.len % 256 = 0) && decide (scratchNeed e.kw1 e.len g.m ≤ g.size) &&
  decide (rowOf s g.scratch g.size = .hbm) && !guarded s g.scratch g.size && (decide (g.log = 0) || decide (rowOf s g.log 32 = .hbm))

/-! ## Pieces -/

def pieceBytes : Nat := 65536
def numPieces (n : Nat) : Nat := (n + pieceBytes - 1) / pieceBytes
/-- Pieces of some bytes, numbered. -/
def piecesOf (bs : List Byte) : List (Nat × List Byte) :=
  let cs := chunks pieceBytes (bs.length + 1) bs
  List.zip (List.range cs.length) cs

/-- The digest of a piece (R329). -/
def pieceDigest (seed tag phase sender chunk piece : Nat) (bs : List Byte) : List Byte :=
  shake256 (natBytes 8 seed ++ natBytes 8 tag ++ natBytes 1 phase ++ [0] ++ natBytes 2 sender ++ natBytes 2 chunk ++
    natBytes 2 piece ++ bs) 16

def collOf (e : DotEntry) : Coll := e.coll.getD {}
def setColl (s : State) (m : Nat) (f : Coll → Coll) : State := setDot s m { getDot s m with coll := some (f (collOf (getDot s m))) }

/-- Position of a member in the list. -/
def posOf (l : List Nat) (d : Nat) : Nat := (List.range l.length).findSome? (fun i => if l.getD i 0 = d then some i else none) |>.getD l.length

def ownPos (s : State) (c : Coll) : Nat := posOf c.members (ownId s)
def numMembers (c : Coll) : Nat := c.members.length
def peers (s : State) (c : Coll) : List Nat := c.members.filter fun d => decide (d ≠ ownId s)

/-- A piece digest of a rerun collective is compared with the DIGEST_LOG entry of the same TAG, sender, chunk and piece, for the
RETRACTION record that waits (R364). TAG[63:16] is the step's index. -/
def compareDigest (s : State) (k : Word × Nat × Nat × Nat × List Byte) : State :=
  match s.sched.retraction with
  | none => s
  | some r =>
    let step := k.1.toNat / 2 ^ 16
    let r1 := { r with seen := true, differ := r.differ || !s.links.digests.contains k }
    if r.g % 2 ^ 48 < step ∧ step ≤ r.last % 2 ^ 48 then { s with sched := { s.sched with retraction := some r1 } } else s

/-- Keep a digest logged, with those of the steps a rollback can still reach. -/
def keepDigest (s : State) (k : Word × Nat × Nat × Nat × List Byte) : State :=
  let kept := s.links.digests.filter fun x =>
    decide (¬ (x.1 = k.1 ∧ x.2.1 = k.2.1 ∧ x.2.2.1 = k.2.2.1 ∧ x.2.2.2.1 = k.2.2.2.1)) && decide (stepNow s ≤ x.1.toNat / 2 ^ 16 + 8)
  { s with links := { s.links with digests := kept ++ [k] } }

/-- Log 32 bytes in DIGEST_LOG (R329): the digest, then sender, chunk and piece. A guarded range refuses the write, which ends the
operation (R157). A rerun's digests are compared with those logged first (R364, notes/assumptions 145). -/
def logDigest (s : State) (m : Nat) (digest : List Byte) (sender chunk piece : Nat) : State :=
  let c := collOf (getDot s m)
  let k := (c.tag, sender, chunk, piece, digest)
  if c.log = 0 then s
  else if guarded s (c.log + 32 * c.logged) 32 then failOp s m .denied
  else
    let s1 := physWrite s (c.log + 32 * c.logged) (padTo 32 (digest ++ natBytes 2 sender ++ natBytes 2 chunk ++ natBytes 2 piece))
    setColl (keepDigest (compareDigest s1 k) k) m fun c => { c with logged := c.logged + 1 }

/-- The slots of a piece: its granules and its digest (R329). -/
def pieceSlots (s : State) (c : Coll) (x : CollSent) : List Slot :=
  let n := (x.data.length + 255) / 256
  let at_ := fun g => 2 ^ 32 * x.chunk + 65536 * x.piece + g
  ((List.range n).map fun g => mkSlot s 4 x.dest 0 (at_ g) c.tag 0 0 ((x.data.drop (256 * g)).take 256) false false) ++
    [mkSlot s 5 x.dest 0 (at_ 0) c.tag 0 0
      (pieceDigest c.seed.toNat c.tag.toNat x.phase (ownId s) x.chunk x.piece x.data) false false]

/-- Send a piece, or leave it waiting for a route (R322). -/
def sendPiece (s : State) (c : Coll) (x : CollSent) : State × CollSent :=
  match sendItem s x.dest (pieceSlots s c x) with
  | some s1 => (s1, { x with sentAt := s.tk, waiting := false, refused := false })
  | none => (s, { x with sentAt := s.tk, waiting := true, refused := false })

/-- Send pieces in turn, keeping them until acknowledged, with their digests logged. -/
def sendPieces (s : State) (m : Nat) : List CollSent → State
  | [] => s
  | x :: xs =>
    if (getDot s m).state ≠ .active then s else
    let c := collOf (getDot s m)
    let r := sendPiece s c x
    let s1 := setColl r.1 m fun c => { c with unacked := c.unacked ++ [r.2] }
    let dg := pieceDigest c.seed.toNat c.tag.toNat x.phase (ownId s) x.chunk x.piece x.data
    sendPieces (logDigest s1 m dg (ownId s) x.chunk x.piece) m xs

def toSend (dest phase chunk : Nat) (p : Nat × List Byte) : CollSent :=
  { dest := dest, phase := phase, chunk := chunk, piece := p.1, data := p.2, sentAt := 0, waiting := false, refused := false }

/-! ## Scratch layout and what is expected -/

/-- Where a sender's bytes of a chunk go in SCRATCH, and their phase: results first, then the contributions to this
member's own chunk in list order (the layout is the model's). -/
def landing (s : State) (e : DotEntry) (c : Coll) (sender chunk : Nat) : Nat × Nat :=
  let mm := numMembers c
  let own := ownPos s c
  let q := posOf c.members sender
  let idx := if q < own then q else q - 1
  let cc := chunkC e.len mm
  match c.op with
  | 0 => if chunk = own then (e.len + cc * idx, 0) else (cc * chunk, 1)
  | 1 => (e.len * q, 0)
  | 2 => (cc + cc * idx, 0)
  | _ => (0, 0)

/-- Pieces this member is to receive: sender, chunk, pieces. -/
def expected (s : State) (e : DotEntry) (c : Coll) : List (Nat × Nat × Nat) :=
  let mm := numMembers c
  let own := ownPos s c
  let contrib := (peers s c).map fun d => (d, own, numPieces (chunkLen e.len mm own))
  match c.op with
  | 0 => contrib ++ (peers s c).map fun d => (d, posOf c.members d, numPieces (chunkLen e.len mm (posOf c.members d)))
  | 1 => (peers s c).map fun d => (d, 0, numPieces e.len)
  | 2 => contrib
  | _ => if c.root = ownId s then [] else [(c.root, 0, numPieces e.len)]

/-- A piece is held whole. -/
def havePiece (c : Coll) (sender chunk piece : Nat) : Bool :=
  c.pieces.any fun p => decide (p.sender = sender ∧ p.chunk = chunk ∧ p.piece = piece) && p.whole

def haveAll (c : Coll) (x : Nat × Nat × Nat) : Bool := (List.range x.2.2).all fun i => havePiece c x.1 x.2.1 i

/-- Every contribution to this member's own chunk has arrived. -/
def contributionsIn (s : State) (e : DotEntry) (c : Coll) : Bool :=
  ((expected s e c).filter fun x => decide (x.2.1 = ownPos s c)).all (haveAll c)

/-! ## Sums -/

def words32 (bs : List Byte) : List Nat := (chunks 4 (bs.length + 1) bs).map leNat
def wordBytes (ws : List Nat) : List Byte := ws.flatMap (natBytes 4)

/-- Transposed word lists: element i of each. -/
def columns (n : Nat) (rows : List (List Nat)) : List (List Nat) := (List.range n).map fun i => rows.map fun r => r.getD i 0

/-- Element-wise tree sum of partials (R143). -/
def treeParts (parts : List (List Byte)) : List Byte :=
  match parts with
  | [p] => p
  | _ => wordBytes ((columns ((parts.headD []).length / 4) (parts.map words32)).map treeSum)

/-- Element-wise sum left to right (R144). -/
def chainParts (parts : List (List Byte)) : List Byte :=
  wordBytes ((columns ((parts.headD []).length / 4) (parts.map words32)).map fun col =>
    match col with
    | [] => 0
    | x :: xs => xs.foldl fadd32 x)

/-- The sum of this member's own chunk, members ascending: its own part stands at the chunk's place in the result. -/
def ownSum (s : State) (e : DotEntry) (c : Coll) : List Byte :=
  let own := ownPos s c
  let n := chunkLen e.len (numMembers c) own
  let base := if c.op = 0 then chunkC e.len (numMembers c) * own else 0
  chainParts (c.members.map fun d =>
    readBytes s.mem (c.scratch + (if d = ownId s then base else (landing s e c d own).1)) n)

/-- Form the sum once every contribution is in, and for an all-reduce send it to every member (R328). -/
def trySum (s : State) (m : Nat) : State :=
  let e := getDot s m
  let c := collOf e
  if e.state ≠ .active ∨ c.summed ∨ !c.begun ∨ (c.op ≠ 0 ∧ c.op ≠ 2) ∨ !contributionsIn s e c then s
  else
    let own := ownPos s c
    let sum := ownSum s e c
    let base := if c.op = 0 then chunkC e.len (numMembers c) * own else 0
    let s1 := setColl (physWrite s (c.scratch + base) sum) m fun c => { c with summed := true }
    if c.op = 0 then sendPieces s1 m ((peers s c).flatMap fun d => (piecesOf sum).map (toSend d 1 own)) else s1

/-! ## Start -/

/-- Read `n` bytes at offset `off` of the source (R108). -/
def collRead (s : State) (e : DotEntry) (off n : Nat) : Except OpFailure (List Byte) :=
  srcPiece s { e with compress := false } off n

/-- The device's contribution: the tree sum of its partials (R328). -/
def contribution (s : State) (e : DotEntry) (c : Coll) : Except OpFailure (List Byte) :=
  let parts := (List.range c.partials).map fun i => collRead s e (i * c.stride) e.len
  match parts.findSome? (fun p => match p with | .error f => some f | .ok _ => none) with
  | some f => .error f
  | none => .ok (treeParts (parts.map fun p => match p with | .ok b => b | .error _ => []))

/-- What each peer is sent first, and where this member's own part goes. -/
def firstPieces (s : State) (e : DotEntry) (c : Coll) (x : List Byte) : List CollSent × Nat × List Byte :=
  let mm := numMembers c
  let cc := chunkC e.len mm
  let own := ownPos s c
  let part := fun j => (x.drop (j * cc)).take (chunkLen e.len mm j)
  match c.op with
  | 0 => ((peers s c).flatMap fun d => (piecesOf (part (posOf c.members d))).map (toSend d 0 (posOf c.members d)), cc * own, part own)
  | 1 => ((peers s c).flatMap fun d => (piecesOf x).map (toSend d 0 0), e.len * own, x)
  | 2 => ((peers s c).flatMap fun d => (piecesOf (part (posOf c.members d))).map (toSend d 0 (posOf c.members d)), 0, part own)
  | _ => if c.root = ownId s then ((peers s c).flatMap fun d => (piecesOf x).map (toSend d 0 0), 0, x) else ([], 0, [])

/-- Send the contribution, unless a block of the source is sealing or under repair. -/
def collBegin (s : State) (m : Nat) : State :=
  let e := getDot s m
  let c := collOf e
  let needs := !(decide (c.op = 3) && decide (c.root ≠ ownId s))
  let r := if e.srcSp || !needs then (s, true)
    else (List.range c.partials).foldl (fun (a : State × Bool) i =>
      let q := readReady a.1 (e.src + i * c.stride) e.len
      (q.1, a.2 && q.2)) (s, true)
  if !r.2 then r.1
  else
    match (if needs then contribution r.1 e c else .ok []) with
    | .error f => failOp r.1 m f
    | .ok x =>
      let f := firstPieces r.1 e c x
      let s1 := physWrite (setColl r.1 m fun c => { c with begun := true }) (c.scratch + f.2.1) f.2.2
      trySum (sendPieces s1 m f.1) m

/-- The step in progress has sent over the links (R364). -/
def markLinks (s : State) : State :=
  { s with sched := { s.sched with cur := s.sched.cur.map fun p => { p with usedLinks := true } } }

/-- A collective with this TAG starts: pieces held for an earlier one of the same TAG are no longer its copies. -/
def startTag (s : State) (tag : Word) : State :=
  { s with links := { s.links with held := s.links.held.filter fun t => decide (t ≠ tag) } }

/-- A collective starts (R327); it waits while a guarded block of its descriptor is sealed or repaired (R155, R156, R158). -/
def collStart (s0 : State) (m : Nat) : State :=
  let e := getDot s0 m
  let g := groupOf s0 e.kw0
  let q := areaReady s0 e.kw0 (0x40 + 2 * min g.m 1024)
  let s := setDot q.1 m { e with waitStart := !q.2 }
  if e.kw0 % 256 ≠ 0 ∨ rowOf s e.kw0 256 ≠ .hbm then leaveActive (setDot q.1 m e) m .failed 0x41
  else if !q.2 then s
  else
    let r := pocReadEvents s e.kw0 (0x40 + 2 * min g.m 1024) 3 (entryRc e)
    match r.2 with
    | some _ => leaveActive r.1 m .failed 0x12
    | none =>
      if !groupOk r.1 e g || (e.rcEn && (foreignRuns s e.rc e.src e.len false || foreignRuns s e.rc e.dst e.len true)) then
        leaveActive r.1 m .failed 0x41
      else
        let c : Coll :=
          { tag := BitVec.ofNat 64 g.tag, root := g.root, partials := g.partials, stride := g.stride, scratch := g.scratch,
            log := g.log, members := g.members, op := e.kw1, seed := BitVec.ofNat 64 e.kw2 }
        collBegin (startTag (markLinks (setDot r.1 m { getDot r.1 m with coll := some c })) c.tag) m

/-! ## Receiving (R329, R330) -/

/-- The ACTIVE collective a TAG names. -/
def findColl (s : State) (tag : Word) : Option Nat :=
  (s.dot.find? fun p => decide (p.2.state = .active ∧ p.2.kind = kColl) && decide ((p.2.coll.map (·.tag)) = some tag)).map (·.1)

/-- Send a one-slot answer; without a route it is lost. -/
def sendAnswer (s : State) (x : Slot) : State := (sendSide s x.dest.toNat [x]).getD s

/-- A digest mismatch ends the operation and tells every member (R330); the slot's CELL names the piece's sender. -/
def collMismatch (s : State) (m sender chunk piece : Nat) : State :=
  let c := collOf (getDot s m)
  let s1 := failOp (countUp s Reg.lkCountDigestFail Reg.lkCountOvf 5 1) m (.digest sender chunk piece)
  (peers s c).foldl (fun st d => sendAnswer st (mkSlot st 7 d sender (2 ^ 32 * chunk + 65536 * piece) c.tag 0 0 [] false false)) s1

/-- Chunk, piece and granule of a collective slot (Table 13-2). -/
def slotChunk (x : Slot) : Nat := bits x.offset.toNat 47 32
def slotPiece (x : Slot) : Nat := bits x.offset.toNat 31 16
def slotGranule (x : Slot) : Nat := bits x.offset.toNat 15 0

/-- A piece whose data comes for a TAG this device has not started: its digest is refused, started or not by then. -/
def noteEarly (s : State) (x : Slot) : State :=
  let k := (x.src.toNat, x.tag, slotChunk x, slotPiece x)
  if s.links.held.contains x.tag || s.links.early.contains k then s
  else { s with links := { s.links with early := s.links.early ++ [k] } }

/-- A COLL_DATA granule lands in SCRATCH. One of a piece already held is discarded; one of a piece that is not expected
lands nowhere. -/
def collData (s : State) (x : Slot) : State :=
  match findColl s x.tag with
  | none => noteEarly s x
  | some m =>
    let e := getDot s m
    let c := collOf e
    let sender := x.src.toNat
    let g := slotGranule x
    let known := (expected s e c).any fun y => decide (y.1 = sender ∧ y.2.1 = slotChunk x) && decide (slotPiece x < y.2.2)
    if !known || havePiece c sender (slotChunk x) (slotPiece x) then s
    else
      let l := landing s e c sender (slotChunk x)
      let same := fun (p : CollPiece) => decide (p.sender = sender ∧ p.chunk = slotChunk x ∧ p.piece = slotPiece x)
      let old := ((c.pieces.find? same).map (·.data)).getD []
      let p : CollPiece := { phase := l.2, sender := sender, chunk := slotChunk x, piece := slotPiece x,
                             data := old.take (256 * g) ++ x.data, whole := false }
      setColl (physWrite s (c.scratch + l.1 + pieceBytes * slotPiece x + 256 * g) x.data) m
        fun c => { c with pieces := c.pieces.filter (fun p => !same p) ++ [p] }

/-- A COLL_DIGEST slot: compare, acknowledge and log, or fail. A piece that came for a TAG not started is refused NOT_READY; one
of a collective completed here is held, and acknowledged again. -/
def collDigest (s0 : State) (x : Slot) : State :=
  let sender := x.src.toNat
  let ch := slotChunk x
  let pc := slotPiece x
  let back := fun (st : State) (ty cell : Nat) => sendAnswer st (mkSlot st ty sender cell x.offset.toNat x.tag 0 0 [] false false)
  let early := s0.links.early.contains (sender, x.tag, ch, pc)
  let s := { s0 with links := { s0.links with early := s0.links.early.filter fun k => decide (k ≠ (sender, x.tag, ch, pc)) } }
  match findColl s x.tag with
  | none => if s.links.held.contains x.tag then back s 6 0 else back s 8 3
  | some m =>
    let c := collOf (getDot s m)
    if early && !havePiece c sender ch pc then back s 8 3
    else if havePiece c sender ch pc then back s 6 0
    else
      let same := fun (p : CollPiece) => decide (p.sender = sender ∧ p.chunk = ch ∧ p.piece = pc)
      match c.pieces.find? same with
      | none => collMismatch s m sender ch pc
      | some p =>
        let d := pieceDigest c.seed.toNat c.tag.toNat p.phase sender ch pc p.data
        if x.data.take 16 = d then
          let s1 := setColl s m fun c => { c with pieces := c.pieces.map fun p => if same p then { p with whole := true } else p }
          trySum (logDigest (back s1 6 0) m d sender ch pc) m
        else collMismatch s m sender ch pc

/-- Pick a sent piece. -/
def sentIs (dest chunk piece : Nat) (p : CollSent) : Bool := decide (p.dest = dest ∧ p.chunk = chunk ∧ p.piece = piece)

/-- A COLL_ACK slot. -/
def collAck (s : State) (x : Slot) : State :=
  match findColl s x.tag with
  | none => s
  | some m => setColl s m fun c => { c with unacked := c.unacked.filter fun p => !sentIs x.src.toNat (slotChunk x) (slotPiece x) p }

/-- A COLL_FAIL slot (R330). -/
def collFailIn (s : State) (x : Slot) : State :=
  match findColl s x.tag with
  | none => s
  | some m => failOp s m (.digest x.cell.toNat (slotChunk x) (slotPiece x))

/-- A REFUSE with reason NOT_READY: the piece is tried again 2 µs later. -/
def collRefused (s : State) (x : Slot) : State :=
  match findColl s x.tag with
  | none => s
  | some m =>
    let f := fun (p : CollSent) =>
      if sentIs x.src.toNat (slotChunk x) (slotPiece x) p then { p with refused := true, sentAt := s.tk } else p
    setColl s m fun c => { c with unacked := c.unacked.map f }

/-- Send again the unacknowledged pieces `p` selects. -/
def resend (s : State) (m : Nat) (p : CollSent → Bool) : State :=
  let c := collOf (getDot s m)
  let r := c.unacked.foldl (fun (a : State × List CollSent) x =>
    if p x then
      let q := sendPiece a.1 c x
      (q.1, a.2 ++ [q.2])
    else (a.1, a.2 ++ [x])) (s, [])
  setColl r.1 m fun c => { c with unacked := r.2 }

/-! ## Completion -/

/-- Bytes an operation delivers to its destination (Table 13-6). -/
def collOut (s : State) (e : DotEntry) (c : Coll) : Nat :=
  match c.op with
  | 0 => e.len
  | 1 => numMembers c * e.len
  | 2 => chunkLen e.len (numMembers c) (ownPos s c)
  | _ => e.len

/-- Every piece has arrived and passed, this member's have been acknowledged and its sum formed. -/
def collComplete (s : State) (e : DotEntry) (c : Coll) : Bool :=
  c.begun && c.unacked.isEmpty && (expected s e c).all (haveAll c) && (c.summed || decide (c.op = 1 ∨ c.op = 3))

/-- The pieces of a completed collective's TAG stay held. -/
def holdPieces (s : State) (tag : Word) : State :=
  { s with links := { s.links with held := tag :: s.links.held.filter fun t => decide (t ≠ tag) } }

/-- A collective completes: SCRATCH is copied to the destination whole or not at all (R328). -/
def collDone (s : State) (m : Nat) : State :=
  let e := getDot s m
  let c := collOf e
  if e.state ≠ .active ∨ e.kind ≠ kColl ∨ e.waitStart = true then s
  else if !c.begun then collBegin s m
  else if !collComplete s e c then s
  else
    let n := collOut s e c
    let e2 := { e with src := c.scratch, srcSp := false, len := n, compress := false }
    let denied := if e.dstSp then decide (scratchBytes < e.dst + n)
      else decide (rowOf s e.dst n = .none ∨ rowOf s e.dst n = .peer) || guarded s e.dst n
    if denied then failOp s m .denied
    else
      match badIn s c.scratch n with
      | some w => failOp s m (.ue w)
      | none =>
        let v := moveUnits e2 (fun _ => true) (n / 256) 0 s
        leaveActive (holdPieces (setDot v.1 m { getDot v.1 m with bytesDone := n }) c.tag) m .done 0

/-- RPUT (R115, R323): ALIGNMENT and ADDRESS of both ends; the own window is refused at the source. -/
def rputEff (s : State) (w : FmtT) (c : Core) : Res :=
  let off := (readS c w.a).toNat
  let a := (readS c w.b).toNat
  let n := lineCount w
  let d := (a - peerBase) / peerBytes
  if off % 256 ≠ 0 ∨ a % 256 ≠ 0 then .flt fAlignment
  else if scratchBytes < off + 256 * n ∨ rowOf s a (256 * n) ≠ .peer ∨ d = ownId s ∨
      peerBytes < (a - peerBase) % peerBytes + 256 * n then .flt fAddress
  else
    let lines := chunks 256 n (readBytes c.scratch off (256 * n))
    .done (sendRput (markLinks s) d ((a - peerBase) % peerBytes) ((readS c w.c).toNat % 32768) lines)

def execRput (k : Nat) (w : FmtT) (s : State) : Host.Outcome State Fault Refusal :=
  issueT k w s infoRput fun c => rputEff s w c
def execColl (k : Nat) (w : FmtT) (s : State) : Host.Outcome State Fault Refusal :=
  issueT k w s infoLongOp fun c => longStart s k w c (fun _ => kColl) (fun _ => true) (fun _ => none) false collStart
def execCollectiveDone (t m : Nat) (s : State) : Host.Outcome State Fault Refusal :=
  presentUnit s t m numDot fun s => collDone s m

/-- PIECE_RESEND (R329): 50 µs after the piece was sent. -/
def execPieceResend (t m dest chunk piece : Nat) (s : State) : Host.Outcome State Fault Refusal :=
  presentUnit s t m numDot fun s =>
    if (getDot s m).state = .active then resend s m fun p => sentIs dest chunk piece p && decide (p.sentAt + 5000 ≤ s.tk) else s

/-- NOT_READY_RETRY (R329): 2 µs after the refusal. -/
def execNotReadyRetry (t m dest chunk piece : Nat) (s : State) : Host.Outcome State Fault Refusal :=
  presentUnit s t m numDot fun s =>
    if (getDot s m).state = .active then
      resend s m fun p => sentIs dest chunk piece p && p.refused && decide (p.sentAt + 200 ≤ s.tk)
    else s

/-- ROUTE_RETRY (R322): a read or the pieces of a collective that wait for a route are tried again, 10 µs after the last try. -/
def execRouteRetry (t m : Nat) (s : State) : Host.Outcome State Fault Refusal :=
  presentUnit s t m numDot fun s =>
    let e := getDot s m
    if e.state ≠ .active then s
    else if e.kind = kColl then resend s m fun p => p.waiting && decide (p.sentAt + 1000 ≤ s.tk)
    else if !e.waitRoute || decide (s.tk < e.routeTried + 1000) then s
    else if e.kind = kImport then importSend s m e.readTag
    else
      match sendReads s ((e.src - peerBase) / peerBytes) ((e.src - peerBase) % peerBytes) e.len e.readTag (readRequests e.len) with
      | some s1 => setDot s1 m { getDot s1 m with waitRoute := false }
      | none => setDot s m { e with routeTried := s.tk }

end Sys2Proof.Machine
end

