-- ==== Sys2Proof/Machine/Order.lean ====
section
/-! DEFINITION. Which commands are events of Table 3-3, and the order in which the dispatcher presents those of one tick (R50,
R53, R85). The queue holds commands in the order they are presented (notes/assumptions/1.md). -/
namespace Sys2Proof.Machine

/-- An event's place in the presentation: its tick, its class and its source index (Table 3-3). -/
structure EventPlace where
  tick   : Nat
  cls    : Nat
  source : Nat
deriving DecidableEq, Repr

/-- A port's events: port M's are class 2, a peer port's class 5 (R319). -/
def portPlace (t p : Nat) (partner : Bool) : EventPlace :=
  if p = 16 then { tick := t, cls := 2, source := if partner then 3 else 2 } else { tick := t, cls := 5, source := p }

/-- A completion or failure of operation `m`: class 5 for one that peer ports carry, else class 4 (R85). Which source index it
has, a tier's or its core's cluster, is read from the example of R53 and Table 3-3 (notes/assumptions/143.md). -/
def donePlace (s : State) (t m : Nat) : EventPlace :=
  let e := getDot s m
  if e.kind = kColl ∨ e.kind = kImport then { tick := t, cls := 5, source := 0 }
  else if e.kind = kTier then
    { tick := t, cls := 4, source := if decide (hostBase ≤ e.src ∧ e.src < peerBase) || decide (hostBase ≤ e.dst ∧ e.dst < peerBase) then 45 else 44 }
  else { tick := t, cls := 4, source := clusterOf e.core }

/-- The place of a command that is an event of Table 3-3; none for an instruction of a core, and for what reaches the device
outside that table. -/
def eventOf (s : State) (i : Instr) : Option EventPlace :=
  match i with
  | .inputBelow44v t | .inputLowPersists t | .inputBelow40v t => some ⟨t, 0, 0⟩
  | .inputAbove58v t => some ⟨t, 0, 1⟩
  | .powerSample t _ => some ⟨t, 0, 2⟩
  | .junctionLimit t | .junction110c t => some ⟨t, 0, 3⟩
  | .hbmAbove105c t _ => some ⟨t, 0, 4⟩
  | .coolantAlarm t | .coolantAlarmPersists t => some ⟨t, 0, 5⟩
  | .emergencyEnd t n => some ⟨t, 0, n⟩
  | .quarterLoss t q => some ⟨t, 1, q⟩
  | .stackLost t k => some ⟨t, 1, 4 + k⟩
  | .kolwinDetectedFault t | .selfCheck t _ => some ⟨t, 1, 16⟩
  | .heartbeatSilence t => some ⟨t, 2, 0⟩
  | .ackDeadlineMissed t => some ⟨t, 2, 1⟩
  | .pairPresentChange t _ => some ⟨t, 2, 2⟩
  | .linkFrame t p _ => some (portPlace t p true)
  | .trainingComplete t p _ _ _ | .trainingTimeout t p | .retrainingComplete t p _ | .retrainingTimeout t p | .downTimeout t p
  | .laneLockLost t p _ | .laneErrorRate t p _ | .replayTimeout t p => some (portPlace t p false)
  | .identity t c | .attest t c | .regRead t c | .profileSelect t c | .profileWrite t c | .modeCmd t c | .pairCmd t c
  | .fwStage t c | .commitSv t c | .resetCmd t c | .powerState t c | .repairSupply t c | .alertAck t c =>
    some ⟨t, 3, if c.board then 0 else 1⟩
  | .dmaDone t m | .tierDone t m | .nearBankDone t m | .collectiveDone t m | .kvImportDone t m | .flushDone t m
  | .invalidateDone t m | .operationFailed t m _ => some (donePlace s t m)
  | .nearBankCommandFinish t m _ => some (donePlace s t m)
  | .uncorrectableWord t ⟨a, _, _⟩ | .correctedWordWriteBack t ⟨a, _⟩ => some ⟨t, 4, 32 + (interleave a).stack⟩
  | .refresh t pc => some ⟨t, 4, 32 + pc / 32⟩
  | .hbmTemperature t k _ => some ⟨t, 4, 32 + k⟩
  | .periodicRetrain t ch | .errorTriggeredRetrain t ch | .retrainWindowEnd t ch _ => some ⟨t, 4, 32 + ch / 16⟩
  | .knownAnswerTestDue t k | .knownAnswerTestEnd t k _ => some ⟨t, 4, clusterOf k⟩
  | .initEnd t _ | .spill t _ _ _ _ | .restore t _ _ _ _ => some ⟨t, 4, 44⟩
  | .submissionDoorbell t q _ => some ⟨t, 6, q⟩
  | .heartbeatSend t => some ⟨t, 7, 0⟩
  | .tierWaitLimit t => some ⟨t, 7, 1⟩
  | .stepWatchdog t => some ⟨t, 7, 2⟩
  | .syncCellDeadline t n => some ⟨t, 7, 16 + n⟩
  | .operationDeadline t m => some ⟨t, 7, 32784 + m⟩
  | _ => none

/-- One event is presented before another: an earlier tick first; of one tick, a lower class; of one class, a lower source (R50). -/
def presentedBefore (a b : EventPlace) : Bool :=
  decide (a.tick < b.tick) || (decide (a.tick = b.tick) &&
    (decide (a.cls < b.cls) || (decide (a.cls = b.cls) && decide (a.source ≤ b.source))))

/-- The waiting commands stand in the dispatcher's order: no event behind one that it precedes (R50). -/
def queueInOrder (s : State) : List Instr → Bool
  | [] => true
  | i :: rest => (match eventOf s i with
      | none => true
      | some a => (rest.filterMap (eventOf s)).all (presentedBefore a)) && queueInOrder s rest

/-- A completion or failure of operation `m` has been sampled in the tick now presented: it is of a lower class than the
operation's deadline, so the deadline does not act (R53). -/
def endsNow (s : State) (m : Nat) : Bool :=
  s.pending.any fun i =>
    match i with
    | .dmaDone t n | .tierDone t n | .nearBankDone t n | .collectiveDone t n | .kvImportDone t n | .flushDone t n
    | .invalidateDone t n | .operationFailed t n _ => decide (n = m ∧ t = s.tk)
    | _ => false

/-- The same for a request's restore or adapter wait. -/
def reqEndsNow (s : State) (rc : Nat) : Bool :=
  s.pending.any fun i =>
    match i with
    | .restore t n _ _ _ => decide (n = rc ∧ t = s.tk)
    | .adapterCopyEnd t v _ => decide (t = s.tk ∧ v = rcAdapter s rc)
    | _ => false

end Sys2Proof.Machine
end

