-- ==== Sys2Proof/Machine/Matrix.lean ====
section
/-! DEFINITION. Class 0x3, the matrix instructions (Tables 5-8, 5-9, R101 to R104) and the arithmetic of the
accumulators (R126, R127, R133 to R141). -/
namespace Sys2Proof.Machine

/-! ## Accumulators -/

def accDefault (_ : Nat) : Acc := {}
def elemDefault (_ : Nat) : Word32 := 0
def limbDefault (_ : Nat) : Int := 0

def getAcc (c : Core) (i : Nat) : Acc := smGet accDefault c.acc i
def setAcc (c : Core) (i : Nat) (a : Acc) : Core := { c with acc := smSet accDefault c.acc i a }

/-- The exact tile an acc field names while accw is formed (R103). -/
def exactTile (c : Core) (i : Nat) : Option AccW := if i < 3 then c.accw else none

/-- Default accumulation in force (Table 4-4 ACCMODE, Table 16-13). -/
def accumDefault (s : State) : Nat := bits (regGet s 0xA0010).toNat 13 12

/-- Replace elements 0 to 128 m − 1 of a tile. -/
def setRows {α : Type} [DecidableEq α] (d : α) (m : Nat) (f : Nat → α) (old : List (Nat × α)) : List (Nat × α) :=
  ((List.range (128 * m)).filterMap fun i => if f i = d then none else some (i, f i)) ++
    old.filter fun e => decide (128 * m ≤ e.1)

/-! ## Rows in scratchpad (R101, R127) -/

/-- The fault of `n` rows of `len` bytes at a base and stride: ALIGNMENT, then ADDRESS (R127). -/
def rowsFault (base stride len n : Nat) : Option Nat :=
  if base % 64 ≠ 0 ∨ stride % 64 ≠ 0 ∨ stride < len then some fAlignment
  else if scratchBytes < base + (n - 1) * stride + len then some fAddress
  else none

/-- Bytes of one row of 128 packed elements. -/
def packedRow (f : Nat) : Nat := 16 * fmtBits f

/-- Bytes of an MMA activation row (Table 6-2): FP4 rows carry their scales. -/
def mmaRow (f : Nat) : Nat := if f = 1 then 128 else packedRow f

/-- Element `i` of a row at `base` (R125). -/
def rowElem (m : List Host.Cell) (base f i : Nat) : Nat :=
  if fmtBits f = 4 then bits (readByte m (base + i / 2)).toNat (4 * (i % 2) + 3) (4 * (i % 2))
  else readNat m (base + i * (fmtBits f / 8)) (fmtBits f / 8)

/-! ## WLD -/

/-- WLD (R101). -/
def wldEff (s : State) (k : Nat) (w : FmtT) (c : Core) : Res :=
  let f := mFmt w
  let base := (readS c w.a).toNat
  let stride := (readS c w.b).toNat
  let sc := (readS c w.c).toNat
  if f = 1 ∧ sc % 64 ≠ 0 then .flt fAlignment
  else
    match rowsFault base stride (packedRow f) 128 with
    | some code => .flt code
    | none =>
      if f = 1 ∧ scratchBytes < sc + 512 then .flt fAddress
      else
        let half : WHalf :=
          { fmt := f
            elems := setRows (0 : Half) 128
              (fun i => BitVec.ofNat 16 (rowElem c.scratch (base + i / 128 * stride) f (i % 128))) []
            scales := if f = 1 then
                setRows (0 : Byte) 4 (fun i => readByte c.scratch (sc + i)) []
              else [] }
        regOp s k fun c => { c with wbuf := smSet (fun _ => ({} : WHalf)) c.wbuf (modBits w 28 28) half }

/-! ## MMA -/

/-- The pairings of FORMATS_RATES (Table 2-11): whether a record exists, and whether it carries EXACT. -/
def pairRecord (a b : Nat) : Option Bool :=
  match a, b with
  | 1, 1 => some true
  | 1, 2 => some true
  | 1, 3 => some false
  | 4, 5 => some true
  | 2, 2 => some true
  | 2, 3 => some false
  | 3, 3 => some false
  | 5, 5 => some true
  | 6, 6 => some false
  | 7, 7 => some false
  | _, _ => none

/-- One operand of a product: element, its block scale and whether the format is an integer's. -/
def scaled (f elem scale : Nat) : FVal := if f = 1 then mulF (decodeF f elem) (scaleVal scale) else decodeF f elem

/-- One product. A zero of integer operands has no sign: it stands as −0, which never decides the sign of a sum. -/
def product (fa fb : Nat) (x y : FVal) : FVal :=
  let p := mulF x y
  if (floatFmt fa).isNone ∧ (floatFmt fb).isNone ∧ isZero p then .fin true 0 0 else p

/-- The 128 products of element (r, n): activation row at `row`, weights of a half (R134). -/
def mmaTerms (c : Core) (h : WHalf) (fx row n : Nat) : List FVal :=
  (List.range 128).map fun i =>
    let x := scaled fx (rowElem c.scratch row fx i) (readByte c.scratch (row + 64 + i / 32)).toNat
    let y := scaled h.fmt (smGet (fun _ => (0 : Half)) h.elems (128 * i + n)).toNat
      (smGet (fun _ => (0 : Byte)) h.scales (4 * n + i / 32)).toNat
    product fx h.fmt x y

/-- A scale of 0xFF takes part in a product of element (r, n). -/
def mmaScaleNan (c : Core) (h : WHalf) (fx row n : Nat) : Bool :=
  (List.range 4).any fun g =>
    (decide (fx = 1) && decide ((readByte c.scratch (row + 64 + g)).toNat = 0xFF)) ||
    (decide (h.fmt = 1) && decide ((smGet (fun _ => (0 : Byte)) h.scales (4 * n + g)).toNat = 0xFF))

/-- Random bits R of an accumulator's element (Table 6-5). -/
def accRandom (seed tile : Word) (kstep i c3 : Nat) : Nat :=
  keyedWord seed.toNat tile.toNat ((kstep * 2 ^ 14 + i) % 2 ^ 32) c3 / 256

/-- How an FP32 accumulator rounds element `i` at a k-step. -/
def accRound (a : Acc) (kstep i c3 : Nat) : RMode :=
  if a.mode = .stochastic then .stoch (accRandom a.seed a.tile kstep i c3) else .nearest

/-- Accumulated flags of FP32 element bits (Table 6-7). -/
def elemFlags (v : Nat) : TileFlags :=
  match decodeF 8 v with
  | .nan => { nan := true }
  | .inf _ => { inf := true }
  | .fin _ _ _ => {}

/-- An MMA on an FP32 accumulator (R134, R135). -/
def mmaFp32 (c : Core) (a : Acc) (h : WHalf) (fx base stride m kstep : Nat) : Acc :=
  let new := fun i =>
    let row := base + i / 128 * stride
    let cur := decodeF 8 (smGet elemDefault a.elems i).toNat
    (roundTo 8 (accRound a kstep i 3) (windowSum (mmaTerms c h fx row (i % 128) ++ [cur]))).bits
  let fl := (List.range (128 * m)).foldl (fun f i =>
    orFlags f (orFlags (elemFlags (new i)) { scaleNan := mmaScaleNan c h fx (base + i / 128 * stride) (i % 128) }))
    (flagsOf a.flags)
  { a with elems := setRows (0 : Word32) m (fun i => BitVec.ofNat 32 (new i)) a.elems, flags := flagWord a.mode fl }

/-- A value in units of 2^B, truncated toward zero, and whether bits were lost (R137). -/
def unitsOf (b : Int) (v : FVal) : Int × Bool :=
  match v with
  | .fin s m e =>
    if b ≤ e then (inUnits s m e b, false)
    else
      let sh := (b - e).toNat
      let n : Int := (m / 2 ^ sh : Nat)
      (if s then -n else n, decide (m % 2 ^ sh ≠ 0))
  | _ => (0, false)

/-- A sum clamped to 96 bits, and whether it was (R137). -/
def clamp96 (x : Int) : Int × Bool :=
  if x < -(2 ^ 95) then (-(2 ^ 95), true) else if 2 ^ 95 - 1 < x then (2 ^ 95 - 1, true) else (x, false)

/-- An element of accw: its integer, its marker and the window flags raised. -/
structure WideElem where
  val  : Int
  nan  : Bool
  high : Bool
  low  : Bool
deriving DecidableEq, Repr

/-- Add one value to an element of accw (R137); an infinite or NaN value sets the marker. A value added to a marked element still
raises WINDOW_LOW and WINDOW_HIGH: the model's choice (notes/assumptions/129.md). -/
def wideAdd (b : Int) (x : WideElem) (v : FVal) : WideElem :=
  match v with
  | .fin _ _ _ =>
    let u := unitsOf b v
    let t := clamp96 (x.val + u.1)
    { val := t.1, nan := x.nan, high := x.high || t.2, low := x.low || u.2 }
  | _ => { x with nan := true }

/-- Put rows of wide elements into accw. -/
def wideRows (a : AccW) (m : Nat) (scaleNan : Bool) (f : Nat → WideElem) : AccW :=
  let fl := (List.range (128 * m)).foldl (fun t i =>
    orFlags t { nan := (f i).nan, windowHigh := (f i).high, windowLow := (f i).low }) (flagsOf a.flags)
  { a with
    elems := setRows (0 : Int) m (fun i => if (f i).nan then 0 else (f i).val) a.elems
    nans := setRows false m (fun i => (f i).nan) a.nans
    flags := flagWord .exact { fl with scaleNan := fl.scaleNan || scaleNan } }

/-- An element of accw as it stands. -/
def wideOf (a : AccW) (i : Nat) : WideElem := ⟨smGet limbDefault a.elems i, smGet boolDefault a.nans i, false, false⟩

/-- An MMA on accw (R137). -/
def mmaExact (c : Core) (a : AccW) (h : WHalf) (fx base stride m : Nat) : AccW :=
  wideRows a m
    ((List.range (128 * m)).any fun i => mmaScaleNan c h fx (base + i / 128 * stride) (i % 128))
    fun i => (mmaTerms c h fx (base + i / 128 * stride) (i % 128)).foldl (wideAdd a.base) (wideOf a i)

/-- MMA (R102): FEATURE before any row is read. -/
def mmaEff (s : State) (k : Nat) (w : FmtT) (c : Core) : Res :=
  let fx := mFmt w
  let h := smGet (fun _ => ({} : WHalf)) c.wbuf (modBits w 28 28)
  let m := bits w.imm.toNat 6 0 + 1
  let kstep := bits w.imm.toNat 15 7
  let base := (readS c w.a).toNat
  let stride := (readS c w.b).toNat
  match pairRecord h.fmt fx, exactTile c w.d.toNat with
  | none, _ => .flt fFeature
  | some false, some _ => .flt fFeature
  | some true, some a =>
    match rowsFault base stride (mmaRow fx) m with
    | some code => .flt code
    | none => regOp s k fun c => { c with accw := some (mmaExact c a h fx base stride m) }
  | some _, none =>
    match rowsFault base stride (mmaRow fx) m with
    | some code => .flt code
    | none => regOp s k fun c => setAcc c w.d.toNat (mmaFp32 c (getAcc c w.d.toNat) h fx base stride m kstep)

/-! ## APRE, ACFG, ACLR -/

/-- A source element of APRE: the value for column n of source row at `row`; into accw with FMT FP32 the exact sum of
six limbs (R139). -/
def apreVal (c : Core) (f : Nat) (wide : Bool) (row n : Nat) : FVal :=
  if f = 6 then decodeF 6 (readNat c.scratch (row + 2 * n) 2)
  else if wide then
    ((List.range 6).map fun j => decodeF 8 (readNat c.scratch (row + 512 * j + 4 * n) 4)).foldl addF (.fin false 0 0)
  else decodeF 8 (readNat c.scratch (row + 4 * n) 4)

/-- APRE (R139). -/
def apreEff (s : State) (k : Nat) (w : FmtT) (c : Core) : Res :=
  let f := mFmt w
  let m := bits w.imm.toNat 6 0 + 1
  let residual := decide (modBits w 28 28 = 1)
  let base := (readS c w.a).toNat
  let stride := (readS c w.b).toNat
  let i0 := w.d.toNat
  let wide := (exactTile c i0).isSome
  let len := if f = 6 then 256 else if wide then 3072 else 512
  match rowsFault base stride len (if residual then m else 1) with
  | some code => .flt code
  | none =>
    let src := fun i => apreVal c f wide (base + (if residual then i / 128 * stride else 0)) (i % 128)
    regOp s k fun c =>
      match exactTile c i0 with
      | some a => { c with accw := some (wideRows a m false fun i =>
          wideAdd a.base ⟨0, smGet boolDefault a.nans i, false, false⟩ (src i)) }
      | none =>
        let a := getAcc c i0
        let fl := (List.range (128 * m)).foldl (fun t i => orFlags t (elemFlags (encodeF 8 (src i)))) (flagsOf a.flags)
        setAcc c i0 { a with
          elems := setRows (0 : Word32) m (fun i => BitVec.ofNat 32 (encodeF 8 (src i))) a.elems
          flags := flagWord a.mode fl }

/-- The rounding mode of a code: 3 is the default in force (Table 5-8, R103). -/
def modeOf (n : Nat) : AccMode := if n = 0 then .nearest else if n = 1 then .stochastic else .exact

/-- ACFG (R103, R136). Where it dissolves accw, the accumulators it does not name keep the seed and tile they had before accw was
formed: the model's choice (notes/assumptions/125.md). -/
def acfgEff (s : State) (k : Nat) (w : FmtT) (c : Core) : Res :=
  let sel := modBits w 29 28
  let md := modeOf (if sel = 3 then accumDefault s else sel)
  let seed := readS c w.a
  let tile := readS c w.b
  let i := w.d.toNat
  if md = .exact then
    let b := (seed.extractLsb' 0 9).toInt
    if i = 3 ∨ b < -149 ∨ 31 < b then .flt fFeature
    else regOp s k fun c =>
      let zero := fun (c : Core) j => setAcc c j { getAcc c j with mode := .exact, elems := [], flags := 0 }
      { (zero (zero (zero c 0) 1) 2) with
        accw := some { base := b, seed := seed, tile := tile, flags := flagWord .exact {} } }
  else regOp s k fun c =>
    let zero := fun (c : Core) j => setAcc c j { getAcc c j with mode := md, elems := [], flags := flagWord md {} }
    let c1 := if i < 3 ∧ c.accw.isSome then { (zero (zero (zero c 0) 1) 2) with accw := none } else zero c i
    setAcc c1 i { getAcc c1 i with seed := seed, tile := tile }

/-- Zero an accumulator, keeping its mode and key (Table 5-9 ACLR, AST CLEAR). -/
def accZero (c : Core) (i : Nat) : Core :=
  match exactTile c i with
  | some a => { c with accw := some { a with elems := [], nans := [], flags := flagWord .exact {} } }
  | none => setAcc c i { getAcc c i with elems := [], flags := flagWord (getAcc c i).mode {} }

/-! ## AST, ARD -/

/-- Element `i` as AST rounds it (R104, R140). -/
def astElem (c : Core) (i0 f i : Nat) : Rounded :=
  match exactTile c i0 with
  | some a =>
    if smGet boolDefault a.nans i then { bits := nanBits f }
    else roundTo f .nearest (finOfInt false (smGet limbDefault a.elems i) a.base)
  | none =>
    let a := getAcc c i0
    roundTo f (accRound a 0x1FF i 4) (decodeF 8 (smGet elemDefault a.elems i).toNat)

/-- The flag word AST returns: accumulated flags as they stood, store flags of the rows written (R141). -/
def astFlags (c : Core) (i0 f m : Nat) : Word :=
  let acc := match exactTile c i0 with
    | some a => flagsOf a.flags
    | none => flagsOf (getAcc c i0).flags
  let md := match exactTile c i0 with
    | some _ => AccMode.exact
    | none => (getAcc c i0).mode
  flagWord md ((List.range (128 * m)).foldl (fun t i =>
    let r := astElem c i0 f i
    { t with overflow := t.overflow || r.ovfl, underflow := t.underflow || r.under, inexact := t.inexact || r.inex })
    { acc with overflow := false, underflow := false, inexact := false })

/-- AST (R104, R140, R141). -/
def astEff (s : State) (k : Nat) (w : FmtT) (c : Core) : Res :=
  let f := mFmt w
  let m := bits w.imm.toNat 6 0 + 1
  let base := (readS c w.a).toNat
  let stride := (readS c w.b).toNat
  let i0 := w.c.toNat
  match rowsFault base stride (packedRow f) m with
  | some code => .flt code
  | none =>
    let stored := (List.range m).foldl (fun mem r =>
      writeBytes mem (base + r * stride)
        ((List.range 128).flatMap fun n => natBytes (fmtBits f / 8) (astElem c i0 f (128 * r + n)).bits)) c.scratch
    let c1 := writeS { c with scratch := stored } w.d (astFlags c i0 f m)
    regOp s k fun _ => if modBits w 28 28 = 1 then accZero c1 i0 else c1

/-- Limb j of an element of accw, as FP32 bits (R138). -/
def limbBits (a : AccW) (i j : Nat) : Nat :=
  if 6 ≤ j then 0
  else if smGet boolDefault a.nans i then 0x7FC00000
  else
    let u := ((smGet limbDefault a.elems i) % 2 ^ 96).toNat
    let d : Nat := bits u (16 * j + 15) (16 * j)
    let v : Int := if j = 5 ∧ 2 ^ 15 ≤ d then (d : Int) - 2 ^ 16 else d
    encodeF 8 (finOfInt false v (a.base + 16 * j))

/-- ARD (R104, R138): lane i is column 64 SEG + i of row sA[6:0]. -/
def ardEff (s : State) (k : Nat) (w : FmtT) (c : Core) : Res :=
  let sel := (readS c w.a).toNat
  let at_ := fun n => 128 * (sel % 128) + 64 * mSeg w + n
  regOp s k fun c =>
    writeV c w.d (packLanes 8 ((List.range 64).map fun n =>
      match exactTile c w.c.toNat with
      | some a => limbBits a (at_ n) (bits sel 10 8)
      | none => (smGet elemDefault (getAcc c w.c.toNat).elems (at_ n)).toNat))

/-! ## The instructions -/

def execWld (k : Nat) (w : FmtT) (s : State) : Host.Outcome State Fault Refusal :=
  issueT k w s infoWld fun c => wldEff s k w c
def execMma (k : Nat) (w : FmtT) (s : State) : Host.Outcome State Fault Refusal :=
  issueT k w s infoMma fun c => mmaEff s k w c
def execApre (k : Nat) (w : FmtT) (s : State) : Host.Outcome State Fault Refusal :=
  issueT k w s infoApre fun c => apreEff s k w c
def execAcfg (k : Nat) (w : FmtT) (s : State) : Host.Outcome State Fault Refusal :=
  issueT k w s infoAcfg fun c => acfgEff s k w c
def execAst (k : Nat) (w : FmtT) (s : State) : Host.Outcome State Fault Refusal :=
  issueT k w s infoAst fun c => astEff s k w c
def execAclr (k : Nat) (w : FmtT) (s : State) : Host.Outcome State Fault Refusal :=
  issueT k w s infoAclr fun _ => regOp s k fun c => accZero c w.d.toNat
def execArd (k : Nat) (w : FmtT) (s : State) : Host.Outcome State Fault Refusal :=
  issueT k w s infoArd fun c => ardEff s k w c

end Sys2Proof.Machine
end

