-- ==== Sys2Proof/Machine/Rate.lean ====
section
/-! DEFINITION. The part's speed: completion rates from its own corner table (R35, R42) and the rate factor of a core
(R43), in unsigned fixed point with 16 fraction bits. -/
namespace Sys2Proof.Machine

/-- Grid voltages in mV and junction temperatures in °C (R35). -/
def gridVolts : List Nat := [600, 700, 750, 800, 850]
def gridTemps : List Nat := [10, 25, 60, 85, 100, 110]

/-- The grid segment a value lies in and how far into it, outside values taken at the nearest edge (R42): index,
distance from the lower point and the segment's length. -/
def segment (g : List Nat) (x : Nat) : Nat × Nat × Nat :=
  let y := min (max x (g.getD 0 0)) (g.getLastD 0)
  let i := ((List.range (g.length - 1)).find? fun j => decide (y ≤ g.getD (j + 1) 0)).getD 0
  (i, y - g.getD i 0, g.getD (i + 1) 0 - g.getD i 0)

/-- Completion rate at a corner times the two segment lengths, and their product: linear interpolation in voltage and
in temperature (R35). -/
def rateRatio (mv temp : Nat) : Nat × Nat :=
  let v := segment gridVolts mv
  let t := segment gridTemps temp
  let at2 := fun i => Config.cornerRate i t.1 * (t.2.2 - t.2.1) + Config.cornerRate i (t.1 + 1) * t.2.1
  (at2 v.1 * (v.2.2 - v.2.1) + at2 (v.1 + 1) * v.2.1, v.2.2 * t.2.2)

/-- The rate factor at a corner: the rate there over the rate at 750 mV and 60 °C, 16 fraction bits. An inexact quotient
takes one of its two neighbours. -/
def rateFactor (mv temp : Nat) : Nat :=
  let r := rateRatio mv temp
  let num := 65536 * r.1
  let den := r.2 * Config.cornerRate 2 2
  if num % den = 0 then num / den else num / den + Config.ratePick num den % 2

/-- The rate factor of a physical core from its rail's telemetry (R43, Table 16-14). -/
def coreRate (s : State) (k : Nat) : Nat :=
  rateFactor (fld s (Reg.pwRailMeasured (railOf k))) (fld s (Reg.pwRailHottest (railOf k)))

end Sys2Proof.Machine
end

