-- ==== Sys2Proof/Machine/Sync.lean ====
section
/-! DEFINITION. Class 0xA, sync, device operation table and system reads (Table 5-20, R75 to R86, R121), but for DOTCAN,
which stops an operation (Stop.lean). -/
namespace Sys2Proof.Machine

/-- The cell index of a sync instruction; a nonzero sA[63:15] raises ADDRESS. -/
def cellIndex (c : Core) (w : FmtT) : Option Nat :=
  let n := (readS c w.a).toNat
  if n < numCells then some n else none

/-- Run an effect on the cell named: ADDRESS first, SYNC_HELD for a held cell where `held` forbids it (R80), then
SYNC_CONFIG for an UNCONFIGURED cell where `conf` needs one configured (R76). -/
def withCell (s : State) (c : Core) (w : FmtT) (held conf : Bool) (f : Nat → SyncCell → Res) : Res :=
  match cellIndex c w with
  | none => .flt fAddress
  | some n =>
    if held && decide (heldFirst ≤ n) then .flt fSyncHeld
    else
      let cell := getCell s n
      if conf && decide (cell.kind = 0) then .flt fSyncConfig else f n cell

/-- SCCFG's configuration operand: KIND, SCOPE and DEADLINE_EN at [31:25], every other bit zero, KIND at most ARRIVE and
SCOPE at most DOMAIN (R75, R121). -/
def cfgOk (v : Word) : Bool :=
  decide (v.toNat < 2 ^ 32 ∧ v.toNat % 2 ^ 25 = 0 ∧ bits v.toNat 31 29 ≤ 2 ∧ bits v.toNat 28 26 ≤ 5)

def sccfgEff (s : State) (w : FmtT) (c : Core) : Res :=
  withCell s c w true false fun n _ =>
    let v := readS c w.c
    if cfgOk v then .done (configureCell s n (v.extractLsb' 0 32) (readS c w.b) (readS c w.d)) else .flt fSyncConfig

/-- SCRD reads any cell, an UNCONFIGURED one too (R76). -/
def scrdEff (s : State) (k : Nat) (w : FmtT) (c : Core) : Res :=
  withCell s c w false false fun _ cell =>
    regOp s k fun c => writeP (writeS c w.d cell.value) w.c.toNat cell.wrapped

def scsetEff (s : State) (w : FmtT) (c : Core) : Res :=
  withCell s c w true true fun n cell =>
    .done (putCell s n { cell with value := BitVec.ofNat 64 ((readS c w.b).toNat % 2 ^ cellWidth cell.kind) })

/-- SCADD writes the old value to sD and the sum to the cell (R76). -/
def scaddEff (s : State) (k : Nat) (w : FmtT) (c : Core) : Res :=
  withCell s c w true true fun n cell =>
    .done (putCell (modCore s k fun c => writeS c w.d cell.value) n (cell.plus (readS c w.b).toNat))

/-- SCDL (R79). -/
def scdlEff (s : State) (w : FmtT) (c : Core) : Res :=
  withCell s c w true true fun n cell =>
    if cell.dlEn then .done (setCell s n { cell with deadline := readS c w.b }) else .flt fSyncConfig

/-- WAIT (R77 to R79): ends at once when the condition is met, or when a timed wait finds the slot clear; otherwise
issue is held. -/
def waitEff (s : State) (k : Nat) (w : FmtT) (c : Core) : Res :=
  withCell s c w false true fun n cell =>
    let timed := decide (modBits w 24 24 = 1)
    let cond := modBits w 26 25
    let target := readS c w.b
    if timed && !cell.dlEn then .flt fSyncConfig
    else if waitMet cond cell.kind cell.value target then regOp s k fun c => writeP c w.d.toNat true
    else if timed && decide (cell.deadline = 0) then regOp s k fun c => writeP c w.d.toNat false
    else .hold (modCore s k fun c => { c with wait := .cell n cond target w.d.toNat timed })

/-- The entry sA names; 4,096 or more raises ADDRESS (R121). -/
def withEntry (c : Core) (w : FmtT) (f : Nat → Res) : Res :=
  let m := (readS c w.a).toNat
  if m < numDot then f m else .flt fAddress

/-- DOTREL (Table 4-11): frees a finished entry; refused with the predicate cleared when ACTIVE or FREE. -/
def dotrelEff (s : State) (k : Nat) (w : FmtT) (c : Core) : Res :=
  withEntry c w fun m =>
    match (getDot s m).state with
    | .free | .active => regOp s k fun c => writeP c w.d.toNat false
    | _ => regOp (setDot s m {}) k fun c => writeP c w.d.toNat true

/-- System value `i` as an operator reads it (Table 4-4). -/
def sysValue (s : State) (k : Nat) (c : Core) (i : Nat) : Nat :=
  match i with
  | 0 => gidOf s k
  | 1 => k
  | 2 => clusterOf k
  | 3 => quarterOf k
  | 4 => railOf k
  | 5 => c.step.toNat
  | 6 => s.tk
  | 7 => c.gen.toNat
  | 8 => coreRate s k
  | 11 => accumDefault s
  | _ => 0

/-- System value `i` (R67): a guest reads zero but for PRIV and BUDGET_LEFT. -/
def sysRead (s : State) (k : Nat) (c : Core) (i : Nat) : Nat :=
  match c.guest with
  | some g => if i = 9 then 1 else if i = 10 then g.left else 0
  | none => sysValue s k c i

/-- TBRD (R57): 8 bytes of the snapshot; offsets at or beyond the table's total length read zero. -/
def tbrdEff (s : State) (k : Nat) (w : FmtT) (c : Core) : Res :=
  let off := (readS c w.a + simm w.imm).toNat
  if off % 8 ≠ 0 then .flt fAlignment
  else regOp s k fun c => writeS c w.d (BitVec.ofNat 64 (fieldAt s.snapshot off 8))

def execSccfg (k : Nat) (w : FmtT) (s : State) : Host.Outcome State Fault Refusal :=
  issueT k w s infoSccfg fun c => sccfgEff s w c
def execScrd (k : Nat) (w : FmtT) (s : State) : Host.Outcome State Fault Refusal :=
  issueT k w s infoScrd fun c => scrdEff s k w c
def execScset (k : Nat) (w : FmtT) (s : State) : Host.Outcome State Fault Refusal :=
  issueT k w s infoScset fun c => scsetEff s w c
def execScadd (k : Nat) (w : FmtT) (s : State) : Host.Outcome State Fault Refusal :=
  issueT k w s infoScadd fun c => scaddEff s k w c
def execScdl (k : Nat) (w : FmtT) (s : State) : Host.Outcome State Fault Refusal :=
  issueT k w s infoScdl fun c => scdlEff s w c
def execWait (k : Nat) (w : FmtT) (s : State) : Host.Outcome State Fault Refusal :=
  issueT k w s infoWait fun c => waitEff s k w c
def execDotrd (k : Nat) (w : FmtT) (s : State) : Host.Outcome State Fault Refusal :=
  issueT k w s infoDotrd fun c =>
    withEntry c w fun m => regOp s k fun c => writeS c w.d (dotWord (getDot s m) w.imm.toNat)
def execDotrel (k : Nat) (w : FmtT) (s : State) : Host.Outcome State Fault Refusal :=
  issueT k w s infoDotp fun c => dotrelEff s k w c
def execSysrd (k : Nat) (w : FmtT) (s : State) : Host.Outcome State Fault Refusal :=
  issueT k w s infoSysrd fun c => regOp s k fun c' => writeS c' w.d (BitVec.ofNat 64 (sysRead s k c w.imm.toNat))
def execTbrd (k : Nat) (w : FmtT) (s : State) : Host.Outcome State Fault Refusal :=
  issueT k w s infoTbrd fun c => tbrdEff s k w c

/-- SYNC_CELL_DEADLINE (R79): the slot falls due once the counter has reached it. -/
def execSyncCellDeadline (t n : Nat) (s : State) : Host.Outcome State Fault Refusal :=
  presentUnit s t n numCells fun s =>
    let c := getCell s n
    if c.deadline ≠ 0 ∧ c.deadline.toNat ≤ s.tk then cellDeadline s n else s

end Sys2Proof.Machine
end

