-- ==== Sys2Proof/Machine/Stop.lean ====
section
/-! DEFINITION. How long operations stop short (R84, R85): what a stopped operation leaves at its destination, DOTCAN,
failures, deadlines and the tier wait limit (R173); and how a core's part of a step ends (R61, R62). -/
namespace Sys2Proof.Machine

/-- Bits of the free value a stop takes. -/
def stopBit (n i : Nat) : Bool := Config.freeNat n / 2 ^ i % 2 == 1

/-- The unit of movement at `off` could have been moved by now: its source bytes are at hand and its destination takes
them. -/
def unitReady (s : State) (e : DotEntry) (off : Nat) : Bool :=
  let u := moveUnit e
  let open_ := e.srcSp || srcPeer e || srcTier e || (guardBlocks s (e.src + off) u).all fun b =>
    decide (grState s b.1 ≠ 1) && !inRepair s b.1 b.2 && !blockFails s b.1 b.2
  let here := !srcPeer e || (List.range (u / 256)).all fun i => (e.readGot.map (·.1)).contains (off / 256 + i)
  open_ && here && (match srcPiece s e off u with | .ok _ => true | .error _ => false) && (dstPiece s e off (List.replicate u 0)).2.isNone

/-- Units ready without a gap from the start. -/
def readyRun (s : State) (e : DotEntry) : Nat → Nat → Nat
  | 0, _ => 0
  | n + 1, i => if unitReady s e (i * moveUnit e) then 1 + readyRun s e n (i + 1) else 0

/-- A transfer stopped short (R85): the bytes below BYTES_DONE are new, and every later granule is old or new. How far it
came and which later granules it reached are free values. -/
def stopTransfer (s : State) (m : Nat) : State :=
  let e := getDot s m
  let units := e.len / moveUnit e
  if zonesWaiting s e then s
  else
    let n := freeNow s % (readyRun s e units 0 + 1)
    let pick := fun off => decide (off < n * moveUnit e) || (stopBit (s.free + 1) (off / moveUnit e) && unitReady s e off)
    let v := moveUnits e pick units 0 (tookFree (tookFree s))
    setDot v.1 m { getDot v.1 m with bytesDone := min (n * moveUnit e) v.2.1, readGot := [] }

/-- A near-bank operation stopped short (R223): each granule of the results of a command that has started and not finished is old
or new; what the latches hold is discarded. -/
def stopNear (s : State) (m : Nat) : State :=
  let e := getDot s m
  (e.nb.filter fun c => c.started && c.status.isNone).foldl (fun st c =>
    let f := nbFields c.bytes
    match nbRun st (clusterOf e.core) f with
    | .done s1 0 _ =>
      (List.range (nbResultBytes f / 256)).foldl (fun st2 i =>
        if stopBit st.free i then physWrite st2 (f.result + 256 * i) (physRead s1 (f.result + 256 * i) 256) else st2) (tookFree st)
    | _ => st) { s with nbLatches := [] }

/-- A FLUSHR or INVR stopped short has acted on some of its lines. -/
def stopRange (s : State) (m : Nat) : State :=
  let e := getDot s m
  let some_ := (List.zip (List.range e.lines.length) e.lines).filterMap fun p => if stopBit s.free p.1 then some p.2 else none
  actLines (tookFree s) (clusterOf e.core) (decide (e.kind = kInval)) some_

/-- What an operation has done when it stops short. An import writes its pages and entries at its end alone (R253), and a
collective its destination (R328). -/
def stopEffect (s : State) (m : Nat) : State :=
  let e := getDot s m
  if e.kind = kDma ∨ e.kind = kTier then stopTransfer s m
  else if e.kind = kNear then stopNear s m
  else if e.kind = kFlush ∨ e.kind = kInval then stopRange s m
  else s

/-- Stop an ACTIVE operation (Table 4-11). -/
def stopOp (s : State) (m : Nat) (st : DotState) (result : Nat) : State :=
  if (getDot s m).state = .active then armTierTimer (leaveActive (stopEffect s m) m st result) else s

/-- RESULT of a TIMED_OUT entry (Table 4-10). -/
def timedOutResult (kind : Nat) : Nat := if kind = kTier ∨ kind = kImport then 0x10 else 0

/-- DOTCAN (R84): refused in any state but ACTIVE. An import that the scheduler started ends its request on any end but
DONE (R292). -/
def dotcanEff (s : State) (k : Nat) (w : FmtT) (c : Core) : Res :=
  withEntry c w fun m =>
    let e := getDot s m
    if e.state = .active then
      let s1 := stopOp s m .cancelled 0x50
      regOp (if e.byScheduler then addCode s1 e.rc 0x50 else s1) k fun c => writeP c w.d.toNat true
    else regOp s k fun c => writeP c w.d.toNat false

/-- An operation fails for the reason given. -/
def opFails (s : State) (m : Nat) (why : OpFailure) : State :=
  let e := getDot s m
  if e.state ≠ .active then s
  else
    match why with
    | .digest d ch pc => if e.kind = kColl then collMismatch s m d ch pc else s
    | _ => armTierTimer (failOp (stopEffect s m) m why)

/-- A descriptor deadline falls due (Table 4-11), unless the operation's end was sampled in the same tick (R53, R85). -/
def opDeadline (s : State) (m : Nat) : State :=
  let e := getDot s m
  if !endsNow s m && e.dlEn && decide (e.deadline ≤ s.tk) then stopOp s m .timedOut (timedOutResult e.kind) else s

/-- A request's restore or adapter wait has passed its limit: it ends with TIER_LATE (R251, R283). -/
def lateReqs (s : State) : State :=
  (s.reqs.map (·.1)).foldl (fun st n =>
    let r := getReq st n
    if r.limit ≠ 0 ∧ r.limit ≤ st.tk ∧ !reqEndsNow st n then
      addCode (setReq st n { r with limit := 0, pages := if r.restoring then [] else r.pages }) n 0x10
    else st) s

/-- Device timer 1 is presented (R173); what ends in the same tick is not late (R53). -/
def tierLate (s : State) : State :=
  let due := s.dot.filterMap fun p => if p.2.state = .active ∧ p.2.limit ≠ 0 ∧ p.2.limit ≤ s.tk ∧ !endsNow s p.1 then some p.1 else none
  armTierTimer (lateReqs (due.foldl (fun st m => stopOp st m .timedOut 0x10) s))

/-- A core takes part in the step and its part has not ended. -/
def partOpen (c : Core) : Bool := decide (c.phase = .issuing ∨ c.phase = .yielded)

/-- Device timer 2 is presented (R62): STEP_TIMEOUT on every core whose part has not ended, guest or not (R88). -/
def watchdog (s : State) : State :=
  overCores { s with timer2 := 0 } fun st k =>
    if partOpen (getCore st k) then operatorFault st k fStepTimeout (getCore st k).pc else st

/-- A core's part of the step ends once every instruction issued has completed (R61): the staging entries of its cluster have been written (R242). -/
def partEnd (s : State) (k : Nat) : State :=
  if (getCore s k).phase = .yielded ∧ (getCore s k).memHold = .none then
    modCore (flushStg s (clusterOf k) fun _ => true) k fun c => { c with phase := .ended }
  else s

def execDotcan (k : Nat) (w : FmtT) (s : State) : Host.Outcome State Fault Refusal :=
  issueT k w s infoDotp fun c => dotcanEff s k w c
def execOperationFailed (t m : Nat) (why : OpFailure) (s : State) : Host.Outcome State Fault Refusal :=
  presentUnit s t m numDot fun s => opFails s m why
def execOperationDeadline (t m : Nat) (s : State) : Host.Outcome State Fault Refusal :=
  presentUnit s t m numDot fun s => opDeadline s m
/-- TIER_WAIT_LIMIT: timer 1 acts only once armed and due. -/
def execTierWaitLimit (t : Nat) (s : State) : Host.Outcome State Fault Refusal :=
  present s t fun s => if s.timer1 ≠ 0 ∧ s.timer1 ≤ s.tk then tierLate s else s
def execStepWatchdog (t : Nat) (s : State) : Host.Outcome State Fault Refusal :=
  present s t fun s => if s.timer2 ≠ 0 ∧ s.timer2 ≤ s.tk then watchdog s else s
def execCorePartEnd (t k : Nat) (s : State) : Host.Outcome State Fault Refusal :=
  presentUnit s t k numCores fun s => partEnd s k

end Sys2Proof.Machine
end

