-- ==== Sys2Proof/Machine/Table.lean ====
section
/-! DEFINITION. The Clailaez table (R19 to R41): the bytes of its header and entries, and the order in which Kolwin
publishes a change (R37, R38). -/
namespace Sys2Proof.Machine

/-! ## Entries (R22 to R36) -/

/-- A physical core is retired (IN_CORE, R359). -/
def retired (s : State) (k : Nat) : Bool := decide (fld s (Reg.inCoreState k) = 4)
def serving (s : State) (k : Nat) : Bool := decide (gidOf s k < 512)

/-- Cores in service: those that serve a global ID. -/
def inService (s : State) : Nat := ((List.range numCores).filter (serving s)).length
def idleSpares (s : State) : Nat := ((List.range numCores).filter fun k => !serving s k && !retired s k).length
def retiredCores (s : State) : Nat := ((List.range numCores).filter (retired s)).length

/-- An entry with its header (Table 2-2); flag bits: 1 DYNAMIC, 2 REDUCED, 4 ACTIVE (Table 2-3). -/
def tableEntry (ty inst flags : Nat) (payload : List Byte) : List Byte :=
  natBytes 2 ty ++ natBytes 2 (payload.length + 8) ++ natBytes 2 inst ++ natBytes 2 flags ++ payload

/-- REDUCED for an entry that reflects the cores in service. -/
def reducedFlag (s : State) : Nat := if inService s < 512 then 2 else 0

/-- TOPOLOGY (R25). -/
def topologyPayload (s : State) : List Byte :=
  [4, 8, 16, 1] ++ natBytes 2 (inService s) ++ natBytes 2 544 ++ natBytes 2 8 ++ natBytes 2 128 ++ natBytes 2 2048 ++
    natBytes 2 4 ++ natBytes 4 1048576 ++ natBytes 4 65536 ++ natBytes 4 65536 ++ natBytes 4 8388608 ++
    natBytes 4 2097152 ++ natBytes 2 512 ++ [0, 0]

/-- A core record (Table 2-6). -/
def coreRecord (s : State) (k : Nat) : Nat :=
  if serving s k then 0x0200 + gidOf s k else if retired s k then 0x2000 else 0x1000

/-- CORE_MAP (R26). -/
def coreMapPayload (s : State) : List Byte :=
  natBytes 2 544 ++ natBytes 2 (retiredCores s) ++ natBytes 2 (idleSpares s) ++ natBytes 2 0 ++
    (List.range numCores).flatMap fun k => natBytes 2 (coreRecord s k)

/-- HQ_HOSTWIN.SIZE as it acts: at most 64 TiB (Table 17-12). -/
def hostWinBytes (s : State) : Nat := min (baseFld s Reg.hqHostwinSize) 0x400000000000

def memoryRecord (base extent populated kind tier granule attr : Nat) : List Byte :=
  natBytes 8 base ++ natBytes 8 extent ++ natBytes 8 populated ++ natBytes 1 kind ++ natBytes 1 tier ++
    natBytes 2 granule ++ natBytes 4 attr

/-- MEMORY_MAP (R27, Table 2-8). -/
def memoryMapPayload (s : State) : List Byte :=
  natBytes 2 4 ++ natBytes 6 0 ++ memoryRecord 0 hbmBytes hbmBytes 1 1 256 7 ++
    memoryRecord tier2Base 0x10000000000 tier2Bytes 2 2 4096 0 ++
    memoryRecord hostBase 0x400000000000 (hostWinBytes s) 3 3 4096 0 ++
    memoryRecord peerBase 0x400000000000 0x400000000000 4 0 256 0

/-- INTERLEAVE (R28). -/
def interleavePayload : List Byte :=
  natBytes 2 1 ++ natBytes 2 256 ++ natBytes 2 384 ++ [12, 16, 2, 48, 16, 3] ++ natBytes 4 16777216 ++ natBytes 2 4096 ++
    natBytes 2 2048 ++ natBytes 4 0 ++ natBytes 8 25769803776

/-- GUARDED_RANGES (R29). -/
def guardedPayload : List Byte := [16, 1] ++ natBytes 2 4096 ++ natBytes 4 8 ++ natBytes 8 4096 ++ natBytes 8 hbmBytes

/-- n ÷ d rounded to nearest. -/
def roundDiv (n d : Nat) : Nat := (2 * n + d) / (2 * d)

/-- A × B pairings: operand A, operand B, passes, EXACT (Table 2-11). -/
def pairings : List (Nat × Nat × Nat × Nat) :=
  [(1, 1, 1, 1), (1, 2, 1, 1), (1, 3, 1, 0), (4, 5, 1, 1), (2, 2, 2, 1), (2, 3, 2, 0), (3, 3, 2, 0), (5, 5, 2, 1),
   (6, 6, 4, 0), (7, 7, 4, 0)]

/-- FORMATS_RATES (R31): 16,384 × 2 × 1.2 G/s and 64 × 2 × 1.2 G/s a core. -/
def formatsPayload (s : State) : List Byte :=
  let n := inService s
  natBytes 2 10 ++ natBytes 2 0 ++ natBytes 4 (roundDiv (1536 * n) 10) ++ natBytes 4 64000 ++ natBytes 2 0x000E ++
    natBytes 2 0x0040 ++ pairings.flatMap fun p =>
      natBytes 1 p.1 ++ natBytes 1 p.2.1 ++ natBytes 1 p.2.2.1 ++ natBytes 1 p.2.2.2 ++
        natBytes 4 (roundDiv (393216 * n) (10 * p.2.2.1))

/-- RESOURCES (R32, Table 2-12). -/
def resourcesPayload : List Byte :=
  natBytes 2 7 ++ natBytes 6 0 ++
    ([(1, 32768, 256), (2, 4096, 0), (3, 65536, 0), (4, 4096, 0), (5, 1024, 0), (6, 256, 0), (7, 1024, 0)] :
      List (Nat × Nat × Nat)).flatMap fun r =>
      natBytes 2 r.1 ++ natBytes 2 0 ++ natBytes 4 0 ++ natBytes 4 r.2.1 ++ natBytes 4 r.2.2

/-- PORT_MAP (R33). -/
def portMapPayload : List Byte :=
  natBytes 2 17 ++ natBytes 6 0 ++ (List.range 17).flatMap fun p =>
    natBytes 1 p ++ natBytes 1 (if p < 16 then p / 4 else 0) ++ [6, if p = 16 then 1 else 0] ++ natBytes 2 2125 ++ natBytes 2 128

/-- PROFILE i (R34): the summary of its stored record. -/
def profilePayload (s : State) (i : Nat) : List Byte := padTo 40 ((storedRecord s i).take 40)

/-- SPEED_CORNER (R35): the part's own rates. -/
def cornerPayload : List Byte :=
  padTo 96 (padTo 32 ([5, 6] ++ natBytes 6 0 ++ gridVolts.flatMap (natBytes 2) ++ gridTemps.flatMap (natBytes 2)) ++
    (List.range 5).flatMap fun v => (List.range 6).flatMap fun t => natBytes 2 (Config.cornerRate v t))

/-- TIER i (R36). -/
def tierPayload (s : State) (i : Nat) : List Byte :=
  let b := Config.variantB
  let (cap, rate, paths) := if i = 2 then (tier2Bytes, if b then 1092 else 546, if b then 64 else 32)
    else (hostWinBytes s, 121, 16)
  natBytes 8 cap ++ natBytes 4 rate ++ natBytes 2 paths ++ [1, 0] ++ natBytes 2 4096 ++ natBytes 2 512 ++ natBytes 4 0

/-- The entries of one type with their offset in the table (R24). -/
def typeEntries (s : State) (ty : Nat) : Nat × List Byte :=
  match ty with
  | 1 => (0x080, tableEntry 1 0 (1 + reducedFlag s) (topologyPayload s))
  | 2 => (0x0B0, tableEntry 2 0 (1 + reducedFlag s) (coreMapPayload s))
  | 3 => (0x500, tableEntry 3 0 1 (memoryMapPayload s))
  | 4 => (0x590, tableEntry 4 0 0 interleavePayload)
  | 5 => (0x5B8, tableEntry 5 0 0 guardedPayload)
  | 6 => (0x5D8, tableEntry 6 0 (1 + reducedFlag s) (formatsPayload s))
  | 7 => (0x640, tableEntry 7 0 0 resourcesPayload)
  | 8 => (0x6C0, tableEntry 8 0 0 portMapPayload)
  | 9 => (0x758, (List.range 4).flatMap fun i =>
      tableEntry 9 i (1 + (if fld s Reg.pwProfileActive = i then 4 else 0)) (profilePayload s i))
  | 10 => (0x818, tableEntry 10 0 0 cornerPayload)
  | _ => (0x880, tableEntry 11 2 0 (tierPayload s 2) ++ tableEntry 11 3 1 (tierPayload s 3))

def tableLength : Nat := 2248

def partNumber : List Byte := padTo 16 (ascii (if Config.variantB then "ZW-PX9-B288-L" else "ZW-PX9-A288-L"))

/-- The header with its generation and digest still zero (Table 2-1). -/
def tableHeader : List Byte :=
  ascii "CLZT" ++ natBytes 2 0x0100 ++ natBytes 2 1 ++ natBytes 2 128 ++ natBytes 2 16 ++ natBytes 4 tableLength ++
    natBytes 8 0 ++ partNumber ++ natBytes 2 Config.stepping ++ natBytes 2 0 ++ natBytes 4 128 ++ natBytes 72 0 ++ natBytes 8 0

/-- Before the first publication only the parts no publication rewrites stand. -/
def blankTable : List Byte := padTo 0x8C0 (padTo 128 tableHeader) ++ tableEntry 0xFFFF 0 0 []

/-- The digest (R21): offsets 0x40 to 0x7F taken as zero. -/
def tableDigest (t : List Byte) : List Byte := shake256 (patch t 0x40 (List.replicate 64 0)) 64

/-! ## Publication (R37, R38) -/

/-- CL_GEN. -/
def generation (s : State) : Nat := reg64 s Reg.clGenGen.off

/-- The generation in the header and in CL_GEN. -/
def putGen (s : State) (g : Nat) : State :=
  { setReg64 s Reg.clGenGen.off (g % 2 ^ 64) with table := patch s.table 0x10 (natBytes 8 (g % 2 ^ 64)) }

/-- Steps 1 and 2: an odd generation and UPDATING. Changes that fall due while a publication is in progress join it. -/
def beginPublication (s : State) (mask : Nat) : State :=
  let s1 := { s with kolwin := { s.kolwin with publish := s.kolwin.publish ||| mask } }
  if s1.kolwin.publishing then s1
  else
    let s2 := { s1 with kolwin := { s1.kolwin with publishing := true } }
    let s3 := if s2.table.isEmpty then { s2 with table := blankTable } else s2
    setFld (putGen s3 (generation s3 + 1)) Reg.clStatusUpdating 1

/-- Step 3: rewrite the entries of the types in the mask, and the publication tick. -/
def rewriteEntries (s : State) (mask : Nat) : List Byte :=
  patch ((List.range 11).foldl (fun t i =>
    if bit mask (i + 1) then
      let e := typeEntries s (i + 1)
      patch t e.1 e.2
    else t) s.table) 0x30 (natBytes 8 s.tk)

/-- Set the type bits of CL_CHANGE_CAUSE that a mask names, bit i for type i + 1. -/
def setCause (s : State) (mask : Nat) : State :=
  (List.range 11).foldl (fun st i => if bit mask i then setBit st Reg.clCauseTypeChanged i else st) s

/-- Steps 3 to 7. The digest covers the generation that step 5 sets (R21, R40), and the host window takes its new size
(R37). -/
def endPublication (s : State) : State :=
  if !s.kolwin.publishing then s
  else
    let mask := s.kolwin.publish
    let win := if bit mask 3 then hostWinBytes s else s.kolwin.hostWin
    let s1 := { s with table := rewriteEntries s mask
                       kolwin := { s.kolwin with publish := 0, publishing := false, hostWin := win } }
    let s2 := putGen s1 (generation s1 + 1)
    let s3 := { s2 with table := patch s2.table 0x40 (tableDigest s2.table) }
    let s4 := setFld (setFld (setFld s3 Reg.clStatusUpdating 0) Reg.clStatusValid 1) Reg.clStatusChanged 1
    sendIf (setCause s4 (mask / 2)) Reg.clCtrlChangeIrqEn 257

/-- Every type, for the first publication after reset. -/
def allTypes : Nat := 0xFFE

end Sys2Proof.Machine
end

