-- ==== Sys2Proof/Machine/Fatal.lean ====
section
/-! DEFINITION. The FATAL state (R18, R38, R52, R387, R410) and shutdown (R379), and the events that lead straight to
them. -/
namespace Sys2Proof.Machine

/-! ## The power-on reset (Table 17-8, R421) -/

/-- What a reset of either kind leaves of Kolwin: flash with its profile store, and fuses. A flash write that a reset
interrupts leaves no valid image. -/
def keptKolwin (s : State) : Kolwin :=
  { flash := if s.kolwin.writing.isEmpty then s.kolwin.flash else [], profiles := s.kolwin.profiles, svFuse := s.kolwin.svFuse,
    boardResp := s.kolwin.boardResp, ibis := s.kolwin.ibis, readFaults := s.kolwin.readFaults }

/-- Everything at its reset value but what lies outside the device (the host's memory and what it has been sent, the pins,
the queue of commands), flash and fuses. -/
def cleared (s : State) (cause : Nat) : State :=
  let s1 := { State.reset with
    pending := s.pending, hostMem := s.hostMem, msix := s.msix, readOut := s.readOut, free := s.free, kolwin := keptKolwin s
    pins := { s.pins with alertN := true, syncOut := none } }
  setFld (setFld s1 Reg.kwResetCause cause) Reg.kwSvFuseMinimum s.kolwin.svFuse

/-- A power-on reset clears everything else, the tick counter too (R44, R401). -/
def powerOnReset (s : State) (cause : Nat) : State := cleared s cause

/-- RESET_N, still low at the end of a device reset, begins a power-on reset at that moment (R421). -/
def resetIfLow (s : State) : State :=
  if s.pins.resetPin then s
  else
    let s1 := powerOnReset s 2
    { s1 with pins := { s1.pins with resetN := false } }

/-- A device reset has completed (R421). -/
def resetDone (s : State) : State := resetIfLow { s with kolwin := { s.kolwin with resetting := false } }

/-! ## FATAL -/

/-- Abandon the step in progress: no core issues and no step is recorded (R342, R379). -/
def abandonStep (s : State) : State :=
  let s1 := overCores s fun st k => modCore st k fun c => { c with phase := .idle, wait := .none, memHold := .none, guest := none }
  setFld { s1 with sched := { s1.sched with cur := none, formed := none }, timer2 := 0, timer2Left := none } Reg.sqStatusRunning 0

/-- The RETRACTION record of a rollback (Table 15-9). -/
def retractRecord (r : Retraction) : ErrRec :=
  { type := 0x15, step := r.last, a0 := r.g, a1 := r.last, a2 := r.named.length, a3 := r.flags, more := r.named }

/-- Write the RETRACTION record owed: DIGEST_SAME when piece digests were compared and all of them were the same, the whole
rerun through (R363, R364). -/
def writeRetraction (s : State) : State :=
  match s.sched.retraction with
  | none => s
  | some r =>
    let done := decide (r.last ≤ stepNow s) && s.sched.rerunQ.all fun q => decide (r.last < q.idx)
    errorRecord { s with sched := { s.sched with retraction := none } }
      (retractRecord { r with flags := r.flags + 8 * b2n (r.seen && !r.differ && done) })

/-- The FATAL state (R38, R52, R410). An entry as class 1 source 16 leaves a publication in progress where it stands: the
model takes R38's exception to be every cause that carries that class and source, a failed repair (R158) and a failed
cluster reconciliation (R366) among them (DESIGN CHOICE, log entry 118). A device reset in progress ends in it. -/
def goFatal (s : State) (cls src : Nat) : State :=
  if s.kolwin.fatal then s
  else
    let s0 := writeRetraction s
    let s1 := if cls = 1 ∧ src = 16 then s0 else endPublication s0
    let s2 := sendDying (setFld s1 Reg.clStatusFrozen 1)
    let s3 := errorRecord s2 { type := 0x20, cls := cls, src := src, step := stepNow s, a0 := src }
    let s4 := setFld (setFld (setFld s3 Reg.hqStatusFatal 1) Reg.kwStatusFatal 1) Reg.mbStatusFatal 1
    setAlert (sendVector { s4 with kolwin := { s4.kolwin with fatal := true, resetting := false } } 267) 1

/-- Enter the FATAL state; where that ends a device reset, a RESET_N still low begins a power-on reset (R421). -/
def enterFatal (s : State) (cls src : Nat) : State :=
  let s1 := goFatal s cls src
  if s.kolwin.resetting ∧ s.kolwin.fatal = false then resetIfLow s1 else s1

/-- Rails fall to 0 V (R422). -/
def railsOff (s : State) (rails : List Nat) : State :=
  rails.foldl (fun st v => setFld (setFld st (Reg.pwRailSetpoint v) 0) (Reg.pwRailMeasured v) 0) s

/-- A shutdown (R379): the step is abandoned, the device enters FATAL with class 0, PWRGD falls and the core rails and VMEM
go down. -/
def shutdown (s : State) (src : Nat) : State :=
  if s.power.shutdown then s
  else
    let s0 := abandonStep s
    let s1 := railsOff (if s.kolwin.fatal then setAlert s0 1 else goFatal s0 0 src) (List.range 9)
    { s1 with pins := { s1.pins with pwrgd := false }
              power := { s1.power with shutdown := true, railsUp := false, tier2Up := false } }

/-- QUARTER_LOSS: class 1 source q (R18). -/
def execQuarterLoss (t quarter : Nat) (s : State) : Host.Outcome State Fault Refusal :=
  presentUnit s t quarter 4 fun s => enterFatal s 1 quarter

/-- A stack is lost: class 1 source 4 + s (R163). -/
def stackLoss (s : State) (stack : Nat) : State := enterFatal (setFld s Reg.mcStatusStackLost 1) 1 (4 + stack)

def execStackLost (t stack : Nat) (s : State) : Host.Outcome State Fault Refusal :=
  presentUnit s t stack 12 fun s => stackLoss s stack

/-- KOLWIN_DETECTED_FAULT: class 1 source 16 (R387). -/
def execKolwinDetectedFault (t : Nat) (s : State) : Host.Outcome State Fault Refusal :=
  present s t fun s => enterFatal s 1 16

/-- SELF_CHECK: a failed self-check is a Kolwin-detected fault (R387). -/
def execSelfCheck (t : Nat) (pass : Bool) (s : State) : Host.Outcome State Fault Refusal :=
  present s t fun s => if pass then s else enterFatal s 1 16

end Sys2Proof.Machine
end

