-- ==== Sys2Proof/Machine/Power.lean ====
section
/-! DEFINITION. Power: samples and the energy counter (R370), rails and their setpoints (R371, R374), the governor (R372,
R373), heat and coolant (R376, R377), and the responses to class 0 events (R378, R379). -/
namespace Sys2Proof.Machine

/-! ## The profile's limits (Table 16-7) -/

def pNominal (s : State) : Nat := prof s 0x10 2
def pCeiling (s : State) : Nat := prof s 0x12 2
def pFloor (s : State) : Nat := prof s 0x14 2
/-- The sustained cap in force (R373). -/
def capNow (s : State) : Nat := min (prof s 0x16 2) (max 1400 (fld s Reg.pwCtrlSwCap))
def coreRails : List Nat := [0, 1, 2, 3, 4, 5, 6, 7]

/-! ## Setpoints (R374) -/

/-- The setpoint of a rail that nothing of its own has lowered: the ceiling, or a governor above it that a profile change has
left to come down (R382). -/
def freeSetpoint (s : State) : Nat := max (pCeiling s) s.power.setpoint
/-- A rail's thermal setpoint: the ceiling until the rail has been hot (R376). -/
def thermalOf (s : State) (v : Nat) : Nat := ((s.power.thermal.find? fun p => decide (p.1 = v)).map (·.2)).getD (freeSetpoint s)
/-- The setpoint at which a rail last stayed within its current limit, once it has met it (R374). -/
def limitedOf (s : State) (v : Nat) : Nat := ((s.power.limited.find? fun p => decide (p.1 = v)).map (·.2)).getD (freeSetpoint s)
/-- A rail's current limit in A (Table 16-2). -/
def railLimit (v : Nat) : Nat := if v < 8 then 320 else if v = 8 then 950 else 560
/-- A rail whose current, in 0.1 A, has reached its limit. -/
def atLimit (v amps : Nat) : Bool := decide (10 * railLimit v ≤ amps)
def railSetpoint (s : State) (v : Nat) : Nat :=
  max (pFloor s) (min s.power.setpoint (min (thermalOf s v) (limitedOf s v)))

/-- Set one rail's entry of a list keyed by rail. -/
def railPut (l : List (Nat × Nat)) (v x : Nat) : List (Nat × Nat) := (v, x) :: l.filter fun p => decide (p.1 ≠ v)

/-- The last lever in use (Table 16-12, STAGE). -/
def stageNow (s : State) : Nat :=
  if s.power.hbmHalf then 3 else if s.power.nbLimit < 2048 then 2 else if s.power.railsUp ∧ s.power.setpoint < pNominal s then 1 else 0

/-- NB_STATUS.LIMIT (Table 9-13); commands that waited for the window start as it opens (R213). -/
def showNbLimit (s : State) : State :=
  startNear (setFld s Reg.nbStatusLimit (min s.power.nbLimit (min (fld s Reg.nbCtrlSwLimit) 2048)))

/-- The setpoints and status bits that follow from the governor's state; a rail that is down has none. -/
def applyRails (s : State) : State :=
  let up := s.power.railsUp
  let s1 := coreRails.foldl (fun st v => setFld st (Reg.pwRailSetpoint v) (if up then railSetpoint s v else 0)) s
  let s2 := setFld (setFld s1 (Reg.pwRailSetpoint 8) (if up || s.power.tier2Up then 1100 else 0)) (Reg.pwRailSetpoint 9) 750
  let hot := coreRails.any fun v => decide (thermalOf s v < s.power.setpoint)
  let s3 := if hot && !flag s Reg.pwStatusThermal then sendIf s2 Reg.pwCtrlThermIrqEn 264 else s2
  let s4 := setFld (setFld s3 Reg.pwStatusThermal (b2n hot)) Reg.pwStatusStage (stageNow s)
  let s5 := setFld s4 Reg.pwStatusBoosting (b2n (up && coreRails.any fun v => decide (pNominal s < railSetpoint s v)))
  showNbLimit (setFld s5 Reg.pwStatusEmergency (b2n (!s.power.emergency.isEmpty)))

/-- Change the governor. -/
def modPower (s : State) (f : Power → Power) : State := { s with power := f s.power }

/-- A profile's limits act at once, and the rails move to them at the rates of R371 and R373 (R382): the governor's setpoint is
never below the new floor, comes down to a lower nominal voltage by 10 mV a sample and rises to a higher one by 10 mV a
millisecond of headroom; an emergency action holds the new floors (log entry 109). -/
def governorProfile (s : State) : State :=
  applyRails (modPower s fun p =>
    { p with
      setpoint := if !p.emergency.isEmpty then pFloor s else max (pFloor s) p.setpoint
      nbLimit := if !p.emergency.isEmpty then nearFloor s else max p.nbLimit (nearFloor s) })

/-! ## Class 0 events (R378) -/

/-- Every lever at its limit: the emergency action. -/
def emergencyAction (s : State) (src : Nat) : State :=
  applyRails (modPower s fun p =>
    { p with setpoint := pFloor s, nbLimit := nearFloor s, hbmHalf := true
             emergency := if p.emergency.contains src then p.emergency else p.emergency ++ [src] })

/-- What every class 0 event does beside its action: EMERG_SEEN, its count, its interrupt and its alert. -/
def classZero (s : State) : State :=
  let s1 := countUp (setFld s Reg.pwStatusEmergSeen 1) Reg.pwCountEmergencies Reg.pwCountOvf 1 1
  setAlert (sendIf s1 Reg.pwCtrlEmergIrqEn 264) 2

def emergency (s : State) (src : Nat) : State := emergencyAction (classZero s) src

/-- EMERGENCY_END: 10 ms after a condition cleared, its hold ends. -/
def emergencyOver (s : State) (src : Nat) : State :=
  applyRails (modPower s fun p => { p with emergency := p.emergency.filter fun x => decide (x ≠ src) })

/-! ## The governor (R373) -/

/-- One step on the first lever that has not reached its limit (Table 16-3). -/
def leverDown (s : State) : State :=
  modPower s fun p =>
    if pFloor s < p.setpoint then { p with setpoint := max (pFloor s) (p.setpoint - 10) }
    else if nearFloor s < p.nbLimit then { p with nbLimit := max (nearFloor s) (p.nbLimit - 128) }
    else { p with hbmHalf := true }

/-- Boost is permitted: BOOST_EN, and every junction below the throttle temperature. -/
def boostOk (s : State) : Bool :=
  flag s Reg.pwCtrlBoostEn && coreRails.all fun v => decide (fld s (Reg.pwRailHottest v) < throttle s)

/-- One step of release on the last lever in use, or of boost. -/
def leverUp (s : State) : State :=
  modPower s fun p =>
    if p.hbmHalf then { p with hbmHalf := false }
    else if p.nbLimit < 2048 then { p with nbLimit := min 2048 (p.nbLimit + 128) }
    else if p.setpoint < pNominal s then { p with setpoint := min (pNominal s) (p.setpoint + 10) }
    else if boostOk s ∧ p.setpoint < pCeiling s then { p with setpoint := min (pCeiling s) (p.setpoint + 10) }
    else p

/-- A sample above the cap: the excursion it belongs to, and one step on a lever. -/
def sampleOver (s : State) (power5 : Nat) : State :=
  let n := s.power.excursion + 1
  let s1 := if n = 1 then countUp s Reg.pwCountExcursions Reg.pwCountOvf 0 1 else s
  let s2 := modPower s1 fun p => { p with excursion := n, headroom := 0 }
  let bad := decide (100000 * prof s 0x18 2 < power5) || decide (100 * prof s 0x1A 2 < n)
  let s3 := if bad && !s.power.raised then emergency (modPower s2 fun p => { p with raised := true }) 2 else s2
  if s3.power.emergency.isEmpty then leverDown s3 else s3

/-- A sample at or below the cap. `power5` is in units of 10 µW. A millisecond of headroom that an emergency's hold covers
releases nothing, and stands when regulation resumes. -/
def sampleUnder (s : State) (power5 : Nat) : State :=
  let calm := decide (100 * power5 ≤ 97 * 100000 * capNow s)
  let n := if calm then s.power.headroom + 1 else 0
  let s1 := modPower s fun p => { p with excursion := 0, raised := false, headroom := if n < 100 then n else if p.emergency.isEmpty then 0 else 99 }
  if !s1.power.emergency.isEmpty then s1
  else if pNominal s < s1.power.setpoint ∧ ((calm && boostOk s) = false ∨ pCeiling s < s1.power.setpoint) then
    modPower s1 fun p => { p with setpoint := max (pNominal s) (p.setpoint - 10) }
  else if 100 ≤ n then leverUp s1
  else s1

/-- A rail's measured voltage slews towards its setpoint at 10 mV per µs (R371): 100 mV in a sample's 10 µs. -/
def slewRail (s : State) (v : Nat) : State :=
  let m := fld s (Reg.pwRailMeasured v)
  let t := if s.power.railsUp || (decide (v = 8) && s.power.tier2Up) then fld s (Reg.pwRailSetpoint v) else 0
  setFld s (Reg.pwRailMeasured v) (if m < t then min t (m + 100) else max t (m - 100))

/-- Telemetry of a sample (Table 16-14). -/
def takeReading (s : State) (x : PowerReading) : State :=
  let s1 := ((List.range 10).filter fun v => decide (v < x.junctions.length)).foldl
    (fun st v => setFld st (Reg.pwRailHottest v) (x.junctions.getD v 0)) s
  let s2 := ((List.range 10).filter fun v => decide (v < x.railAmps.length)).foldl
    (fun st v => setFld st (Reg.pwRailAmps v) (x.railAmps.getD v 0)) s1
  let s3 := (List.range 9).foldl slewRail s2
  let s4 := setFld (setFld (setFld s3 Reg.pwCoolantFlow x.flow) Reg.pwCoolantOutlet x.outlet) Reg.pwCoolantInlet x.inlet
  setFld (setFld s4 Reg.pwInputVolts x.millivolts) Reg.pwInputAmps x.centiamps

/-- Length in ticks of the sample that ends now: 1,000 (R370), or the true length of one that the forward step has cut (R47). -/
def sampleTicks (s : State) : Nat := (s.power.sampleCut.map (s.tk - ·)).getD 1000

/-- POWER_SAMPLE (R370 to R374). -/
def powerStep (s0 : State) (x : PowerReading) : State :=
  let power5 := x.millivolts * x.centiamps
  let w := power5 / 100000
  let s := modPower s0 fun p => { p with sampleCut := none }
  let s1 := addTotal (setFld (takeReading s x) Reg.pwInputSampleW w) Reg.pwEnergyUj (power5 * sampleTicks s0 / 10000000)
  let samples := (w :: s1.power.samples).take 10000
  let s2 := setFld (modPower s1 fun p => { p with samples := samples }) Reg.pwInputMeanW (samples.sum / samples.length)
  let low := (coreRails.filter fun v => atLimit v (x.railAmps.getD v 0)).foldl
    (fun st v => modPower st fun p => { p with limited := railPut p.limited v (railSetpoint s v - 10) }) s2
  let above := decide (100000 * capNow s < power5)
  let s3 := applyRails (if above then sampleOver low power5 else sampleUnder low power5)
  let s4 := setFld s3 Reg.pwStatusExcursion (b2n above)
  if 2 ≤ stageNow s4 then countUp s4 Reg.pwCountNbLimited Reg.pwCountOvf 3 1 else s4

/-! ## Heat (R376) -/

/-- THERMAL_SETPOINT_STEP: down above the throttle temperature, up 3 °C or more below it. -/
def thermalStep (s : State) (v junction : Nat) : State :=
  let t := thermalOf s v
  let put := fun (st : State) (x : Nat) => applyRails (modPower st fun p => { p with thermal := railPut p.thermal v x })
  let s1 := setFld s (Reg.pwRailHottest v) junction
  if throttle s < junction ∧ pFloor s < t then
    put (countUp s1 Reg.pwCountThermalSteps Reg.pwCountOvf 2 1) (max (pFloor s) (t - 10))
  else if junction + 3 ≤ throttle s ∧ t < pCeiling s then put s1 (min (pCeiling s) (t + 10))
  else s1

/-- COOLANT_ALARM: class 0 source 5 (R377, R378). -/
def coolant (s : State) : State := setAlert (emergency (setFld s Reg.pwStatusCoolantAlarm 1) 5) 3

/-! ## Rails down and quiescence (R402, R422) -/

/-- The core rails and the HBM sub-rails fall; the tier-2 sub-rails of VMEM stay up where tier 2 is kept (R422). -/
def railsDown (s : State) (keepTier2 : Bool) : State :=
  modPower (railsOff s (if s.power.tier2Up && keepTier2 then coreRails else List.range 9)) fun p =>
    { p with railsUp := false, tier2Up := p.tier2Up && keepTier2 }

/-- IDLE or OFF_READY is in force once no step is in progress; OFF_READY then takes the rails down (R402, R422). -/
def quiesce (s : State) : State :=
  if s.kolwin.powerState = 0 ∨ s.sched.cur.isSome then s
  else
    let s1 := setFld { s with sched := { s.sched with formed := none } } Reg.kwStatusQuiesced 1
    if s.kolwin.powerState = 2 then railsDown s1 true else s1

def execPowerSample (t : Nat) (sample : PowerReading) (s : State) : Host.Outcome State Fault Refusal :=
  presentAlways s t fun s => powerStep s sample
def execThermalSetpointStep (t rail junction : Nat) (s : State) : Host.Outcome State Fault Refusal :=
  if rail < 8 then presentAlways s t fun s => thermalStep s rail junction else .fault .noSuchUnit
def execInputBelow44v (t : Nat) (s : State) : Host.Outcome State Fault Refusal := presentAlways s t fun s => emergency s 0
def execInputLowPersists (t : Nat) (s : State) : Host.Outcome State Fault Refusal := presentAlways s t fun s => shutdown s 0
def execInputBelow40v (t : Nat) (s : State) : Host.Outcome State Fault Refusal := presentAlways s t fun s => shutdown s 0
def execInputAbove58v (t : Nat) (s : State) : Host.Outcome State Fault Refusal :=
  presentAlways s t fun s => shutdown (classZero s) 1
def execJunctionLimit (t : Nat) (s : State) : Host.Outcome State Fault Refusal := presentAlways s t fun s => emergency s 3
def execJunction110c (t : Nat) (s : State) : Host.Outcome State Fault Refusal := presentAlways s t fun s => shutdown s 3
/-- HBM_ABOVE_105C: class 0 source 4 (R160, R378). -/
def execHbmAbove105c (t stack : Nat) (s : State) : Host.Outcome State Fault Refusal :=
  if stack < 12 then presentAlways s t fun s => shutdown (classZero s) 4 else .fault .noSuchUnit
def execCoolantAlarm (t : Nat) (s : State) : Host.Outcome State Fault Refusal := presentAlways s t coolant
def execCoolantAlarmPersists (t : Nat) (s : State) : Host.Outcome State Fault Refusal :=
  presentAlways s t fun s => shutdown s 5
def execEmergencyEnd (t source : Nat) (s : State) : Host.Outcome State Fault Refusal :=
  if source < 6 then presentAlways s t fun s => emergencyOver s source else .fault .noSuchUnit

end Sys2Proof.Machine
end

