-- ==== Sys2Proof/Machine/Guard.lean ====
section
/-! DEFINITION. Guarded ranges as software changes them (R155, Table 7-4) and the repair of a failing block (R158, R159,
R411, Table 7-5). -/
namespace Sys2Proof.Machine

/-! ## Sealing -/

/-- The golden block of block `i` of a range: its zone and logical block, in an enabled tier-2 zone. -/
def goldenOf (s : State) (n i : Nat) : Option (Nat × Nat) :=
  match zoneOf s (grGolden s n + 4096 * i) with
  | some (z, j) => if tzTier s z = 2 then some (z, j) else none
  | none => none

/-- Bytes of a range's CRC table. -/
def grCrcBytes (s : State) (n : Nat) : Nat := grSize s n / 512

/-- `[a, m)` overlaps a range that is not OFF other than `n`, or another range's CRC table. -/
def layoutClash (s : State) (n a m : Nat) : Bool :=
  (List.range 16).any fun i => decide (i ≠ n) &&
    ((decide (grState s i ≠ 0) && overlaps a m (grBase s i) (grSize s i)) || overlaps a m (grCrcBase s i) (grCrcBytes s i))

/-- The layout is valid (R155). -/
def sealLayoutOk (s : State) (n : Nat) : Bool :=
  let b := grBase s n
  let z := grSize s n
  let total := ((List.range 16).map fun i => if grState s i ≠ 0 then grSize s i else 0).sum + z
  decide (rowOf s b z = .hbm) && decide (rowOf s (grCrcBase s n) (grCrcBytes s n) = .hbm) &&
    !layoutClash s n b z && !layoutClash s n (grCrcBase s n) (grCrcBytes s n) &&
    !overlaps b z (grCrcBase s n) (grCrcBytes s n) && decide (total ≤ hbmBytes) &&
    (List.range (z / 4096)).all fun i => (goldenOf s n i).isSome

/-- RESULT codes of MC_GRn_STATUS. -/
def grPut (s : State) (n st result : Nat) : State := setFld (setFld s (Reg.mcGrState n) st) (Reg.mcGrResult n) result

/-- SEAL (Table 7-4). -/
def sealRange (s : State) (n : Nat) : State :=
  if grState s n ≠ 0 then setFld s (Reg.mcGrResult n) 5
  else if sealLayoutOk s n then setFld s (Reg.mcGrState n) 1
  else setFld s (Reg.mcGrResult n) 2

/-- UNSEAL (Table 7-4). -/
def unsealRange (s : State) (n : Nat) : State :=
  if grState s n = 2 then setFld s (Reg.mcGrState n) 3 else setFld s (Reg.mcGrResult n) 5

/-- Read and compare the blocks from `i` on: the state, and the first failing block with its RESULT. -/
def sealBlocks (s : State) (n : Nat) : Nat → Nat → State × Option (Nat × Nat)
  | 0, _ => (s, none)
  | m + 1, i =>
    let a := grBase s n + 4096 * i
    let s1 := (pocReadEvents s a 4096 9 0xFFFF).1
    let crc := (crc64 (pocRead s1 a 4096)).toNat
    let s2 := physPut s1 (grCrcBase s n + 8 * i) 8 crc
    match goldenOf s2 n i with
    | none => (s2, some (i, 4))
    | some (z, j) =>
      if (readFault s2 (tzMap s2 z + 16 * j) 16).isSome then (s2, some (i, 4))
      else if (mapEntry s2 z j).crc = crc then sealBlocks s2 n m (i + 1) else (s2, some (i, 3))

/-- The sealing of a range ends (Table 7-4). -/
def endSealing (s : State) (n : Nat) : State :=
  if grState s n ≠ 1 then s
  else
    let r := sealBlocks s n (grSize s n / 4096) 0
    match r.2 with
    | none =>
      let d := shake256 (physRead r.1 (grCrcBase s n) (grCrcBytes s n)) 64
      formDigest (grPut (regPutBytes r.1 (0x31040 + 0x80 * n) d) n 2 1)
    | some (i, why) => setFld (grPut r.1 n 0 why) (Reg.mcGrFailBlock n) i

/-- UNSEALING ranges with no repair pending become OFF, at a step boundary (Table 7-4). -/
def endUnsealing (s : State) : State :=
  (List.range 16).foldl (fun st n =>
    if grState st n = 3 ∧ st.repairs.all (fun r => decide (r.range ≠ n)) = true then formDigest (setFld st (Reg.mcGrState n) 0) else st) s

/-! ## Repair -/

/-- CRC of a block by the golden copy's map, if its entry can be read. -/
def goldenCrc (s : State) (n b : Nat) : Option Nat :=
  match goldenOf s n b with
  | some (z, j) => if (readFault s (tzMap s z + 16 * j) 16).isSome then none else some (mapEntry s z j).crc
  | none => none

/-- Address of a block's CRC table entry. -/
def crcEntry (s : State) (n b : Nat) : Nat := grCrcBase s n + 8 * b

/-- The CRC a repaired block must have (R158), if either place that holds it can be read. -/
def expectedCrc (s : State) (n b : Nat) : Option Nat :=
  if (badIn s (crcEntry s n b) 8).isSome then goldenCrc s n b else some (readNat s.mem (crcEntry s n b) 8)

/-- Write a table entry afresh (R149): the 128-bit word that holds it, whose other entry comes from the golden map too when
the word is unreadable. -/
def freshEntry (s : State) (n b crc : Nat) : State :=
  let b0 := 2 * (b / 2)
  let other := if b = b0 then b0 + 1 else b0
  let w := crcEntry s n b0
  if (badIn s w 16).isNone then physPut s (crcEntry s n b) 8 crc
  else
    let g := if grSize s n / 4096 ≤ other then 0 else (goldenCrc s n other).getD 0
    physWrite s w (if b = b0 then natBytes 8 crc ++ natBytes 8 g else natBytes 8 g ++ natBytes 8 crc)

/-- Close a KW_REPAIR slot (R411). -/
def closeSlot (s : State) (slot : Option Nat) : State :=
  match slot with
  | some i => (List.range 4).foldl (fun st j => setReg64 st (0xC0100 + 0x20 * i + 8 * j) 0) s
  | none => s

/-- The repair of a range's block, if it holds a repair slot and a stage has begun. -/
def findRepair (s : State) (n b : Nat) : Option Repair :=
  (s.repairs.find? fun r => decide (r.range = n ∧ r.block = b)).filter fun r => decide (0 < r.stage)

/-- Replace or remove a repair. -/
def putRepair (s : State) (r : Repair) (new : Option Repair) : State :=
  { s with repairs := s.repairs.flatMap fun x =>
      if x.range = r.range ∧ x.block = r.block then new.toList else [x] }

/-- A stage has succeeded: the block and its entry are written, the quarantine ends and a record names the stage (R158). -/
def repaired (s : State) (r : Repair) (data : List Byte) (crc : Nat) : State :=
  let s1 := freshEntry (physWrite s (grBase s r.range + 4096 * r.block) data) r.range r.block crc
  let s2 := putRepair (closeSlot s1 r.slot) r none
  let s3 := countUp s2 (Reg.mcGrRepairs r.range) (Reg.mcGrRepairsOvf r.range) 0 1
  let s4 := errorRecord (setFld s3 (Reg.mcGrFailBlock r.range) r.block)
    { type := 0x03, step := stepNow s, a0 := r.range, a1 := r.block, a2 := r.stage, a3 := (s.tk - r.began) / 100 }
  startRepairs s4

/-- Stage 2 asks the partner over port M. -/
def startStage2 (s : State) (r : Repair) : State :=
  let s1 := putRepair s r (some { r with stage := 2, limit := s.tk + 50000, got := [] })
  queueFrames s1 [mkFrame 0x30 0 0 (stepNow s) (r.range + 16 * r.block)
    (natBytes 8 ((expectedCrc s r.range r.block).getD 0) ++ regBytes s (0x31040 + 0x80 * r.range) 64)]

/-- Stage 3 opens the lowest free KW_REPAIR slot (R411). -/
def startStage3 (s : State) (r : Repair) : State :=
  let i := ((List.range 16).find? fun i => fld s (Reg.kwRepairRequest i) = 0).getD 0
  let lim := s.tk + 10000000
  let s1 := putRepair s r (some { r with stage := 3, slot := some i, limit := lim, got := [] })
  let s2 := setReg64 s1 (0xC0100 + 0x20 * i) (2 ^ 63 + r.range * 2 ^ 48 + r.block)
  let s3 := setReg64 s2 (0xC0108 + 0x20 * i) (grGolden s r.range + 4096 * r.block)
  let s4 := setReg64 (setReg64 s3 (0xC0110 + 0x20 * i) ((expectedCrc s r.range r.block).getD 0)) (0xC0118 + 0x20 * i) lim
  setAlert (sendIf s4 Reg.kwCtrlRepairIrqEn 266) 4

/-- A stage has failed or exceeded its limit: the next stage that may be used starts, and with none left the device enters
FATAL (R158). -/
def failStage (s : State) (r : Repair) : State :=
  let s1 := closeSlot (sendIf (setFld s Reg.mcStatusRepairFailed 1) Reg.mcCtrlUeIrqEn 259) r.slot
  if r.stage < 2 ∧ pairRole s = true ∧ flag s Reg.mcCtrlRepairPartnerEn = true then startStage2 s1 r
  else if r.stage < 3 ∧ flag s Reg.mcCtrlRepairHostEn = true then startStage3 s1 r
  else enterFatal (errorRecord s1
    { type := 0x04, step := stepNow s, a0 := r.range, a1 := r.block, a2 := r.stage }) 1 16

/-- A repair fetch has returned a block (R158): the stage succeeds when its CRC is the expected one. -/
def repairFetched (s : State) (r : Repair) (data : List Byte) : State :=
  let bs := padTo 4096 data
  let crc := (crc64 bs).toNat
  if expectedCrc s r.range r.block = some crc then repaired s r bs crc else failStage s r

/-- REPAIR_STAGE_END: the fetch of stage 1 ends. It has read the golden copy in tier 2 with the reads of R170 (Table 7-5); a
tier failure fails the stage. The blocks of the later stages arrive otherwise, from the partner as frames of port M and from
the host with REPAIR_SUPPLY, and the end of a stage that is not the repair's own is no event of it. -/
def repairStageEnd (s : State) (n b stage : Nat) : State :=
  match findRepair s n b, goldenOf s n b with
  | some r, some (z, j) =>
    if r.stage ≠ 1 ∨ stage ≠ 1 then s
    else
      let q := zoneRead s z j
      match q.2 with
      | .ok bs => repairFetched q.1 r bs
      | .error _ => failStage q.1 r
  | some r, none => if r.stage = 1 ∧ stage = 1 then failStage s r else s
  | none, _ => s

def repairStageLimit (s : State) (n b : Nat) : State :=
  match findRepair s n b with
  | some r => if r.limit ≤ s.tk then failStage s r else s
  | none => s

/-- A KW_REPAIR slot reaches its limit tick: stage 3 fails (R411). -/
def repairSlotLimit (s : State) (slot : Nat) : State :=
  match s.repairs.find? fun r => decide (r.slot = some slot) with
  | some r => if r.limit ≤ s.tk then failStage s r else s
  | none => s

/-- A granule of a block arrives from the partner (Table 14-4): the sixteenth completes the fetch. -/
def repairGranule (s : State) (n b j : Nat) (data : List Byte) : State :=
  match findRepair s n b with
  | some r =>
    if r.stage ≠ 2 then s
    else
      let got := smIns r.got j data
      let r1 := { r with got := got }
      let s1 := putRepair s r (some r1)
      if got.length < 16 then s1 else repairFetched s1 r1 (got.flatMap (·.2))
  | none => s

/-- The partner's request for a block (R158): answered with the block's granules when this device's range has the same
DIGEST and its own copy passes. -/
def serveRepair (s : State) (arg : Nat) (data : List Byte) : State :=
  let n := bits arg 3 0
  let b := bits arg 35 4
  if grState s n = 2 ∧ regBytes s (0x31040 + 0x80 * n) 64 = (data.drop 8).take 64 ∧ 4096 * b < grSize s n ∧
      inRepair s n b = false ∧ blockFails s n b = false then
    let bs := physRead s (grBase s n + 4096 * b) 4096
    let s1 := queueFrames s ((List.range 16).map fun j =>
      mkFrame 0x31 0 0 (stepNow s) (arg % 2 ^ 36 + j * 2 ^ 48) ((bs.drop (256 * j)).take 256))
    countUp s1 Reg.mrCountRepairsServed Reg.mrCountOvf 6 1
  else s

def execSeal (t n : Nat) (s : State) : Host.Outcome State Fault Refusal := presentUnit s t n 16 fun s => sealRange s n
def execUnseal (t n : Nat) (s : State) : Host.Outcome State Fault Refusal := presentUnit s t n 16 fun s => unsealRange s n
def execRepairStageLimit (t n b : Nat) (s : State) : Host.Outcome State Fault Refusal :=
  presentUnit s t n 16 fun s => repairStageLimit s n b
def execRepairSlotLimit (t slot : Nat) (s : State) : Host.Outcome State Fault Refusal :=
  presentUnit s t slot 16 fun s => repairSlotLimit s slot

end Sys2Proof.Machine
end

