-- ==== Sys2Proof/Machine/Token.lean ====
section
/-! DEFINITION. Class 0x9, token instructions (Table 5-19, R118 to R120), as the step scheduler applies them: charges
(R281), Mayflies, confirmation and the ends it finds (R303), and the replay of an adopted request (R346). -/
namespace Sys2Proof.Machine

/-- Charge a tenant for `c` confirmed tokens (R281). -/
def chargeTenant (s : State) (t c : Nat) : State :=
  if tenUnmetered s t then s
  else
    let b := tenBudget s t
    let again := s.sched.zeroed.contains t
    if again && decide (b = 0) then tenPut s t 0x20 8 ((tenGet s t 0x20 8 + c) % 2 ^ 48)
    else
      let s1 := tenPut s t 0 8 (b - c)
      if c < b then s1
      else
        let s2 := tenPut s1 t 0x20 8 (c - b)
        if again then s2
        else
          let n := tenGet s2 t 0x28 4 + 1
          let s3 := if 0xFFFFFFFF ≤ n then tenPut (tenPut s2 t 0x28 4 0xFFFFFFFF) t 0x2C 4 (setBits (tenGet s2 t 0x2C 4) 8 8 1)
            else tenPut s2 t 0x28 4 n
          { s3 with sched := { s3.sched with zeroed := t :: s3.sched.zeroed } }

/-- BUDGET reads zero for a metered tenant. -/
def tenantDry (s : State) (t : Nat) : Bool := !tenUnmetered s t && decide (tenBudget s t = 0)

/-- Tokens confirmed in order from a GENERATED value: those that stand and the code of the end they bring (R303). -/
def checkTokens (stops : List Nat) (limit : Nat) : Nat → List Word32 → List Word32 × Option Nat
  | _, [] => ([], none)
  | g, t :: ts =>
    if t ≠ 0xFFFFFFFF#32 ∧ stops.contains t.toNat then ([t], some 0x00)
    else if limit ≤ g + 1 then ([t], some 0x01)
    else
      let r := checkTokens stops limit (g + 1) ts
      (t :: r.1, r.2)

/-- The recorded token an adopted request confirms at an output index, if its replay list covers it (R346). -/
def replayAt (r : Req) (g : Nat) : Option Word32 := if r.replayFrom ≤ g then r.replay[g - r.replayFrom]? else none

/-- Tokens as the scheduler confirms them: recorded ones in place of those the instruction names. -/
def replaced (r : Req) : Nat → List Word32 → List Word32
  | _, [] => []
  | g, t :: ts => (replayAt r g).getD t :: replaced r (g + 1) ts

/-- Confirm tokens for a request: the state and the instruction's status (R119, R281, R303). -/
def confirmTokens (s : State) (rc : Nat) (named : List Word32) : State × Nat :=
  let g := rcGet s rc 0x38 4
  let r := getReq s rc
  let toks := replaced r g named
  let diff := ((List.zip toks named).filter fun p => p.1 ≠ p.2).length
  let t := rcTenant s rc
  let n := toks.length
  let v := checkTokens ((List.range 4).map fun i => rcGet s rc (0x40 + 4 * i) 4) (rcGet s rc 0x34 4) g toks
  let s1 := countUp (chargeTenant s t n) Reg.mrCountReplayDiff Reg.mrCountOvf 4 diff
  let charge := if tenUnmetered s t then 0 else n
  let s2 := setReq s1 rc { getReq s1 rc with confirmed := true, tokens := v.1, charges := r.charges ++ [(stepNow s, charge)] }
  let s3 := rcPut (rcPut s2 rc 0x38 4 ((g + v.1.length) % 2 ^ 32)) rc 0x3C 4 (v.1.getLastD 0).toNat
  let s4 := if g = 0 then rcPut s3 rc 0xA8 8 s.tk else s3
  let s5 := addTotal (tenPut s4 t 0x30 8 ((tenGet s4 t 0x30 8 + n) % 2 ^ 64)) Reg.sqTokensCount n
  let s6 := match v.2 with
    | some code => addCode s5 rc code
    | none => s5
  if tenantDry s6 t then (addCode s6 rc 0x20, 0x20) else (s6, 0)

/-- What a token instruction may name (R119): its refusal status otherwise. -/
def tokenStatus (s : State) (rc : Nat) : Option Nat :=
  if !rcLive s rc then some 0xF0
  else if rcCancelled s rc then some 0x50
  else if (s.sched.cur.map fun p => p.members.any fun m => decide (m.rc = rc) && !m.gone).getD false then none
  else some 0xF1

/-- TEMIT with SPEC records a Mayfly (R119, R281, R300). -/
def recordMayfly (s : State) (rc : Nat) (tok : Word32) : State × Nat :=
  let r := getReq s rc
  if !modeSpec s ∨ 8 ≤ r.mayflies.length then (s, 0xF1)
  else
    let s1 := rcPut (setReq s rc { r with mayflies := r.mayflies ++ [tok] }) rc 0x62 1 (r.mayflies.length + 1)
    let t := rcTenant s rc
    (tenPut s1 t 0x38 8 ((tenGet s1 t 0x38 8 + 1) % 2 ^ 64), 0)

/-- TEMIT (R119). -/
def temit (s : State) (rc : Nat) (spec : Bool) (tok : Word32) : State × Nat :=
  match tokenStatus s rc with
  | some v => (s, v)
  | none =>
    if spec then recordMayfly s rc tok
    else if (getReq s rc).confirmed then (s, 0xF2)
    else confirmTokens s rc [tok]

/-- Remove a request's pending Mayflies (R119). -/
def dropMayflies (s : State) (rc : Nat) : State :=
  let s1 := setReq s rc { getReq s rc with mayflies := [] }
  if rcGet s1 rc 0x62 1 = 0 then s1 else rcPut s1 rc 0x62 1 0

/-- TVERIFY (R118, R119): the i-th accepted Mayfly stands at position C + i, C being the length table's. -/
def tverify (s : State) (rc n : Nat) (tok : Word32) : State × Nat :=
  match tokenStatus s rc with
  | some v => (s, v)
  | none =>
    let r := getReq s rc
    if r.confirmed then (s, 0xF2)
    else if r.mayflies.length < n then (s, 0xF1)
    else
      let c := (declared s rc).1
      let taken := fun (e : StgEntry) =>
        decide (e.rc = rc) && e.spec && stgWhole s e && decide (c < e.pos ∧ e.pos ≤ c + n)
      let s1 := modAllStg s fun l => l.map fun e => if taken e then { e with confirmed := true } else e
      let s2 := removeStg s1 fun e => decide (e.rc = rc) && e.spec && !e.confirmed
      let s3 := dropMayflies (setReq s2 rc { getReq s2 rc with verify := some (r.mayflies.length, n) }) rc
      confirmTokens s3 rc (r.mayflies.take n ++ [tok])

/-- Write a status to sD after a token instruction. -/
def tokenRes (k : Nat) (w : FmtT) (r : State × Nat) : Res := regOp r.1 k fun c => writeS c w.d (BitVec.ofNat 64 r.2)

def execTemit (k : Nat) (w : FmtT) (s : State) : Host.Outcome State Fault Refusal :=
  issueT k w s infoTemit fun c =>
    tokenRes k w (temit s (bits (readS c w.a).toNat 15 0) (decide (modBits w 29 29 = 1)) ((readS c w.b).extractLsb' 0 32))
def execTverify (k : Nat) (w : FmtT) (s : State) : Host.Outcome State Fault Refusal :=
  issueT k w s infoTverify fun c =>
    tokenRes k w (tverify s (bits (readS c w.a).toNat 15 0) (readS c w.b).toNat ((readS c w.c).extractLsb' 0 32))

end Sys2Proof.Machine
end

