-- ==== Sys2Proof/Machine/Release.lean ====
section
/-! DEFINITION. What leaves the device for the host: completions (R286, R406, R408), output-ring entries (R307 to R309)
with the gate of the mirror (R339), and the end of a request (R278, R304). -/
namespace Sys2Proof.Machine

/-! ## Writes to the host -/

/-- The device may issue PCIe writes (R342, R410). -/
def mayWriteHost (s : State) : Bool := decide (mState s ≠ msFenced) && !s.kolwin.fatal

/-- Write a record of a ring in the host window row or the HBM row; one that reaches neither is dropped with a record. -/
def ringPut (s : State) (a : Nat) (bs : List Byte) : State :=
  if hostBase ≤ a ∧ a < peerBase then (if mayWriteHost s then hostPut s a bs else s)
  else if rowOf s a bs.length = .hbm ∧ guarded s a bs.length = false then physWrite s a bs
  else errorRecord s { type := 0x0A, step := stepNow s, a0 := a }

/-! ## Completion queues -/

/-- A ring size field: 2^k for k from 6 to 16, other values acting as 6 (Table 17-13). -/
def ringSize (k : Nat) : Nat := if 6 ≤ k ∧ k ≤ 16 then 2 ^ k else 64
def sqSize (s : State) (q : Nat) : Nat := ringSize (fld s (Reg.hqSqCtrlSqLog2 q))
def cqSize (s : State) (q : Nat) : Nat := ringSize (fld s (Reg.hqSqCtrlCqLog2 q))

/-- ERR.IDLE: stopped with no fetched command outstanding (Table 17-13). -/
def showIdle (s : State) (q : Nat) : State :=
  let qu := getQueue s q
  setFld s (Reg.hqSqErrIdle q) (b2n ((!flag s (Reg.hqSqCtrlEnable q) || qu.stopped) && decide (qu.open_ = 0)))

/-- Send queue `q`'s vector and start counting anew (R408). -/
def sendCoalesced (s : State) (q : Nat) : State :=
  setQueue (sendIf s (Reg.hqSqCtrlIrqEn q) q) q { getQueue s q with unsent := 0 }

/-- Count a completion towards the interrupt: it is sent at COUNT completions, or at once where TIME is 0 (R408). -/
def coalesce (s : State) (q : Nat) : State :=
  let qu := getQueue s q
  let s1 := setQueue s q { qu with unsent := qu.unsent + 1, firstAt := if qu.unsent = 0 then s.tk else qu.firstAt }
  if max 1 (fld s (Reg.hqSqCoalCount q)) ≤ qu.unsent + 1 ∨ fld s (Reg.hqSqCoalTime q) = 0 then sendCoalesced s1 q else s1

/-- The 32 bytes of a completion (Table 12-7, R406). -/
def completionBytes (s : State) (c : QCmd) (status result : Nat) : List Byte :=
  natBytes 2 c.cmd.cid.toNat ++ natBytes 1 c.opcode ++ natBytes 1 status ++ natBytes 2 c.cmd.rc.toNat ++ natBytes 2 0 ++
    natBytes 8 result ++ natBytes 8 s.tk ++ natBytes 4 0 ++
    natBytes 4 (c.queue * 2 ^ 24 + b2n (getQueue s c.queue).phase * 2 ^ 16 + c.head)

/-- Post a completion: it is written at the completion tail, which then advances (R408). A FATAL device posts none
(R410). -/
def complete (s : State) (c : QCmd) (status result : Nat) : State :=
  if s.kolwin.fatal then s
  else
    let q := c.queue
    let tail := fld s (Reg.hqSqHeadsCqTail q)
    let s1 := ringPut s (baseFld s (Reg.hqSqCqBase q) + 32 * tail) (completionBytes s c status result)
    let next := (tail + 1) % cqSize s q
    let qu := getQueue s1 q
    let s2 := setQueue s1 q { qu with open_ := qu.open_ - 1, phase := if next = 0 then !qu.phase else qu.phase }
    showIdle (coalesce (setFld s2 (Reg.hqSqHeadsCqTail q) next) q) q

/-! ## Output rings -/

def ringEntries (s : State) (rc : Nat) : Nat := rcGet s rc 0x88 4
/-- Entries of a request that wait for the partner (R339). -/
def gatedCount (s : State) (rc : Nat) : Nat := (s.mirror.gated.filter fun g => decide (g.1 = rc)).length
/-- The index the next entry takes: RING_TAIL, which advances as an entry is issued (R201), and the entries that wait. -/
def ringTail (s : State) (rc : Nat) : Nat := (rcGet s rc 0x8C 4 + gatedCount s rc) % 2 ^ 32
/-- An entry has been issued to PCIe: RING_TAIL advances (R201). -/
def tailIssued (s : State) (rc : Nat) : State := rcPut s rc 0x8C 4 ((rcGet s rc 0x8C 4 + 1) % 2 ^ 32)
def ringHead (s : State) (rc : Nat) : Nat := rcGet s rc 0x90 4
def rcGenerated (s : State) (rc : Nat) : Nat := rcGet s rc 0x38 4

/-- Free entries of a request's ring (R308); a head beyond the tail makes it read full. -/
def ringFree (s : State) (rc : Nat) : Nat := ringEntries s rc - (ringTail s rc + 2 ^ 32 - ringHead s rc) % 2 ^ 32

/-- The ring has room for a step of `r` new positions (R308). -/
def ringRoom (s : State) (rc r : Nat) : Bool := decide ((getReq s rc).held.length + r + 2 ≤ ringFree s rc)

/-- An output-ring entry (Table 12-12) at the ring's tail. -/
def entryBytesOf (s : State) (rc step kind : Nat) (first : Bool) (token : Nat) : List Byte :=
  let phase := 1 - ringTail s rc / max 1 (ringEntries s rc) % 2
  natBytes 16 (tick48 s * 2 ^ 80 + step % 2 ^ 32 * 2 ^ 48 + phase * 2 ^ 47 + kind * 2 ^ 44 + b2n first * 2 ^ 43 + token % 2 ^ 32)

/-- Ring writes wait for the partner (R339). -/
def ringGated (s : State) : Bool := decide (mState s = msPaired ∨ mState s = msSuspect)

/-- Write one entry at a ring's tail and advance the tail, at once or behind the gate (R201, R308). The answer is the entry. -/
def putRing (s : State) (rc step kind : Nat) (first : Bool) (token boundary : Nat) : State × List Byte :=
  let bs := entryBytesOf s rc step kind first token
  let t := ringTail s rc
  let a := rcGet s rc 0x80 8 + 16 * (t % max 1 (ringEntries s rc))
  (if ringGated s then { s with mirror := { s.mirror with gated := s.mirror.gated ++ [(rc, boundary, a, bs)] } }
    else tailIssued (ringPut s a bs) rc, bs)

/-- WRITTEN_TAIL: the index below which every entry of the request has been issued to PCIe (R339). -/
def writtenTail (s : State) (rc : Nat) : Nat := rcGet s rc 0x8C 4

/-- The RELEASE frames of a boundary for one request, 15 entries at most in each (Table 14-4). -/
def releaseFrames (rc step tail written : Nat) : List (List (List Byte)) → List MFrame
  | [] => []
  | es :: rest =>
    mkFrame 0x12 rc 0 step 0 (natBytes 4 tail ++ natBytes 4 written ++ natBytes 8 0 ++ es.flatten) ::
      releaseFrames rc step ((tail + es.length) % 2 ^ 32) written rest

/-- A request's records travel to the partner: paired, and the request is in the mirror (R335, R348). -/
def mirrors (s : State) (rc : Nat) : Bool :=
  decide (mState s = msPaired ∨ mState s = msSyncing ∨ mState s = msSuspect) && (getReq s rc).maskSent

/-- The acknowledgement of a request's RELEASE of a step is still owed. -/
def releaseOwed (s : State) (rc step : Nat) : Bool :=
  let mine := fun (f : MFrame) => decide (f.type = 0x12 ∧ f.rc.toNat = rc ∧ f.step.toNat = step)
  s.mirror.queued.any mine || s.mirror.unacked.any fun p => mine p.1

/-- Issue the ring writes whose RELEASE has been acknowledged, in order, or all of them where the gate is open (R339). A
write behind one that waits waits too. -/
def openGate (s : State) : List (Nat × Nat × Nat × List Byte) → State
  | [] => { s with mirror := { s.mirror with gated := [] } }
  | g :: gs =>
    if ringGated s && (decide (mState s = msSuspect) || releaseOwed s g.1 g.2.1) then
      { s with mirror := { s.mirror with gated := g :: gs } }
    else openGate (tailIssued (ringPut s g.2.2.1 g.2.2.2) g.1) gs

/-- Entries that waited are issued, and the ring interrupt follows them (R201). -/
def drainGate (s : State) : State :=
  let s1 := openGate s s.mirror.gated
  if s1.mirror.gated.length < s.mirror.gated.length then sendIf s1 Reg.hqCtrlRingIrqEn 256 else s1

/-! ## Releases at a boundary (R306 to R309) -/

/-- Write the held tokens that are due, in order, while the ring has room: the entries written. -/
def writeHeld (s : State) (rc step : Nat) : List Held → State × List Held × List (List Byte)
  | [] => (s, [], [])
  | h :: hs =>
    if h.due ≤ step ∧ 0 < ringFree s rc then
      let r := putRing s rc h.step 0 h.first h.token.toNat step
      let q := writeHeld r.1 rc step hs
      (q.1, q.2.1, r.2 :: q.2.2)
    else (s, h :: hs, [])

/-- Count the ceiling tokens of a boundary that wrote `j` token entries (R312). -/
def countCeiling (s : State) (n : Nat) : State := { s with sched := { s.sched with fomTokens := s.sched.fomTokens + n } }

/-- The latency accounts of a boundary that wrote `j` ≥ 1 token entries (R309). -/
def latency (s : State) (rc j : Nat) : State :=
  let tbt := rcGet s rc 0x98 4
  let s1 :=
    if rcGet s rc 0xC4 4 = 0 then
      let ttft := rcGet s rc 0x94 4
      let firstOk := decide (ttft = 0) || decide (s.tk - rcGet s rc 0xA0 8 ≤ 100 * ttft)
      countCeiling (rcPut s rc 0xB0 8 s.tk) (b2n firstOk + (if tbt = 0 then j - 1 else 0))
    else
      let sample := (s.tk - rcGet s rc 0xB8 8) / j
      let a := rcPut s rc 0xC0 4 (max (rcGet s rc 0xC0 4) (min sample 0xFFFFFFFF))
      if tbt ≠ 0 ∧ 100 * tbt < sample then
        let n := rcGet a rc 0x9C 4 + 1
        let b := if 0xFFFFFFFF ≤ n then setRcFlag (rcPut a rc 0x9C 4 0xFFFFFFFF) rc 4 true else rcPut a rc 0x9C 4 n
        countUp b Reg.sqCountOverTbt Reg.sqCountOvf 4 1
      else countCeiling a j
  let s2 := rcPut s1 rc 0xB8 8 s.tk
  addTotal (rcPut s2 rc 0xC4 4 ((rcGet s2 rc 0xC4 4 + j) % 2 ^ 32)) Reg.sqEmittedCount j

/-- Set a request's held tokens and HELD. -/
def setHeld (s : State) (rc : Nat) (hs : List Held) : State :=
  rcPut (setReq s rc { getReq s rc with held := hs }) rc 0x61 1 hs.length

/-! ## Ends (R278, R283, R304) -/

/-- Adjust a pin count (R283). -/
def unpin (s : State) (rc : Nat) : State :=
  let v := rcAdapter s rc
  if v < numAdapters ∧ 0 < adGet s v 2 2 then adPut s v 2 2 (adGet s v 2 2 - 1) else s

/-- KV_STATUS.LIVE. -/
def showLive (s : State) : State := setFld s Reg.kvStatusLive (b2n (!(liveRcs s).isEmpty))

/-- What a request holds (R236): its runs, leaf block by leaf block, the pages of a block before the block; its spill runs;
and the addresses of its page-table and root entries. A page whose run is gone holds none. -/
def heldRuns (s : State) (rc : Nat) : List Nat × List Nat × List Nat :=
  let gone := (getReq s rc).evicted.filter fun e => e.2.2.2.2
  let pages := allPages s rc
  let leaves := allLeaves s rc
  let frames := pages.filterMap fun p =>
    if p.2.2.2.2.tier || gone.any (fun e => decide (e.2.1 = p.1 ∧ e.2.2.1 = p.2.1 ∧ e.2.2.2.1 = p.2.2.1)) then none
    else some ((p.1, p.2.1, p.2.2.1 / 512), p.2.2.2.2.frame)
  let spilled := pages.filterMap fun p => if p.2.2.2.2.tier then some p.2.2.2.2.frame else none
  (leaves.flatMap fun l =>
      (frames.filterMap fun f => if f.1 = (l.1, l.2.1, l.2.2.1) then some f.2 else none) ++ [l.2.2.2.2 / 4096],
    spilled, pages.map (fun p => p.2.2.2.1) ++ leaves.map fun l => l.2.2.2.1)

/-- The context returns to FREE: its pin is dropped, and its pages wait for the next boundary (R278). -/
def freeContext (s : State) (rc : Nat) : State :=
  let runs := heldRuns s rc
  let ended := if (getReq s rc).maskSent then s.mirror.ended ++ [rc] else s.mirror.ended
  let s1 := setReq (setRcState (unpin s rc) rc stFree) rc {}
  showLive { s1 with sched := { s1.sched with freeing := s1.sched.freeing ++ [runs] }
                     mirror := { s1.mirror with ended := ended } }

/-- Write a request's END entry once no token is held and its ring has room: PAUSED or FREE follows (Table 12-1). -/
def writeEnd (s : State) (rc step : Nat) : State × List (List Byte) :=
  let r := getReq s rc
  if rcState s rc = stEnding ∧ r.held.isEmpty = true ∧ 0 < ringFree s rc then
    let code := rcGet s rc 0x23 1
    let w := putRing s rc r.endStep 1 false (code + 256 * rcGenerated s rc) step
    (if code = 0x20 then setRcState w.1 rc stPaused else w.1, [w.2])
  else (s, [])

/-- Write the NOTICE entries a request is owed while its ring has room (R345, R363). -/
def writeNotices (s : State) (rc step : Nat) : List (Nat × Nat × Nat) → State × List (Nat × Nat × Nat) × List (List Byte)
  | [] => (s, [], [])
  | n :: ns =>
    if 0 < ringFree s rc then
      let r := putRing s rc n.2.1 2 false (n.1 + 256 * n.2.2) step
      let q := writeNotices r.1 rc step ns
      (q.1, q.2.1, r.2 :: q.2.2)
    else (s, n :: ns, [])

/-- Release one request's notices, due tokens and end entry: the entries written, and whether the end was (R306, R307). -/
def releaseOne (s : State) (rc step : Nat) : State × List (List Byte) × Bool :=
  let m := writeNotices s rc step (getReq s rc).notices
  let s0 := if m.2.2.isEmpty then s else setReq m.1 rc { getReq m.1 rc with notices := m.2.1 }
  if !m.2.1.isEmpty then (s0, m.2.2, false)
  else
    let w := writeHeld s0 rc step (getReq s0 rc).held
    let n := w.2.2.length
    let s1 := if n = 0 then w.1 else latency (setHeld w.1 rc w.2.1) rc n
    let e := writeEnd s1 rc step
    (e.1, m.2.2 ++ w.2.2 ++ e.2, !e.2.isEmpty)

/-- Release one request at a boundary: the RELEASE record carries the entries it gates; after its end entry a request
that is not PAUSED returns to FREE (Table 12-1). -/
def releaseReq (s : State) (rc step : Nat) : State :=
  let tail := ringTail s rc
  let written := writtenTail s rc
  let r := releaseOne s rc step
  let s1 := if r.2.1.isEmpty = true ∨ mirrors s rc = false then r.1
    else queueFrames r.1 (releaseFrames rc step tail written (chunks 15 r.2.1.length r.2.1))
  if r.2.2 = true ∧ rcGet s1 rc 0x23 1 ≠ 0x20 then freeContext s1 rc else s1

end Sys2Proof.Machine
end

