-- ==== Sys2Proof/Machine/Pager.lean ====
section
/-! DEFINITION. The page mover: shares (R237, R288), spills (R250) and restores (R251), of own requests and, for spills, of
the partner's mirrored pages (R340), and the release of the runs of ended requests (R236). -/
namespace Sys2Proof.Machine

/-! ## The spill stack -/

def spillZone (s : State) : Nat := fld s Reg.kvSpillZone
def spillStack (s : State) : Nat := baseFld s Reg.kvSpillBase

/-- Take a spill run index (R250). -/
def popSpill (s : State) : Option (Nat × State) :=
  let n := fld s Reg.kvSpillFreeCount
  if n = 0 ∨ spillStack s = 0 then none
  else some (readNat s.mem (spillStack s + 4 * (n - 1)) 4, setFld s Reg.kvSpillFreeCount (n - 1))

/-- Push a spill run index back (R251). -/
def pushSpill (s : State) (j : Nat) : State :=
  let n := fld s Reg.kvSpillFreeCount
  setFld (physPut s (spillStack s + 4 * n) 4 j) Reg.kvSpillFreeCount (n + 1)

/-- Release the pages of contexts that have returned to FREE: their entries are removed, and the runs those refer to are
released (R236, R278). -/
def releaseFreed (s : State) : State :=
  let clear := fun (st : State) (a : Nat) => physPut st a 8 0
  let s1 := s.sched.freeing.foldl (fun st p => p.2.1.foldl pushSpill (p.1.foldl dropRef (p.2.2.foldl clear st))) s
  { s1 with sched := { s1.sched with freeing := [] } }

/-! ## Spill (R250) -/

/-- Set or clear MOVING on a run. -/
def setMoving (s : State) (f : Nat) (v : Bool) : State := ftPut s f { ftGet s f with moving := v }

/-- A page may be spilled: TIER, SPEC and EVICTED clear, its run not shared and not moving (R250). -/
def maySpill (s : State) (p : Pte) : Bool :=
  !p.tier && !p.spec && !p.evicted && decide ((ftGet s p.frame).refs = 1) && !(ftGet s p.frame).moving

/-- Write frames `i` on of a run as logical blocks of the spill zone: false when the pool is full. -/
def spillFrames (s : State) (f j : Nat) : Nat → Nat → State × Bool
  | 0, _ => (s, true)
  | n + 1, i =>
    let r := zoneWrite s (spillZone s) (j * kvPf s + i) (physRead s (4096 * (f + i)) 4096)
    if r.2 then spillFrames r.1 f j n (i + 1) else r

/-- Spill one page (R250): the answer says whether the zone's pool was full. -/
def spillPage (s : State) (rc layer hg page : Nat) : State × Bool :=
  match findPte s rc layer hg page with
  | none => (s, false)
  | some (addr, p) =>
    let stay := fun (st : State) => setMoving st p.frame false
    let u := pocReadEvents s (4096 * p.frame) (4096 * kvPf s) 3 rc
    if u.2.isSome then (stay (poisonRun u.1 p.frame), false)
    else
      match popSpill u.1 with
      | none => (stay (setFld u.1 Reg.kvStatusSpillEmpty 1), false)
      | some (j, s1) =>
        let w := spillFrames s1 p.frame j (kvPf s) 0
        if w.2 then
          let s2 := putPte w.1 rc layer hg page addr { p with tier := true, frame := j }
          (countUp (dropRef (stay s2) p.frame) Reg.kvCountSpilled Reg.kvCountOvf 4 1, false)
        else (pushSpill (stay w.1) j, true)

/-- Start the spill of a parked request: its pages that may be spilled are MOVING. -/
def startSpill (s : State) (rc : Nat) (owed : QCmd) : State :=
  let ps := (allPages s rc).filter fun p => maySpill s p.2.2.2.2 && decide (spillStack s ≠ 0)
  let s1 := ps.foldl (fun st p => setMoving st p.2.2.2.2.frame true) s
  let pages := ps.map fun p => (p.1, p.2.1, p.2.2.1)
  if pages.isEmpty then complete s1 owed 0 0
  else setReq s1 rc { getReq s1 rc with pages := pages, restoring := false, spillFull := false, owed := some owed }

/-- Act on the mirror's page tables: the partner's images lie in their own table (R340). -/
def viaMirror (s : State) (f : State → State) : State :=
  let own := fld s Reg.sqRcBaseBase
  setFld (f (setFld s Reg.sqRcBaseBase (fld s Reg.mrTableBase))) Reg.sqRcBaseBase own

/-- A request whose mirror this device keeps. -/
def mirrored (s : State) (rc : Nat) : Bool := s.mirror.partner.any fun m => decide (m.rc = rc)

/-- Spill a full page of the mirror (R340). -/
def spillMirror (s : State) (rc layer hg page : Nat) : State :=
  match findPte s rc layer hg page with
  | some (_, p) => if p.count = 16 ∧ maySpill s p = true then (spillPage s rc layer hg page).1 else s
  | none => s

/-! ## Restore (R251) -/

/-- Read the frames of a spilled page: its bytes, or the cause and block of a tier failure. -/
def restoreFrames (s : State) (j : Nat) : Nat → State × Except (Nat × Nat) (List Byte)
  | 0 => (s, .ok [])
  | n + 1 =>
    let r := restoreFrames s j n
    match r.2 with
    | .error e => (r.1, .error e)
    | .ok bs =>
      let q := zoneRead r.1 (spillZone r.1) (j * kvPf s + n)
      match q.2 with
      | .ok b => (q.1, .ok (bs ++ b))
      | .error c => (q.1, .error (c, j * kvPf s + n))

/-- The request leaves PARKED for the state it was parked from (Table 12-1). -/
def unparkState (s : State) (rc : Nat) : State :=
  let toPrefill := bit (rcFlags s rc) 5
  match (getReq s rc).parkedFrom with
  | some st =>
    let r := getReq s rc
    let s1 := setReq s rc { r with parkedFrom := none, needImport := r.needImport || decide (st = stImporting) }
    setRcFlag (setRcState s1 rc st) rc 5 false
  | none => setRcFlag (setRcState s rc (if toPrefill then stPrefill else stReady)) rc 5 false

/-- Every page is resident: the limit is lifted, the request leaves PARKED and its completion is posted (R251, R286). -/
def restoreEnd (s : State) (rc : Nat) : State :=
  let r := getReq s rc
  let s1 := unparkState (setReq s rc { r with pages := [], restoring := false, limit := 0, owed := none }) rc
  let s2 := match r.owed with
    | some c => complete s1 c 0 0
    | none => s1
  armTierTimer s2

/-- Start the restore of a parked request's TIER 1 pages (R251). A takeover's restores carry no limit (R344). -/
def startRestore (s : State) (rc : Nat) (owed : Option QCmd) (limited : Bool) : State :=
  let pages := ((allPages s rc).filter fun p => p.2.2.2.2.tier).map fun p => (p.1, p.2.1, p.2.2.1)
  let s1 := setReq s rc { getReq s rc with
    pages := pages, restoring := true, owed := owed, limit := if limited then s.tk + tierWait s else 0 }
  if pages.isEmpty then restoreEnd s1 rc else armTierTimer s1

/-- A page of a request's list is done: with the last one the completion owed is posted (R286). With
NO_RESOURCE the command changes nothing: what was spilled is restored and the request leaves PARKED (notes/assumptions 120). -/
def spillNext (s : State) (rc layer hg page : Nat) (full : Bool) : State :=
  let r := getReq s rc
  let rest := r.pages.filter fun p => decide (p ≠ (layer, hg, page))
  let r1 := { r with pages := rest, spillFull := r.spillFull || full }
  if rest.isEmpty then
    let s1 := setReq s rc { r1 with owed := none }
    match r.owed with
    | some c => if r1.spillFull then startRestore (complete s1 c 4 0) rc none true else complete s1 c 0 0
    | none => s1
  else setReq s rc r1

/-- SPILL: the mover finishes one page. -/
def spill (s : State) (rc layer hg page : Nat) : State :=
  let r := getReq s rc
  if r.pages.contains (layer, hg, page) && !r.restoring then
    let w := spillPage s rc layer hg page
    spillNext w.1 rc layer hg page w.2
  else if mirrored s rc then viaMirror s fun st => spillMirror st rc layer hg page
  else s

/-- A tier failure of a restore ends the request with TIER_FAIL (R174, R251). -/
def restoreFails (s : State) (rc cause block : Nat) : State :=
  let s1 := errorRecord s { type := 0x05, cls := 4, src := 44, rc := rc, step := stepNow s, a0 := 2, a1 := block, a2 := cause }
  armTierTimer (addCode (setReq s1 rc { getReq s1 rc with pages := [], limit := 0 }) rc 0x11)

/-- RESTORE: the mover finishes one page. It waits while no unreserved run is free. -/
def restore (s : State) (rc layer hg page : Nat) : State :=
  let r := getReq s rc
  if !(r.pages.contains (layer, hg, page) && r.restoring) then s
  else
    match findPte s rc layer hg page with
    | none => s
    | some (addr, p) =>
      if unreserved s = 0 then s
      else
        let q := restoreFrames s p.frame (kvPf s)
        match q.2 with
        | .error e => restoreFails q.1 rc e.1 e.2
        | .ok bs =>
          match allocRun q.1 (rcTenant s rc) false false with
          | none => s
          | some (f, s1) =>
            let s2 := putPte (physWrite s1 (4096 * f) bs) rc layer hg page addr { p with tier := false, frame := f }
            let s3 := countUp (pushSpill s2 p.frame) Reg.kvCountRestored Reg.kvCountOvf 5 1
            let rest := r.pages.filter fun q => decide (q ≠ (layer, hg, page))
            if rest.isEmpty then restoreEnd s3 rc else setReq s3 rc { getReq s3 rc with pages := rest }

/-! ## Shares (R237, R288) -/

/-- The source's pages that hold the first `n` positions: layer, head group, page, entry address, entry. -/
def sharePages (s : State) (src n : Nat) : List (Nat × Nat × Nat × Nat × Pte) :=
  (allPages s src).filter fun p => decide (16 * p.2.2.1 < n)

/-- The source's page can be shared now (R237). -/
def sharable (s : State) (p : Pte) : Bool := !p.spec && !p.evicted && !p.tier && !(ftGet s p.frame).moving

/-- One more reference would pass the limit: the page is copied instead (R237). -/
def shareCopies (s : State) (p : Pte) : Bool := decide (65534 < (ftGet s p.frame).refs + 1)

/-- Share one page into the target. -/
def sharePage (s : State) (tgt src n : Nat) (q : Nat × Nat × Nat × Nat × Pte) : State :=
  let layer := q.1
  let hg := q.2.1
  let page := q.2.2.1
  let p := q.2.2.2.2
  match ensureLeaf s tgt layer hg page false with
  | none => s
  | some s1 =>
    match leafBlock s1 tgt layer hg (16 * page) with
    | none => s1
    | some b =>
      let e := { p with count := min 16 (n - 16 * page), shared := true }
      if shareCopies s1 p then
        match allocRun s1 (rcTenant s tgt) false false with
        | none => s1
        | some (f, s2) =>
          let s3 := countUp (physCopy s2 (4096 * p.frame) (4096 * f) (4096 * kvPf s)) Reg.kvCountShareRefused Reg.kvCountOvf 2 1
          putPte s3 tgt layer hg page (pteIn b (16 * page)) { e with shared := false, frame := f }
      else
        let f := ftGet s1 p.frame
        let s2 := ftPut s1 p.frame { f with refs := f.refs + 1 }
        putPte (putPte s2 src layer hg page q.2.2.2.1 { p with shared := true }) tgt layer hg page (pteIn b (16 * page)) e

/-- Runs a share takes: a leaf block for each block touched and a copy for each page past the reference limit. -/
def shareRuns (s : State) (ps : List (Nat × Nat × Nat × Nat × Pte)) : Nat :=
  let keys := ps.foldl (fun ks p =>
    let k := (p.1, p.2.1, p.2.2.1 / 512)
    if ks.contains k then ks else k :: ks) ([] : List (Nat × Nat × Nat))
  keys.length + (ps.filter fun p => shareCopies s p.2.2.2.2).length

/-- Set TENANT_SHARED on the shared runs the tenant owns (R288). -/
def markShared (s : State) (tenant : Nat) (ps : List (Nat × Nat × Nat × Nat × Pte)) : State :=
  ps.foldl (fun st p =>
    let f := ftGet st p.2.2.2.2.frame
    if f.owner = tenant then ftPut st p.2.2.2.2.frame { f with shared := true } else st) s

/-- Resend a request's image, mask and entries to the partner (R335). -/
def remirror (s : State) (rc : Nat) : State := if mirrors s rc then oweMirror s rc else s

/-- A share may be made (R237, R288): the target is in PREFILL at position 0 and holds no valid page, and the source is live
with the positions confirmed. -/
def shareStands (s : State) (tgt src n : Nat) : Bool :=
  decide (rcState s tgt = stPrefill ∧ rcPos s tgt = 0) && (allPages s tgt).isEmpty && rcLive s src && decide (n ≤ rcPos s src)

/-- Carry out a share, or leave it waiting (R237, R288). -/
def tryShare (s : State) (tgt src n : Nat) (c : QCmd) : State :=
  let ps := sharePages s src n
  let own := decide (rcTenant s src = c.cmd.tenant.toNat) && bit c.cmd.flags.toNat 0
  if !(ps.all fun p => sharable s p.2.2.2.2) then setReq s tgt { getReq s tgt with share := some (src, n, c) }
  else
    let s0 := setReq s tgt { getReq s tgt with share := none }
    let s1 := if own then markShared s0 (rcTenant s src) ps else s0
    if rcTenant s tgt ≠ rcTenant s src ∧ ps.all (fun p => (ftGet s1 p.2.2.2.2.frame).shared) = false then
      complete (addCode s0 tgt 0x41) c 5 0
    else if unreserved s1 < shareRuns s1 ps then complete s0 c 4 0
    else
      let s2 := ps.foldl (fun st p => sharePage st tgt src n p) s1
      let past := (getReq s src).journal.map fun j => (j.1, fieldAt j.2 0x30 4)
      let s3 := setReq s2 tgt { getReq s2 tgt with shared := some (n, stepNow s2, past) }
      complete (remirror (rcPut s3 tgt 0x30 4 n) tgt) c 0 0

/-- Shares that wait try again (R237); one whose target or source no longer allows it completes with WRONG_STATE. -/
def retryShares (s : State) : State :=
  (s.reqs.map (·.1)).foldl (fun st rc =>
    match (getReq st rc).share with
    | some (src, n, c) =>
      if shareStands st rc src n then tryShare st rc src n c
      else complete (setReq st rc { getReq st rc with share := none }) c 3 0
    | none => st) s

/-- Restores that UNPARK asked for start (Table 12-13, order 7). -/
def startRestores (s : State) : State :=
  (s.reqs.map (·.1)).foldl (fun st rc =>
    let r := getReq st rc
    if r.needRestore then startRestore (setReq st rc { r with needRestore := false }) rc r.owed true else st) s

def execSpill (t rc layer hg page : Nat) (s : State) : Host.Outcome State Fault Refusal :=
  presentUnit s t rc numRcs fun s => spill s rc layer hg page

end Sys2Proof.Machine
end

