-- ==== Sys2Proof/Machine/HostCmd.lean ====
section
/-! DEFINITION. Host commands (R284 to R289, R305, Table 12-6) as the scheduler applies them: their field checks, the
statuses of Table 12-8, admissions (R287, R292), tenants (R280), adapter versions (R282, R283), images (R58, R90) and
guest tables (R289). -/
namespace Sys2Proof.Machine

/-! ## Fields (R285) -/

/-- An operand of a command: `n` bytes at its offset in the 64 bytes. -/
def opnd (c : QCmd) (off n : Nat) : Nat := fieldAt c.cmd.body (off - 8) n

/-- FLAGS bits an opcode uses. -/
def flagMask (op : Nat) : Nat := if op = 4 ∨ op = 6 ∨ op = 7 ∨ op = 12 then 1 else if op = 8 then 3 else 0

/-- RC and TENANT are used. -/
def usesRc (op : Nat) : Bool := decide (1 ≤ op ∧ op ≤ 6)
def usesTenant (op kind : Nat) : Bool := decide (op = 1 ∨ op = 6 ∨ op = 7 ∨ op = 8 ∨ op = 12 ∨ (op = 10 ∧ kind = 1))

/-- Operand bytes an opcode uses: offset and length. -/
def usedSpans (op : Nat) : List (Nat × Nat) :=
  match op with
  | 1 => [(0x08, 12)]
  | 3 => [(0x08, 4)]
  | 6 => [(0x08, 2), (0x0C, 4)]
  | 7 => [(0x08, 28)]
  | 8 => [(0x08, 4), (0x10, 28)]
  | 9 => [(0x08, 2)]
  | 10 => [(0x08, 13)]
  | 12 => [(0x08, 24)]
  | _ => []

/-- Every unused byte of the operands is zero. -/
def unusedZero (op : Nat) (body : List Byte) : Bool :=
  (List.zip (List.range body.length) body).all fun p =>
    decide (p.2 = 0) || (usedSpans op).any fun u => decide (u.1 ≤ p.1 + 8 ∧ p.1 + 8 < u.1 + u.2)

/-- The status of a command whose opcode or fields are bad (R285); TENANT names one of 4,096 tenants, which for ADMIT its own
checks say in their order (R287). -/
def fieldStatus (c : QCmd) : Option Nat :=
  let kind := opnd c 0x14 1
  if c.opcode = 0 ∨ 12 < c.opcode then some 1
  else if (255 - flagMask c.opcode) &&& c.cmd.flags.toNat ≠ 0 then some 2
  else if usesRc c.opcode = false ∧ c.cmd.rc.toNat ≠ 0 then some 2
  else if usesTenant c.opcode kind = false ∧ c.cmd.tenant.toNat ≠ 0 then some 2
  else if c.opcode ≠ 1 ∧ numTenants ≤ c.cmd.tenant.toNat then some 2
  else if unusedZero c.opcode c.cmd.body then none
  else some 2

/-- Read an operand area in the host window or HBM (R286): its bytes, or BAD_FIELD or READ_FAIL. -/
def operandArea (s : State) (a n rc : Nat) : State × Except Nat (List Byte) :=
  match rowOf s a n with
  | .host => (s, if (readFault s a n).isSome then .error 8 else .ok (physRead s a n))
  | .hbm =>
    let r := pocReadEvents s a n 3 rc
    (r.1, if r.2.isSome then .error 8 else .ok (physRead s a n))
  | _ => (s, .error 2)

/-! ## ADMIT (R287) -/

/-- `n` bytes at `a` lie in the populated HBM row. -/
def inHbm (a n : Nat) : Bool := decide (a + n ≤ hbmBytes)

/-- A power of two between two of them. -/
def ringPow (n : Nat) : Bool := (List.range 13).any fun i => decide (n = 256 * 2 ^ i)

/-- The guest fields of an admission image. -/
def guestFieldsOk (b : List Byte) : Bool :=
  let f := fieldAt b
  if bit (f 2 2) 1 then
    decide (f 0x64 4 % 8 = 0) && between 0xC000 (f 0x64 4) 0xFFF8 && between 1 (f 0x68 4) 1048576 &&
      decide (f 0x6C 4 ≠ 0 ∧ f 0x6C 4 % 256 = 0 ∧ f 0x6C 4 ≤ scratchBytes ∧ f 0x78 8 ≤ 268435456) &&
      (decide (f 0x78 8 = 0) || (decide (f 0x70 8 % 4096 = 0) && inHbm (f 0x70 8) (f 0x78 8)))
  else decide (leNat ((b.drop 0x64).take 28) = 0)

/-- The prompt and import fields of an admission image. -/
def promptFieldsOk (b : List Byte) : Bool :=
  let f := fieldAt b
  if bit (f 2 2) 2 then
    decide (f 0x28 8 = 0) && between 1 (f 0xF8 4) 65536 && decide (bits (f 0xFC 2) 14 10 = 0) &&
      decide (f 0xC8 8 % 256 = 0) && inHbm (f 0xC8 8) (16 * f 0xF8 4)
  else
    decide (f 0x28 8 ≠ 0) && inHbm (f 0x28 8) (4 * f 0x24 4) &&
      decide (f 0xC8 8 = 0 ∧ f 0xF0 8 = 0 ∧ f 0xF8 4 = 0 ∧ f 0xFC 2 = 0)

/-- The field checks of an admission image (R287, step 4; Tables 11-1 and 12-2, R229, R247). -/
def admitFieldsOk (s : State) (b : List Byte) : Bool :=
  let f := fieldAt b
  let e := kvLayers s * kvHmax s * f 0x20 1
  let mask := 64 * f 0x20 1 + (if f 1 1 = 2 then 1024 * f 0x20 1 else 0)
  decide (f 1 1 ≤ 2) && decide (f 2 2 / 64 = 0) && decide (f 0x63 1 = 0 ∧ f 0xFE 2 = 0) && decide (f 4 2 < numTenants) &&
  between 1 (f 0x20 1) 128 && decide (f 0x21 1 ≤ 8) && between 1 (f 0x34 4) 16777215 &&
  decide (1 ≤ f 0x24 4 ∧ f 0x24 4 + f 0x34 4 ≤ 8192 * f 0x20 1) &&
  decide (f 0x58 4 < 0x7F800000) && between 1 (f 0x5C 4) 0x3F800000 && decide (f 0x60 1 ≤ 64) &&
  decide (f 0x08 8 % 4096 = 0 ∧ f 0x10 8 % 4096 = 0) && inHbm (f 0x08 8) (8 * e) && inHbm (f 0x10 8) (1024 * e) &&
  (if f 1 1 = 0 then decide (f 0x18 8 = 0) else decide (f 0x18 8 % 256 = 0) && inHbm (f 0x18 8) mask) &&
  promptFieldsOk b && guestFieldsOk b &&
  decide (f 0x80 8 % 4096 = 0) && ringPow (f 0x88 4) && decide (rowOf s (f 0x80 8) (16 * f 0x88 4) = .host)

/-- The pair rules of R333 permit a context. -/
def pairPermits (s : State) (rc : Nat) : Bool :=
  !pairRole s ||
    (decide (rc / 32768 = fld s Reg.mrCtrlHalf) &&
      !(s.mirror.partner.any fun m => decide (m.rc = rc) && decide (viaTable s rc ≠ stFree)))
where
  /-- STATE of the partner's mirror image of the context. -/
  viaTable (s : State) (rc : Nat) : Nat := readNat s.mem (baseFld s Reg.mrTableBase + 256 * rc) 1

/-- The versions a request of a tenant may pin under an identifier (R283): not FREE, not RETIRED, the tenant's own or
SHARED. -/
def pinnable (s : State) (tenant id : Nat) : List Nat :=
  (List.range numAdapters).filter fun v =>
    decide (adGet s v 0 1 ≠ 0) && !bit (adGet s v 1 1) 0 && decide (adGet s v 4 4 = id) &&
      (decide (adGet s v 0x1C 2 = tenant) || bit (adGet s v 1 1) 1)

/-- The version an ADMIT pins: 0xFFFF for none, or the status of its refusal (R283). -/
def adapterOf (s : State) (tenant id : Nat) : Except Nat Nat :=
  if id = 0xFFFFFFFF then .ok 0xFFFF
  else
    match (pinnable s tenant id).getLast? with
    | none => .error 7
    | some v => if 65534 < adGet s v 2 2 + 1 then .error 4 else .ok v

/-- A guest may not be admitted (R302). -/
def guestBarred (s : State) (b : List Byte) : Bool :=
  bit (fieldAt b 2 2) 1 && (!modeGuest s || !tenGuestOk s (fieldAt b 4 2))

/-- The checks of an ADMIT whose image could be read (R287, steps 2 to 6): the version to pin, or the status. -/
def admitCheck (s : State) (c : QCmd) (b : List Byte) : Except Nat Nat :=
  let rc := c.cmd.rc.toNat
  if rcLive s rc || !kvEnabled s || !pairPermits s rc then .error 3
  else if c.cmd.tenant.toNat ≠ fieldAt b 4 2 then .error 5
  else if !admitFieldsOk s b then .error 2
  else if guestBarred s b then .error 6
  else adapterOf s (fieldAt b 4 2) (opnd c 0x10 4)

/-- The descriptor of an admitted request (Table 12-2): the image with the D and H fields at their values. -/
def admitImage (c : QCmd) (b : List Byte) (adapter : Nat) : List Byte :=
  let fl := fieldAt b 2 2 % 8
  let put := fun (off n v : Nat) (x : List Byte) => patch x off (natBytes n v)
  put 0 1 (if bit fl 2 then stImporting else stPrefill) <| put 2 2 fl <| put 6 2 adapter <|
    put 0x22 1 (fieldAt b 0x21 1) <| put 0x23 1 0 <| put 0x30 4 0 <| put 0x38 4 0 <| put 0x61 3 0 <|
    put 0x8C 8 0 <| put 0x9C 4 0 <| put 0xA0 8 c.tick <| put 0xA8 32 0 <| put 0xD0 32 0 b

/-- Start the import of an IMPORTING request in the lowest FREE entry, or leave it for the next boundary (R292). The
spec names no owner for the entry: it is a free value. -/
def startImport (s : State) (rc : Nat) : State :=
  match freeEntry s with
  | none => setReq s rc { getReq s rc with needImport := true }
  | some m =>
    let e : DotEntry :=
      { state := .active, kind := kImport, autofree := true, rcEn := true, rc := rc, owner := freeNow s % 512, start := s.tk,
        src := rcGet s rc 0xF0 8, kw0 := rcGet s rc 0xC8 8, kw1 := rcGet s rc 0xF8 4, kw2 := rcGet s rc 0xFC 2,
        byScheduler := true }
    let s1 := setDot (tookFree s) m e
    importStart (setReq s1 rc { getReq s1 rc with needImport := false, importOp := some m }) m

/-- An accepted ADMIT (R286, R287). -/
def admitAccept (s : State) (c : QCmd) (b : List Byte) (v : Nat) : State :=
  let rc := c.cmd.rc.toNat
  let s1 := setReq (physWrite s (rcAddr s rc) (admitImage c b v)) rc { born := stepNow s }
  let s2 := if v = 0xFFFF then s1 else adPut s1 v 2 2 (adGet s1 v 2 2 + 1)
  let s3 := countUp (showLive s2) Reg.sqCountAdmitted Reg.sqCountOvf 0 1
  complete (if rcState s3 rc = stImporting then startImport s3 rc else s3) c 0 0

/-- The import list that an admission image names can be read (R286). -/
def importListRead (s : State) (b : List Byte) (rc : Nat) : State × Bool :=
  if bit (fieldAt b 2 2) 2 then
    let r := operandArea s (fieldAt b 0xC8 8) (16 * fieldAt b 0xF8 4) rc
    (r.1, match r.2 with | .ok _ => true | .error _ => false)
  else (s, true)

/-- ADMIT (R287). Where the list of an import cannot be read, the spec does not say where that stands among the checks: it
comes after them (notes/assumptions 134). -/
def applyAdmit (s : State) (c : QCmd) : State :=
  let r := operandArea s (opnd c 0x08 8) 256 c.cmd.rc.toNat
  match r.2 with
  | .error st => complete r.1 c st 0
  | .ok b =>
    match admitCheck r.1 c b with
    | .error st => complete r.1 c st 0
    | .ok v =>
      let q := importListRead r.1 b c.cmd.rc.toNat
      if q.2 then admitAccept q.1 c b v else complete q.1 c 8 0

/-! ## Requests -/

/-- CANCEL (R287): the status of a FREE or ENDING context is WRONG_STATE. -/
def applyCancel (s : State) (c : QCmd) : State :=
  let rc := c.cmd.rc.toNat
  if rcState s rc = stFree ∨ rcState s rc = stEnding then complete s c 3 0
  else complete (addCode (setRcFlag s rc 3 true) rc 0x50) c 0 0

/-- RESUME_REQUEST (R305). -/
def applyResumeRequest (s : State) (c : QCmd) : State :=
  let rc := c.cmd.rc.toNat
  let limit := opnd c 0x08 4
  if rcState s rc ≠ stPaused then complete s c 3 0
  else if limit = 0 then complete (setRcState s rc stReady) c 0 0
  else if 16777215 < limit ∨ 8192 * rcRb s rc < rcGet s rc 0x24 4 + limit then complete s c 2 0
  else complete (setRcState (rcPut s rc 0x34 4 limit) rc stReady) c 0 0

/-- PARK (Table 12-1, R250). -/
def applyPark (s : State) (c : QCmd) : State :=
  let rc := c.cmd.rc.toNat
  let st := rcState s rc
  if st ≠ stPrefill ∧ st ≠ stReady then complete s c 3 0
  else
    let s1 := setRcState (setRcFlag s rc 5 (decide (st = stPrefill))) rc stParked
    if bit c.cmd.flags.toNat 0 then startSpill s1 rc c else complete s1 c 0 0

/-- UNPARK (R251): not while the request's spill or an earlier restore is in progress. The restore starts at order 7 of
Table 12-13. -/
def applyUnpark (s : State) (c : QCmd) : State :=
  let rc := c.cmd.rc.toNat
  let r := getReq s rc
  if rcState s rc ≠ stParked ∨ r.pages ≠ [] ∨ r.needRestore = true then complete s c 3 0
  else setReq s rc { r with needRestore := true, owed := some c }

/-- SHARE_PREFIX (R288). -/
def applyShare (s : State) (c : QCmd) : State :=
  let rc := c.cmd.rc.toNat
  let src := opnd c 0x08 2
  let n := opnd c 0x0C 4
  if (getReq s rc).share.isSome = true ∨ shareStands s rc src n = false then complete s c 3 0
  else if n = 0 ∨ rcGet s rc 0x24 4 < n then complete s c 2 0
  else tryShare s rc src n c

/-- TENANT (Table 12-6): the device's own fields of the entry stand. -/
def applyTenant (s : State) (c : QCmd) : State :=
  let t := c.cmd.tenant.toNat
  let budget := opnd c 0x08 8
  let cap := opnd c 0x10 8
  let period := opnd c 0x1C 4
  if 2 ^ 48 ≤ budget ∨ 2 ^ 48 ≤ cap ∨ 4 ≤ opnd c 0x20 4 then complete s c 2 0
  else
    let b := if bit c.cmd.flags.toNat 0 then min (2 ^ 48 - 1) (tenBudget s t + budget) else budget
    let s1 := tenPut (tenPut s t 0 8 b) t 0x08 8 cap
    let s2 := tenPut (tenPut s1 t 0x10 4 (opnd c 0x18 4)) t 0x14 4 period
    let s3 := tenPut s2 t 0x18 8 ((s.tk + 100 * period) % 2 ^ 64)
    complete (tenPut s3 t 0x2C 4 (tenGet s3 t 0x2C 4 / 4 * 4 + opnd c 0x20 4)) c 0 0

/-! ## Adapter versions (R282, R283) -/

def adFree : Nat := 0
def adLoading : Nat := 1
def adResident : Nat := 2
def adCold : Nat := 3
def adMoving : Nat := 4
def adState (s : State) (v : Nat) : Nat := adGet s v 0 1
def setAdState (s : State) (v st : Nat) : State := adPut s v 0 1 st
def adPins (s : State) (v : Nat) : Nat := adGet s v 2 2
def adHbm (s : State) (v : Nat) : Nat := adGet s v 8 8
def adGolden (s : State) (v : Nat) : Nat := adGet s v 0x10 8
def adBytes (s : State) (v : Nat) : Nat := adGet s v 0x18 4

/-- Other RESIDENT versions whose HBM area a copy of `v` would overwrite. -/
def areaHolders (s : State) (v : Nat) : List Nat :=
  (List.range numAdapters).filter fun u =>
    decide (u ≠ v) && decide (adState s u = adResident) && overlaps (adHbm s v) (adBytes s v) (adHbm s u) (adBytes s u)

/-- A copy into the version's area must wait: a RESIDENT version with pins holds part of it. -/
def areaPinned (s : State) (v : Nat) : Bool := (areaHolders s v).any fun u => decide (0 < adPins s u)

/-- RESIDENT versions without pins that hold part of the area become COLD. -/
def clearArea (s : State) (v : Nat) : State := (areaHolders s v).foldl (fun st u => setAdState st u adCold) s

/-- `n` bytes from `a` are logical blocks of enabled zones of tier 2. -/
def goldenOk (s : State) (a n : Nat) : Bool :=
  decide (a % 4096 = 0) && (List.range (n / 4096)).all fun i =>
    match zoneOf s (a + 4096 * i) with
    | some (z, _) => decide (tzTier s z = 2)
    | none => false

/-- The logical blocks from `a` on, or the cause and block of the failure. -/
def goldenRead (s : State) (a : Nat) : Nat → State × Except (Nat × Nat) (List Byte)
  | 0 => (s, .ok [])
  | n + 1 =>
    let r := goldenRead s a n
    match r.2 with
    | .error e => (r.1, .error e)
    | .ok bs =>
      match zoneOf r.1 (a + 4096 * n) with
      | none => (r.1, .error (7, (a + 4096 * n) / 4096))
      | some (z, j) =>
        let q := zoneRead r.1 z j
        match q.2 with
        | .ok b => (q.1, .ok (bs ++ b))
        | .error c => (q.1, .error (c, j))

/-- Write logical blocks from `a` on: false when a pool is full. -/
def goldenWrite (s : State) (a : Nat) : List (List Byte) → State × Bool
  | [] => (s, true)
  | b :: bs =>
    match zoneOf s a with
    | none => (s, false)
    | some (z, j) =>
      let r := zoneWrite s z j b
      if r.2 then goldenWrite r.1 (a + 4096) bs else r

/-- A LOAD_ADAPTER's operands are in range (R286). -/
def loadFieldsOk (s : State) (src hbm golden n : Nat) : Bool :=
  decide (n ≠ 0 ∧ n % 4096 = 0 ∧ hbm % 256 = 0) && inHbm hbm n && !guarded s hbm n && goldenOk s golden n &&
    (decide (src = golden) || (decide (src % 256 = 0) && decide (rowOf s src n = .hbm ∨ rowOf s src n = .host)))

/-- LOAD_ADAPTER takes the lowest FREE version and starts its copies. -/
def applyLoadAdapter (s : State) (c : QCmd) : State :=
  let n := opnd c 0x28 4
  if !loadFieldsOk s (opnd c 0x10 8) (opnd c 0x18 8) (opnd c 0x20 8) n then complete s c 2 0
  else
    match (List.range numAdapters).find? fun v => decide (adState s v = adFree) with
    | none => complete s c 4 0
    | some v =>
      let e := natBytes 1 adLoading ++ natBytes 1 (2 * b2n (bit c.cmd.flags.toNat 0)) ++ natBytes 2 0 ++ natBytes 4 (opnd c 0x08 4) ++
        natBytes 8 (opnd c 0x18 8) ++ natBytes 8 (opnd c 0x20 8) ++ natBytes 4 n ++ natBytes 2 c.cmd.tenant.toNat ++ natBytes 2 0
      let s1 := physWrite s (adAddr s v) e
      { s1 with sched := { s1.sched with adapters := s1.sched.adapters ++ [(v, some c)], loadOrder := v :: s1.sched.loadOrder } }

/-- A version becomes FREE: no copy and no age are left of it. -/
def freeAdapter (s : State) (v : Nat) : State :=
  let s1 := physWrite s (adAddr s v) (natBytes 32 0)
  { s1 with sched := { s1.sched with
      adapters := s1.sched.adapters.filter fun p => decide (p.1 ≠ v)
      loadOrder := s1.sched.loadOrder.filter (· ≠ v) } }

/-- A refused load leaves its version FREE. One that requests have pinned is RETIRED instead, and they end with TIER_FAIL
(notes/assumptions 121). -/
def loadRefused (s : State) (v : Nat) (c : QCmd) (status : Nat) : State :=
  let pinned := (liveRcs s).filter fun rc => decide (rcAdapter s rc = v)
  let s1 := if pinned.isEmpty then freeAdapter s v
    else pinned.foldl (fun st rc => addCode st rc 0x11) (adPut s v 1 1 (setBits (adGet s v 1 1) 0 0 1))
  complete s1 c status 0

/-- The source's bytes of a LOAD_ADAPTER, or READ_FAIL. -/
def loadSource (s : State) (v : Nat) (c : QCmd) : State × Except Nat (List Byte) :=
  let src := opnd c 0x10 8
  if src = adGolden s v then
    let r := goldenRead s src (adBytes s v / 4096)
    (r.1, match r.2 with | .ok b => .ok b | .error _ => .error 8)
  else operandArea s src (adBytes s v) 0xFFFF

/-- The state before a copy that a full pool stopped, with the POOL_FULL flags the copy set. -/
def setZonesFull (after before : State) : State :=
  (List.range 16).foldl (fun st z => if flag after (Reg.mcTzStatusPoolFull z) then setFld st (Reg.mcTzStatusPoolFull z) 1 else st) before

/-- The bytes of a LOAD_ADAPTER reach the golden area and, unless COLD, the resident area (R288). -/
def landAdapter (s : State) (v : Nat) (c : QCmd) (cold : Bool) (bs : List Byte) : State :=
  let w := if opnd c 0x10 8 = adGolden s v then (s, true)
    else goldenWrite s (adGolden s v) (chunks 4096 (bs.length / 4096 + 1) bs)
  if !w.2 then loadRefused (setZonesFull w.1 s) v c 4
  else
    let s2 := if cold then w.1 else physWrite (clearArea w.1 v) (adHbm s v) bs
    complete { s2 with sched := { s2.sched with landed := s2.sched.landed ++ [(v, cold)] } } c 0 v

/-- The copies of a LOAD_ADAPTER end (R286). With an area that pinned versions hold, or a source block under repair, the copy
waits. -/
def loadAdapterEnd (s0 : State) (v : Nat) (ok : Bool) : State :=
  match s0.sched.adapters.find? (fun p => decide (p.1 = v) && p.2.isSome) with
  | some (_, some c) =>
    let cold := bit c.cmd.flags.toNat 1
    let g := if ok then areaReady s0 (opnd c 0x10 8) (adBytes s0 v) else (s0, true)
    let s := g.1
    if (!cold && areaPinned s v) || !g.2 then s
    else
      let s1 := { s with sched := { s.sched with adapters := s.sched.adapters.filter fun p => decide (p.1 ≠ v) } }
      let r := loadSource s1 v c
      if !ok then loadRefused s1 v c 8
      else
        match r.2 with
        | .error st => loadRefused r.1 v c st
        | .ok bs => landAdapter r.1 v c cold bs
  | _ => s0

/-- Version `u` was taken up before version `v` (R283). -/
def olderVersion (s : State) (u v : Nat) : Bool := decide (u ≠ v) && !(s.sched.loadOrder.takeWhile (· ≠ v)).contains u

/-- Versions whose load has ended become RESIDENT or COLD, and the older ones of their identifier and tenant RETIRED, those
still LOADING too (R283). -/
def landAdapters (s : State) : State :=
  let s1 := s.sched.landed.foldl (fun st p =>
    let v := p.1
    let older := (List.range numAdapters).filter fun u =>
      olderVersion st u v && decide (adState st u ≠ adFree) && decide (adGet st u 4 4 = adGet st v 4 4) &&
        decide (adGet st u 0x1C 2 = adGet st v 0x1C 2)
    let st1 := older.foldl (fun q u => adPut q u 1 1 (setBits (adGet q u 1 1) 0 0 1)) st
    setAdState st1 v (if p.2 then adCold else adResident)) s
  { s1 with sched := { s1.sched with landed := [] } }

/-- A LOAD_ADAPTER owes a version's completion, or its landing. -/
def loadOwed (s : State) (v : Nat) : Bool :=
  s.sched.adapters.any (fun p => decide (p.1 = v) && p.2.isSome) || s.sched.landed.any fun p => decide (p.1 = v)

/-- RETIRED versions without pins become FREE (R283), a version still LOADING once its load has ended. -/
def freeAdapters (s : State) : State :=
  ((List.range numAdapters).filter fun v =>
    decide (adState s v ≠ adFree) && bit (adGet s v 1 1) 0 && decide (adPins s v = 0) && !loadOwed s v).foldl freeAdapter s

/-- RETIRE_ADAPTER. -/
def applyRetireAdapter (s : State) (c : QCmd) : State :=
  let v := opnd c 0x08 2
  if numAdapters ≤ v then complete s c 2 0
  else if adState s v = adFree then complete s c 3 0
  else complete (adPut s v 1 1 (setBits (adGet s v 1 1) 0 0 1)) c 0 0

/-- Requests that wait for a version to come in: their limit is armed (R283). -/
def adapterWaiters (s : State) (v : Nat) : List Nat :=
  (s.reqs.map (·.1)).filter fun rc =>
    decide (rcAdapter s rc = v) && decide (rcState s rc = stPrefill ∨ rcState s rc = stReady) &&
      decide ((getReq s rc).limit ≠ 0)

/-- Bring in a COLD version for a request that waits for it, unless pinned versions hold its area; each request that waits
has its own limit (R173, R283). -/
def bringIn (s : State) (rc : Nat) : State :=
  let v := rcAdapter s rc
  let arm := fun (st : State) =>
    if (getReq st rc).limit = 0 then armTierTimer (setReq st rc { getReq st rc with limit := st.tk + tierWait st }) else st
  if adState s v = adMoving then arm s
  else if adState s v = adCold ∧ areaPinned s v = false then
    let s1 := setAdState (clearArea s v) v adMoving
    arm { s1 with sched := { s1.sched with adapters := s1.sched.adapters ++ [(v, none)] } }
  else s

/-- Lift the limits of the requests that wait for a version, with a code for each when the copy failed. -/
def endWaiters (s : State) (v : Nat) (failed : Bool) : State :=
  armTierTimer ((adapterWaiters s v).foldl (fun st rc =>
    let st1 := setReq st rc { getReq st rc with limit := 0 }
    if failed then addCode st1 rc 0x11 else st1) s)

/-- Bringing a version in ends (R283, R174). A failure that the event reports is the tier-2 controller's, cause 7; a
guarded area refuses the copy (R157). A copy waits while pinned versions that have come in since hold part of its area. -/
def adapterEnd (s : State) (v : Nat) (ok : Bool) : State :=
  if s.sched.adapters.contains (v, none) then
    let s1 := { s with sched := { s.sched with adapters := s.sched.adapters.filter fun p => decide (p.1 ≠ v) } }
    let r := if ok then goldenRead s1 (adGolden s v) (adBytes s v / 4096) else (s1, .error (7, adGolden s v / 4096))
    match r.2 with
    | .ok bs =>
      if areaPinned s v then s
      else if guarded r.1 (adHbm s v) bs.length then endWaiters (setAdState r.1 v adCold) v true
      else endWaiters (setAdState (physWrite (clearArea r.1 v) (adHbm s v) bs) v adResident) v false
    | .error e =>
      let s2 := errorRecord r.1 { type := 0x05, cls := 4, src := 44, step := stepNow s1, a0 := 2, a1 := e.2, a2 := e.1 }
      endWaiters (setAdState s2 v adCold) v true
  else s

/-! ## Images (R58, R89, R90) -/

/-- A guest word may stand in an image at `pc`: it is in Table 4-6, and a branch stays in the image. -/
def guestWordOk (len pc : Nat) (w : Word) : Bool :=
  match decodeWord w with
  | none => false
  | some i =>
    let op := (w.extractLsb' 54 6).toNat
    let br := decide ((w.extractLsb' 60 4).toNat = 0 ∧ 1 ≤ op ∧ op ≤ 3)
    let tgt := (pc : Int) + 8 * (fieldsL w).imm.toInt
    i.guest && (!br || (decide (0 ≤ tgt) && decide (tgt < len)))

/-- The FORMAT check: `mat` and `nb` are the image's format bits, `exact` its exact-accumulation flag (Table 4-14). -/
def formatsOk (mat nb : Nat) (exact : Bool) : Bool :=
  (List.range 16).all (fun n => !bit mat n || pairings.any fun p => decide (p.1 = n ∨ p.2.1 = n)) &&
  (List.range 16).all (fun n => !bit nb n || bit 0x4E n) &&
  (!exact || pairings.any fun p => decide (p.2.2.2 = 1) && bit mat p.1 && bit mat p.2.1)

/-- The code fits from the offset (Table 4-14, SIZE). -/
def imageFits (s : State) (off len kind : Nat) : Bool :=
  decide (len ≠ 0 ∧ len % 8 = 0 ∧ off + len ≤ 0x10000) &&
    (if kind = 1 then decide (0xC000 ≤ off) else !modeGuest s || decide (off + len ≤ 0xC000))

/-- The first check of Table 4-14 that fails, 0 for none. -/
def imageStatus (s : State) (h code : List Byte) (off kind : Nat) : Nat :=
  let f := fieldAt h
  if h.take 4 ≠ ascii "NMYB" then 1
  else if f 5 1 ≠ 1 then 2
  else if 1 < f 6 2 then 3
  else if (h.drop 0x40).take 64 ≠ shake256 code 64 then 4
  else if f 8 1 ≠ kind then 5
  else if !formatsOk (f 0x1A 2) (f 0x1C 2) (bit (f 9 1) 0) then 6
  else if !imageFits s off code.length kind || decide (scratchBytes < f 0x14 4) then 7
  else if heldFirst < f 0x1E 2 ∨ numDot < f 0x20 2 ∨ 1048576 < f 0x24 4 then 8
  else if kind = 1 ∧ ((List.range (code.length / 8)).all fun i =>
      guestWordOk code.length (8 * i) (BitVec.ofNat 64 (fieldAt code (8 * i) 8))) = false then 9
  else 0

/-- An image overlaps one that the step in progress may run. -/
def usedByStep (s : State) (i : Image) : Bool :=
  s.sched.cur.isSome && s.images.any fun j => overlaps i.off i.len j.off j.len

/-- LOAD_IMAGE starts its copies (R58, R90, R284). Its areas are read before the checks of Table 4-14: the model's choice
(notes/assumptions/123.md). -/
def applyLoadImage (s : State) (c : QCmd) : State :=
  let off := opnd c 0x10 4
  let kind := opnd c 0x14 1
  if 1 < kind ∨ off % 8 ≠ 0 ∨ 0x10000 ≤ off then complete s c 2 0
  else
    let src := opnd c 0x08 8
    let r := operandArea s src 128 0xFFFF
    match r.2 with
    | .error st => complete r.1 c st 0
    | .ok h =>
      let q := if fieldAt h 0x0C 4 = 0 then (r.1, Except.ok []) else operandArea r.1 (src + 128) (fieldAt h 0x0C 4) 0xFFFF
      match q.2 with
      | .error st => complete q.1 c st 0
      | .ok code =>
        let st := imageStatus q.1 h code off kind
        if st ≠ 0 then complete q.1 c 0 st
        else
          let i : Image := { off := off, len := code.length, guest := decide (kind = 1), tenant := c.cmd.tenant.toNat,
                             entry := off + fieldAt h 0x10 4 }
          let l : ImageLoad := { image := i, code := code, header := h, cmd := c, atBoundary := usedByStep q.1 i }
          { q.1 with loads := q.1.loads ++ [l] }

/-- Measurement register Mi (R399). -/
def measure (s : State) (i : Nat) : List Byte :=
  ((s.kolwin.measures.find? fun p => decide (p.1 = i)).map (·.2)).getD (List.replicate 64 0)

/-- Extend Mi by a digest (R399). -/
def extendM (s : State) (i : Nat) (x : List Byte) : State :=
  let m := shake256 (measure s i ++ x) 64
  { s with kolwin := { s.kolwin with measures := (i, m) :: s.kolwin.measures.filter fun p => decide (p.1 ≠ i) } }

/-- M3 takes an operator image's header digest, M4 a guest image's with its tenant (R399). -/
def measureImage (s : State) (l : ImageLoad) : State :=
  let d := (l.header.drop 0x40).take 64
  if l.image.guest then extendM s 4 (d ++ natBytes 2 l.image.tenant) else extendM s 3 d

/-- A load takes effect: the code stands in instruction memory, images it overlaps are gone, and the load completes. -/
def installImage (s : State) (l : ImageLoad) : State :=
  let keep := s.images.filter fun j => !overlaps l.image.off l.image.len j.off j.len
  let s1 := if l.image.off < 0xC000 then formDigest (measureImage s l) else measureImage s l
  complete { s1 with imem := writeBytes s1.imem l.image.off l.code, images := keep ++ [l.image] } l.cmd 0 0

/-- The oldest load whose copies are in progress completes, or waits for the boundary (R58). -/
def imageEnd (s : State) : State :=
  match s.loads.find? fun l => !l.atBoundary with
  | none => s
  | some l =>
    let rest := s.loads.filter fun k => decide (k ≠ l)
    if usedByStep s l.image then { s with loads := rest ++ [{ l with atBoundary := true }] }
    else installImage { s with loads := rest } l

/-- Loads that wait for the boundary take effect. -/
def installWaiting (s : State) : State :=
  (s.loads.filter (·.atBoundary)).foldl installImage { s with loads := s.loads.filter fun l => !l.atBoundary }

/-! ## Guest tables (R289) -/

/-- Frames of a range, and the first frames of its runs. -/
def rangeFrames (a n : Nat) : List Nat := (List.range (n / 4096)).map fun i => a / 4096 + i
def rangeRuns (s : State) (a n : Nat) : List Nat := (rangeFrames a n).filter fun f => decide (f % max 1 (kvPf s) = 0)

/-- The range is whole runs of the pool (R289). -/
def tableRangeOk (s : State) (a n : Nat) : Bool :=
  decide (a % (4096 * max 1 (kvPf s)) = 0 ∧ n % (4096 * max 1 (kvPf s)) = 0) &&
    decide (poolFirst s ≤ a / 4096 ∧ (a + n) / 4096 ≤ poolFirst s + poolFrames s)

/-- The operands of a claim (R289). -/
def tableFieldsOk (s : State) (a n : Nat) : Bool := kvEnabled s && tableRangeOk s a n && decide (n ≤ 268435456)

/-- A live request's table region overlaps the range. -/
def tableInUse (s : State) (a n : Nat) : Bool :=
  (liveRcs s).any fun rc => overlaps a n (rcGet s rc 0x70 8) (rcGet s rc 0x78 8)

/-- Zero the frame-table entries of a range. -/
def zeroEntries (s : State) (a n : Nat) : State := (rangeFrames a n).foldl (fun st f => physPut st (ftAddr st f) 4 0) s

/-- Release a range. -/
def releaseTable (s : State) (c : QCmd) (a n : Nat) : State :=
  let own : Fte := { owner := c.cmd.tenant.toNat, shared := false, poisoned := false, moving := false, table := false, refs := 1 }
  if (rangeRuns s a n).all (fun f => decide (ftGet s f = own)) && !tableInUse s a n then complete (zeroEntries s a n) c 0 0
  else complete s c 3 0

/-- GUEST_TABLE (R289). -/
def applyGuestTable (s : State) (c : QCmd) : State :=
  let a := opnd c 0x08 8
  let n := opnd c 0x10 8
  let src := opnd c 0x18 8
  if bit c.cmd.flags.toNat 0 then if tableRangeOk s a n then releaseTable s c a n else complete s c 2 0
  else if !tableFieldsOk s a n then complete s c 2 0
  else if src ≠ 0 ∧ rowOf s src n ≠ .host ∧ rowOf s src n ≠ .hbm then complete s c 2 0
  else if (rangeFrames a n).any (fun f => decide (readNat s.mem (ftAddr s f) 4 ≠ 0)) then complete s c 3 0
  else
    let own : Fte := { owner := c.cmd.tenant.toNat, shared := false, poisoned := false, moving := false, table := false, refs := 1 }
    let s1 := (rangeRuns s a n).foldl (fun st f => ftPut st f own) s
    { s1 with sched := { s1.sched with guestCopy := s1.sched.guestCopy ++ [(c, a, n, src)] } }

/-- Drop a range's lines from every cluster cache (R289). -/
def dropLines (s : State) (a n : Nat) : State :=
  (List.range 32).foldl (fun st k =>
    let cl := getCluster st k
    let keep := cl.cache.filter fun l => !(decide (a ≤ 256 * l.1) && decide (256 * l.1 < a + n))
    if keep.length = cl.cache.length then st else setCluster st k { cl with cache := keep }) s

/-- The oldest guest table copy and its invalidation end (R289), not while a source block is under repair. -/
def guestTableEnd (s : State) (ok : Bool) : State :=
  match s.sched.guestCopy with
  | [] => s
  | (c, a, n, src) :: rest =>
    let g := if ok ∧ src ≠ 0 then areaReady s src n else (s, true)
    let s1 := { g.1 with sched := { g.1.sched with guestCopy := rest } }
    if !g.2 then g.1
    else if src = 0 then complete (dropLines s1 a n) c 0 0
    else
      let r := operandArea s1 src n 0xFFFF
      match ok, r.2 with
      | true, .ok bs => complete (dropLines (physWrite r.1 a bs) a n) c 0 0
      | _, .error 2 => complete (zeroEntries r.1 a n) c 2 0
      | _, _ => complete (zeroEntries r.1 a n) c 8 0

/-! ## Application -/

/-- RESUME_SCHEDULER (R297): a scheduler that is not halted does not accept it; the formation follows. -/
def applyResumeScheduler (s : State) (c : QCmd) : State :=
  if flag s Reg.sqStatusHalted then complete (setFld s Reg.sqStatusHalted 0) c 0 0 else complete s c 3 0

/-- Apply one command whose fields have passed. -/
def applyBody (s : State) (c : QCmd) : State :=
  match c.opcode with
  | 1 => applyAdmit s c
  | 2 => applyCancel s c
  | 3 => applyResumeRequest s c
  | 4 => applyPark s c
  | 5 => applyUnpark s c
  | 6 => applyShare s c
  | 7 => applyTenant s c
  | 8 => applyLoadAdapter s c
  | 9 => applyRetireAdapter s c
  | 10 => applyLoadImage s c
  | 11 => applyResumeScheduler s c
  | 12 => applyGuestTable s c
  | _ => complete s c 1 0

/-- A command joins those that wait in the order of their doorbells (R284). -/
def insertCmd (c : QCmd) : List QCmd → List QCmd
  | [] => [c]
  | x :: xs => if ahead x.tick c.tick then x :: insertCmd c xs else c :: x :: xs

/-- The areas of memory a command names that it reads as it is applied (R286). -/
def readAreas (s : State) (c : QCmd) : List (Nat × Nat) :=
  let a := opnd c 0x08 8
  match c.opcode with
  | 1 =>
    let b := pocRead s a 256
    (a, 256) :: if rowOf s a 256 = .hbm ∧ bit (fieldAt b 2 2) 2 = true then [(fieldAt b 0xC8 8, 16 * min 65536 (fieldAt b 0xF8 4))] else []
  | 10 => [(a, 128 + min 0x10000 (if rowOf s a 128 = .hbm then fieldAt (pocRead s a 128) 0x0C 4 else 0))]
  | _ => []

/-- Those areas hold no block under sealing or repair, and none that fails its check (R155, R156, R158). -/
def areasReady (s : State) (c : QCmd) : State × Bool :=
  (readAreas s c).foldl (fun r a =>
    let g := areaReady r.1 a.1 a.2
    (g.1, r.2 && g.2)) (s, true)

/-- Apply one command (R284, R285). One whose operand area must be repaired first waits for the next boundary. -/
def applyCmd (s : State) (c : QCmd) : State :=
  match fieldStatus c with
  | some st => complete s c st 0
  | none =>
    let r := areasReady s c
    if r.2 then applyBody r.1 c else { r.1 with sched := { r.1.sched with cmds := insertCmd c r.1.sched.cmds } }

/-- Apply the commands presented since the last boundary, in order (R284). -/
def applyCmds (s : State) : State :=
  s.sched.cmds.foldl applyCmd { s with sched := { s.sched with cmds := [] } }

def execAdapterCopyEnd (t v : Nat) (ok : Bool) (s : State) : Host.Outcome State Fault Refusal :=
  presentUnit s t v numAdapters fun s => adapterEnd s v ok
def execLoadAdapterCopyEnd (t v : Nat) (ok : Bool) (s : State) : Host.Outcome State Fault Refusal :=
  presentUnit s t v numAdapters fun s => loadAdapterEnd s v ok
def execImageLoadEnd (t : Nat) (s : State) : Host.Outcome State Fault Refusal := present s t imageEnd
def execGuestTableCopyEnd (t : Nat) (ok : Bool) (s : State) : Host.Outcome State Fault Refusal :=
  present s t fun s => guestTableEnd s ok

end Sys2Proof.Machine
end

