-- ==== Sys2Proof/Machine/Integrity.lean ====
section
/-! DEFINITION. The integrity engine: known-answer tests (R352 to R354), duplicate checks (R355 to R358), and retirement and
substitution (R359). Rollback stands in Sched.lean. -/
namespace Sys2Proof.Machine

/-! ## States of a core (Table 15-15) -/

def icInService : Nat := 0
def icDrained : Nat := 1
def icTesting : Nat := 2
def icFenced : Nat := 3
def icRetired : Nat := 4
def icSpareIdle : Nat := 5
def coreState (s : State) (k : Nat) : Nat := fld s (Reg.inCoreState k)

/-- STATUS.TESTING: some core is under test. -/
def showTesting (s : State) : State :=
  setFld s Reg.inStatusTesting (b2n ((List.range numCores).any fun k => decide (coreState s k = icTesting)))

def setCoreState (s : State) (k st : Nat) : State := showTesting (setFld s (Reg.inCoreState k) st)

/-- A core's last verified step, as VERIFIED holds it. -/
def verified (s : State) (k : Nat) : Nat := fld s (Reg.inCoreVerified k)

/-- A core has been verified up to a step: VERIFIED never falls. -/
def setVerified (s : State) (k n : Nat) : State := setFld s (Reg.inCoreVerified k) (max (verified s k) (n % 2 ^ 48))

/-- The key of a unit of Table 15-10 in `Integ.units`. -/
def unitKey (kind index : Nat) : Nat := 1024 * kind + index

/-- The states that the data tree and the control tree hold of a unit (R366): a core's stands in its IN_CORE register, where
an idle spare counts as in service. -/
def treeStates (s : State) (kind index : Nat) : Nat × Nat :=
  match s.integ.disagree.find? fun d => decide (d.kind = kind ∧ d.index = index) with
  | some d => (d.dataSt, d.ctrlSt)
  | none =>
    let r := if kind = 1 then (if coreState s index = icSpareIdle then icInService else coreState s index)
      else smGet natDefault s.integ.units (unitKey kind index)
    (r, r)

/-- The device treats a unit as the more restrictive of the two states (R366). -/
def unitState (s : State) (kind index : Nat) : Nat := max (treeStates s kind index).1 (treeStates s kind index).2

/-- A core takes part in steps: it serves a global ID and is in service, and so is its cluster (R17, R353, R366). -/
def takesPart (s : State) (k : Nat) : Bool :=
  serving s k && decide (coreState s k = icInService) && decide (unitState s 1 k = icInService) &&
    decide (unitState s 2 (clusterOf k) = icInService)

/-- The participating cores in ascending global ID (R295). -/
def participants (s : State) : List Nat :=
  (List.range 512).filterMap fun g => (physOf s g).bind fun k => if takesPart s k then some k else none

/-! ## Known-answer tests (R353, R354) -/

/-- Ticks of a test period (R353). -/
def testPeriod (s : State) : Nat := max 60 (fld s Reg.inCicadaPeriod) * 100000000

/-- Due ticks of all cores, checks being enabled at this tick (R353). -/
def armTests (s : State) : State :=
  { s with integ := { s.integ with
      due := (List.range numCores).map fun k => (k, s.tk + k * testPeriod s / numCores) } }

/-- A core falls due (R353): an idle spare is tested at once, a core in service waits for a boundary. -/
def testDue (s : State) (k : Nat) : State :=
  match s.integ.due.find? fun p => decide (p.1 = k) with
  | none => s
  | some (_, at_) =>
    if s.tk < at_ ∨ flag s Reg.inCtrlCicadaEn = false ∨ retired s k = true then s
    else
      let s1 := { s with integ := { s.integ with
        due := s.integ.due.map fun p => if p.1 = k then (k, at_ + testPeriod s) else p } }
      if coreState s1 k = icSpareIdle then setCoreState s1 k icTesting
      else if serving s1 k ∧ s1.integ.waiting.contains k = false then
        { s1 with integ := { s1.integ with waiting := s1.integ.waiting ++ [k] } }
      else s1

/-- A core in service of the cluster is under test; an idle spare under test does not count (R352). -/
def clusterTesting (s : State) (k : Nat) : Bool :=
  (List.range 17).any fun i =>
    let j := 17 * clusterOf k + i
    decide (coreState s j = icTesting) && serving s j

/-- Drain a core and start its test. -/
def startTest (s : State) (k : Nat) : State :=
  if takesPart s k then setCoreState s k icTesting else s

/-- Work of a boundary on tests (R353, R354): cores that passed return, overdue cores are tested whatever else is under
test, and newly due ones where no core in service of their cluster is. `next` is the index of the next step. -/
def testBoundary (s : State) (next : Nat) : State :=
  let back := s.integ.passed.foldl (fun st k =>
    if coreState st k = icDrained then setVerified (setCoreState st k icInService) k (next - 1) else st) s
  let s1 := s.integ.postponed.foldl startTest back
  let r := s.integ.waiting.foldl (fun (p : State × List Nat) k =>
    if clusterTesting p.1 k then (p.1, p.2 ++ [k]) else (startTest p.1 k, p.2)) (s1, [])
  { r.1 with integ := { r.1.integ with passed := [], waiting := [], postponed := r.2 } }

/-- Bring the spare's loss, or a retirement, to the next publication. -/
def owePublication (s : State) (mask : Nat) : State := { s with kolwin := { s.kolwin with publish := s.kolwin.publish ||| mask } }

/-- RETIRED record and count (R359). -/
def recordRetired (s : State) (k g : Nat) (substituted : Bool) : State :=
  countUp (errorRecord s { type := 0x14, step := stepNow s, a0 := k, a1 := g, a2 := b2n substituted, a3 := inService s })
    Reg.inCountRetirements Reg.inCountOvf 5 1

/-- The global core ID a record gives (Table 15-9): open for a core that serves none. -/
def recordGid (s : State) (k : Nat) : Nat := if serving s k then gidOf s k else Config.noCoreId % 2 ^ 64

/-- The RETIRED record of an idle spare: no ID passes and none leaves service, and the spec states no ARG2 for it. -/
def recordSpareRetired (s : State) (k : Nat) : State := recordRetired s k (recordGid s k) (decide (Config.idleSpareArg % 2 = 1))

/-- The idle spare of a core's cluster that has passed its last test. -/
def spareOf (s : State) (k : Nat) : Option Nat :=
  ((List.range 17).map fun i => 17 * clusterOf k + i).find? fun j => decide (coreState s j = icSpareIdle) && !serving s j

/-- Retire a core in service at a boundary (R359): the spare takes its global ID, with a scratchpad of zeros (R60), or the ID
leaves service. -/
def retireCore (s : State) (next k : Nat) : State :=
  if retired s k then s
  else
    let g := gidOf s k
    let s1 := setGid (setCoreState s k icRetired) k 512
    match spareOf s k with
    | some j =>
      let s2 := setVerified (setCoreState (setGid s1 j g) j icInService) j (next - 1)
      owePublication (recordRetired (modCore s2 j fun c => { c with scratch := [] }) k g true) 0x04
    | none => owePublication (recordRetired s1 k g false) 0x46

/-- Retirements of a boundary. -/
def retireLosers (s : State) (next : Nat) : State :=
  let s1 := s.integ.losing.foldl (fun st k => retireCore st next k) s
  { s1 with integ := { s1.integ with losing := [] } }

/-- A failed test: its event, record and counter (R354), and the retirement it brings: of an idle spare at once, of a core
in service at the next boundary. -/
def testFails (s : State) (k program : Nat) : State :=
  let s1 := errorRecord s { type := 0x10, cls := 4, src := clusterOf k, step := stepNow s, a0 := k, a1 := recordGid s k, a2 := program }
  let s2 := countUp s1 Reg.inCountCicadaFails Reg.inCountOvf 1 1
  if serving s2 k then
    let s3 := setCoreState s2 k icDrained
    { s3 with integ := { s3.integ with losing := s3.integ.losing ++ [k] } }
  else
    let s3 := recordSpareRetired (setCoreState s2 k icRetired) k
    { s3 with integ := { s3.integ with spareLost := true } }

/-- A test run ends (R354). -/
def testEnd (s : State) (k : Nat) (failing : Option Nat) : State :=
  if coreState s k ≠ icTesting then s
  else
    let s1 := countUp s Reg.inCountCicadaRuns Reg.inCountOvf 0 1
    match failing with
    | some p => testFails s1 k p
    | none =>
      if serving s1 k then
        let s2 := setCoreState s1 k icDrained
        { s2 with integ := { s2.integ with passed := s2.integ.passed ++ [k] } }
      else setCoreState s1 k icSpareIdle

/-- A spare's loss is published at a boundary or an idle formation (R359, Table 2-14). -/
def publishSpare (s : State) : State :=
  if s.integ.spareLost then owePublication { s with integ := { s.integ with spareLost := false } } 0x04 else s

/-! ## The check area (Tables 15-3 to 15-5) -/

def checkLayers (s : State) : Nat := fld s Reg.inCheckLayers
def checkDups (s : State) : Nat := fld s Reg.inCheckDups
def checkOut (s : State) : Nat := fld s Reg.inCheckOutBytes
/-- N for a step of so many tiles. -/
def checkN (s : State) (tiles : Nat) : Nat := checkLayers s * tiles
def bitmapBytes (s : State) (tiles : Nat) : Nat := (checkN s tiles + 2047) / 2048 * 256
def recordsOff (s : State) (tiles : Nat) : Nat := roundUp (bitmapBytes s tiles + 16 + 16 * checkDups s) 256
def outputsOff (s : State) (tiles : Nat) : Nat := recordsOff s tiles + roundUp (64 * checkN s tiles) 256
def slotBytes (s : State) (tiles : Nat) : Nat := outputsOff s tiles + checkOut s * checkDups s
/-- Address of the slot of step `n`; the eight slots lie one after the other. -/
def slotAddr (s : State) (tiles n : Nat) : Nat := baseFld s Reg.inCheckBaseBase + n % 8 * slotBytes s tiles

/-- TILES as it acts (Table 12-17). -/
def tilesNow (s : State) : Nat := max 1 (fld s Reg.sqTilesTiles)

/-- Every slot lies in the HBM row outside every guarded range that is not OFF (R368). -/
def checkAreaOk (s : State) : Bool :=
  let a := baseFld s Reg.inCheckBaseBase
  let n := 8 * slotBytes s (tilesNow s)
  inHbm a n && !guarded s a n

/-- Tile (ℓ, t) is selected in step `n` (R355). -/
def selected (s : State) (j n l t : Nat) : Bool :=
  decide (keyedWord (reg64 s Reg.inSeedSeed.off) n (l * 2 ^ 16 + t) 5 < 2 ^ (32 - j))

/-- The tiles selected in a step, layers ascending. -/
def selection (s : State) (tiles n : Nat) : List (Nat × Nat) :=
  let j := fld s Reg.inStatusSample
  if j = 0 ∨ flag s Reg.inCtrlCheckEn = false then []
  else (List.range (checkLayers s)).flatMap fun l => ((List.range tiles).filter fun t => selected s j n l t).map fun t => (l, t)

/-- Dense tiles of the participating cores by their rate factors (R295): the first tile of each, and the end of the last. -/
def tileFirsts (tiles : Nat) (rates : List Nat) : List Nat :=
  let w := max 1 rates.sum
  (List.range (rates.length + 1)).map fun k => tiles * (rates.take k).sum / w

/-- The core a tile is assigned to. -/
def tileCore (cores firsts : List Nat) (t : Nat) : Nat :=
  cores.getD (((List.range cores.length).findSome? fun k =>
    if firsts.getD k 0 ≤ t ∧ t < firsts.getD (k + 1) 0 then some k else none).getD cores.length) 0

/-! ## Placing checks (R356, R357) -/

/-- Checks whose next execution is still to run. -/
def checkPending (c : Check) : Bool :=
  decide (c.state = .recorded ∨ c.state = .duplicating ∨ c.state = .arbitrating)

/-- The core for a check's next execution (R357): the lowest global ID that takes part, on a rail other than the ones named.
-/
def checkCore (cores : List Nat) (c : Check) : Option Nat :=
  cores.find? fun k =>
    decide (railOf k ≠ railOf c.core) && (decide (c.state ≠ .arbitrating) || decide (railOf k ≠ railOf c.dup))

/-- Duplicate-list entries of step `idx`: check index, role and core, D at most, the checks of steps four or more before it
first (R358). -/
def placeChecks (s : State) (cores : List Nat) (idx : Nat) : List (Nat × Nat × Nat) :=
  let cs := List.zip (List.range s.integ.checks.length) s.integ.checks
  let late := fun (p : Nat × Check) => decide (p.2.step + 4 ≤ idx)
  ((cs.filter late ++ cs.filter fun p => !late p).filterMap fun p =>
    if checkPending p.2 then (checkCore cores p.2).map fun k => (p.1, (if p.2.state = .arbitrating then 2 else 1), k) else none).take
    (checkDups s)

/-- Bytes of a duplicate-list entry (Table 15-5). -/
def dupEntry (s : State) (d : Nat × Nat × Nat) : List Byte :=
  match s.integ.checks[d.1]? with
  | some c => natBytes 2 c.layer ++ natBytes 2 c.tile ++ natBytes 2 (gidOf s d.2.2) ++ natBytes 1 d.2.1 ++ natBytes 1 (c.step % 8) ++
      natBytes 8 c.step
  | none => natBytes 16 0

/-- The selection bitmap. -/
def bitmap (tiles n : Nat) (sel : List (Nat × Nat)) : List Byte :=
  (sel.map fun p => p.1 * tiles + p.2).foldl (fun bs i =>
    patch bs (i / 8) (natBytes 1 ((bs.getD (i / 8) 0).toNat ||| 2 ^ (i % 8)))) (List.replicate n 0)

/-- Write the slot of a step (R356). -/
def writeSlot (s : State) (p : Step) (sel : List (Nat × Nat)) : State :=
  if !flag s Reg.inCtrlCheckEn then s
  else
    let a := slotAddr s p.tiles p.idx
    let b := bitmapBytes s p.tiles
    let s1 := physWrite s a (bitmap p.tiles b sel)
    physWrite s1 (a + b) (natBytes 4 p.dups.length ++ natBytes 12 0 ++ p.dups.flatMap (dupEntry s))

/-- The checks of a launch: placed ones move on, and the selected tiles become SELECTED. -/
def openChecks (s : State) (p : Step) (firsts : List Nat) (sel : List (Nat × Nat)) : State :=
  let placed := p.dups.foldl (fun cs d =>
    match cs[d.1]? with
    | some c => cs.set d.1 { c with state := if c.state = .recorded then .duplicating else c.state, dupStep := p.idx,
                                    dup := if d.2.1 = 1 then d.2.2 else c.dup, arb := if d.2.1 = 2 then d.2.2 else c.arb
                                    dupGid := if d.2.1 = 1 then gidOf s d.2.2 else c.dupGid
                                    arbGid := if d.2.1 = 2 then gidOf s d.2.2 else c.arbGid }
    | none => cs) s.integ.checks
  let new := sel.map fun x : Nat × Nat =>
    let k := tileCore p.cores firsts x.2
    ({ step := p.idx, layer := x.1, tile := x.2, core := k, state := .selected, record := [], d0 := [], d1 := [], dup := 0, arb := 0,
       coreGid := gidOf s k, dupGid := 0, arbGid := 0, dupStep := 0, rolled := false } : Check)
  { s with integ := { s.integ with checks := placed ++ new } }

/-! ## Outcomes at a boundary (R357, Table 15-6) -/

/-- A read of the integrity engine at the point of coherence: none where a word is uncorrectable. -/
def engineRead (s : State) (a n : Nat) : State × Option (List Byte) :=
  let r := pocReadEvents s a n 10 0xFFFF
  (r.1, if r.2.isSome then none else some (physRead s a n))

/-- A check record is well formed (R356). -/
def recordValid (s : State) (c : Check) (b : List Byte) : Bool :=
  let f := fieldAt b
  decide (f 6 2 = 0x5A5A ∧ f 0 2 = c.layer ∧ f 2 2 = c.tile ∧ f 4 2 = c.coreGid ∧ f 8 8 % 256 = 0 ∧ f 0x10 8 % 256 = 0 ∧
    f 0x18 4 ≠ 0 ∧ f 0x18 4 % 256 = 0 ∧ f 0x18 4 ≤ checkOut s ∧ f 0x1C 4 = 0 ∧ leNat (b.drop 0x30) = 0) &&
    inHbm (f 8 8) (f 0x18 4) && inHbm (f 0x10 8) (f 0x18 4)

/-- Change one check. -/
def setCheck (s : State) (i : Nat) (c : Check) : State := { s with integ := { s.integ with checks := s.integ.checks.set i c } }

def dropCheck (s : State) (i : Nat) (c : Check) : State :=
  countUp (setCheck s i { c with state := .dropped }) Reg.inCountChecksDropped Reg.inCountOvf 4 1

/-- Read the record of a SELECTED check (Table 15-6): VALID reads 0 afterwards, and DIGEST holds D0. -/
def readRecord (s : State) (tiles i : Nat) (c : Check) : State :=
  let a := slotAddr s tiles c.step + recordsOff s tiles + 64 * (c.layer * tiles + c.tile)
  let r := engineRead s a 64
  match r.2 with
  | none => dropCheck r.1 i c
  | some b =>
    let s1 := physPut r.1 (a + 6) 2 0
    if !recordValid s1 c b then
      dropCheck (errorRecord s1 { type := 0x13, step := c.step, a0 := c.layer * 2 ^ 16 + c.tile, a1 := c.coreGid, a3 := c.step }) i c
    else
      let o := engineRead s1 (fieldAt b 0x10 8) (fieldAt b 0x18 4)
      match o.2 with
      | none => dropCheck o.1 i c
      | some out =>
        let d := shake256 out 16
        setCheck (physWrite o.1 (a + 0x20) d) i { c with state := .recorded, record := b, d0 := d }

/-- Add a step to which the outcomes of this boundary roll back (R360): an outcome for a step already rolled back only below
the target applied. -/
def wantRollback (s : State) (c : Check) (core : Nat) : State :=
  let g := verified s core
  let past := c.rolled && s.sched.rolledTo.any fun x => decide (x.1 < c.step ∧ c.step ≤ x.2 ∧ x.1 ≤ g)
  if past then s
  else { s with integ := { s.integ with target := some (match s.integ.target with | some t => min t g | none => g) } }

/-- A core loses. -/
def loses (s : State) (k : Nat) : State := { s with integ := { s.integ with losing := s.integ.losing ++ [k] } }

/-- A check that reached an outcome of its comparison. -/
def outcome (s : State) (i : Nat) (c : Check) (st : CheckState) : State :=
  countUp (setCheck s i { c with state := st }) Reg.inCountChecks Reg.inCountOvf 2 1

/-- CHECK_OUTCOME record, with the IDs the cores served as they took the check: the losing core stands in [15:0]; a place for which there is no losing core is not stated, a free
value. -/
def outcomeRecord (s : State) (c : Check) (code : Nat) (loser : Option Nat) : State :=
  let x := freeNow s % 2 ^ 16
  let s1 := tookFree s
  let y := freeNow s1 % 2 ^ 16
  let low := loser.getD y
  errorRecord (tookFree s1) { type := 0x12, step := c.step, a0 := code, a1 := c.arbGid, a2 := x * 2 ^ 16 + low, a3 := c.step }

/-- Drain a core and test it at once (Table 15-6, UNRESOLVED). -/
def testNow (s : State) (k : Nat) : State := if serving s k && !retired s k then setCoreState s k icTesting else s

/-- The outcome of an executed duplicate (Table 15-6). -/
def duplicateDone (s : State) (i : Nat) (c : Check) (d1 : List Byte) (step : Nat) : State :=
  if d1 = c.d0 then setVerified (setVerified (outcome s i c .matched) c.core c.step) c.dup step
  else
    let s1 := errorRecord s { type := 0x11, step := c.step, a0 := c.layer * 2 ^ 16 + c.tile, a1 := c.coreGid,
                              a2 := c.dupGid, a3 := c.step }
    countUp (setCheck s1 i { c with state := .arbitrating, d1 := d1 }) Reg.inCountMismatches Reg.inCountOvf 3 1

/-- The outcome of an executed arbiter (Table 15-6). -/
def arbiterDone (s : State) (i : Nat) (c : Check) (d2 : List Byte) : State :=
  if d2 = c.d1 then loses (wantRollback (outcomeRecord (outcome s i c .originalWrong) c 1 (some c.coreGid)) c c.core) c.core
  else if d2 = c.d0 then loses (wantRollback (outcomeRecord (outcome s i c .duplicateWrong) c 2 (some c.dupGid)) c c.dup) c.dup
  else
    let s1 := wantRollback (outcomeRecord (outcome s i c .unresolved) c 3 none) c c.core
    testNow (testNow (testNow s1 c.core) c.dup) c.arb

/-- Judge one duplicate-list entry of the step that has ended: entry `e` at output area `j`. -/
def judge (s : State) (p : Step) (j : Nat) (e : Nat × Nat × Nat) : State :=
  match s.integ.checks[e.1]? with
  | none => s
  | some c =>
    if p.faulted ∨ p.ueHit ∨ p.cores.contains e.2.2 = false ∨ (getCore s e.2.2).faulted = true then s
    else
      let r := engineRead s (slotAddr s p.tiles p.idx + outputsOff s p.tiles + checkOut s * j) (fieldAt c.record 0x18 4)
      match r.2 with
      | none => r.1
      | some out => if e.2.1 = 1 then duplicateDone r.1 e.1 c (shake256 out 16) p.idx else arbiterDone r.1 e.1 c (shake256 out 16)

/-- The integrity engine's work at the boundary that ends step `p` (R357): the step's entries are judged, its records are
read, and checks that have reached a last state leave the list. -/
def settleChecks (s : State) (p : Step) : State :=
  let s1 := (List.zip (List.range p.dups.length) p.dups).foldl (fun st q => judge st p q.1 q.2) s
  let s2 := (List.range s1.integ.checks.length).foldl (fun st i =>
    match st.integ.checks[i]? with
    | some c => if c.state = .selected ∧ c.step = p.idx then readRecord st p.tiles i c else st
    | none => st) s1
  { s2 with integ := { s2.integ with checks := s2.integ.checks.filter checkPending } }

/-- A check of a step four or more before the one that has ended has not settled, and an execution can be placed (R358). -/
def checkOnlyDue (s : State) (last : Nat) : Bool :=
  s.integ.checks.any (fun c => decide (c.step + 4 ≤ last)) && !(placeChecks s (participants s) (last + 1)).isEmpty

/-- A pending write of 1 to CHECK_EN takes effect at a formation, unless the layout refuses it (R368). -/
def applyCheckEn (s : State) : State :=
  if s.integ.checkPending then
    let s1 := { s with integ := { s.integ with checkPending := false } }
    if checkAreaOk s1 then setFld s1 Reg.inCtrlCheckEn 1 else s1
  else s

def execKnownAnswerTestDue (t k : Nat) (s : State) : Host.Outcome State Fault Refusal :=
  presentUnit s t k numCores fun s => testDue s k
def execKnownAnswerTestEnd (t k : Nat) (failing : Option Nat) (s : State) : Host.Outcome State Fault Refusal :=
  presentUnit s t k numCores fun s => testEnd s k failing

end Sys2Proof.Machine
end

