-- ==== Sys2Proof/Machine/MirrorOps.lean ====
section
/-! DEFINITION. The mirror engine: pairing (R333), what is sent for a request as a whole (R335, R348), the partner's mirror
(R340), acknowledgements (R337, R338), suspicion, fencing and unpairing (R341 to R343), and takeover (R344 to R346). -/
namespace Sys2Proof.Machine

/-! ## Slack (R290) -/

/-- Emission hold in force. -/
def est (s : State) : Nat := fld s Reg.sqEstEstStep

/-- Slack of a request at this tick, in signed ticks (R290). -/
def slack (s : State) (rc : Nat) : Int :=
  let first := decide (rcGet s rc 0xC4 4 = 0)
  let target := if first then rcGet s rc 0x94 4 else rcGet s rc 0x98 4
  let start := if first then rcGet s rc 0xA0 8 else rcGet s rc 0xB8 8
  if target = 0 then 2 ^ 62
  else ((start + 100 * target : Nat) : Int) - ((s.tk + (modeHold s + 1) * est s : Nat) : Int)

/-- Insert by ascending slack, then ascending RC. -/
def slackInsert (x : Int × Nat) : List (Int × Nat) → List (Int × Nat)
  | [] => [x]
  | y :: ys => if x.1 < y.1 ∨ (x.1 = y.1 ∧ x.2 < y.2) then x :: y :: ys else y :: slackInsert x ys

/-- Requests by ascending slack, then ascending RC (R291, R344). -/
def bySlack (s : State) (rcs : List Nat) : List Nat :=
  (rcs.foldl (fun acc rc => slackInsert (slack s rc, rc) acc) []).map (·.2)

/-! ## Pages rolled back (R245) -/

/-- Release a page left empty. -/
def emptyPage (s : State) (rc layer hg page addr : Nat) (p : Pte) (gone : Bool) : State :=
  let s1 := if gone then s else if p.tier then pushSpill s p.frame else dropRef s p.frame
  physPut (dropTb s1 (tbKey rc layer hg page)) addr 8 0

/-- Lower VALID_COUNT to `pos` positions, release pages left empty and clear EVICTED on the pages evicted after step `g`
(R245). The answer is the list of evictions that stand. -/
def rollPages (s : State) (rc g pos : Nat) (ev : List (Nat × Nat × Nat × Nat × Bool)) :
    State × List (Nat × Nat × Nat × Nat × Bool) :=
  let keep := ev.filter fun e => decide (e.1 ≤ g)
  let is := fun (l : List (Nat × Nat × Nat × Nat × Bool)) (p : Nat × Nat × Nat × Nat × Pte) =>
    l.any fun e => decide (e.2.1 = p.1 ∧ e.2.2.1 = p.2.1 ∧ e.2.2.2.1 = p.2.2.1)
  let freed := keep.filter fun e => e.2.2.2.2
  let s1 := (allPages s rc).foldl (fun st p =>
    let e := p.2.2.2.2
    let c := min e.count (pos - 16 * p.2.2.1)
    if c = 0 then emptyPage st rc p.1 p.2.1 p.2.2.1 p.2.2.2.1 e (is freed p)
    else
      let e1 := { e with count := c, evicted := e.evicted && is keep p }
      if e1 = e then st else putPte st rc p.1 p.2.1 p.2.2.1 p.2.2.2.1 e1) s
  (s1, keep)

/-! ## What is sent of a request (R335, Table 14-4) -/

/-- The descriptor as it travels: pending Mayflies never do. -/
def sentBytes (s : State) (rc : Nat) : List Byte := patch (readBytes s.mem (rcAddr s rc) 256) 0x62 [0]

def imageFrame (rc step : Nat) (b : List Byte) : MFrame := mkFrame 0x10 rc 0 step 0 b

/-- Bytes of a request's mask area (Table 11-1). -/
def maskBytes (b : List Byte) : Nat :=
  let rb := fieldAt b 0x20 1
  let m := fieldAt b 1 1
  if m = 0 then 0 else 64 * rb + (if m = 2 then 1024 * rb else 0)

def maskFrames (s : State) (rc step : Nat) : List MFrame :=
  let n := maskBytes (readBytes s.mem (rcAddr s rc) 256)
  let cs := chunks 256 n (pocRead s (rcGet s rc 0x18 8) n)
  (List.zip (List.range cs.length) cs).map fun p => mkFrame 0x13 rc 0 step (256 * p.1) p.2

/-- The bytes of a page: spilled ones from their zone, evicted ones as zeros (R249). -/
def pageData (s : State) (p : Pte) : List Byte :=
  if p.evicted then List.replicate (pageBytes s) 0
  else if p.tier then
    match (restoreFrames s p.frame (kvPf s)).2 with
    | .ok b => b
    | .error _ => List.replicate (pageBytes s) 0
  else pocRead s (4096 * p.frame) (pageBytes s)

def entryFrame (rc layer hg pos step : Nat) (b : List Byte) : MFrame := mkFrame 0x20 rc layer step (pos + hg * 2 ^ 32) b

/-- Position `t` of a page in the entry order of Table 10-1: key half, then value half. -/
def entryOfPage (s : State) (page : List Byte) (t : Nat) : List Byte :=
  ((keyPlaces s t) ++ valPlaces s t).map fun i => page.getD i 0

/-- Every confirmed entry of a request. -/
def allEntries (s : State) (rc step : Nat) : List MFrame :=
  (allPages s rc).flatMap fun p =>
    let d := pageData s p.2.2.2.2
    (List.range p.2.2.2.2.count).map fun t => entryFrame rc p.1 p.2.1 (16 * p.2.2.1 + t) step (entryOfPage s d t)

/-- PAGE_STATE frames of a request's events: event (1 EVICTED, 2 RELEASED), layer, head group, page. -/
def pageStateFrames (rc step : Nat) (es : List (Nat × Nat × Nat × Nat)) : List MFrame :=
  (chunks 31 es.length es).map fun g =>
    mkFrame 0x14 rc 0 step 0 (g.flatMap fun e => natBytes 8 (e.1 * 2 ^ 56 + e.2.2.1 * 2 ^ 40 + e.2.1 * 2 ^ 32 + e.2.2.2))

/-- Frames of a request as a whole: image, mask, evictions, entries (R348). -/
def bulkFrames (s : State) (rc step : Nat) : List MFrame :=
  let ev := (getReq s rc).evicted.flatMap fun e =>
    (1, e.2.1, e.2.2.1, e.2.2.2.1) :: (if e.2.2.2.2 then [(2, e.2.1, e.2.2.1, e.2.2.2.1)] else [])
  imageFrame rc step (sentBytes s rc) :: maskFrames s rc step ++ allEntries s rc step ++ pageStateFrames rc step ev

/-- Send the requests owed in full, in ascending order: MIRRORED follows with the STEP_END after them (R348). -/
def sendBulk (s : State) (step : Nat) : State :=
  let rcs := (List.range numRcs).filter fun rc => s.mirror.toMirror.contains rc && rcLive s rc
  let s1 := { s with mirror := { s.mirror with toMirror := [] } }
  rcs.foldl (fun st rc =>
    let st1 := queueFrames st (bulkFrames st rc step)
    setReq st1 rc { getReq st1 rc with maskSent := true, sentImage := sentBytes st1 rc, bulkStep := some step }) s1

/-! ## Pairing (R333, R46) -/

/-- Return the tick alignment to that of an unpaired device (R46). -/
def soloAlign (s : State) : State :=
  setFld (setFld (setFld (setFld { s with align := {} } Reg.tkStatusLeader 1) Reg.tkStatusLocked 0) Reg.tkStatusHoldover 0)
    Reg.tkStatusSlewing 0

/-- Forget what the pair kept: queues, and the marks of own requests. -/
def clearPair (s : State) : State :=
  let s1 := { s with mirror := { s.mirror with
    unacked := [], queued := [], nextSeq := 1, accepted := 0, hello := none, toMirror := [], slotless := [], partialE := [], ended := [],
    rollbacks := [], adopting := false, adoptQueue := [], adoptNow := none } }
  (s1.reqs.map (·.1)).foldl (fun st rc =>
    setReq st rc { getReq st rc with mirrored := false, maskSent := false, sentImage := [], bulkStep := none, unmirrored := false }) s1

/-- A pairing is refused (R333). -/
def refusePair (s : State) (result : Nat) : State := setMResult (setMState (clearPair s) msSolo) result

/-- SYNCING ends once every live request of both devices is MIRRORED (Table 14-1). -/
def trySync (s : State) : State :=
  if mState s = msSyncing ∧ (liveRcs s).all (fun rc => (getReq s rc).mirrored) = true ∧
      s.mirror.partner.all (·.mirroredAt) = true ∧ s.mirror.slotless = [] then setMState s msPaired
  else s

/-- The HELLO exchange completes (R333): a refusal, or SYNCING with leader and follower chosen (R46). -/
def pairComplete (s : State) (h : List Byte) : State :=
  let slot := fieldAt h 2 1
  let tick := fieldAt h 8 8
  let mine := s.mirror.helloTick
  if tick = mine ∧ slot = s.pins.slotId then refusePair s 2
  else if fieldAt h 3 1 = fld s Reg.mrCtrlHalf then refusePair s 3
  else if (h.drop 16).take 64 ≠ configDigest s then refusePair s 4
  else
    let follower := decide (mine < tick) || (decide (mine = tick) && decide (slot < s.pins.slotId))
    let s1 := setFld { s with align := { follower := follower, lastPulse := s.tk } } Reg.tkStatusLeader (b2n !follower)
    let s2 := setMResult (setMState s1 msSyncing) 1
    trySync (sendBulk { s2 with mirror := { s2.mirror with hello := none, toMirror := liveRcs s2 } } (stepNow s2))

/-- PAIR (R333, R415, Table 14-1). -/
def mirrorPair (s : State) : State :=
  if mState s ≠ msSolo then setMResult s 7
  else if s.pins.pairPresent ∨ portUp s portM = false then setMResult s 5
  else
    let h := s.mirror.hello
    let s1 := setMResult (setMState (clearPair s) msPairing) 0
    let s2 := setFld { s1 with mirror := { s1.mirror with lastBeat := s1.tk, helloTick := s1.tk } } Reg.tkCtrlSyncOutEn 1
    let s3 := queueFrames s2 [hello s2]
    match h with
    | some b => pairComplete s3 b
    | none => s3

/-! ## The partner's mirror (R340) -/

def mreq (s : State) (rc : Nat) : Option MirrorReq := s.mirror.partner.find? fun m => decide (m.rc = rc)
def setMreq (s : State) (m : MirrorReq) : State :=
  { s with mirror := { s.mirror with partner := s.mirror.partner.map fun x => if x.rc = m.rc then m else x } }
def mimg (s : State) (rc : Nat) : Nat := baseFld s Reg.mrTableBase + 256 * rc
def mslotAddr (s : State) (slot : Nat) : Nat := baseFld s Reg.mrWorkBase + slot * fld s Reg.mrSlotSlotBytes

/-- A slot of MR_WORK without a mirrored request or the root table of an adopted one. -/
def freeSlot (s : State) : Option Nat :=
  (List.range (fld s Reg.mrSlotSlots)).find? fun i =>
    !(s.mirror.partner.any fun m => decide (m.slot = i)) && (liveRcs s).all fun rc => decide (rcGet s rc 8 8 ≠ mslotAddr s i)

/-- A received image with its bases pointing into the slot: root table, mask area, score array one after the other. -/
def slotImage (s : State) (slot : Nat) (b : List Byte) : List Byte :=
  let a := mslotAddr s slot
  let e := kvLayers s * kvHmax s * fieldAt b 0x20 1
  let mask := a + roundUp (8 * e) 256
  let score := a + roundUp (roundUp (8 * e) 256 + maskBytes b) 4096
  patch (patch (patch b 0x18 (natBytes 8 (if fieldAt b 1 1 = 0 then 0 else mask))) 0x10 (natBytes 8 score)) 8 (natBytes 8 a)

/-- Release a mirrored request's pages and its slot. -/
def dropMirror (s : State) (rc : Nat) : State :=
  match mreq s rc with
  | none => s
  | some m =>
    let s1 := viaMirror s fun st => (rollPages st rc 0 0 (m.evicted.map fun e => (0, e.2))).1
    let s2 := viaMirror s1 fun st => (allLeaves st rc).foldl (fun q l => dropRef q (l.2.2.2.2 / 4096)) st
    { physWrite s2 (mimg s rc) (natBytes 256 0) with
      mirror := { s2.mirror with partner := s2.mirror.partner.filter fun x => decide (x.rc ≠ rc) } }

/-- Drop the partner's whole mirror. -/
def dropMirrors (s : State) : State := (s.mirror.partner.map (·.rc)).foldl dropMirror s

/-- What the records have said of a page's eviction: evicted, and its run released. -/
def pageGone (m : Option MirrorReq) (layer hg page : Nat) : Bool × Bool :=
  let mine := ((m.map (·.evicted)).getD []).filter fun e => decide (e.2.1 = layer ∧ e.2.2.1 = hg ∧ e.2.2.2.1 = page)
  (!mine.isEmpty, mine.any fun e => e.2.2.2.2)

/-- Write a mirrored entry into this device's pool (R340): none while no unreserved run is free. A page whose run has been
released (R248) takes none. -/
def mirrorEntry (s : State) (rc layer hg pos : Nat) (b : List Byte) : Option State :=
  let own := fld s Reg.sqRcBaseBase
  let back := fun (st : State) => setFld st Reg.sqRcBaseBase own
  let s0 := setFld s Reg.sqRcBaseBase (fld s Reg.mrTableBase)
  let page := pos / 16
  let t := pos % 16
  let gone := pageGone (mreq s rc) layer hg page
  let put := fun (st : State) (addr : Nat) (p : Pte) =>
    let key := scatter st (4096 * p.frame) (keyPlaces st t) (b.take (kvHalf st))
    let val := scatter key (4096 * p.frame) (valPlaces st t) (b.drop (kvHalf st))
    back (putPte val rc layer hg page addr { p with count := max p.count (t + 1), evicted := p.evicted || gone.1 })
  let mark := fun (st : State) (addr : Nat) (p : Pte) =>
    back (putPte st rc layer hg page addr { p with count := max p.count (t + 1), evicted := true })
  match ensureLeaf s0 rc layer hg page false with
  | none => none
  | some s1 =>
    match findPte s1 rc layer hg page with
    | some (addr, p) => some (if gone.2 then mark s1 addr p else if p.tier then back s1 else put s1 addr p)
    | none => if gone.2 then (leafBlock s1 rc layer hg (16 * page)).map fun blk => mark s1 (pteIn blk (16 * page)) (newPte s1 hg page 0 0 false) else
      match leafBlock s1 rc layer hg (16 * page), (if unreserved s1 = 0 then none else allocRun s1 (rcTenant s1 rc) false false) with
      | some blk, some (f, s2) => some (put s2 (pteIn blk (16 * page)) (newPte s2 hg page f 0 false))
      | _, _ => none

/-- Fields of an entry of a ring: KIND. -/
def ringKind (b : List Byte) : Nat := bits (leNat b) 46 44

/-- Apply a CONFIRM to its image. -/
def mirrorConfirm (s : State) (m : MirrorReq) (f : MFrame) : State :=
  let d := f.data
  let n := fieldAt d 0 1
  let a := mimg s m.rc
  let acc := fieldAt d 2 1
  let gen := fieldAt d 8 4
  -- a CONFIRM whose tokens the image at admission counted already tells their IDs
  let told := readNat s.mem (a + 0x38) 4 + n - gen
  let s1 := physPut (physPut (physPut (physPut s (a + 0x22) 1 (fieldAt d 1 1)) (a + 0x30) 4 (fieldAt d 4 4)) (a + 0x38) 4 gen)
    (a + 0x3C) 4 (fieldAt d 12 4)
  let s2 := if acc = 0 then s1 else physPut s1 (a + 0xD0 + m.verifies % 32) 1 acc
  let toks := (List.range n).map fun i =>
    ({ token := BitVec.ofNat 32 (fieldAt d (16 + 4 * i) 4), step := f.step.toNat, due := 0, first := decide (gen + i = n) } : Held)
  setMreq s2 { m with tokens := m.tokens ++ toks, unseen := m.unseen - told, verifies := m.verifies + (if acc = 0 then 0 else 1) }

/-- Ring entries a RELEASE carries, with their indices. -/
def releaseEntries (f : MFrame) : List (Nat × List Byte) :=
  let es := chunks 16 15 (f.data.drop 16)
  (List.zip (List.range es.length) es).map fun p => ((fieldAt f.data 0 4 + p.1) % 2 ^ 32, p.2)

/-- Token entries of a RELEASE. -/
def releaseTokens (f : MFrame) : Nat := ((releaseEntries f).filter fun e => decide (ringKind e.2 = 0)).length

/-- Tokens that a RELEASE writes are held no longer, the oldest first: those known by number, then the others. -/
def dropHeld (m : MirrorReq) (n : Nat) : MirrorReq := { m with unseen := m.unseen - n, tokens := m.tokens.drop (n - m.unseen) }

/-- Keep a RELEASE's entries, those already issued to PCIe by the partner dropped (R345). -/
def keepRing (m : MirrorReq) (f : MFrame) : MirrorReq :=
  let w := fieldAt f.data 4 4
  let es := releaseEntries f
  let ring := (m.ring ++ es).filter fun e => decide ((e.1 + 2 ^ 32 - w) % 2 ^ 32 < 2 ^ 31)
  { m with ring := ring, written := w, tail := (fieldAt f.data 0 4 + es.length) % 2 ^ 32 }

def mirrorRelease (s : State) (m : MirrorReq) (f : MFrame) : State :=
  let m1 := keepRing m f
  setMreq (physPut s (mimg s m.rc + 0x8C) 4 m1.tail) (dropHeld m1 (releaseTokens f))

/-- Apply one record to the mirror of its request. -/
def mirrorApply (s : State) (f : MFrame) : State :=
  match mreq s f.rc.toNat with
  | none => s
  | some m =>
    if f.type = 0x10 then
      if fieldAt f.data 0 1 = stFree then dropMirror s m.rc
      else physWrite s (mimg s m.rc) (slotImage s m.slot f.data)
    else if f.type = 0x11 then mirrorConfirm s m f
    else if f.type = 0x12 then mirrorRelease s m f
    else
      match mirrorEntry s m.rc f.layer.toNat (bits f.arg.toNat 47 32) (bits f.arg.toNat 31 0) f.data with
      | some s1 => s1
      | none => setMreq s { m with later := m.later ++ [f] }

/-- A partner's request has no slot here, or no longer lacks one. -/
def setSlotless (s : State) (rc : Nat) (on : Bool) : State :=
  let rest := s.mirror.slotless.filter fun x => decide (x ≠ rc)
  { s with mirror := { s.mirror with slotless := if on then rc :: rest else rest } }

/-- The first IMAGE of a request takes a free slot (R340). Tokens its HELD counts are known by number alone. -/
def mirrorAdmit (s0 : State) (f : MFrame) : State :=
  let rc := f.rc.toNat
  let s := setSlotless s0 rc false
  if fieldAt f.data 0 1 = stFree then s
  else
    match freeSlot s with
    | none => setSlotless (countUp s Reg.mrCountUnmirrored Reg.mrCountOvf 3 1) rc true
    | some i =>
      let m : MirrorReq := { rc := rc, slot := i, later := [], ring := [], written := fieldAt f.data 0x8C 4, tail := fieldAt f.data 0x8C 4,
                             tokens := [], unseen := fieldAt f.data 0x61 1, verifies := 0, evicted := [], mirroredAt := false }
      let s1 := physClear s (mslotAddr s i) (fld s Reg.mrSlotSlotBytes)
      physWrite { s1 with mirror := { s1.mirror with partner := s1.mirror.partner ++ [m] } } (mimg s rc) (slotImage s i f.data)

/-- Roll the partner's page table back, reached through the mirror's table base. -/
def viaMirrorEv (s : State) (rc g pos : Nat) (ev : List (Nat × Nat × Nat × Nat × Bool)) :
    State × List (Nat × Nat × Nat × Nat × Bool) :=
  let own := fld s Reg.sqRcBaseBase
  let r := rollPages (setFld s Reg.sqRcBaseBase (fld s Reg.mrTableBase)) rc g pos ev
  (setFld r.1 Reg.sqRcBaseBase own, r.2)

/-- A ROLLBACK record (R245, R340): pages go back to the positions of the newest image, and what was kept of the steps
rolled back is dropped. -/
def mirrorRollback (s : State) (m : MirrorReq) (f : MFrame) : State :=
  let g := f.arg.toNat
  let img := ((m.later.filter fun x => decide (x.type = 0x10)).getLast?.map (·.data)).getD (readBytes s.mem (mimg s m.rc) 256)
  let r := viaMirrorEv s m.rc g (fieldAt img 0x30 4) m.evicted
  let stale := fun (x : MFrame) => decide (x.type ≠ 0x10 ∧ x.type ≠ 0x12 ∧ g < x.step.toNat ∧ x.step ≠ f.step)
  setMreq r.1 { m with evicted := r.2, later := m.later.filter (fun x => !stale x),
                       tokens := m.tokens.filter fun h => decide (h.step ≤ g) }

/-- Apply one page event to the mirror (R248, R340). -/
def mirrorEvent (s : State) (rc step v : Nat) : State :=
  match mreq s rc with
  | none => s
  | some m =>
    let hg := bits v 47 40
    let layer := bits v 39 32
    let page := bits v 31 0
    let mine := fun (e : Nat × Nat × Nat × Nat × Bool) => decide (e.2.1 = layer ∧ e.2.2.1 = hg ∧ e.2.2.2.1 = page)
    if bits v 63 56 = 1 then
      let s1 := viaMirror s fun st =>
        match findPte st rc layer hg page with
        | some (a, p) => putPte st rc layer hg page a { p with evicted := true }
        | none => st
      setMreq s1 { m with evicted := m.evicted ++ [(step, layer, hg, page, false)] }
    else
      let s1 := viaMirror s fun st =>
        match findPte st rc layer hg page with
        | some (_, p) => if p.tier then pushSpill st p.frame else dropRef st p.frame
        | none => st
      setMreq s1 { m with evicted := m.evicted.map fun e => if mine e then (e.1, layer, hg, page, true) else e }

/-- A STEP_END is accepted: the consistent step moves on, and the records kept apart up to it are applied (R340). -/
def mirrorStepEnd (s : State) (k : Nat) : State :=
  let s1 := setReg64 s Reg.mrPartnerStep.off k
  let s2 := (s1.mirror.partner.map (·.rc)).foldl (fun st rc =>
    match mreq st rc with
    | none => st
    | some m =>
      let st1 := setMreq st { m with later := m.later.filter fun f => decide (k < f.step.toNat) }
      let st2 := (m.later.filter fun f => decide (f.step.toNat ≤ k)).foldl mirrorApply st1
      match mreq st2 rc with
      | none => st2
      | some m2 => setMreq st2 { m2 with mirroredAt := m2.mirroredAt || !(m2.later.any fun f => decide (f.type = 0x20)) }) s1
  trySync s2

/-- Entries that waited for a run are tried again. -/
def retryMirror (s : State) : State :=
  (s.mirror.partner.map (·.rc)).foldl (fun st rc =>
    match mreq st rc with
    | none => st
    | some m =>
      let es := m.later.filter fun f => decide (f.type = 0x20)
      es.foldl mirrorApply (setMreq st { m with later := m.later.filter fun f => decide (f.type ≠ 0x20) })) s

/-- An accepted sequenced frame (R340). -/
def mirrorAccept (s : State) (f : MFrame) : State :=
  let rc := f.rc.toNat
  if f.type = 0x21 then mirrorStepEnd s f.step.toNat
  else
    match mreq s rc with
    | none => if f.type = 0x10 then mirrorAdmit s f else s
    | some m =>
      if f.type = 0x13 then physWrite s (readNat s.mem (mimg s rc + 0x18) 8 + f.arg.toNat) f.data
      else if f.type = 0x14 then ((chunks 8 31 f.data).map leNat).foldl (fun st v => mirrorEvent st rc f.step.toNat v) s
      else if f.type = 0x15 then mirrorRollback s m f
      else if f.type = 0x20 then mirrorApply s f
      else if reg64 s Reg.mrPartnerStep.off < f.step.toNat then setMreq s { m with later := m.later ++ [f] }
      else mirrorApply s f

/-! ## Receiving (R336, R337) -/

/-- `a` is at or before `b`, by modular comparison within 2^31. -/
def seqUpTo (a b : Nat) : Bool := decide ((b + 2 ^ 32 - a) % 2 ^ 32 < 2 ^ 31)

/-- The acknowledgement a frame carries: MR_SEQ.ACKED, MR_OWN_STEP, requests that become MIRRORED (R348), gated ring writes and
the end of SUSPECT follow it. -/
def mirrorAck (s : State) (mack : Nat) : State :=
  let done := s.mirror.unacked.filter fun p => seqUpTo p.1.mseq.toNat mack
  let s1 := setFld { s with mirror := { s.mirror with
    unacked := s.mirror.unacked.filter fun p => !seqUpTo p.1.mseq.toNat mack } } Reg.mrSeqAcked mack
  let ends := (done.filter fun p => decide (p.1.type = 0x21)).map fun p => p.1.step.toNat
  let s2 := ends.foldl (fun st k =>
    (st.reqs.map (·.1)).foldl (fun q rc =>
      let r := getReq q rc
      match r.bulkStep with
      | some b =>
        if b ≤ k ∧ r.mirrored = false ∧ r.unmirrored = false then
          -- whether the partner had a slot no frame tells: a free value (notes/assumptions/144.md)
          setReq (tookFree q) rc { r with mirrored := decide (freeNow q % 2 = 0), unmirrored := decide (freeNow q % 2 ≠ 0) }
        else q
      | none => q) (setReg64 st Reg.mrOwnStep.off k)) s1
  drainGate (trySync (unsuspect s2))

/-- A frame assembled from its slots goes to the mirror engine: sequenced ones in MSEQ order alone. -/
def mirrorFrame (s : State) (f : MFrame) : State :=
  if f.mseq.toNat = (s.mirror.accepted + 1) % 2 ^ 32 then
    let s1 := countUp { s with mirror := { s.mirror with accepted := f.mseq.toNat } } Reg.mrCountFramesAccepted Reg.mrCountOvf 1 1
    mirrorAccept s1 f
  else s

/-- Assemble an ENTRY from its slots (R336): it is whole at 2hd·eb bytes. -/
def mirrorSlot (s : State) (f : MFrame) : State :=
  let key := (f.rc.toNat, f.layer.toNat, bits f.arg.toNat 47 32, bits f.arg.toNat 31 0)
  let same := fun (e : Nat × Nat × Nat × Nat × List Byte) => decide ((e.1, e.2.1, e.2.2.1, e.2.2.2.1) = key)
  let old := ((s.mirror.partialE.find? same).map (·.2.2.2.2)).getD []
  let bs := old ++ f.data.take f.len.toNat
  let rest := s.mirror.partialE.filter fun e => !same e
  if bs.length < entryBytes s then
    { s with mirror := { s.mirror with partialE := rest ++ [(key.1, key.2.1, key.2.2.1, key.2.2.2, bs)] } }
  else mirrorFrame { s with mirror := { s.mirror with partialE := rest } } { f with data := bs }

/-- Control frames (Table 14-4). A BYE changes no state. -/
def mirrorControl (s : State) (f : MFrame) : State :=
  if f.type = 0x01 then
    let s1 := { s with mirror := { s.mirror with lastBeat := s.tk } }
    let s2 := if pairRole s1 ∧ (f.data.drop 16).take 16 ≠ (configDigest s1).take 16 then setFld s1 Reg.mrStatusConfigDiff 1 else s1
    unsuspect s2
  else if f.type = 0x02 then
    if mState s = msPairing then pairComplete s f.data else { s with mirror := { s.mirror with hello := some f.data } }
  else if f.type = 0x03 then suspect s 3
  else if f.type = 0x30 then serveRepair s f.arg.toNat f.data
  else if f.type = 0x31 then repairGranule s (bits f.arg.toNat 3 0) (bits f.arg.toNat 35 4) (bits f.arg.toNat 51 48) f.data
  else s

/-- One slot of port M arrives (R336, R337). -/
def mirrorIn (s : State) (f : MFrame) : State :=
  let g := { f with data := f.data.take f.len.toNat }
  if !mKnown f.type.toNat then countUp s Reg.mrCountDiscarded Reg.mrCountOvf 5 1
  else
    let s1 := mirrorAck s f.mack.toNat
    if mSequenced f.type.toNat then (if f.type = 0x20 then mirrorSlot s1 f else mirrorFrame s1 g) else mirrorControl s1 g

/-! ## Commands (R333, R342, R343, Table 14-7) -/

/-- UNPAIR (Table 14-1): BYE is sent, and the device is SOLO. -/
def mirrorUnpair (s : State) : State :=
  let st := mState s
  if st = msPairing ∨ st = msSyncing ∨ st = msPaired ∨ st = msSuspect ∨ st = msTakenOver then
    let s1 := queueFrames { s with mirror := { s.mirror with queued := [] } } [mkFrame 0x04 0 0 0 0 []]
    drainGate (soloAlign (clearPair (dropMirrors (setMState s1 msSolo))))
  else setMResult s 7

/-- FENCE acts in its tick (R342). -/
def mirrorFence (s : State) : State :=
  let s1 := setMState (abandonStep s) msFenced
  { s1 with mirror := { s1.mirror with queued := [] } }

/-- TAKEOVER (R343, R344 order 1). -/
def mirrorTakeover (s : State) : State :=
  if mState s = msSuspect ∧ s.mirror.lastBeat + 300 ≤ s.tk then
    let s1 := setMState s msTakingOver
    drainGate { s1 with mirror := { s1.mirror with queued := [], unacked := [], adopting := true } }
  else setMResult s 7

/-! ## Adoption (R344 to R346) -/

/-- The version an adopted request pins (R344, order 3). The adapter table is not mirrored: the identifier and size are
those of the same version number here (notes/assumptions). -/
def adoptVersion (s : State) (tenant v : Nat) : Option Nat :=
  if numAdapters ≤ v ∨ adState s v < 2 then none
  else
    ((List.range numAdapters).filter fun u =>
      decide (2 ≤ adState s u) && !bit (adGet s u 1 1) 0 && decide (adGet s u 4 4 = adGet s v 4 4) &&
        decide (adGet s u 0x1C 2 = tenant) && decide (adBytes s u = adBytes s v) && decide (adPins s u < 65534)).getLast?

/-- Rewrite the ring entries received (R345) and note the NOTICE. -/
def adoptRing (s : State) (rc : Nat) (m : MirrorReq) : State :=
  let n := max 1 (ringEntries s rc)
  let s1 := m.ring.foldl (fun st e => ringPut st (rcGet st rc 0x80 8 + 16 * (e.1 % n)) e.2) s
  rcPut s1 rc 0x8C 4 m.tail

/-- The state an adopted context was parked from, where the descriptor's flag cannot say it (R344). -/
def adoptState (st : Nat) : Option Nat := if st = stPaused ∨ st = stEnding ∨ st = stImporting then some st else none

/-- Adopt one mirrored request (R344 to R346). -/
def adoptOne (s : State) (m : MirrorReq) : State :=
  let rc := m.rc
  let k := reg64 s Reg.mrPartnerStep.off
  let b := readBytes s.mem (mimg s rc) 256
  let st := fieldAt b 0 1
  let fl := fieldAt b 2 2
  let fl1 := setBits fl 5 5 (b2n (decide (st = stPrefill) || (decide (st = stParked) && bit fl 5)))
  let gen := fieldAt b 0x38 4
  let confirms := m.later.filter fun f => decide (f.type = 0x11)
  let releases := m.later.filter fun f => decide (f.type = 0x12)
  let replay := confirms.flatMap fun f =>
    (List.range (fieldAt f.data 0 1)).map fun i => BitVec.ofNat 32 (fieldAt f.data (16 + 4 * i) 4)
  let m1 := releases.foldl keepRing m
  let out := (releases.map releaseTokens).sum
  let covered := gen - (m.tokens.length + m.unseen) + out
  let left := (dropHeld m out).tokens
  let img := patch (patch (patch b 0 (natBytes 1 stParked)) 2 (natBytes 2 fl1)) 0x61 (natBytes 1 left.length)
  let r : Req := { held := left, parkedFrom := adoptState st, replay := replay, replayFrom := gen, covered := covered, adopted := true,
                   verifies := m.verifies, evicted := m.evicted, notices := [(0x31, k, covered)],
                   born := stepNow s }
  let s1 := setReq (physWrite s (rcAddr s rc) img) rc r
  let s2 := showLive (adoptRing s1 rc m1)
  let v := fieldAt b 6 2
  if v = 0xFFFF then s2
  else
    match adoptVersion s2 (fieldAt b 4 2) v with
    | some u => adPut (rcPut s2 rc 6 2 u) u 2 2 (adPins s2 u + 1)
    | none => addCode (rcPut s2 rc 6 2 0xFFFF) rc 0x41

/-- Pages of an adopted request that lie in tier 2. -/
def spilledPages (s : State) (rc : Nat) : Nat := ((allPages s rc).filter fun p => p.2.2.2.2.tier).length

/-- Go on with the restores of adopted requests, one at a time; with none left the takeover is complete (R344). -/
def adoptLoop (s : State) : Nat → State
  | 0 => s
  | n + 1 =>
    match s.mirror.adoptQueue with
    | [] => if mState s = msTakingOver ∧ s.mirror.adopting = false then setMResult (setMState s msTakenOver) 6 else s
    | rc :: rest =>
      let s1 := { s with mirror := { s.mirror with adoptQueue := rest, adoptNow := none } }
      if rcState s1 rc ≠ stParked then adoptLoop s1 n
      else if unreserved s1 < spilledPages s1 rc then adoptLoop (countUp s1 Reg.mrCountUnmirrored Reg.mrCountOvf 3 1) n
      else
        let s2 := startRestore s1 rc none false
        if (getReq s2 rc).pages.isEmpty then adoptLoop s2 n else { s2 with mirror := { s2.mirror with adoptNow := some rc } }

/-- The restore in progress has ended, or there was none. -/
def adoptNext (s : State) : State :=
  match s.mirror.adoptNow with
  | some rc => if (getReq s rc).pages.isEmpty then adoptLoop s (s.mirror.adoptQueue.length + 1) else s
  | none => adoptLoop s (s.mirror.adoptQueue.length + 1)

/-- Adopt the mirrored requests (R344, order 2): those that were MIRRORED (R348). -/
def adopt (s : State) : State :=
  if !s.mirror.adopting then s
  else
    let ms := s.mirror.partner.filter (·.mirroredAt)
    let s1 := ms.foldl adoptOne s
    let s2 := (s1.mirror.partner.filter fun m => !m.mirroredAt).foldl (fun st m => dropMirror st m.rc) s1
    let s3 := ms.foldl (fun st m => physWrite st (mimg st m.rc) (natBytes 256 0)) s2
    let parked := (ms.map (·.rc)).filter fun rc => decide (rcState s3 rc = stParked)
    adoptNext { s3 with mirror := { s3.mirror with
      partner := [], adopting := false, adoptQueue := bySlack s3 parked, adoptNow := none } }

/-! ## Events -/

/-- HEARTBEAT_SEND: device timer 0 falls due, and again 100 tk later (R50, R53, R337). -/
def beat (s : State) : State :=
  if mayBeat s = true ∧ s.timer0 ≠ 0 ∧ s.timer0 ≤ s.tk then queueFrames { s with timer0 := s.tk + 100 } [heartbeat s] else s

/-- HEARTBEAT_SILENCE: class 2 source 0 (R341). -/
def silence (s : State) : State := if s.mirror.lastBeat + 300 ≤ s.tk then suspect s 0 else s

/-- ACK_DEADLINE_MISSED: class 2 source 1 (R341). -/
def ackMissed (s : State) : State := if s.mirror.unacked.any fun p => decide (p.2 + 200 ≤ s.tk) then suspect s 1 else s

/-! The four MR_CMD commands come from the board management controller, so a FATAL device takes them too (R52, R343, R391). -/

def execMrCmdPair (t : Nat) (s : State) : Host.Outcome State Fault Refusal := presentAlways s t mirrorPair
def execUnpair (t : Nat) (s : State) : Host.Outcome State Fault Refusal := presentAlways s t mirrorUnpair
def execFence (t : Nat) (s : State) : Host.Outcome State Fault Refusal := presentAlways s t mirrorFence
def execTakeover (t : Nat) (s : State) : Host.Outcome State Fault Refusal := presentAlways s t mirrorTakeover
def execHeartbeatSend (t : Nat) (s : State) : Host.Outcome State Fault Refusal := present s t beat
def execHeartbeatSilence (t : Nat) (s : State) : Host.Outcome State Fault Refusal := present s t silence
def execAckDeadlineMissed (t : Nat) (s : State) : Host.Outcome State Fault Refusal := present s t ackMissed
/-- RESTORE: a takeover's restores go on one request at a time (R344). -/
def execRestore (t rc layer hg page : Nat) (s : State) : Host.Outcome State Fault Refusal :=
  presentUnit s t rc numRcs fun s => adoptNext (restore s rc layer hg page)

end Sys2Proof.Machine
end

