-- ==== Sys2Proof/Machine/Sched.lean ====
section
/-! DEFINITION. How a step is formed (R290 to R293, R298, R308, R358, R362), how attention is planned for it (R261, R262,
R264, R265), and what it needs of runs (R234), staging (R241) and work area (R291). -/
namespace Sys2Proof.Machine

/-! ## Depth and chunk (R292, R298) -/

def depthCap (s : State) : Nat := min 8 (fld s Reg.sqCtrlDepthCap)

/-- The request may speculate in this step (R298); its replay after a takeover runs at depth 0 (R346). -/
def mayDraft (s : State) (rc : Nat) : Bool :=
  bit (rcFlags s rc) 0 && modeSpec s && (replayAt (getReq s rc) (rcGenerated s rc)).isNone

/-- The depth of a verify step, or of a probe (R298). -/
def depthFor (s : State) (rc idx : Nat) : Nat :=
  let own := rcGet s rc 0x22 1
  if !mayDraft s rc then 0
  else if own = 0 then b2n (decide (1 ≤ min (rcGet s rc 0x21 1) (depthCap s)) && decide ((idx + rc) % 32 = 0))
  else min own (depthCap s)

def isPrefill (s : State) (rc : Nat) : Bool := decide (rcState s rc = stPrefill)
/-- Prompt positions not yet confirmed. -/
def promptLeft (s : State) (rc : Nat) : Nat := rcGet s rc 0x24 4 - rcPos s rc

/-- A candidate's member before any lowering (R291, R292). -/
def memberOf (s : State) (rc idx : Nat) : Member :=
  let pre := isPrefill s rc
  let one := !(getReq s rc).replay.isEmpty
  let d := if pre || one then 0 else depthFor s rc idx
  { rc := rc, prefill := pre, last := false, c := rcPos s rc
    r := if one then 1 else if pre then min (max 1 (fld s Reg.sqCtrlPrefillChunk) * 16) (promptLeft s rc) else d + 1
    d := d, adapter := rcAdapter s rc, tenant := rcTenant s rc, guest := bit (rcFlags s rc) 1 }

/-- Mark a prompt's last chunk once r is final (R292). -/
def markLast (s : State) (m : Member) : Member :=
  { m with last := m.prefill && decide (m.c + m.r = rcGet s m.rc 0x24 4) }

/-! ## Candidates (R291) -/

/-- Some page of the request is spilled or moving. An evicted page whose run has been released is neither: its FRAME names
another's run by then (R248, R291). -/
def pagesAway (s : State) (rc : Nat) : Bool :=
  let gone := (getReq s rc).evicted.filter fun e => e.2.2.2.2
  (allPages s rc).any fun p =>
    !(gone.any fun e => decide (e.2.1 = p.1 ∧ e.2.2.1 = p.2.1 ∧ e.2.2.2.1 = p.2.2.1)) &&
      (p.2.2.2.2.tier || (ftGet s p.2.2.2.2.frame).moving)

/-- A candidate but for its adapter version. A share that waits for the request holds it back (R237). -/
def wouldBe (s : State) (rc : Nat) : Bool :=
  decide (rcState s rc = stPrefill ∨ rcState s rc = stReady) && !rcCancelled s rc && (getReq s rc).share.isNone &&
    !tenantDry s (rcTenant s rc) && !pagesAway s rc &&
    ringRoom s rc (if isPrefill s rc then min 16 (promptLeft s rc) else 1)

/-- The pinned version is RESIDENT, or there is none. -/
def adapterIn (s : State) (rc : Nat) : Bool := decide (numAdapters ≤ rcAdapter s rc) || decide (adState s (rcAdapter s rc) = adResident)

/-- Versions that would-be candidates wait for are brought in (R283). -/
def bringAll (s : State) : State :=
  ((liveRcs s).filter fun rc => wouldBe s rc && !adapterIn s rc).foldl bringIn s

def candidates (s : State) : List Nat := bySlack s ((liveRcs s).filter fun rc => wouldBe s rc && adapterIn s rc)

/-! ## Plans (R261, R262, R264) -/

/-- The device holds a position (R254). -/
def holdsPos (s : State) (x : Nat) : Bool :=
  !flag s Reg.kvPlaceByPosition || decide (x / 8192 % (fld s Reg.kvPlaceSpan + 1) = fld s Reg.kvPlaceIndex)

/-- Head groups held for either model. -/
def heldHgs (s : State) : List Nat := (List.range (kvHmax s)).filter fun g =>
  decide (g < kvDhg s) || (decide (g < kvHg s) && (!flag s Reg.kvPlaceByHead ||
    (decide (fld s Reg.kvPlaceHgFirst ≤ g) && decide (g < fld s Reg.kvPlaceHgFirst + fld s Reg.kvPlaceHgCount))))

/-- The larger number of head groups held by either model (R293). -/
def heldGroups (s : State) : Nat :=
  let byHead := flag s Reg.kvPlaceByHead
  max (if byHead then fld s Reg.kvPlaceHgCount else kvHg s) (kvDhg s)

/-- The mask admits page `p`: its bitmap bit, and a nonzero token word (R260, R262). -/
def maskPage (s : State) (rc p : Nat) : Bool :=
  let mode := rcGet s rc 1 1
  let base := rcGet s rc 0x18 8
  decide (mode = 0) || (bit (readNat s.mem (base + p / 8) 1) (p % 8) &&
    (decide (mode = 1) || decide (readNat s.mem (base + 64 * rcRb s rc + 2 * p) 2 ≠ 0)))

/-- The mask admits position `x` (R261). -/
def maskPos (s : State) (rc x : Nat) : Bool :=
  let mode := rcGet s rc 1 1
  maskPage s rc (x / 16) &&
    (decide (mode ≠ 2) || bit (readNat s.mem (rcGet s rc 0x18 8 + 64 * rcRb s rc + 2 * (x / 16)) 2) (x % 16))

/-- Page `p` lies within the global pages or the window of a query at `q` (R261). -/
def inWindow (s : State) (p q : Nat) : Bool :=
  !modeWindowed s || decide (p < bits s.sched.evict 15 8) || decide (q / 16 < p + bits s.sched.evict 31 16)

/-- Position `x` is admitted for the row at query position `q` (R261). -/
def admitted (s : State) (rc x q : Nat) : Bool := decide (x ≤ q) && maskPos s rc x && inWindow s (x / 16) q && holdsPos s x

/-- A segment: first page, pages, TAIL, ROW_MASK. -/
structure Seg where
  first : Nat
  pages : Nat
  tail  : Bool
  rows  : Bool
deriving DecidableEq, Repr

/-- Maximal runs of ascending pages, cut before every multiple of `sz`. -/
def pageRuns (sz : Nat) (ps : List Nat) : List (Nat × Nat) :=
  (ps.foldl (fun acc p =>
    match acc with
    | (f, n) :: rest => if f + n = p ∧ p % sz ≠ 0 then (f, n + 1) :: rest else (p, 1) :: acc
    | [] => [(p, 1)]) ([] : List (Nat × Nat))).reverse

/-- Some position of the pages is admitted for some rows and not for others. -/
def rowMasked (s : State) (m : Member) (first pages : Nat) : Bool :=
  (List.range (16 * pages)).any fun i =>
    let x := 16 * first + i
    let rows := (List.range m.r).map fun j => admitted s m.rc x (m.c + j)
    rows.any id && !rows.all id

/-- The segments of a member (R264). -/
def planOf (s : State) (segLog2 : Nat) (m : Member) : List Seg :=
  let full := m.c / 16
  let read := (List.range full).filter fun p => maskPage s m.rc p && inWindow s p m.c && holdsPos s (16 * p)
  let near := (pageRuns (2 ^ (4 + segLog2)) read).map fun q : Nat × Nat =>
    ({ first := q.1, pages := q.2, tail := false, rows := rowMasked s m q.1 q.2 } : Seg)
  let tail := ((List.range ((m.c + m.r + 15) / 16 - full)).map fun i => full + i).filter fun p => holdsPos s (16 * p)
  match tail with
  | [] => near
  | f :: _ => near ++ [{ first := f, pages := tail.length, tail := true, rows := rowMasked s m f tail.length }]

/-! ## Items (R265, R295) -/

/-- Keep the first of equal neighbours anywhere in a list. -/
def distinct (l : List Nat) : List Nat := l.foldl (fun acc x => if acc.contains x then acc else acc ++ [x]) []

/-- The core of a request's tail items of one head group: in the cluster that appends its entries, which stays the same
from step to step while the participating clusters do. -/
def tailCore (cores : List Nat) (rc g : Nat) : Nat :=
  let cl := distinct (cores.map clusterOf)
  let c := cl.getD ((rc + g) % max 1 cl.length) 0
  let ks := cores.filter fun k => decide (clusterOf k = c)
  ks.getD ((rc + g) / max 1 cl.length % max 1 ks.length) 0

/-- Work items of a step: core, segment record index, head group. Items other than tails go round the cores in turn. -/
def itemsOf (s : State) (cores : List Nat) (plans : List (Member × List Seg)) : List (Nat × Nat × Nat) :=
  let recs := plans.flatMap fun p => p.2.map fun x => (p.1.rc, x)
  let all := (List.zip (List.range recs.length) recs).flatMap fun q => (heldHgs s).map fun g => (q.1, q.2, g)
  (List.zip (List.range all.length) all).map fun e =>
    let x := e.2
    (if x.2.1.2.tail then tailCore cores x.2.1.1 x.2.2 else cores.getD (e.1 % max 1 cores.length) 0, x.1, x.2.2)

/-! ## The work area (R293 to R295) -/

/-- Bytes of a member's partial record (Table 11-3). -/
def partialBytes (m : Member) : Nat := roundUp (528 * (m.r * Config.queryHeads)) 256

/-- Bytes of a member's merge records (R293). -/
def mergeBytes (s : State) (m : Member) (segs : Nat) : Nat := partialBytes m * (segs * heldGroups s)

/-- Offsets in the work area: length table, token copies, item lists, segment table, merge area, end. -/
structure WorkLayout where
  lengths : Nat
  tokens  : Nat
  items   : Nat
  segs    : Nat
  merge   : Nat
  total   : Nat
deriving DecidableEq, Repr

def workLayout (s : State) (cores : List Nat) (plans : List (Member × List Seg)) : WorkLayout :=
  let b := plans.length
  let n := (plans.map fun p => p.2.length).sum
  let items := 256 + 36 * b
  let segs := roundUp (items + 4 * cores.length + 4 * (n * (heldHgs s).length)) 256
  let merge := roundUp (segs + 16 * n) 256
  { lengths := 256, tokens := 256 + 32 * b, items := items, segs := segs, merge := merge
    total := merge + (plans.map fun p => mergeBytes s p.1 p.2.length).sum }

/-! ## Fit (R234, R241, R291) -/

/-- Pages that a member's new positions touch. -/
def touched (m : Member) : List Nat :=
  if m.r = 0 then [] else (List.range ((m.c + m.r - 1) / 16 + 1 - m.c / 16)).map fun i => m.c / 16 + i

/-- Runs that one layer and head group of a member can take (R234): leaf blocks, new pages and copies. -/
def pairRuns (s : State) (m : Member) (layer hg : Nat) : Nat :=
  let ps := (touched m).filter fun p => decide (p < 512 * rcRb s m.rc) && heldHere s layer hg (16 * p)
  let leaves := (distinct (ps.map (· / 512))).filter fun b => (leafBlock s m.rc layer hg (8192 * b)).isNone
  let pages := ps.filter fun p =>
    match findPte s m.rc layer hg p with
    | none => true
    | some (_, e) => decide ((ftGet s e.frame).refs ≠ 1 ∨ (ftGet s e.frame).owner ≠ m.tenant)
  leaves.length + pages.length

def memberRuns (s : State) (m : Member) : Nat := ((kvPairs s).map fun q => pairRuns s m q.1 q.2).sum
def batchRuns (s : State) (ms : List Member) : Nat := (ms.map (memberRuns s)).sum

/-- Entries a member may append in cluster `n` (R241, R265). -/
def appendsIn (s : State) (cores : List Nat) (n : Nat) (m : Member) : Nat :=
  (((kvPairs s).filter fun q => decide (clusterOf (tailCore cores m.rc q.2) = n)).map fun q =>
    ((List.range m.r).filter fun i => heldHere s q.1 q.2 (m.c + i)).length).sum

/-- The staging entries fit every cluster's pool and overflow area (R241). -/
def stagingFits (s : State) (cores : List Nat) (ms : List Member) : Bool :=
  (List.range 32).all fun n =>
    let pending := ((getCluster s n).stg.filter (·.spec)).length
    decide (pending + (ms.map (appendsIn s cores n)).sum ≤ 2097152 / entryBytes s + fld s (Reg.kvStgOvfEntries n))

def plansOf (s : State) (seg : Nat) (ms : List Member) : List (Member × List Seg) := ms.map fun m => (m, planOf s seg m)

/-- fits of R291. -/
def batchFits (s : State) (cores : List Nat) (seg : Nat) (ms : List Member) : Bool :=
  let plans := plansOf s seg ms
  decide (batchRuns s ms ≤ unreserved s) && stagingFits s cores ms &&
    decide ((plans.map fun p => p.2.length).sum ≤ 262144) &&
    decide ((workLayout s cores plans).total ≤ fld s Reg.sqWorkBytesBytes)

/-! ## The batch (R291) -/

def lowerDepth (m : Member) : Member := { m with d := m.d - 1, r := m.d }
def halveChunk (m : Member) : Member := { m with r := 16 * ((m.r + 31) / 32) }

/-- Lower a candidate until its ring has room: the member and the depth reductions. -/
def ringFit (s : State) : Nat → Member → Member × Nat
  | 0, m => (m, 0)
  | n + 1, m =>
    if ringRoom s m.rc m.r then (m, 0)
    else if 0 < m.d then
      let q := ringFit s n (lowerDepth m)
      (q.1, q.2 + 1)
    else ringFit s n (halveChunk m)

/-- Lower by 1 the largest depth, the latest in order on ties. -/
def lowerLargest (ms : List Member) : List Member :=
  let top := ms.foldl (fun a m => max a m.d) 0
  let at_ := (List.range ms.length).foldl (fun a i => if (ms[i]?.map (·.d)) = some top then i else a) 0
  (List.zip (List.range ms.length) ms).map fun p => if p.1 = at_ then lowerDepth p.2 else p.2

/-- How the lowering of a batch with its next candidate ends. -/
inductive FitEnd where
  | fits | leftOut | stop
deriving DecidableEq, Repr

/-- The inner loop of R291 over a batch whose last member is the candidate: the members, the depth reductions and the end. -/
def fitLoop (fit : List Member → Bool) : Nat → List Member → List Member × Nat × FitEnd
  | 0, ms => (ms, 0, .stop)
  | n + 1, ms =>
    if fit ms then (ms, 0, .fits)
    else if ms.any fun m => decide (0 < m.d) then
      let q := fitLoop fit n (lowerLargest ms)
      (q.1, q.2.1 + 1, q.2.2)
    else
      match ms.getLast? with
      | some c =>
        if c.prefill = true ∧ 16 < c.r then fitLoop fit n (ms.dropLast ++ [halveChunk c])
        else (ms, 0, if ms.length ≤ 1 then .leftOut else .stop)
      | none => (ms, 0, .stop)

/-- The batch from the candidates in order: members, depth reductions, candidates left out (R291). -/
def buildBatch (s : State) (fit : List Member → Bool) (idx cap : Nat) : List Nat → List Member → List Member × Nat × Nat
  | [], batch => (batch, 0, 0)
  | rc :: rest, batch =>
    if cap ≤ batch.length then (batch, 0, 0)
    else
      let a := ringFit s 32 (memberOf s rc idx)
      let b := fitLoop fit (9 * (batch.length + 3)) (batch ++ [a.1])
      match b.2.2 with
      | .fits =>
        let q := buildBatch s fit idx cap rest b.1
        (q.1, a.2 + b.2.1 + q.2.1, q.2.2)
      | .leftOut =>
        let q := buildBatch s fit idx cap rest b.1.dropLast
        (q.1, a.2 + b.2.1 + q.2.1, q.2.2 + 1)
      | .stop => (b.1.dropLast, a.2 + b.2.1, 0)

/-- MAX_BATCH as it acts (Table 12-16). -/
def maxBatch (s : State) : Nat := min 4096 (max 1 (fld s Reg.sqCtrlMaxBatch))
/-- SEG_LOG2 as it acts (Table 11-6). -/
def segNow (s : State) : Nat := min 5 (fld s Reg.sqAttnSegLog2)

/-- Reserve runs for the step formed (R234). -/
def reserve (s : State) (n : Nat) : State := setFld s Reg.kvReservedCount (min n (fld s Reg.kvFreeCount))

/-- No step is formed while the scheduler is halted, disabled, or without paging, or Kolwin has stopped the work (R297,
R313, R402). -/
def formationOff (s : State) : Bool :=
  flag s Reg.sqStatusHalted || !flag s Reg.sqCtrlEnable || !kvEnabled s || decide (s.kolwin.powerState ≠ 0)

/-- The recorded step as it reruns (R362): the rows of requests no longer there give nothing. -/
def rerunOf (s : State) (p : Step) : Step :=
  { p with
    members := p.members.map fun m => { m with gone := !rcLive s m.rc || decide (p.idx ≤ (getReq s m.rc).born) }
    cores := participants s, rates := (participants s).map (coreRate s), rerun := true, usedLinks := false, faulted := false, ueHit := false, dups := [] }

/-- Form a step (R291, R358, R362): a recorded one to rerun, a check-only step, or a batch. -/
def form (s : State) : State :=
  let s0 := setFld { s with sched := { s.sched with formed := none } } Reg.kvReservedCount 0
  let cores := participants s0
  let take := fun (st : State) (p : Step) =>
    reserve { st with sched := { st.sched with formed := some p } } (batchRuns st p.members)
  if formationOff s0 || cores.isEmpty then s0
  else
    match s0.sched.rerunQ with
    | p :: _ => take s0 (rerunOf s0 p)
    | [] =>
      let idx := s0.sched.nextStep + 1
      let step := fun (ms : List Member) (only : Bool) =>
        ({ idx := idx, members := ms, cores := cores, rates := cores.map (coreRate s0), tiles := tilesNow s0, segLog2 := segNow s0, launch := 0, rerun := false,
           checkOnly := only, usedLinks := false, faulted := false, ueHit := false, dups := [] } : Step)
      if checkOnlyDue s0 s0.sched.nextStep then take s0 (step [] true)
      else
        let s1 := bringAll s0
        let b := buildBatch s1 (batchFits s1 cores (segNow s1)) idx (maxBatch s1) (candidates s1) []
        let s2 := countUp s1 Reg.sqCountDepthLowered Reg.sqCountOvf 3 b.2.1
        let s3 := countUp s2 Reg.sqCountLeftOut Reg.sqCountOvf 2 b.2.2
        if b.1.isEmpty then s3 else take s3 (step (b.1.map (markLast s3)) false)

end Sys2Proof.Machine
end

