-- ==== Sys2Proof/Machine/SchedBoundary.lean ====
section
/-! DEFINITION. The step boundary (R310, Table 12-13; R256, Table 10-8): the eviction pass (R247, R248), commits (R244), ends
(R303 to R305), refills (R281), depth (R298), rollback (R360 to R364), the hand-off to the mirror (R338), releases (R306 to
R309), what order 6 applies (R284, R353, R359, R368, R382 to R384), and the idle formation (R291). -/
namespace Sys2Proof.Machine

/-! ## The eviction pass (R247, R248) -/

def evDecay (s : State) : Nat := bits s.sched.evict 7 0
def evWindow (s : State) : Nat := bits s.sched.evict 31 16
def evKeep (s : State) : Nat := bits s.sched.evict 47 32

/-- Address of a page's score input in the half of a step of index `n` (R247). -/
def scoreAddr (s : State) (rc n layer hg page : Nat) : Nat :=
  let e := kvLayers s * kvHmax s * rcRb s rc
  rcGet s rc 0x10 8 + n % 2 * (512 * e) + 512 * rootIndex s rc layer hg (16 * page) + page % 512

/-- Score one page from the other half and clear its input. -/
def scorePage (s : State) (rc n : Nat) (p : Nat × Nat × Nat × Nat × Pte) : State :=
  let a := scoreAddr s rc (n + 1) p.1 p.2.1 p.2.2.1
  let x := max (readNat s.mem a 1) (p.2.2.2.2.score - evDecay s)
  putPte (physPut s a 1 0) rc p.1 p.2.1 p.2.2.1 p.2.2.2.1 { p.2.2.2.2 with score := x }

/-- A page the pass may take (R248), `pos` being the request's next position. -/
def evictable (s : State) (pos page : Nat) (p : Pte) : Bool :=
  decide (p.count = 16) && !p.tier && !p.spec && !p.evicted && !p.exempt && decide (page + evWindow s ≤ pos / 16)

/-- Insert by ascending SCORE; equal scores keep ascending page index. -/
def scoreInsert (x : Nat × Nat) : List (Nat × Nat) → List (Nat × Nat)
  | [] => [x]
  | y :: ys => if x.1 < y.1 then x :: y :: ys else y :: scoreInsert x ys

/-- Victims of one layer and head group. -/
def pairVictims (s : State) (rc layer hg : Nat) (pages : List (Nat × Nat × Nat × Nat × Pte)) : List (Nat × Nat × Nat) :=
  let mine := pages.filter fun p => decide (p.1 = layer ∧ p.2.1 = hg)
  let cands := mine.filter fun p => evictable s (rcPos s rc) p.2.2.1 p.2.2.2.2
  let order := (cands.foldl (fun acc p => scoreInsert (p.2.2.2.2.score, p.2.2.1) acc) []).map (·.2)
  let standing := (mine.filter fun p => !p.2.2.2.2.evicted).length
  let take := if modeWindowed s then order.length else if evKeep s = 0 then 0 else standing - evKeep s
  (order.take take).map fun p => (layer, hg, p)

/-- The pass of the step that has ended, over one request. -/
def evictReq (s : State) (n rc : Nat) : State :=
  let s1 := (allPages s rc).foldl (fun st p => scorePage st rc n p) s
  let pages := allPages s1 rc
  setReq s1 rc { getReq s1 rc with victims := (kvPairs s1).flatMap fun q => pairVictims s1 rc q.1 q.2 pages }

/-- The eviction pass, while the mode in force is SCORE. -/
def evictPass (s : State) (n : Nat) : State :=
  if modeEvict s && kvEnabled s then (liveRcs s).foldl (fun st rc => evictReq st n rc) s else s

/-! ## Commits (R244) -/

/-- VALID_COUNT raised over the unbroken run of confirmed positions. -/
def raised (offs : List Nat) : Nat → Nat → Nat
  | 0, c => c
  | n + 1, c => if c < 16 ∧ offs.contains c = true then raised offs n (c + 1) else c

/-- Raise one page's VALID_COUNT: the entries newly confirmed. -/
def commitPage (s : State) (es : List StgEntry) (k : Nat × Nat × Nat × Nat) : State × List StgEntry :=
  let mine := es.filter fun e => decide ((e.rc, e.layer, e.hg, e.pos / 16) = k)
  match findPte s k.1 k.2.1 k.2.2.1 k.2.2.2 with
  | none => (s, [])
  | some (a, p) =>
    let c := raised (mine.map fun e => e.pos % 16) 16 p.count
    let new := mine.filter fun e => decide (p.count ≤ e.pos % 16 ∧ e.pos % 16 < c)
    (if c = p.count then s else putPte s k.1 k.2.1 k.2.2.1 k.2.2.2 a { p with count := c }, new)

/-- Pages that entries lie on. -/
def pageKeys (es : List StgEntry) : List (Nat × Nat × Nat × Nat) :=
  es.foldl (fun ks e =>
    let k := (e.rc, e.layer, e.hg, e.pos / 16)
    if ks.contains k then ks else ks ++ [k]) []

/-- Apply every commit of the step: the entries newly confirmed. -/
def commitAll (s : State) : State × List StgEntry :=
  let es := ((allStg s).map (·.2)).filter (·.confirmed)
  let s1 := (es.filter fun e => e.spec || !e.written).foldl
    (fun st e => writeHalves st e.rc e.layer e.hg e.pos e.key e.val) s
  let r := (pageKeys es).foldl (fun (p : State × List StgEntry) k =>
    let q := commitPage p.1 es k
    (q.1, p.2 ++ q.2)) (s1, [])
  let s2 := if es.isEmpty then r.1 else modAllStg r.1 fun l => l.filter fun e => !e.confirmed
  ((pageKeys (es.filter (·.spec))).foldl (fun st k => settleSpec st k.1 k.2.1 k.2.2.1 k.2.2.2) s2, r.2)

/-- A position counts as confirmed: its entry is, in every layer and head group that holds it here. A position nothing
holds here is confirmed with the step's own confirmation. -/
def posConfirmed (s : State) (m : Member) (p : Nat) : Bool :=
  let pairs := (kvPairs s).filter fun q => heldHere s q.1 q.2 p
  if pairs.isEmpty then
    let r := getReq s m.rc
    m.prefill || (r.confirmed && decide (p ≤ m.c + (r.verify.map (·.2)).getD 0))
  else pairs.all fun q =>
    match findPte s m.rc q.1 q.2 (p / 16) with
    | some (_, e) => decide (p % 16 < e.count)
    | none => false

/-- Positions confirmed without a gap from `p` on, `n` at most. -/
def confirmedRun (s : State) (m : Member) : Nat → Nat → Nat
  | 0, p => p
  | n + 1, p => if posConfirmed s m p then confirmedRun s m n (p + 1) else p

/-- CONFIRMED_POS after the step's commits. -/
def advancePos (s : State) (m : Member) : State :=
  if m.gone || !rcLive s m.rc then s
  else
    let p := confirmedRun s m m.r m.c
    if p = rcPos s m.rc then s else rcPut s m.rc 0x30 4 p

/-! ## Depth (R298) -/

/-- Log a verify step's proposed and accepted counts and set DEPTH. -/
def logVerify (s : State) (rc proposed accepted : Nat) : State :=
  let r := getReq s rc
  let s1 := rcPut (setReq s rc { r with verifies := r.verifies + 1 }) rc (0xD0 + r.verifies % 32) 1 (16 * proposed + accepted)
  let log := (List.range 32).map fun i => rcGet s1 rc (0xD0 + i) 1
  let p := (log.map (· / 16)).sum
  let a := (log.map (· % 16)).sum
  let d := rcGet s1 rc 0x22 1
  if p < 32 then s1
  else if 100 * a < acceptThreshold s * p then rcPut s1 rc 0x22 1 (d - 1)
  else rcPut s1 rc 0x22 1 (max d (min (d + 1) (min (rcGet s1 rc 0x21 1) (depthCap s))))

/-! ## Ends (R304) -/

/-- The order in which end codes apply. -/
def endOrder : List Nat := [0x50, 0x41, 0x40, 0x12, 0x11, 0x10, 0x00, 0x01, 0x20]
def endCode (codes : List Nat) : Option Nat := endOrder.find? codes.contains
/-- Codes that withdraw the step's confirmations. -/
def withdraws (code : Nat) : Bool := [0x50, 0x41, 0x40, 0x12, 0x11, 0x10].contains code

/-- Commands of a request whose completion is still owed complete WRONG_STATE when it ends. -/
def owedEnd (s : State) (rc : Nat) : State :=
  let r := getReq s rc
  let s1 := r.pages.foldl (fun st p =>
    match findPte st rc p.1 p.2.1 p.2.2 with
    | some (_, e) => if r.restoring || e.tier then st else setMoving st e.frame false
    | none => st) s
  let s2 := match r.owed with
    | some c => complete s1 c 3 0
    | none => s1
  match r.share with
  | some (_, _, c) => complete s2 c 3 0
  | none => s2

/-- The scheduler's own import of a request that ends is stopped (R292). -/
def stopImport (s : State) (rc : Nat) : State :=
  match (getReq s rc).importOp with
  | some m => if (getDot s m).byScheduler && decide ((getDot s m).rc = rc) then stopOp s m .cancelled 0x50 else s
  | none => s

/-- A request ends with a code at the boundary of step `n`. -/
def endRequest (s : State) (rc code n : Nat) : State :=
  let s1 := stopImport (owedEnd s rc) rc
  let s2 := setReq s1 rc { getReq s1 rc with
    owed := none, share := none, pages := [], restoring := false, limit := 0, importOp := none, needImport := false, endStep := n }
  let s3 := armTierTimer (setRcState (rcPut s2 rc 0x23 1 code) rc stEnding)
  let s4 := if 0x10 ≤ code ∧ code ≤ 0x5F ∧ code ≠ 0x20 then countUp s3 Reg.sqCountEndedError Reg.sqCountOvf 1 1 else s3
  let s5 := if code = 0x20 then s4 else dropMayflies (removeStg s4 fun e => decide (e.rc = rc)) rc
  if code = 0x50 then setHeld s5 rc [] else s5

/-- D fields that confirmations changed return to their values at the launch (R304). -/
def withdrawStep (s : State) (rc : Nat) : State :=
  let b := (getReq s rc).atLaunch
  if b.isEmpty then s
  else [(0x30, 4), (0x38, 4), (0x3C, 4), (0xA8, 8)].foldl (fun st q => rcPut st rc q.1 q.2 (fieldAt b q.1 q.2)) s

/-- The hold of the tokens confirmed in step `n` (R306). Indices that a takeover's notice covers are not written (R346). -/
def holdTokens (s : State) (rc n : Nat) (toks : List Word32) : State :=
  if toks.isEmpty then s
  else
    let r := getReq s rc
    let g := rcGenerated s rc - toks.length
    let hs := (List.zip (List.range toks.length) toks).filterMap fun p =>
      if g + p.1 < r.covered then none
      else some ({ token := p.2, step := n, due := n + modeHold s, first := decide (g + p.1 = 0) } : Held)
    setHeld s rc (r.held ++ hs)

/-- A CONFIRM's payload (Table 14-4). -/
def confirmFrame (s : State) (rc n accept : Nat) (toks : List Word32) : MFrame :=
  mkFrame 0x11 rc 0 n 0 (natBytes 1 toks.length ++ natBytes 1 (rcGet s rc 0x22 1) ++ natBytes 1 accept ++ natBytes 1 0 ++
    natBytes 4 (rcPos s rc) ++ natBytes 4 (rcGenerated s rc) ++ natBytes 4 (rcGet s rc 0x3C 4) ++
    toks.flatMap fun t => natBytes 4 t.toNat)

/-- The per-step marks of a request are cleared. -/
def clearStep (s : State) (rc : Nat) : State :=
  setReq s rc { getReq s rc with
    codes := [], confirmed := false, kvcmt := false, verify := none, tokens := [], guestFault := false, atLaunch := [] }

/-- Settle one request at the boundary of step `n`: the CONFIRM it owes the mirror, if it confirmed tokens that stand. A guest
fault ends it with GUEST_FAULT and none of its tokens is confirmed (R7, R74, R88). -/
def settleReq (s : State) (p : Step) (rc : Nat) : State × Option MFrame :=
  let r := getReq s rc
  let member := p.members.find? fun m => decide (m.rc = rc) && !m.gone
  if !rcLive s rc || decide (rcState s rc = stEnding) then (clearStep s rc, none)
  else
    let code := endCode (r.codes ++ if r.guestFault then [0x40] else [])
    if (code.map withdraws).getD false then
      (clearStep (endRequest (withdrawStep s rc) rc (code.getD 0) p.idx) rc, none)
    else
      let s1 := match r.verify, member with
        | some (a, b), some m => if 0 < m.d then logVerify s rc a b else s
        | _, _ => s
      let accept := match r.verify, member with
        | some (a, b), some m => if 0 < m.d then 16 * a + b else 0
        | _, _ => 0
      let s2 := holdTokens s1 rc p.idx r.tokens
      let s3 := if member.isSome ∧ rcState s2 rc = stPrefill ∧ rcGet s2 rc 0x24 4 ≤ rcPos s2 rc then setRcState s2 rc stReady else s2
      let s4 := match code with
        | some c => endRequest s3 rc c p.idx
        | none => s3
      (clearStep s4 rc, if r.tokens.isEmpty then none else some (confirmFrame s4 rc p.idx accept r.tokens))

/-- Settle every request: the CONFIRM frames. -/
def settleAll (s : State) (p : Step) : State × List MFrame :=
  (s.reqs.map (·.1)).foldl (fun (acc : State × List MFrame) rc =>
    let q := settleReq acc.1 p rc
    (q.1, acc.2 ++ q.2.toList)) (s, [])

/-! ## Refills (R281) -/

def refillTenant (s : State) (t : Nat) : State :=
  let period := 100 * tenGet s t 0x14 4
  let next := tenGet s t 0x18 8
  if period = 0 ∨ s.tk < next then s
  else
    let k := (s.tk - next) / period + 1
    let cap := bits (tenGet s t 8 8) 47 0
    let b := tenBudget s t
    let s1 := if tenUnmetered s t then s else tenPut s t 0 8 (max b (min cap (b + k * tenGet s t 0x10 4)))
    tenPut s1 t 0x18 8 (next + k * period)

def refills (s : State) : State := (List.range numTenants).foldl refillTenant s

/-! ## Rollback (R360 to R364) -/

/-- The journal entry that a rollback to step `g` restores: the last at or before it, or the first of a request admitted
after it. -/
def journalAt (r : Req) (g : Nat) : Option (Nat × List Byte) :=
  match (r.journal.filter fun j => decide (j.1 ≤ g)).getLast? with
  | some j => some j
  | none => r.journal.head?

/-- Journal every live request at the boundary of step `n`: the last eight boundaries are kept, oldest first (R361). -/
def journalAll (s : State) (n : Nat) : State :=
  (liveRcs s).foldl (fun st rc =>
    let r := getReq st rc
    let b := readBytes st.mem (rcAddr st rc) 256 ++ natBytes 8 r.verifies
    let old := r.journal.filter fun j => decide (j.1 ≠ n)
    setReq st rc { r with journal := (old ++ [(n, b)]).drop (old.length + 1 - 8) }) s

/-- A token of the steps rolled back has reached the request's ring (R363). -/
def reachedRing (s : State) (rc g gen : Nat) : Bool :=
  let r := getReq s rc
  decide ((r.held.filter fun h => decide (g < h.step)).length + r.tokens.length < rcGenerated s rc - gen)

/-- Write the D fields of a journalled descriptor back, but for those that record ring writes (R361). -/
def restoreFields (s : State) (rc : Nat) (b : List Byte) : State :=
  let s1 := [(0, 1), (6, 2), (0x22, 1), (0x23, 1), (0x30, 4), (0x38, 4), (0x3C, 4), (0xA8, 8)].foldl
    (fun st q => rcPut st rc q.1 q.2 (fieldAt b q.1 q.2)) s
  physWrite (setRcFlag s1 rc 5 (bit (fieldAt b 2 2) 5)) (rcAddr s rc + 0xD0) ((b.drop 0xD0).take 32)

/-- Refund a tenant, saturating (R361). -/
def refund (s : State) (t n : Nat) : State :=
  if n = 0 ∨ tenUnmetered s t = true then s else tenPut s t 0 8 (min (2 ^ 48 - 1) (tenBudget s t + n))

/-- Roll one request back to step `g` (R361, R245): whether a notice is owed. -/
def rollReq (s : State) (g : Nat) (inStep : Bool) (rc : Nat) : State × Bool :=
  let r := getReq s rc
  match journalAt r g with
  | none => (s, false)
  | some (_, b) =>
    let gen := fieldAt b 0x38 4
    let told := reachedRing s rc g gen
    let s1 := restoreFields s rc b
    let q := rollPages s1 rc g (fieldAt b 0x30 4) r.evicted
    let s2 := dropMayflies (removeStg q.1 fun e => decide (e.rc = rc)) rc
    let back := ((r.charges.filter fun c => decide (g < c.1)).map (·.2)).sum
    let low := r.journal.filter fun j => decide (j.1 ≤ g)
    let s3 := setReq (refund s2 (rcTenant s rc) back) rc
      { getReq s2 rc with
        evicted := q.2, victims := [], verifies := fieldAt b 256 8
        journal := if low.isEmpty then r.journal.take 1 else low
        charges := r.charges.filter fun c => decide (c.1 ≤ g)
        codes := if inStep then r.codes.filter fun c => decide (c = 0x50) else r.codes
        confirmed := false, kvcmt := false, verify := none, tokens := [], atLaunch := []
        guestFault := r.guestFault && !inStep
        shared := r.shared.filter fun x => decide (x.2.1 ≤ g)
        notices := if told then r.notices ++ [(0x30, g + 1, gen)] else r.notices }
    let s4 := setHeld s3 rc (r.held.filter fun h => decide (h.step ≤ g))
    let s5 := if mirrors s4 rc then { s4 with mirror := { s4.mirror with rollbacks := s4.mirror.rollbacks ++ [(rc, g)] } } else s4
    (s5, told)

/-- Steps to rerun after a rollback to `g`, ascending. -/
def stepsToRerun (s : State) (g n : Nat) : List Step :=
  (List.range (n - g)).filterMap fun i => s.sched.hist.find? fun p => decide (p.idx = g + 1 + i)

/-- The same request took part in some of the steps. -/
def tookPart (s : State) (steps : List Step) (rc : Nat) : Bool :=
  rcLive s rc && steps.any fun p => decide ((getReq s rc).born < p.idx) && p.members.any fun m => decide (m.rc = rc) && !m.gone

/-- A share has given the request positions confirmed in the steps rolled back (R245). -/
def sharedAfter (s : State) (g rc : Nat) : Bool :=
  match (getReq s rc).shared with
  | some (n, at_, past) => decide (g < at_) && decide ((((past.filter fun x => decide (x.1 ≤ g)).getLast?.map (·.2)).getD 0) < n)
  | none => false

/-- Device IDs of the IN_PEERS list (Table 15-14). -/
def inPeers (s : State) : List Nat :=
  (List.range (min 1024 (fld s Reg.inPeersCount))).map fun i => readNat s.mem (baseFld s Reg.inPeersBase + 2 * i) 2

/-- Send a RETRACTION record to devices (R364). -/
def sendRetraction (s : State) (ds : List Nat) (record : List Byte) : State :=
  ds.foldl (fun st d =>
    sendRput st d (fld st Reg.inRetractOffset + 256 * ownId st) (fld st Reg.inRetractCell) [padTo 256 record]) s

/-- Why a rollback is due: the target, REACH_SHORT, and the peer's record it follows. -/
structure RollCause where
  g     : Nat
  short : Bool
  peer  : Option (Nat × List Byte)
deriving DecidableEq, Repr

/-- The least target of those that apply at the boundary of step `n` (R360, R364). -/
def rollCause (s : State) (p : Step) : Option RollCause :=
  let n := p.idx
  let clamp := fun (g : Nat) (peer : Option (Nat × List Byte)) => ({ g := max g (n - 8), short := decide (g + 8 < n), peer := peer } : RollCause)
  let known := fun (g : Nat) => s.sched.rolledTo.any fun x => decide (x.1 ≤ g ∧ g < x.2)
  let own := (s.integ.target.map fun g => clamp g none).toList
  let fault := if p.faulted || p.ueHit then [clamp (n - 1) none] else []
  let theirs := (s.integ.received.filter fun x => !known x.1).map fun x => clamp x.1 (some x.2)
  ((own ++ fault ++ theirs).filter fun c => decide (c.g < n)).foldl (fun acc c =>
    match acc with
    | some a => if c.g < a.g then some { c with short := a.short || c.short } else some { a with short := a.short || c.short }
    | none => some c) none

/-- Records received from peers are forwarded, once for each pair of sender and step (R364). -/
def forwardReceived (s : State) : State :=
  let s1 := s.integ.received.foldl (fun st x =>
    if st.integ.forwarded.contains (x.2.1, x.1) then st
    else
      let st1 := sendRetraction st ((inPeers st).filter fun d => decide (d ≠ x.2.1)) x.2.2
      { st1 with integ := { st1.integ with forwarded := st1.integ.forwarded ++ [(x.2.1, x.1)] } }) s
  { s1 with integ := { s1.integ with received := [] } }

/-- Some record received is still to be forwarded to a peer (R364). -/
def forwards (s : State) : Bool :=
  s.integ.received.any fun x => !s.integ.forwarded.contains (x.2.1, x.1) && (inPeers s).any fun d => decide (d ≠ x.2.1)

/-- FLAGS of a RETRACTION record but for DIGEST_SAME. -/
def retractFlags (c : RollCause) (told ended : Bool) : Nat :=
  b2n told + 2 * b2n c.short + 4 * b2n ended +
    (match c.peer with | some (d, _) => 16 + 2 ^ 16 * (d % 1024) | none => 0)

/-- Apply a rollback at the boundary of step `p` (R360 to R364): the requests rolled back. -/
def rollBack (s : State) (p : Step) (c : RollCause) : State × List Nat :=
  let n := p.idx
  let steps := stepsToRerun s c.g n
  let named := distinct (steps.flatMap fun q => (q.members.filter fun m => !m.gone).map (·.rc))
  let rolled := (liveRcs s).filter fun rc => tookPart s steps rc || sharedAfter s c.g rc
  let ended := named.filter fun rc => !rolled.contains rc
  let r := rolled.foldl (fun (acc : State × Bool) rc =>
    let q := rollReq acc.1 c.g (p.members.any fun m => decide (m.rc = rc)) rc
    (q.1, acc.2 || q.2)) (s, false)
  let links := steps.any (·.usedLinks)
  let logged := s.links.digests.any fun x => decide (c.g % 2 ^ 48 < x.1.toNat / 2 ^ 16 ∧ x.1.toNat / 2 ^ 16 ≤ n % 2 ^ 48)
  let owed : Retraction := { g := c.g, last := n, flags := retractFlags c r.2 (!ended.isEmpty), named := rolled ++ ended }
  let s1 := r.1
  let s2 := if logged then { s1 with sched := { s1.sched with retraction := some owed } } else errorRecord s1 (retractRecord owed)
  let sends := links && !(inPeers s2).isEmpty && c.peer.isNone
  let s3 := if sends then sendRetraction s2 (inPeers s2) (recordBytes s1 (retractRecord owed)) else s2
  let s4 := if r.2 || sends || forwards s then countUp s3 Reg.inCountRetractions Reg.inCountOvf 6 1 else s3
  let s5 := countUp s4 Reg.sqCountRollbacks Reg.sqCountOvf 6 1
  let s6 := setReg64 (setReg64 (if c.short then setFld s5 Reg.inStatusReachShort 1 else s5) 0x90050 c.g) 0x90058 n
  let s7 := sendIf s6 Reg.inCtrlRetractIrqEn 263
  let rest := s7.sched.rerunQ.filter fun q => decide (n < q.idx)
  let mark := fun (k : Check) => { k with rolled := k.rolled || decide (c.g < k.step ∧ k.step ≤ n) }
  ({ s7 with sched := { s7.sched with rolledTo := s7.sched.rolledTo ++ [(c.g, n)], rerunQ := steps ++ rest }
             integ := { s7.integ with checks := s7.integ.checks.map mark } }, rolled)

/-- An operator fault or an uncorrectable load (R88): the first rolls back and reruns, a fault in the rerun halts. -/
def markFault (s : State) (p : Step) : State :=
  if p.faulted || p.ueHit then
    if p.faulted && s.sched.faultRerun then
      let s1 := setFld (setFld s Reg.sqStatusHalted 1) Reg.sqStatusHaltSeen 1
      sendIf { s1 with sched := { s1.sched with faultStep := none, ueGranule := [] } } Reg.sqCtrlHaltIrqEn 260
    else { s with sched := { s.sched with faultStep := some p.idx } }
  else if s.sched.faultStep = some p.idx then { s with sched := { s.sched with faultStep := none, ueGranule := [] } }
  else s

/-- The RETRACTION record owed is written when the last step rolled back has been rerun, with DIGEST_SAME when every piece matched;
a rollback or a halt before that has it written without (R363, R364). -/
def settleRetraction (s : State) (p : Step) : State :=
  match s.sched.retraction with
  | none => s
  | some r => if r.last ≤ p.idx ∨ (rollCause s p).isSome = true ∨ (p.faulted && s.sched.faultRerun) = true then writeRetraction s else s

/-- Rollback at order 3, if one is due. -/
def rollAtBoundary (s0 : State) (p : Step) : State × List Nat :=
  let s := settleRetraction s0 p
  let r := match rollCause s p with
    | some c => rollBack s p c
    | none => (if (s.integ.target.map fun g => decide (g + 8 < p.idx)).getD false then setFld s Reg.inStatusReachShort 1 else s, [])
  let s1 := markFault (forwardReceived r.1) p
  ({ s1 with integ := { s1.integ with target := none } }, r.2)

/-! ## The hand-off to the mirror (R335, R338) -/

/-- Fields that RELEASE carries, or that the receiver derives, do not make an IMAGE; those that a CONFIRM carries do only
without one. -/
def imageKey (b : List Byte) (confirmed : Bool) : List Byte :=
  let z := fun (x : List Byte) (off n : Nat) => patch x off (List.replicate n 0)
  let a := z (z (z b 0x8C 8) 0x61 2) 0x90 4
  if confirmed then z (z (z (z a 0x22 1) 0x30 4) 0x38 8) 0xD0 32 else a

/-- The records of one mirrored request: IMAGE, MASK, PAGE_STATE, ROLLBACK. -/
def recordsOf (s : State) (p : Step) (confirmed : Bool) (rc : Nat) : List MFrame :=
  let r := getReq s rc
  let b := sentBytes s rc
  let image := if imageKey b confirmed = imageKey r.sentImage confirmed then [] else [imageFrame rc p.idx b]
  let before := (s.sched.hist.find? fun q => decide (q.idx + 1 = p.idx)).map fun q => q.members.any fun m => decide (m.rc = rc)
  let here := p.members.any fun m => decide (m.rc = rc)
  let mask := if here && !(before.getD false) then maskFrames s rc p.idx else []
  let ev := (r.victims.map fun v => (1, v.1, v.2.1, v.2.2)) ++
    (r.evicted.filter fun e => !e.2.2.2.2 && decide (e.1 + 8 ≤ p.idx)).map fun e => (2, e.2.1, e.2.2.1, e.2.2.2.1)
  let back := (s.mirror.rollbacks.filter fun q => decide (q.1 = rc)).map fun q => mkFrame 0x15 rc 0 p.idx q.2 []
  image ++ mask ++ pageStateFrames rc p.idx ev ++ back

/-- Hand the step's frames to the mirror (R338): the records of each request, the CONFIRMs, the entries newly confirmed, what
is owed in full, and a STEP_END. -/
def handOff (s : State) (p : Step) (confirms : List MFrame) (new : List StgEntry) : State :=
  if !(decide (mState s = msPaired ∨ mState s = msSyncing ∨ mState s = msSuspect)) then
    { s with mirror := { s.mirror with ended := [], rollbacks := [], toMirror := [] } }
  else
    let live := (liveRcs s).filter (mirrors s)
    let bulk := (liveRcs s).filter fun rc => !(getReq s rc).maskSent || s.mirror.toMirror.contains rc
    let cs := confirms.filter fun f => live.contains f.rc.toNat
    let first := confirms.filter fun f => bulk.contains f.rc.toNat && !live.contains f.rc.toNat
    let confirmed := fun (rc : Nat) => cs.any fun f => decide (f.rc.toNat = rc)
    let gone := s.mirror.ended.map fun rc => imageFrame rc p.idx (patch (sentBytes s rc) 0 [0])
    let recs := live.flatMap fun rc => recordsOf s p (confirmed rc) rc
    let ents := (new.filter fun e => live.contains e.rc).map fun e =>
      entryFrame e.rc e.layer e.hg e.pos p.idx (e.key.getD [] ++ e.val.getD [])
    let s1 := queueFrames s (gone ++ recs ++ cs ++ ents)
    let s2 := live.foldl (fun st rc => setReq st rc { getReq st rc with sentImage := sentBytes st rc }) s1
    let s3 := sendBulk { s2 with mirror := { s2.mirror with ended := [], rollbacks := [], toMirror := bulk } } p.idx
    let n := gone.length + recs.length + cs.length + first.length + ents.length + (bulk.map fun rc => (bulkFrames s2 rc p.idx).length).sum
    queueFrames s3 (first ++ [mkFrame 0x21 0 0 p.idx 0 (natBytes 4 n)])

/-! ## Victims and releases (Table 10-8, order 5) -/

/-- Set EVICTED on a request's victims, and release the runs evicted at the eighth boundary before this one (R248). -/
def applyVictims (s : State) (n rc : Nat) : State :=
  let r := getReq s rc
  let s1 := r.victims.foldl (fun st v =>
    match findPte st rc v.1 v.2.1 v.2.2 with
    | some (a, p) => countUp (putPte st rc v.1 v.2.1 v.2.2 a { p with evicted := true }) Reg.kvCountEvicted Reg.kvCountOvf 3 1
    | none => st) s
  let due := fun (e : Nat × Nat × Nat × Nat × Bool) => !e.2.2.2.2 && decide (e.1 + 8 ≤ n)
  let s2 := (r.evicted.filter due).foldl (fun st e =>
    match findPte st rc e.2.1 e.2.2.1 e.2.2.2.1 with
    | some (_, p) => if p.tier then pushSpill st p.frame else dropRef st p.frame
    | none => st) s1
  setReq s2 rc { getReq s2 rc with
    victims := []
    evicted := (r.evicted.map fun e => if due e then (e.1, e.2.1, e.2.2.1, e.2.2.2.1, true) else e) ++
      r.victims.map fun v => (n, v.1, v.2.1, v.2.2, false) }

/-! ## Profile and modes (R382 to R384) -/

/-- Apply a requested profile. -/
def applyProfile (s : State) : State :=
  match s.power.profileReq with
  | none => s
  | some i =>
    let s0 := setFld (modPower s fun p => { p with profileReq := none }) Reg.pwProfilePending 0
    let r := storedRecord s i
    if !recordOk r then setFld s0 Reg.pwProfileResult 2
    else
      let s1 := modPower s0 fun p => { p with record := r, modeDirty := true }
      let s1d := if fld s Reg.pwProfileActive = i then s1 else formDigest s1
      let s2 := setFld (setFld (setFld s1d Reg.pwProfileActive i) Reg.pwActiveProfile i) Reg.pwProfileResult 1
      let s3 := countUp s2 Reg.pwCountProfileChanges Reg.pwCountOvf 4 1
      let s4 := regPut s3 Reg.nbCrossQkv.off (BitVec.ofNat 32 (fieldAt r 0x28 2))
      owePublication (governorProfile s4) 0x200

/-- Some loaded operator image has a byte in 0xC000 to 0xFFFF (R71, R384). -/
def operatorHigh (s : State) : Bool := s.images.any fun i => !i.guest && decide (0xC000 < i.off + i.len) && decide (i.off < 0x10000)

/-- Report the modes in force in the blocks that hold a copy. -/
def showModes (s : State) : State :=
  let s1 := setFld (setFld (setFld s Reg.sqStatusHold (modeHold s)) Reg.sqStatusSpec (b2n (modeSpec s))) Reg.sqStatusGuest (b2n (modeGuest s))
  let s2 := setFld (setFld s1 Reg.kvCtrlEvict (b2n (modeEvict s))) Reg.sqAttnPattern (b2n (modeWindowed s))
  setFld (setFld s2 Reg.nbCtrlOffload (modeOffload s)) Reg.inStatusSample (modeSample s)

/-- The modes that PW_MODE and the profile ask for (R383), with guest programs kept BARRED where R384 refuses them. -/
def applyModes (s : State) (n : Nat) : State :=
  if !s.power.modeDirty then s
  else
    let m := modesOf (activeRecord s) (regGet s 0xA000C).toNat (flag s Reg.inCtrlCheckEn)
    let refused := bit m 8 && !modeGuest s && operatorHigh s
    let m1 := if refused then setBits m 9 8 0 else m
    let s0 := modPower (if refused then setFld s Reg.pwStatusModeRefused 1 else s) fun p => { p with modeDirty := false }
    let s1 := showModes (regPut s0 0xA0010 (BitVec.ofNat 32 (modeReg s0 / 2 ^ 25 * 2 ^ 25 + m1)))
    let s2 := if modeSpec s && !modeSpec s1
      then (liveRcs s1).foldl dropMayflies (removeStg s1 (·.spec)) else s1
    if modeGuest s && !modeGuest s2 then
      (liveRcs s2).foldl (fun st rc =>
        if bit (rcFlags st rc) 1 ∧ rcState st rc ≠ stEnding then endRequest st rc 0x40 n else st) s2
    else s2

/-! ## Orders 6 and 7 -/

/-- What order 6 of a boundary and an idle formation share, `n` being the last step launched. -/
def orderSix (s : State) (n : Nat) : State :=
  let s1 := landAdapters (applyCmds (adopt s))
  let s2 := applyCheckEn s1
  let s3 := if flag s2 Reg.inCtrlCheckEn ≠ flag s1 Reg.inCtrlCheckEn then modPower s2 fun p => { p with modeDirty := true } else s2
  let s4 := applyModes (applyProfile s3) n
  let s5 := publishSpare s4
  endUnsealing { s5 with sched := { s5.sched with evict := reg64 s5 Reg.kvEvictDecay.off } }

/-- Order 7: restores start, shares, imports and partner entries that wait are tried again, and translation buffers are emptied (R240). -/
def orderSeven (s : State) : State :=
  let s1 := retryMirror (startRestores (retryShares s))
  let s2 := (s1.reqs.map (·.1)).foldl (fun st rc => if (getReq st rc).needImport then startImport st rc else st) s1
  dropTb s2 fun _ => true

/-- Begin the publications that the boundary owes, before the next launch (R37). -/
def publishOwed (s : State) : State := if s.kolwin.publish = 0 then s else beginPublication s 0

/-! ## STEP_BOUNDARY (R310) -/

/-- Every participating core's part has ended (R61). -/
def partsEnded (s : State) (p : Step) : Bool := p.cores.all fun k => decide ((getCore s k).phase = .ended)

/-- Order 5 of Table 12-13: releases, SC32513 and the ring interrupt, which follows the entries issued. Those that wait for the
partner have theirs when they are issued (R201, R339). -/
def orderFive (s : State) (n : Nat) : State :=
  let rcs := liveRcs s
  let s0 := rcs.foldl (fun st rc => releaseReq st rc n) s
  let s1 := openGate s0 s0.mirror.gated
  let wrote := rcs.any fun rc => decide (writtenTail s rc ≠ writtenTail s1 rc)
  let s2 := putCell s1 32513 { getCell s1 32513 with value := BitVec.ofNat 64 n }
  if wrote then sendIf s2 Reg.hqCtrlRingIrqEn 256 else s2

/-- Orders 2 and 3: the pass of the step, commits, checks, rollback, ends, refills and removal. -/
def settleStep (s : State) (p : Step) : State × List MFrame × List StgEntry :=
  let a := commitAll (evictPass s p.idx)
  let b := settleChecks (p.members.foldl advancePos a.1) p
  let r := rollAtBoundary b p
  let c := settleAll r.1 p
  let d := removeStg (refills c.1) fun e => !e.spec && !e.confirmed
  let kept := fun (rc : Nat) => decide (!r.2.contains rc) && decide (rcState d rc ≠ stEnding ∨ !withdraws (rcGet d rc 0x23 1))
  (setFld { d with sched := { d.sched with zeroed := [] } } Reg.kvReservedCount 0,
    c.2.filter (fun f => kept f.rc.toNat), a.2.filter fun e => kept e.rc)

/-- The boundary that ends step `p` (Table 12-13). -/
def boundaryOf (s : State) (p : Step) : State :=
  let n := p.idx
  let a := settleStep (openDue s) p
  let s1 := handOff a.1 p a.2.1 a.2.2
  let s2 := freeAdapters (releaseFreed ((liveRcs s1).foldl (fun st rc => applyVictims st n rc) s1))
  let s3 := orderFive s2 n
  let s4 := setFld { s3 with sched := { s3.sched with cur := none } } Reg.sqStatusRunning 0
  let next := (s4.sched.rerunQ.head?.map (·.idx)).getD (s4.sched.nextStep + 1)
  let s5 := installWaiting (retireLosers (testBoundary (orderSix s4 n) next) next)
  let s6 := journalAll (orderSeven s5) n
  quiesce (form (publishOwed (setFld s6 Reg.inStatusRerunning (b2n (!s6.sched.rerunQ.isEmpty)))))

/-- The watchdog is disarmed once the step has ended. -/
def stepBoundary (s : State) : State :=
  match s.sched.cur with
  | some p => if partsEnded s p then boundaryOf { s with timer2 := 0, timer2Left := none } p else s
  | none => s

/-- IDLE_FORMATION (R284, R291): commands, refills and what takes effect at order 6, then formation. -/
def idleForm (s : State) : State :=
  if s.sched.cur.isSome ∨ fld s Reg.kwStatusBoot ≠ 3 then s
  else
    let n := stepNow s
    quiesce (form (publishOwed (journalAll (orderSeven (orderSix (refills (openDue s)) n)) n)))

def execStepBoundary (t : Nat) (s : State) : Host.Outcome State Fault Refusal := present s t stepBoundary
def execIdleFormation (t : Nat) (s : State) : Host.Outcome State Fault Refusal := present s t idleForm

end Sys2Proof.Machine
end

