-- ==== Sys2Proof/Machine/Launch.lean ====
section
/-! DEFINITION. The launch of a step (R57, R59, R62, R196, R293 to R296, R313, R338) and the figure-of-merit windows (R312). -/
namespace Sys2Proof.Machine

/-! ## What holds a launch back -/

/-- Paired, step n launches only after the partner has acknowledged the STEP_END of step n − 2 (R338); while the pair is SYNCING
that holds for MIRRORED requests (R348). -/
def mirrorLags (s : State) (n : Nat) : Bool :=
  let st := if mState s = msSuspect then s.mirror.prior else mState s
  let paired := decide (st = msPaired) || (decide (st = msSyncing) && (liveRcs s).any fun rc => (getReq s rc).mirrored)
  let late := fun (f : MFrame) => decide (f.type = 0x21 ∧ f.step.toNat + 2 ≤ n)
  paired && (s.mirror.queued.any late || s.mirror.unacked.any fun p => late p.1)

/-- A formed step may launch (R37, R297, R313, R342, R402). -/
def mayLaunch (s : State) (n : Nat) : Bool :=
  !formationOff s && !s.kolwin.publishing && flag s Reg.clStatusValid && decide (mState s ≠ msFenced) && !mirrorLags s n

/-! ## The work area (R293 to R295) -/

/-- Index of each member's first segment record, and its merge offset in 256-byte units. -/
def offsetsOf (s : State) : List (Member × List Seg) → Nat → Nat → List (Nat × Nat)
  | [], _, _ => []
  | p :: ps, seg, mrg => (seg, mrg) :: offsetsOf s ps (seg + p.2.length) (mrg + mergeBytes s p.1 p.2.length / 256)

/-- A length table entry (Table 12-9). -/
def lengthEntry (m : Member) (tokens seg mrg : Nat) : List Byte :=
  natBytes 2 m.rc ++ natBytes 2 (b2n m.prefill + 2 * b2n (decide (0 < m.d)) + 4 * b2n m.last + 8 * b2n m.guest) ++ natBytes 4 m.c ++
    natBytes 2 m.r ++ natBytes 1 m.d ++ natBytes 1 0 ++ natBytes 2 m.adapter ++ natBytes 2 m.tenant ++ natBytes 8 tokens ++
    natBytes 4 seg ++ natBytes 4 mrg

/-- A segment record (Table 11-2). -/
def segRecord (rc index count : Nat) (x : Seg) : List Byte :=
  natBytes 2 rc ++ natBytes 2 (b2n x.tail + 2 * b2n x.rows) ++ natBytes 4 x.first ++ natBytes 2 x.pages ++ natBytes 2 index ++
    natBytes 2 count ++ natBytes 2 0

def segTable (plans : List (Member × List Seg)) : List Byte :=
  plans.flatMap fun p => (List.zip (List.range p.2.length) p.2).flatMap fun q => segRecord p.1.rc q.1 p.2.length q.2

/-- A core's item list (R295). -/
def itemList (items : List (Nat × Nat × Nat)) (k : Nat) : List Byte :=
  let mine := items.filter fun x => decide (x.1 = k)
  natBytes 4 mine.length ++ mine.flatMap fun x => natBytes 4 (x.2.1 + 2 ^ 18 * x.2.2)

/-- A layer class's path: near-bank under FORCE, and under AUTO for batches up to its crossover, which EXACT makes 0 (R205,
Table 16-10). -/
def pathOf (s : State) (batch cross : Nat) : Nat :=
  b2n (decide (modeOffload s = 2) ||
    (decide (modeOffload s = 1) && !modeExact s && decide (cross ≠ 0) && decide (batch ≤ cross)))

/-- The argument block (Table 12-10). -/
def argBlock (s : State) (p : Step) (w : WorkLayout) (segs : Nat) : List Byte :=
  let base := baseFld s Reg.sqWorkBaseBase
  let b := p.members.length
  let cell := 32640 + p.idx % 128
  padTo 256 (natBytes 8 p.idx ++ natBytes 8 p.launch ++ natBytes 4 b ++ natBytes 4 segs ++ natBytes 8 (base + w.lengths) ++
    natBytes 8 (base + w.segs) ++ natBytes 8 (base + w.merge) ++ natBytes 2 cell ++ natBytes 6 0 ++
    natBytes 8 (getCell s cell).value.toNat ++
    [Reg.nbCrossQkv, Reg.nbCrossOutputProj, Reg.nbCrossFeedForward, Reg.nbCrossOutputHead].flatMap
      (fun f => natBytes 1 (pathOf s b (fld s f))) ++
    natBytes 1 (b2n (decide (modeOffload s ≠ 0))) ++ natBytes 1 (modeHold s) ++
    natBytes 1 (b2n (modeSpec s) + 2 * b2n (modeGuest s)) ++ natBytes 1 0 ++ natBytes 2 p.tiles)

/-- Input of a member's row: the prompt's address, or the token its copy holds. A row whose request is gone keeps its own. -/
def inputOf (s : State) (m : Member) : Nat :=
  if m.gone then m.tokens else if m.prefill then rcGet s m.rc 0x28 8 + 4 * m.c else rcGet s m.rc 0x3C 4

/-- Write a structure of the step at the point of coherence, and invalidate its lines (R196, R294). -/
def writeFresh (s : State) (a : Nat) (bs : List Byte) : State := dropLines (physWrite s a bs) a bs.length

/-- Write the work area of a step: the offset of each core's item list. -/
def writeWork (s : State) (p : Step) : State × List Nat :=
  let plans := plansOf s p.segLog2 p.members
  let w := workLayout s p.cores plans
  let base := baseFld s Reg.sqWorkBaseBase
  let items := itemsOf s p.cores plans
  let lists := p.cores.map (itemList items)
  let offs := (List.range lists.length).map fun i => w.items + ((lists.take i).map List.length).sum
  let segs := (plans.map fun q => q.2.length).sum
  let rows := List.zip p.members (offsetsOf s plans 0 0)
  let entries := (List.zip (List.range rows.length) rows).flatMap fun r =>
    let m := r.2.1
    lengthEntry m (if m.prefill then m.tokens else base + w.tokens + 4 * r.1) r.2.2.1 r.2.2.2
  let copies := p.members.flatMap fun m => natBytes 4 (if m.prefill then 0 else m.tokens)
  let s1 := writeFresh s base (argBlock s p w segs)
  let s2 := writeFresh (writeFresh s1 (base + w.lengths) entries) (base + w.tokens) copies
  let s3 := writeFresh (writeFresh s2 (base + w.items) lists.flatten) (base + w.segs) (segTable plans)
  (setFld s3 Reg.sqAttnSegments segs, offs)

/-! ## The cores (R59, Table 4-1) -/

/-- The step kernel's entry: that of the operator image loaded at offset 0. -/
def stepEntry (s : State) : Nat := ((s.images.find? fun i => !i.guest && decide (i.off = 0)).map (·.entry)).getD 0

/-- A core at launch: its scratchpad and weight buffer keep their contents (R60). -/
def launchCore (c : Core) (mode : AccMode) (entry idx gen : Nat) (regs : List (Nat × Word)) : Core :=
  { s := regs.filter (fun p => decide (p.2 ≠ 0)), wbuf := c.wbuf, scratch := c.scratch
    acc := if mode = .nearest then [] else ((List.range 4).filter fun i => decide (mode = .stochastic ∨ i < 3)).map fun i =>
      (i, { mode := mode, flags := flagWord mode {} })
    accw := if mode = .exact then some { base := 0, flags := flagWord .exact {} } else none
    pc := entry, phase := .issuing, step := BitVec.ofNat 64 idx, gen := BitVec.ofNat 64 gen }

/-- Start the participating cores. -/
def startCores (s : State) (p : Step) (offs : List Nat) : State :=
  let firsts := tileFirsts p.tiles p.rates
  let gen := if s.snapshot.isEmpty then 0 else fieldAt s.snapshot 0x10 8
  (List.zip (List.range p.cores.length) p.cores).foldl (fun st q =>
    let first := firsts.getD q.1 0
    let s3 := first + 2 ^ 16 * (firsts.getD (q.1 + 1) 0 - first) + 2 ^ 32 * offs.getD q.1 0
    let regs := [(1, p.idx), (2, baseFld s Reg.sqWorkBaseBase), (3, s3), (4, gen), (5, p.rates.getD q.1 0), (6, p.cores.length), (7, q.1)]
    modCore st q.2 fun c =>
      launchCore c (modeOf (accumDefault s)) (stepEntry s) p.idx gen (regs.map fun r => (r.1, BitVec.ofNat 64 r.2))) s

/-! ## The launch -/

/-- EST_STEP: the mean of the last 16 step lengths, from launch to launch (Table 12-17). -/
def showEst (s : State) : State :=
  let l := s.sched.launches
  let n := l.length - 1
  if n = 0 then s else setFld s Reg.sqEstEstStep (min 0xFFFFFFFF ((l.headD 0 - l.getLastD 0) / n))

/-- Keep the descriptors of the members as they are at launch (R304). -/
def keepLaunch (s : State) (p : Step) : State :=
  (p.members.filter fun m => !m.gone).foldl (fun st m =>
    setReq st m.rc { getReq st m.rc with atLaunch := readBytes st.mem (rcAddr st m.rc) 256 }) s

/-- Launch a formed step. -/
def launch (s : State) (p0 : Step) : State :=
  let p1 := { p0 with launch := s.tk, members := p0.members.map fun m => { m with tokens := inputOf s m }
                      dups := if flag s Reg.inCtrlCheckEn then placeChecks s p0.cores p0.idx else [] }
  let s1 := { s with snapshot := s.table }
  let w := writeWork s1 p1
  let sel := selection w.1 p1.tiles p1.idx
  let firsts := tileFirsts p1.tiles p1.rates
  let s2 := openChecks (writeSlot w.1 p1 sel) p1 firsts sel
  let s3 := if flag s Reg.inCtrlCheckEn then dropLines s2 (slotAddr s p1.tiles p1.idx) (slotBytes s p1.tiles) else s2
  let s4 := putCell s3 32512 { getCell s3 32512 with value := BitVec.ofNat 64 p1.idx }
  let s5 := startCores (keepLaunch s4 p1) p1 w.2
  let q := s5.sched
  let s6 := { s5 with
    timer2 := s5.tk + 100 * max 100 (fld s Reg.sqLimitStepLimit), timer2Left := none
    sched := { q with
      cur := some p1, formed := none, nextStep := max q.nextStep p1.idx, zeroed := []
      hist := (p1 :: q.hist.filter fun x => decide (x.idx ≠ p1.idx)).take 9
      rerunQ := if p1.rerun then q.rerunQ.drop 1 else q.rerunQ
      faultRerun := p1.rerun && decide (q.faultStep = some p1.idx)
      launches := (s5.tk :: q.launches).take 17 } }
  showEst (holdWatchdog <| setFld (setFld (setReg64 s6 Reg.sqStepStep.off p1.idx) Reg.sqStatusRunning 1) Reg.inStatusRerunning (b2n p1.rerun))

/-- The formed step without the cores that have been fenced since: a fenced core takes no tiles (R366). -/
def unfenced (s : State) (p : Step) : Step :=
  let cs := (List.zip p.cores p.rates).filter fun c => takesPart s c.1
  { p with cores := cs.map (·.1), rates := cs.map (·.2) }

/-- STEP_LAUNCH: a formed step launches once nothing holds it back. -/
def stepLaunch (s : State) : State :=
  match s.sched.formed with
  | some p0 =>
    let p := unfenced s p0
    if s.sched.cur.isNone && mayLaunch s p.idx && !p.cores.isEmpty then launch s p else s
  | none => s

/-! ## Tokens per joule (R312) -/

def fomTicks : Nat := 2 ^ 27

/-- A window ends: SQ_FOM takes its counts. With no energy counted the quotient is not stated: a free value. -/
def fomEnd (s : State) : State :=
  let w := s.tk / fomTicks * fomTicks
  if w ≤ s.sched.fomStart then s
  else
    let e := reg64 s Reg.pwEnergyUj.off
    let n := s.sched.fomTokens
    let used := (e + 2 ^ 64 - s.sched.fomEnergy) % 2 ^ 64
    let next := fun (st : State) => { st with sched := { st.sched with fomStart := w, fomTokens := 0, fomEnergy := e } }
    if s.sched.fomStart % fomTicks ≠ 0 then next s
    else if used = 0 then next (setFld (setFld (tookFree s) Reg.sqFomCeilingTokens n) Reg.sqFomMtpj (freeNow s % 2 ^ 32))
    else next (setFld (setFld s Reg.sqFomCeilingTokens n) Reg.sqFomMtpj (1000000000 * n / used))

def execStepLaunch (t : Nat) (s : State) : Host.Outcome State Fault Refusal := present s t stepLaunch
def execFomWindowEnd (t : Nat) (s : State) : Host.Outcome State Fault Refusal := present s t fomEnd

end Sys2Proof.Machine
end

