-- ==== Sys2Proof/Machine/Queues.lean ====
section
/-! DEFINITION. The host's queues (R404 to R408): doorbells, fetching, enabling, coalescing, and the host command rows, each
of which is one entry of its queue that the device fetches (R284, R407). -/
namespace Sys2Proof.Machine

def numQueues : Nat := 256

/-! ## Queue errors (R407) -/

/-- HQ_STATUS.QUEUE_ERROR (Table 17-12). -/
def showQueueError (s : State) : State :=
  setFld s Reg.hqStatusQueueError (b2n ((List.range numQueues).any fun q => decide (fld s (Reg.hqSqErrCause q) ≠ 0)))

/-- Stop a queue with a cause; commands already fetched complete. -/
def stopQueue (s : State) (q cause : Nat) : State :=
  let s1 := setQueue (setFld s (Reg.hqSqErrCause q) cause) q { getQueue s q with stopped := true }
  showIdle (showQueueError s1) q

/-! ## Fetching -/

/-- The queue is enabled and not stopped, the device serves its queues, and it is not FENCED (R342, R396, R407). -/
def queueServed (s : State) (q : Nat) : Bool :=
  flag s Reg.hqCtrlEnable && flag s (Reg.hqSqCtrlEnable q) && !(getQueue s q).stopped && decide (fld s Reg.kwStatusBoot = 3) &&
    decide (mState s ≠ msFenced)

/-- Free slots of a completion ring, one being kept free (R407). -/
def cqFree (s : State) (q : Nat) : Nat :=
  let n := cqSize s q
  n - 1 - (fld s (Reg.hqSqHeadsCqTail q) + n - (getQueue s q).cqHead) % n

/-- A command may be fetched: the completion ring has a free slot for it and for every command outstanding (R407). -/
def canFetch (s : State) (q : Nat) : Bool := queueServed s q && decide ((getQueue s q).open_ < cqFree s q)

/-- Advance the submission head past a command, which is then outstanding; a doorbell whose commands are all fetched is
done with. -/
def takeEntry (s : State) (q : Nat) : State :=
  let head := (fld s (Reg.hqSqHeadsSqHead q) + 1) % sqSize s q
  let x := getQueue s q
  let bells := match x.bells with
    | [] => []
    | b :: bs => if b.1 = head then bs else b :: bs
  setQueue (setFld s (Reg.hqSqHeadsSqHead q) head) q { x with open_ := x.open_ + 1, bells := bells }

/-- The tick of the doorbell that delivered the command at the head (R287). -/
def bellTick (s : State) (q : Nat) : Nat := (((getQueue s q).bells.head?).map (·.2)).getD s.tk

/-- A fetched command acts now: CANCEL and LOAD_IMAGE, and every command while the scheduler is halted (R284). -/
def actsNow (s : State) (op : Nat) : Bool := decide (op = 2 ∨ op = 10) || flag s Reg.sqStatusHalted

/-- Present a fetched command (R284). While the scheduler is halted a restore starts with its UNPARK, and RESUME_SCHEDULER
forms the halted step again (R297). -/
def presentCmd (s : State) (c : QCmd) : State :=
  if actsNow s c.opcode then
    let s1 := applyCmd s c
    let s2 := if flag s Reg.sqStatusHalted then startRestores s1 else s1
    if flag s Reg.sqStatusHalted ∧ !flag s2 Reg.sqStatusHalted then form s2 else s2
  else { s with sched := { s.sched with cmds := insertCmd c s.sched.cmds } }

/-- A command as its 64 bytes spell it (Table 12-5), delivered by the doorbell of tick `t`. -/
def cmdOf (s : State) (q t : Nat) (b : List Byte) : QCmd :=
  let f := fieldAt b
  { queue := q, opcode := f 0 1, tick := t, head := fld s (Reg.hqSqHeadsSqHead q)
    cmd := { flags := BitVec.ofNat 8 (f 1 1), cid := BitVec.ofNat 16 (f 2 2), rc := BitVec.ofNat 16 (f 4 2)
             tenant := BitVec.ofNat 16 (f 6 2), body := b.drop 8 } }

/-- Fetch from the head towards the tail, `n` commands at most (R407). -/
def fetchFrom (s : State) (q : Nat) : Nat → State
  | 0 => s
  | n + 1 =>
    let head := fld s (Reg.hqSqHeadsSqHead q)
    if head = (getQueue s q).tail ∨ canFetch s q = false then s
    else
      let a := baseFld s (Reg.hqSqSqBase q) + 64 * head
      let g := areaReady s a 64
      if !g.2 then g.1
      else
        match operandArea g.1 a 64 0xFFFF with
        | (s1, .error _) => stopQueue s1 q 3
        | (s1, .ok b) =>
          let s2 := takeEntry s1 q
          fetchFrom (presentCmd s2 (cmdOf s2 q (bellTick s1 q) b)) q n

def fetchQueue (s : State) (q : Nat) : State := fetchFrom s q (sqSize s q)

/-- Fetch from every queue, lowest first: fetching has become possible. -/
def fetchAll (s : State) : State := (s.queues.map (·.1)).foldl fetchQueue s

/-! ## Doorbells (R407) -/

/-- A submission tail: an index of the entry count or above stops the queue. A queue that is not enabled ignores it. -/
def doorbell (s : State) (q tail : Nat) : State :=
  if !flag s (Reg.hqSqCtrlEnable q) then s
  else if sqSize s q ≤ tail then stopQueue s q 1
  else
    let x := getQueue s q
    fetchQueue (setQueue s q { x with tail := tail, bells := if tail = x.tail then x.bells else x.bells ++ [(tail, s.tk)] }) q

/-- A completion head. -/
def headDoorbell (s : State) (q head : Nat) : State :=
  if !flag s (Reg.hqSqCtrlEnable q) then s
  else if cqSize s q ≤ head then stopQueue s q 2
  else fetchQueue (setQueue s q { getQueue s q with cqHead := head }) q

def execSubmissionDoorbell (t q tail : Nat) (s : State) : Host.Outcome State Fault Refusal :=
  presentUnit s t q numQueues fun s => doorbell s q tail
def execCompletionHeadDoorbell (t q head : Nat) (s : State) : Host.Outcome State Fault Refusal :=
  presentUnit s t q numQueues fun s => headDoorbell s q head

/-- The coalescing time has run out since the first completion not yet reported (R408). -/
def execCoalesceTime (t q : Nat) (s : State) : Host.Outcome State Fault Refusal :=
  presentUnit s t q numQueues fun s =>
    let time := fld s (Reg.hqSqCoalTime q)
    if time ≠ 0 ∧ (getQueue s q).unsent ≠ 0 ∧ (getQueue s q).firstAt + 100 * time ≤ s.tk then sendCoalesced s q else s

/-! ## Enabling (R408) -/

/-- Both rings of a queue lie in permitted rows (R406, R407). -/
def ringsPermitted (s : State) (q : Nat) : Bool :=
  let ok := fun a n => decide (rowOf s a n = .host ∨ rowOf s a n = .hbm)
  ok (baseFld s (Reg.hqSqSqBase q)) (64 * sqSize s q) && ok (baseFld s (Reg.hqSqCqBase q)) (32 * cqSize s q)

/-- Writing 1 to ENABLE: heads and tails 0, PHASE 1, no error. -/
def enableQueue (s : State) (q : Nat) : State :=
  let s1 := setFld (setFld (setFld s (Reg.hqSqHeadsSqHead q) 0) (Reg.hqSqHeadsCqTail q) 0) (Reg.hqSqErrCause q) 0
  let s2 := setQueue (setFld s1 (Reg.hqSqCtrlEnable q) 1) q { open_ := (getQueue s q).open_ }
  showIdle (showQueueError s2) q

/-- A write to a queue's CTRL: the sizes are ignored while ENABLE is 1 (R408). -/
def queueCtrl (s : State) (q : Nat) (v : Word32) : State :=
  let x := v.toNat
  let s1 := setFld s (Reg.hqSqCtrlIrqEn q) (bits x 1 1)
  let s2 := if flag s (Reg.hqSqCtrlEnable q) then s1
    else setFld (setFld s1 (Reg.hqSqCtrlSqLog2 q) (bits x 7 3)) (Reg.hqSqCtrlCqLog2 q) (bits x 12 8)
  if bit x 0 then
    if ringsPermitted s2 q then enableQueue s2 q else stopQueue (setFld s2 (Reg.hqSqCtrlEnable q) 0) q 4
  else showIdle (setFld s2 (Reg.hqSqCtrlEnable q) 0) q

def execHqSqEnable (t q : Nat) (v : Word32) (s : State) : Host.Outcome State Fault Refusal :=
  presentUnit s t q numQueues fun s => queueCtrl s q v

/-! ## The host command rows (R284) -/

/-- A command of an opcode is the next entry of its queue: it is fetched where the queue may fetch, and presented. -/
def hostCmd (op t q : Nat) (c : HostCmd) (s : State) : Host.Outcome State Fault Refusal :=
  presentUnit s t q numQueues fun s =>
    if canFetch s q then
      let s1 := takeEntry s q
      let head := fld s1 (Reg.hqSqHeadsSqHead q)
      presentCmd (setQueue s1 q { getQueue s1 q with tail := head }) { queue := q, opcode := op, cmd := c, tick := s.tk, head := head }
    else s

def execAdmitCmd (t q : Nat) (c : HostCmd) (s : State) : Host.Outcome State Fault Refusal := hostCmd 1 t q c s
def execCancel (t q : Nat) (c : HostCmd) (s : State) : Host.Outcome State Fault Refusal := hostCmd 2 t q c s
def execResumeRequest (t q : Nat) (c : HostCmd) (s : State) : Host.Outcome State Fault Refusal := hostCmd 3 t q c s
def execPark (t q : Nat) (c : HostCmd) (s : State) : Host.Outcome State Fault Refusal := hostCmd 4 t q c s
def execUnpark (t q : Nat) (c : HostCmd) (s : State) : Host.Outcome State Fault Refusal := hostCmd 5 t q c s
def execSharePrefix (t q : Nat) (c : HostCmd) (s : State) : Host.Outcome State Fault Refusal := hostCmd 6 t q c s
def execTenantCmd (t q : Nat) (c : HostCmd) (s : State) : Host.Outcome State Fault Refusal := hostCmd 7 t q c s
def execLoadAdapter (t q : Nat) (c : HostCmd) (s : State) : Host.Outcome State Fault Refusal := hostCmd 8 t q c s
def execRetireAdapter (t q : Nat) (c : HostCmd) (s : State) : Host.Outcome State Fault Refusal := hostCmd 9 t q c s
def execLoadImage (t q : Nat) (c : HostCmd) (s : State) : Host.Outcome State Fault Refusal := hostCmd 10 t q c s
def execResumeScheduler (t q : Nat) (c : HostCmd) (s : State) : Host.Outcome State Fault Refusal := hostCmd 11 t q c s
def execGuestTable (t q : Nat) (c : HostCmd) (s : State) : Host.Outcome State Fault Refusal := hostCmd 12 t q c s

end Sys2Proof.Machine
end

