-- ==== Sys2Proof/Machine/Boot.lean ====
section
/-! DEFINITION. The two resets (R401, R421), power-up and power-down (R420, R422), and the boot stages of Table 17-6 with the
firmware image (R393 to R396) and the measurements taken at start (R399). -/
namespace Sys2Proof.Machine

def bootRom : Nat := 0
def bootVerifying : Nat := 1
def bootStarting : Nat := 2
def bootRunning : Nat := 3
def bootRecovery : Nat := 4
def bootNow (s : State) : Nat := fld s Reg.kwStatusBoot
def setBoot (s : State) (b : Nat) : State := setFld s Reg.kwStatusBoot b

/-! ## The firmware image (Table 17-5) -/

/-- The bytes the family field holds: ASCII, zero-padded. -/
def familyBytes : List Byte := padTo 16 (ascii "ZW-PX9")

def imgBody (b : List Byte) : List Byte := (b.drop 256).take (fieldAt b 0x10 4)

/-- The length of an image is its header and body. -/
def imgLengthOk (b : List Byte) : Bool := between 1 (fieldAt b 0x10 4) 33554176 && decide (b.length = 256 + fieldAt b 0x10 4)

/-- The checks of R394 in order: 0, or the status of the first that fails (Table 17-4): BAD_IMAGE or ROLLBACK. -/
def verifyImage (s : State) (b : List Byte) : Nat :=
  if b.take 4 ≠ ascii "KWFW" ∨ fieldAt b 4 2 ≠ 0x0100 then 5
  else if (b.drop 0x60).take 16 ≠ familyBytes then 5
  else if ed448Verify Config.imageKey (b.take 0x80) ((b.drop 0x80).take 114) = false then 5
  else if fieldAt b 0x0C 4 < s.kolwin.svFuse then 6
  else if imgLengthOk b = false ∨ (b.drop 0x20).take 64 ≠ shake256 (imgBody b) 64 then 5
  else 0

/-! ## Clearing (Table 17-8) -/

/-- A device address lies in tier 2. -/
def inTier2 (a : Nat) : Bool := decide (tier2Base ≤ a ∧ a < tier2Base + tier2Bytes)

/-- The profile in force, with the modes it gives (R381, R386). -/
def startProfile (s : State) (pins active : Nat) (record : List Byte) : State :=
  let s1 := modPower s fun p => { p with record := record }
  let s2 := setFld (setFld s1 Reg.pwProfilePins pins) Reg.pwProfileActive active
  let m := modesOf (activeRecord s2) (regGet s2 0xA000C).toNat false
  setFld (regPut s2 0xA0010 (BitVec.ofNat 32 m)) Reg.pwActiveProfile active

/-- A device reset keeps the tick counter and its registers (R54), tier-2 contents, retirements and substitutions, the active
profile, fuses and flash. The pair state is SOLO, so the device leads its own tick. -/
def clearedDevice (s : State) (cause : Nat) : State :=
  let s1 := cleared s cause
  let gone := (List.range numCores).filter (retired s)
  let s2 := { s1 with
    tk := s.tk, gids := s.gids
    regs := (s.regs.filter fun r => decide (0x20000 ≤ r.1 ∧ r.1 < 0x30000)).foldl (fun m r => smSet regReset m r.1 r.2) s1.regs
    mem := s.mem.filter fun c => inTier2 c.1
    badWords := s.badWords.filter fun w => inTier2 (16 * w.1)
    softWords := s.softWords.filter fun w => inTier2 (16 * w.1)
    power := { s1.power with tier2Up := s.power.tier2Up }
    kolwin := { s1.kolwin with tier2Trained := s.kolwin.tier2Trained, resetting := true }
    sched := { s1.sched with fomStart := s.tk } }
  let s3 := gone.foldl (fun st k => setFld st (Reg.inCoreState k) icRetired) s2
  let s4 := setFld (setFld (setFld (setFld s3 Reg.tkStatusLeader 1) Reg.tkStatusLocked 0) Reg.tkStatusHoldover 0) Reg.tkStatusSlewing 0
  startProfile s4 (fld s Reg.pwProfilePins) (fld s Reg.pwProfileActive) s.power.record

/-- A device reset that leaves the PCIe link trained: HQ_STATUS goes on reporting it (R403), configuration requests are
answered already, and BOOT reads VERIFYING at once (Table 17-6). -/
def linkKept (s t : State) : State :=
  if fld s Reg.hqStatusWidth = 0 then t
  else setFld (setFld (setFld t Reg.hqStatusSpeed (fld s Reg.hqStatusSpeed)) Reg.hqStatusWidth (fld s Reg.hqStatusWidth))
    Reg.kwStatusBoot 1

/-- A device reset (R401): a cause that arrives during one is absorbed, and a shutdown ends only with the input (R379).
Cause 3, a reset over PCIe, trains the link again. -/
def deviceReset (s : State) (cause : Nat) : State :=
  if s.kolwin.resetting ∨ s.power.shutdown then s
  else if cause = 3 then clearedDevice s cause
  else linkKept s (clearedDevice s cause)

/-! ## Power-up and RESET_N (R420 to R422) -/

/-- The 50 V input rises: a power-on reset, with the device held in reset until RESET_N's deassertion is taken. -/
def inputUp (s : State) : State :=
  if s.pins.powered then s
  else
    let s1 := powerOnReset s 1
    { s1 with pins := { s1.pins with powered := true, pwrgd := false, resetN := false } }

/-- The input is removed: every rail falls, and only flash and fuses stay. -/
def inputDown (s : State) : State :=
  let s1 := powerOnReset s 1
  { s1 with pins := { s1.pins with powered := false, pwrgd := false, resetN := false } }

/-- VIO is in regulation: PWRGD goes high. -/
def pwrgdUp (s : State) (resetHigh : Bool) : State :=
  if s.pins.powered && !s.pins.pwrgd && !s.power.shutdown then
    { s with pins := { s.pins with pwrgd := true, resetPin := resetHigh, risenAt := s.tk } }
  else s

/-- RESET_N's deassertion is taken: the pins are sampled, an invalid record gives the shipped P0 (R381), and boot starts. -/
def samplePins (s : State) (p slot : Nat) : State :=
  let s1 := { s with pins := { s.pins with resetN := true, prof := p, slotId := slot } }
  if recordOk (storedRecord s1 p) then startProfile s1 p p (storedRecord s1 p)
  else setFld (startProfile s1 p 0 (shippedRecord 0)) Reg.pwProfileResult 2

/-- The device is powered and held in reset. -/
def heldInReset (s : State) : Bool := s.pins.powered && s.pins.pwrgd && !s.pins.resetN && !s.power.shutdown

def resetLow (s : State) : State :=
  let s1 := { s with pins := { s.pins with resetPin := false } }
  if s.kolwin.resetting ∨ s.power.shutdown ∨ s.pins.resetN = false then s1
  else
    let s2 := powerOnReset s1 2
    { s2 with pins := { s2.pins with resetN := false } }

def resetHigh (s : State) (p slot : Nat) : State :=
  let s1 := { s with pins := { s.pins with resetPin := true } }
  if heldInReset s && !s.pins.resetPin then samplePins s1 p slot else s1

/-- PWRGD plus 1 ms, with RESET_N high all along. -/
def resetTaken (s : State) (p slot : Nat) : State :=
  if heldInReset s && s.pins.resetPin && decide (s.pins.risenAt + 100000 ≤ s.tk) then samplePins s p slot else s

def execInputApplied (t : Nat) (s : State) : Host.Outcome State Fault Refusal := .next (inputUp (atTick s t))
def execInputRemoved (t : Nat) (s : State) : Host.Outcome State Fault Refusal := .next (inputDown (atTick s t))
def execPwrgdHigh (t : Nat) (resetNHigh : Bool) (s : State) : Host.Outcome State Fault Refusal :=
  .next (pwrgdUp (atTick s t) resetNHigh)
def execResetNAsserted (t : Nat) (s : State) : Host.Outcome State Fault Refusal := .next (resetLow (atTick s t))
def execResetNDeasserted (t p slot : Nat) (s : State) : Host.Outcome State Fault Refusal :=
  if p < 4 ∧ slot < 32 then .next (resetHigh (atTick s t) p slot) else .fault .noSuchUnit
def execResetNDeassertionTaken (t p slot : Nat) (s : State) : Host.Outcome State Fault Refusal :=
  if p < 4 ∧ slot < 32 then .next (resetTaken (atTick s t) p slot) else .fault .noSuchUnit
/-- PCIE_RESET: a device reset with cause 3, in the FATAL state too (R401). -/
def execPcieReset (t : Nat) (s : State) : Host.Outcome State Fault Refusal := presentAlways s t fun s => deviceReset s 3

/-! ## Boot stages (R394 to R396) -/

/-- The endpoint answers configuration requests (R403); BOOT leaves ROM for VERIFYING. -/
def linkTrained (s : State) (g w : Nat) : State :=
  let s1 := setFld (setFld s Reg.hqStatusSpeed g) Reg.hqStatusWidth w
  if bootNow s1 = bootRom then setBoot s1 bootVerifying else s1

/-- The recovery loader starts (R395). -/
def startRecovery (s : State) : State := resetDone (setAlert (railsDown (setBoot s bootRecovery) true) 5)

/-- The firmware starts: KW_FW and the measurements M0 to M2 (R394, R399). -/
def startFirmware (s : State) (b : List Byte) : State :=
  let s1 := extendM s 0 ((b.drop 0x20).take 64)
  let s2 := extendM s1 1 (Config.suiteDigest (imgBody b))
  let s3 := extendM s2 2 (shake256 ((List.range 4).flatMap (storedRecord s2)) 64)
  let s4 := setFld (setFld s3 Reg.kwFwVersion (fieldAt b 8 4)) Reg.kwFwSecurity (fieldAt b 0x0C 4)
  setBoot { s4 with kolwin := { s4.kolwin with startedAt := s.tk } } bootStarting

def verificationEnd (s : State) : State :=
  if bootNow s ≠ bootRom ∧ bootNow s ≠ bootVerifying then s
  else if verifyImage s s.kolwin.flash = 0 then startFirmware s s.kolwin.flash
  else startRecovery s

/-- The held cells as the scheduler uses them (R296): SC32512 and SC32513 COUNTER of scope DEVICE, SC32640 on ARRIVE of scope
DOMAIN. -/
def heldCells (s : State) : State :=
  let put := fun (st : State) (n c : Nat) => setCell st n { value := 0, cfg := BitVec.ofNat 32 c, deadline := 0 }
  (List.range 128).foldl (fun st i => put st (32640 + i) 0x54000000) (put (put s 32512 0x2C000000) 32513 0x2C000000)

/-- Rails V0 to V7 and VMEM are in regulation, the core rails at the profile's nominal voltage (R396). -/
def firmwareUp (s : State) : State :=
  if bootNow s ≠ bootStarting ∨ s.power.railsUp then s
  else
    let s1 := applyRails (modPower s fun p => { p with setpoint := pNominal s, railsUp := true, tier2Up := true })
    heldCells ((List.range 10).foldl (fun st v => setFld st (Reg.pwRailMeasured v) (fld st (Reg.pwRailSetpoint v))) s1)

/-- All of HBM is written to zero with valid codes (R396). -/
def hbmZeroed (s : State) : State :=
  { s with
    mem := s.mem.filter fun c => !decide (c.1 < hbmBytes)
    badWords := s.badWords.filter fun w => !decide (16 * w.1 < hbmBytes)
    softWords := s.softWords.filter fun w => !decide (16 * w.1 < hbmBytes)
    kolwin := { s.kolwin with hbmTrained := true } }

def hbmUp (s : State) : State :=
  if bootNow s = bootStarting ∧ s.power.railsUp then hbmZeroed s else s

def tier2Ready (s : State) : State :=
  if bootNow s = bootStarting ∧ s.kolwin.hbmTrained then { s with kolwin := { s.kolwin with tier2Trained := true } } else s

/-- A core that fails its start-up test: its record, and its retirement under R359 before the first publication. -/
def startUpFail (s : State) (f : Nat × Nat) : State :=
  let s1 := testFails s f.1 f.2
  if serving s1 f.1 then retireCore { s1 with integ := { s1.integ with losing := [], spareLost := false } } 1 f.1
  else { s1 with integ := { s1.integ with losing := [], spareLost := false } }

/-- The start-up tests end (R396): idle spares read SPARE_IDLE, failing cores are retired (spares first, so that none that
failed substitutes), NB_CROSS and the modes are loaded from the profile (R225), and the first publication begins (R39). -/
def testsEnd (s : State) (failed : List (Nat × Nat)) : State :=
  if bootNow s ≠ bootStarting ∨ s.kolwin.hbmTrained = false ∨ s.kolwin.tier2Trained = false ∨ s.table.isEmpty = false then s
  else
    let tested := (List.range numCores).filter fun k => !retired s k
    let s1 := (tested.filter fun k => !serving s k).foldl (fun st k => setCoreState st k icSpareIdle) s
    let s2 := countUp s1 Reg.inCountCicadaRuns Reg.inCountOvf 0 tested.length
    let bad := failed.filter fun f => decide (f.1 < numCores) && !retired s f.1
    let s3 := (bad.filter fun f => !serving s f.1).foldl startUpFail s2
    let s4 := (bad.filter fun f => serving s f.1).foldl startUpFail s3
    let s5 := showModes (regPut s4 Reg.nbCrossQkv.off (BitVec.ofNat 32 (prof s4 0x28 2)))
    beginPublication s5 allTypes

/-- CLAILAEZ_PUBLICATION: Kolwin ends the publication in progress (R38). The first one after reset lets BOOT read RUNNING,
the known-answer tests fall due from there (R353), and the queues enabled and rung before are fetched from (R396). -/
def publicationEnd (s : State) : State :=
  let s1 := endPublication s
  if s.kolwin.publishing ∧ bootNow s = bootStarting then
    let s2 := setBoot s1 bootRunning
    resetDone (fetchAll (if flag s2 Reg.inCtrlCicadaEn then armTests s2 else s2))
  else s1

def execClailaezPublication (t : Nat) (s : State) : Host.Outcome State Fault Refusal := present s t publicationEnd
def execPcieLinkTrained (t g w : Nat) (s : State) : Host.Outcome State Fault Refusal :=
  if 1 ≤ g ∧ g ≤ 6 ∧ 1 ≤ w ∧ w ≤ 16 then presentAlways s t fun s => linkTrained s g w else .fault .noSuchUnit
def execImageVerificationEnd (t : Nat) (s : State) : Host.Outcome State Fault Refusal := present s t verificationEnd
def execFirmwareStart (t : Nat) (s : State) : Host.Outcome State Fault Refusal := present s t firmwareUp
def execHbmTrainingEnd (t : Nat) (s : State) : Host.Outcome State Fault Refusal := present s t hbmUp
def execTier2TrainingEnd (t : Nat) (s : State) : Host.Outcome State Fault Refusal := present s t tier2Ready
def execStartUpTestsEnd (t : Nat) (failed : List (Nat × Nat)) (s : State) : Host.Outcome State Fault Refusal :=
  present s t fun s => testsEnd s failed

end Sys2Proof.Machine
end

