-- ==== Sys2Proof/Machine/LinkCode.lean ====
section
/-! DEFINITION. A link frame as bytes and as a codeword: the Reed–Solomon code of the ports and its lanes (R315), the frame and
its slots (R316, Tables 13-1, 13-2, 14-3). -/
namespace Sys2Proof.Machine

/-! ## GF(2^10) (R315) -/

/-- Times α, the root of x^10 + x^3 + 1. -/
def gfTwice10 (a : Nat) : Nat := if a < 512 then 2 * a else 2 * a ^^^ 0x409

/-- Product of two elements, over the ten bits of the first. -/
def gfMul10 (a b : Nat) : Nat :=
  ((List.range 10).foldl (fun (r : Nat × Nat) i => (if a / 2 ^ i % 2 = 1 then r.1 ^^^ r.2 else r.1, gfTwice10 r.2)) (0, b)).1

/-- α to a power. -/
def gfPow10 : Nat → Nat
  | 0 => 1
  | n + 1 => gfTwice10 (gfPow10 n)

/-! ## RS(1020, 960) (R315) -/

/-- A polynomial, highest power first, times x − a. -/
def timesRoot (p : List Nat) (a : Nat) : List Nat :=
  (List.zip (p ++ [0]) (0 :: p)).map fun q => q.1 ^^^ gfMul10 a q.2

/-- The generator g(x), highest power first: 61 coefficients, the first 1. -/
def rsGenerator : List Nat := (List.range 60).foldl (fun p i => timesRoot p (gfPow10 i)) [1]

/-- One step of the division by g: the next message symbol enters. -/
def rsStep (g rem : List Nat) (m : Nat) : List Nat :=
  let q := m ^^^ rem.headD 0
  (List.zip (rem.drop 1 ++ [0]) (g.drop 1)).map fun p => p.1 ^^^ gfMul10 q p.2

/-- The 60 parity symbols of a message. -/
def rsParity (msg : List Nat) : List Nat := msg.foldl (rsStep rsGenerator) (List.replicate 60 0)

/-- Syndrome `j`: a word's value at α^j; all 60 are 0 for a codeword. -/
def rsSyndrome (word : List Nat) (j : Nat) : Nat := word.foldl (fun v c => gfMul10 (gfPow10 j) v ^^^ c) 0

/-- The bits of a byte, most significant first. -/
def byteBits (b : Byte) : List Bool := (List.range 8).map fun i => b.getLsbD (7 - i)

/-- The number a list of bits spells, most significant first. -/
def bitsNat (bs : List Bool) : Nat := bs.foldl (fun v b => 2 * v + (if b then 1 else 0)) 0

/-- The 960 message symbols of a frame's 1,200 bytes. -/
def frameSymbols (bs : List Byte) : List Nat := (chunks 10 960 (bs.flatMap byteBits)).map bitsNat

/-- The codeword a port sends for a frame. -/
def codeword (bs : List Byte) : List Nat := frameSymbols bs ++ rsParity (frameSymbols bs)

/-- What the lanes have added to a symbol. -/
def noiseAt (noise : List (Nat × BitVec 10)) (i : Nat) : BitVec 10 :=
  (noise.filter fun n => decide (n.1 = i)).foldl (fun v n => v ^^^ n.2) 0

/-- The codeword as it is received. -/
def receivedWord (bs : List Byte) (noise : List (Nat × BitVec 10)) : List Nat :=
  (List.zip (List.range 1020) (codeword bs)).map fun p => p.2 ^^^ (noiseAt noise p.1).toNat

/-- Symbols of the codeword in error. -/
def symbolErrors (noise : List (Nat × BitVec 10)) : Nat :=
  ((noise.map (·.1)).eraseDups.filter fun i => decide (i < 1020 ∧ noiseAt noise i ≠ 0)).length

/-- The code's minimum distance is 61: a word with at most 30 symbols in error is corrected to the codeword sent. That one with
more does not decode is the model's choice (notes/assumptions/140.md). -/
def codewordDecodes (noise : List (Nat × BitVec 10)) : Bool := decide (symbolErrors noise ≤ 30)

/-- The lane that carries a symbol: the (i mod n)-th of the lanes in service, ascending. -/
def symbolLane (lanes i : Nat) : Nat :=
  let up := (List.range 6).filter fun l => lanes / 2 ^ l % 2 == 1
  up.getD (i % up.length) 0

/-- The five PAM4 symbols of a symbol, the most significant pair first. -/
def symbolPairs (x : BitVec 10) : List (BitVec 2) := (List.range 5).map fun i => x.extractLsb' (8 - 2 * i) 2

/-! ## Frames (R316) -/

/-- A slot: its header (Table 13-2) and its granule. -/
def linkSlotBytes (x : Slot) : List Byte :=
  [x.type, x.flags] ++ natBytes 2 x.dest.toNat ++ natBytes 2 x.src.toNat ++ natBytes 2 x.cell.toNat ++
    natBytes 8 x.offset.toNat ++ natBytes 8 x.tag.toNat ++ natBytes 2 x.line.toNat ++ natBytes 2 x.lines.toNat ++
    natBytes 4 0 ++ padTo 256 x.data

/-- A slot of port M: the mirror frame's header (Table 14-3) and its payload. -/
def mirrorSlotBytes (x : MFrame) : List Byte :=
  [x.type, x.flags] ++ natBytes 2 x.rc.toNat ++ natBytes 4 x.mseq.toNat ++ natBytes 4 x.mack.toNat ++
    natBytes 2 x.len.toNat ++ natBytes 2 x.layer.toNat ++ natBytes 8 x.step.toNat ++ natBytes 8 x.arg.toNat ++ padTo 256 x.data

/-- Bytes 0x000 to 0x4A7 of a frame (Table 13-1): LINK, SLOTS, CREDITS and the slots. -/
def frameBody (seq ack : Nat) (nak idle : Bool) (credits : List Nat) (slots : List (List Byte)) : List Byte :=
  natBytes 4 (seq % 4096 + 2 ^ 12 * (ack % 4096) + 2 ^ 24 * b2n nak + 2 ^ 25 * b2n idle) ++ natBytes 4 (2 ^ slots.length - 1) ++
    padTo 16 (credits.flatMap (natBytes 1)) ++ List.replicate 16 0 ++ padTo 1152 slots.flatten

/-- A whole frame: its body and the CRC-64 over it. -/
def frameBytes (body : List Byte) : List Byte := body ++ natBytes 8 (crc64 body).toNat

/-- The body of an arriving frame. -/
def arrivedBody (f : LinkFrame) : List Byte :=
  frameBody f.seq f.ack f.nak f.idle f.credits (f.slots.map linkSlotBytes ++ f.mslots.map mirrorSlotBytes)

/-- The CRC of an arriving frame matches. -/
def frameCrcOk (f : LinkFrame) : Bool := decide (f.crc = crc64 (arrivedBody f))

/-- A frame as it leaves a port. -/
def wireBytes (f : SentFrame) : List Byte :=
  frameBytes (frameBody f.seq f.ack f.nak (f.slots.isEmpty && f.mslots.isEmpty) f.credits
    (f.slots.map linkSlotBytes ++ f.mslots.map mirrorSlotBytes))

end Sys2Proof.Machine
end

