-- ==== Sys2Proof/Machine/LinkOps.lean ====
section
/-! DEFINITION. What a port receives (R315 to R324, R364), replay (R317), and the states of the ports (R319 to R321, R415). -/
namespace Sys2Proof.Machine

/-! ## Port states (Table 13-4) -/

def psDisabled : Nat := 0
def psTraining : Nat := 1
def psUp : Nat := 2
def psRetraining : Nat := 3
def psDown : Nat := 4
def numPorts : Nat := 17

/-- A change of a port's state (R319): a class 5 event, for port M the class 2 event (R341, R333). -/
def portEvent (s : State) (p : Nat) (wasUp : Bool) : State :=
  let s0 := sendIf (setFld s Reg.lkStatusPortEvent 1) Reg.lkCtrlIrqEn 261
  let s1 := if p = portM then armBeat s0 else s0
  if p = portM ∧ wasUp then (if mState s1 = msPairing then refusePair s1 5 else suspect s1 2) else s1

/-- Take a port to a state. -/
def setPortState (s : State) (p st : Nat) : State :=
  let old := portState s p
  if old = st then s
  else
    let s1 := setFld s (Reg.lkPortStatusState p) st
    let up := setBits (fld s1 Reg.lkStatusPortsUp) p p (b2n (decide (st = psUp)))
    let s2 := setPort (setFld s1 Reg.lkStatusPortsUp up) p { getPort s1 p with since := s.tk }
    let s3 := if st = psDown ∨ st = psDisabled then discardPort (setFld s2 (Reg.lkPortStatusLanesUp p) 0) p else s2
    let s4 := if st = psRetraining then countUp s3 (Reg.lkPortRetrains p) (Reg.lkPortOvf p) 4 1 else s3
    portEvent s4 p (decide (old = psUp))

/-- A port's own ENABLE: port M's is MR_CTRL.ENABLE, and PAIR_PRESENT must read low (R350, R415). -/
def portEnabled (s : State) (p : Nat) : Bool :=
  if p = portM then flag s Reg.mrCtrlEnable && !s.pins.pairPresent else flag s (Reg.lkPortCtrlEnable p)

/-- A port may train (R319, R321). -/
def mayTrain (s : State) (p : Nat) : Bool := flag s Reg.lkStatusEnabled && flag s Reg.lkStatusIdValid && portEnabled s p

/-- Follow the enables after a change from `was`: a DISABLED port trains as its enables become 1, and one that may not train is
DISABLED (Table 13-4). -/
def followEnable (was s : State) (p : Nat) : State :=
  if !mayTrain s p then setPortState s p psDisabled
  else if !mayTrain was p && decide (portState s p = psDisabled) then setPortState s p psTraining
  else s

/-- Every port follows the enables. -/
def followEnables (was s : State) : State := (List.range numPorts).foldl (followEnable was) s

/-- LANES_MIN as it acts (Table 13-10). -/
def lanesMin (s : State) : Nat := min 6 (max 1 (fld s Reg.lkCtrlLanesMin))
/-- Lanes in a mask. -/
def laneCount (m : Nat) : Nat := ((List.range 6).filter fun i => bit m i).length
/-- Lanes of a mask that LANE_OFF leaves. -/
def lanesOn (s : State) (p m : Nat) : Nat := m &&& (63 - fld s (Reg.lkPortCtrlLaneOff p))

/-- Send what waits on a port that is UP. -/
def flushAny (s : State) (p : Nat) : State := if p = portM then flushMirror (flushPort s p) else flushPort s p

/-- Credits a receiver grants at training: 512 to each class A pool, 64 to every other (R318). -/
def initialCredits : List (Nat × Nat) := (List.range 16).map fun i => (i, if i < 4 then 512 else 64)

/-- TRAINING_COMPLETE within 100 ms: the parameters are exchanged. -/
def trained (s : State) (p lanes peerId peerPort : Nat) : State :=
  let m := lanesOn s p lanes
  if portState s p ≠ psTraining ∨ laneCount m < lanesMin s ∨ (getPort s p).since + 10000000 < s.tk then s
  else if peerId % 1024 = ownId s then
    sendIf (setFld (setPortState s p psDisabled) Reg.lkStatusIdConflict 1) Reg.lkCtrlIrqEn 261
  else
    let s1 := setFld (setFld (setFld s (Reg.lkPortStatusPeerId p) peerId) (Reg.lkPortStatusPeerPort p) peerPort)
      (Reg.lkPortStatusLanesUp p) m
    flushAny (setPortState (setPort s1 p { getPort s1 p with
      txSeq := 1, rxSeq := 0, credits := initialCredits, granted := initialCredits, owed := [], gap := false, nakOut := false
      ackOut := false, badRun := 0, replays := 0 }) p psUp) p

/-- A lane leaves service, and an UP port retrains on those that remain (R320). -/
def loseLane (s : State) (p lane : Nat) : State :=
  let m := fld s (Reg.lkPortStatusLanesUp p)
  if bit m lane = false then s
  else
    let s1 := setFld s (Reg.lkPortStatusLanesUp p) (setBits m lane lane 0)
    if portUp s1 p then setPortState s1 p psRetraining else s1

/-- RETRAINING_COMPLETE: SEQ, ACK and the replay buffer continue. -/
def retrained (s : State) (p lanes : Nat) : State :=
  let m := lanesOn s p (lanes &&& fld s (Reg.lkPortStatusLanesUp p))
  if portState s p ≠ psRetraining ∨ laneCount m < lanesMin s ∨ (getPort s p).since + 200000 < s.tk then s
  else
    let s1 := setPort (setFld s (Reg.lkPortStatusLanesUp p) m) p { getPort s p with badRun := 0, replays := 0 }
    flushAny (setPortState s1 p psUp) p

/-- A state's time has passed. -/
def overdue (s : State) (p st n : Nat) : Bool := decide (portState s p = st ∧ (getPort s p).since + n ≤ s.tk)

def execTrainingComplete (t p : Nat) (lanes : BitVec 6) (peerId peerPort : Nat) (s : State) : Host.Outcome State Fault Refusal :=
  presentUnit s t p numPorts fun s => trained s p lanes.toNat peerId peerPort
def execTrainingTimeout (t p : Nat) (s : State) : Host.Outcome State Fault Refusal :=
  presentUnit s t p numPorts fun s => if overdue s p psTraining 10000000 then setPortState s p psDown else s
def execRetrainingComplete (t p : Nat) (lanes : BitVec 6) (s : State) : Host.Outcome State Fault Refusal :=
  presentUnit s t p numPorts fun s => retrained s p lanes.toNat
def execRetrainingTimeout (t p : Nat) (s : State) : Host.Outcome State Fault Refusal :=
  presentUnit s t p numPorts fun s => if overdue s p psRetraining 200000 then setPortState s p psDown else s
/-- DOWN_TIMEOUT: back to TRAINING after 1 s. -/
def execDownTimeout (t p : Nat) (s : State) : Host.Outcome State Fault Refusal :=
  presentUnit s t p numPorts fun s => if overdue s p psDown 100000000 then setPortState s p psTraining else s
def execLaneLockLost (t p lane : Nat) (s : State) : Host.Outcome State Fault Refusal :=
  if lane < 6 then presentUnit s t p numPorts fun s => loseLane s p lane else .fault .noSuchUnit
def execLaneErrorRate (t p lane : Nat) (s : State) : Host.Outcome State Fault Refusal :=
  if lane < 6 then presentUnit s t p numPorts fun s => loseLane s p lane else .fault .noSuchUnit

/-- LANE_OFF (R320). Port M's CTRL fields are RD (R332). -/
def laneOff (s : State) (p lane : Nat) : State :=
  if p = portM then s
  else loseLane (setFld s (Reg.lkPortCtrlLaneOff p) (setBits (fld s (Reg.lkPortCtrlLaneOff p)) lane lane 1)) p lane

def execLaneOff (t p lane : Nat) (s : State) : Host.Outcome State Fault Refusal :=
  if lane < 6 then presentUnit s t p numPorts fun s => laneOff s p lane else .fault .noSuchUnit

/-- RETRAIN is written: an UP port retrains. -/
def retrain (s : State) (p : Nat) : State := if portUp s p ∧ p ≠ portM then setPortState s p psRetraining else s

def execRetrain (t p : Nat) (s : State) : Host.Outcome State Fault Refusal := presentUnit s t p numPorts fun s => retrain s p

/-- A port's ENABLE is written. -/
def enablePort (s : State) (p : Nat) (on : Bool) : State :=
  followEnable s (setFld s (if p = portM then Reg.mrCtrlEnable else Reg.lkPortCtrlEnable p) (b2n on)) p

def execPortEnable (t p : Nat) (on : Bool) (s : State) : Host.Outcome State Fault Refusal :=
  presentUnit s t p numPorts fun s => enablePort s p on

/-- PAIR_PRESENT_CHANGE (R415): the pin's level is the board's, whatever state the device is in. -/
def execPairPresentChange (t : Nat) (high : Bool) (s : State) : Host.Outcome State Fault Refusal :=
  present { s with pins := { s.pins with pairPresent := high } } t fun u =>
    followEnable { u with pins := { u.pins with pairPresent := s.pins.pairPresent } } u portM

/-! ## Replay (R317) -/

/-- Send every unacknowledged frame again. Eight replays without an acknowledgement advancing retrain the port (Table 13-4). -/
def replay (s : State) (p : Nat) : State :=
  let q := getPort s p
  if q.unacked.isEmpty ∨ portUp s p = false ∨ mState s = msFenced then s
  else
    let s1 := setPort s p { q with replays := q.replays + 1, unacked := q.unacked.map fun f => { f with sentAt := s.tk } }
    let s2 := countUp s1 (Reg.lkPortReplays p) (Reg.lkPortOvf p) 3 1
    if 8 ≤ q.replays + 1 then setPortState s2 p psRetraining else s2

/-- REPLAY_TIMEOUT: the oldest unacknowledged frame is 2 µs old. -/
def execReplayTimeout (t p : Nat) (s : State) : Host.Outcome State Fault Refusal :=
  presentUnit s t p numPorts fun s =>
    match (getPort s p).unacked with
    | f :: _ => if f.sentAt + 200 ≤ s.tk then replay s p else s
    | [] => s

/-- Frames still unacknowledged after an ACK, which releases every frame up to and including its own. -/
def ackedRest (ack : Nat) (fs : List SentFrame) : List SentFrame :=
  match fs.findIdx? fun f => decide (f.seq = ack) with
  | some i => fs.drop (i + 1)
  | none => fs

/-- The LINK word and the credits of an accepted frame. -/
def takeLink (s : State) (p : Nat) (f : LinkFrame) : State :=
  let q := getPort s p
  let rest := ackedRest f.ack q.unacked
  let cr := (List.zip (List.range 16) f.credits).foldl (fun m c => smSet natDefault m c.1 (smGet natDefault m c.1 + c.2)) q.credits
  let s1 := setPort s p { q with
    unacked := rest, credits := cr, replays := if rest.length < q.unacked.length then 0 else q.replays }
  flushAny (if f.nak then replay s1 p else s1) p

/-! ## Export segments (R323) -/

def inPeerWindow (off n : Nat) : Bool := decide (off + n ≤ peerBytes)

/-- The segment of a window offset. -/
def segOf (off : Nat) : Nat := off / 2 ^ 32

/-- The HBM address served. -/
def servedAt (s : State) (off : Nat) : Nat := baseFld s (Reg.lkExpBase (segOf off)) + off % 2 ^ 32

/-- The segment admits an access of `n` bytes from a source. -/
def exportOk (s : State) (off n src : Nat) (write : Bool) : Bool :=
  let g := segOf off
  decide (g < 16) && flag s (Reg.lkExpCtrlValid g) && decide (off % 2 ^ 32 + n ≤ baseFld s (Reg.lkExpSize g)) &&
    flag s (if write then Reg.lkExpCtrlWrite g else Reg.lkExpCtrlRead g) &&
    between (fld s (Reg.lkExpCtrlIdLo g)) src (fld s (Reg.lkExpCtrlIdHi g)) && decide (rowOf s (servedAt s off) n = .hbm)

/-- Refuse an access: it is counted here, and REFUSE goes back with the reason. The segment's counter sticks at its largest
value and has no OVF bit. -/
def refuseSlot (s : State) (x : Slot) (reason : Nat) : State :=
  let g := segOf x.offset.toNat
  let s1 := countUp s Reg.lkCountRefusedIn Reg.lkCountOvf 2 1
  let s2 := if g < 16 ∧ reason = 1 then setFld s1 (Reg.lkExpRefused g) (min 0xFFFFFFFF (fld s1 (Reg.lkExpRefused g) + 1)) else s1
  sendAnswer s2 (mkSlot s2 8 x.src.toNat reason 0 x.tag 0 0 [] false false)

/-! ## Arriving slots -/

/-- A counted RPUT on the retraction cell, at this device's mailbox place for its sender, brings a record (R364). -/
def retractionIn (s : State) (r : RputIn) : State :=
  if r.cell = fld s Reg.inRetractCell ∧ r.base = fld s Reg.inRetractOffset + 256 * r.src then
    let b := physRead s (servedAt s r.base) 64
    if fieldAt b 0 1 = 0x15 then
      { s with integ := { s.integ with received := s.integ.received ++ [(fieldAt b 0x18 8, r.src, b)] } }
    else s
  else s

/-- Count a whole RPUT on its cell (R115, R324): a cell that is not ARRIVE discards the count with a record. -/
def countRput (s : State) (r : RputIn) : State :=
  if (getCell s r.cell).kind = 2 then
    retractionIn (countUp (putCell s r.cell ((getCell s r.cell).plus 1)) Reg.lkCountRputCounted Reg.lkCountOvf 1 1) r
  else errorRecord s { type := 0x09, step := stepNow s, a0 := r.cell, a1 := r.src }

/-- The arriving RPUT a WRITE slot belongs to, admitted or refused as a whole by its first slot (R323, R324). -/
def rputOf (s : State) (x : Slot) : State × RputIn :=
  match s.links.rputs.find? fun r => decide (r.src = x.src.toNat ∧ r.tag = x.tag) with
  | some r => (s, r)
  | none =>
    let n := 256 * x.lines.toNat
    let base := x.offset.toNat - 256 * x.line.toNat
    let ok := exportOk s base n x.src.toNat true
    let held := ok && guarded s (servedAt s base) n
    let r : RputIn := { src := x.src.toNat, tag := x.tag, cell := x.cell.toNat % 32768, base := base, lines := x.lines.toNat,
                        got := [], refused := !ok || held }
    (if r.refused then refuseSlot s x (if held then 2 else 1) else s, r)

/-- A WRITE slot (R324): its granule lands, and the last one counts the RPUT. -/
def writeIn (s : State) (x : Slot) : State :=
  let a := rputOf s x
  let r : RputIn := { a.2 with got := if a.2.got.contains x.line.toNat then a.2.got else x.line.toNat :: a.2.got }
  let s1 := if r.refused then a.1 else physWrite a.1 (servedAt s x.offset.toNat) (padTo 256 x.data)
  let others := s1.links.rputs.filter fun q => !decide (q.src = r.src ∧ q.tag = r.tag)
  if r.got.length < r.lines then { s1 with links := { s1.links with rputs := others ++ [r] } }
  else
    let s2 := { s1 with links := { s1.links with rputs := others } }
    if r.refused then s2 else countRput s2 r

/-- The granules of a read, POISON on the uncorrectable ones (R325). -/
def readAnswers (s : State) (x : Slot) : Nat → State × List Slot
  | 0 => (s, [])
  | i + 1 =>
    let q := readAnswers s x i
    let a := servedAt s (x.offset.toNat + 256 * i)
    let r := pocReadEvents q.1 a 256 3 0xFFFF
    let data := if r.2.isSome then [] else physRead q.1 a 256
    (r.1, q.2 ++ [mkSlot q.1 3 x.src.toNat 0 0 x.tag i x.lines.toNat data (decide (i + 1 = x.lines.toNat)) r.2.isSome])

/-- Serve an admitted read once its guarded blocks may be consumed; without a route back its lines are lost. -/
def serveRead (s : State) (x : Slot) : State :=
  let n := 256 * x.lines.toNat
  let r := readReady s (servedAt s x.offset.toNat) n
  if r.2 then
    let q := readAnswers r.1 x x.lines.toNat
    (sendSide q.1 x.src.toNat q.2).getD (linkLost q.1 x.lines.toNat)
  else { r.1 with links := { r.1.links with reads := r.1.links.reads ++ [x] } }

/-- Reads that waited for a repair or a sealing are tried again. -/
def serveLinkReads (s : State) : State := s.links.reads.foldl serveRead { s with links := { s.links with reads := [] } }

/-- A host read of HBM through BAR2 (R153, R156, R200): the bytes at the point of coherence, uncorrectable words reading zero;
one that meets a guarded block which may not be consumed yet waits. -/
def bar2Deliver (s : State) (q : Nat × Nat) : State :=
  let r := readReady s q.1 q.2
  if r.2 then { (pocReadEvents r.1 q.1 q.2 7 0xFFFF).1 with readOut := some (pocRead s q.1 q.2) }
  else { r.1 with bar2Reads := r.1.bar2Reads ++ [q] }

/-- Operations whose start waited for a guarded block are started again (R156). -/
def retryStarts (s : State) : State :=
  s.dot.foldl (fun st p =>
    if (getDot st p.1).state = .active ∧ (getDot st p.1).waitStart = true then
      if p.2.kind = kColl then collStart st p.1 else if p.2.kind = kImport then importStart st p.1 else st
    else st) s

/-- Reads that waited are tried again. -/
def serveReads (s : State) : State :=
  let s1 := serveLinkReads s
  retryStarts (s1.bar2Reads.foldl bar2Deliver { s1 with bar2Reads := [] })

/-- A READ_REQ slot. -/
def readIn (s : State) (x : Slot) : State :=
  if exportOk s x.offset.toNat (256 * x.lines.toNat) x.src.toNat false then serveRead s x else refuseSlot s x 1

/-- The ACTIVE operation a read tag belongs to, and the place of the request in it. -/
def readOf (s : State) (tag : Word) : Option (Nat × Nat) :=
  s.dot.findSome? fun p =>
    let k := if p.2.kind = kImport then p.2.imports.length else readRequests p.2.len
    let i := (tag - p.2.readTag).toNat
    if p.2.state = .active ∧ (p.2.kind = kImport ∨ p.2.kind = kDma ∨ p.2.kind = kTier) ∧ srcPeer p.2 = true ∧ i < k then some (p.1, i) else none

/-- A READ_RESP slot: a poisoned granule fails the operation with RESULT 0x12 (R325). -/
def responseIn (s : State) (x : Slot) : State :=
  match readOf s x.tag with
  | none => s
  | some (m, i) =>
    if x.flags.getLsbD 1 then armTierTimer (leaveActive s m .failed 0x12)
    else
      let e := getDot s m
      setDot s m { e with readGot := smIns e.readGot (256 * i + x.line.toNat) (padTo 256 x.data) }

/-- A REFUSE slot: of a piece (R329), of a read (RESULT 0x41, R325) or of an RPUT (R324). -/
def refuseIn (s : State) (x : Slot) : State :=
  if x.cell.toNat % 256 = 3 then collRefused s x
  else
    let s1 := countUp s Reg.lkCountRefusedOut Reg.lkCountOvf 3 1
    match readOf s1 x.tag with
    | some (m, _) => armTierTimer (leaveActive s1 m .failed 0x41)
    | none => errorRecord s1 { type := 0x07, step := stepNow s1, a0 := x.src.toNat, a1 := x.tag.toNat, a2 := x.cell.toNat % 256 }

/-- A slot for this device. -/
def slotHere (s : State) (x : Slot) : State :=
  match x.type.toNat with
  | 1 => writeIn s x
  | 2 => readIn s x
  | 3 => responseIn s x
  | 4 => collData s x
  | 5 => collDigest s x
  | 6 => collAck s x
  | 7 => collFailIn s x
  | _ => refuseIn s x

/-- Discarded under R322 or Table 13-2. -/
def hopDrop (s : State) : State := countUp s Reg.lkCountHopDrop Reg.lkCountOvf 6 1

/-- The last slot of an item that takes one port: an RPUT's or a read's LAST granule, a piece's digest, or a single slot. -/
def lastOfItem (x : Slot) : Bool :=
  let ty := x.type.toNat
  if ty = 1 ∨ ty = 3 then x.flags.getLsbD 0 else decide (ty ≠ 4)

/-- Forward a slot for another device (R322). -/
def forward (s : State) (x : Slot) : State :=
  let d := x.dest.toNat % 1024
  if slotHop x = 3 then hopDrop s
  else
    let piece := if x.type = 4 ∨ x.type = 5 then x.offset.toNat / 65536 else 0
    let kind := if x.type = 5 then 4 else x.type.toNat
    let mine := fun (r : Routed) => decide (r.kind = kind ∧ r.src = x.src.toNat ∧ r.dest = d ∧ r.tag = x.tag ∧ r.piece = piece)
    let kept := ((s.links.routed.find? mine).filter fun r => portUp s r.port).map (·.port)
    match (kept.orElse fun _ => sidePort s d) with
    | none => hopDrop s
    | some p =>
      let rest := s.links.routed.filter fun r => !mine r
      let routed := if lastOfItem x then rest
        else rest ++ [{ kind := kind, src := x.src.toNat, dest := d, tag := x.tag, piece := piece, port := p }]
      let y := { x with flags := BitVec.ofNat 8 (setBits x.flags.toNat 3 2 (slotHop x + 1)) }
      queueSlots { s with links := { s.links with routed := routed } } p [y]

/-- One slot of a peer port. -/
def slotIn (s : State) (x : Slot) : State :=
  let ty := x.type.toNat
  if ty = 0 ∨ 8 < ty then hopDrop s else if x.dest.toNat % 1024 = ownId s then slotHere s x else forward s x

/-! ## FRAME (R315, R317) -/

/-- A frame is discarded, with every later one until the replay arrives; NAK goes back once for the gap
(notes/assumptions/139.md). -/
def discardFrame (s : State) (p : Nat) : State :=
  let q := getPort s p
  if q.gap then s else sendIdle (setPort s p { q with gap := true, nakOut := true }) p

/-- A codeword that cannot be decoded; 16 in a row retrain the port. -/
def undecoded (s : State) (p : Nat) : State :=
  let n := (getPort s p).badRun + 1
  let s1 := discardFrame (countUp s (Reg.lkPortUncorrectable p) (Reg.lkPortOvf p) 1 1) p
  let s2 := setPort s1 p { getPort s1 p with badRun := n }
  if 16 ≤ n then setPortState s2 p psRetraining else s2

/-- A slot of a pool has been passed on: its credit goes back to the peer (R318). -/
def passedOn (s : State) (p pool : Nat) : State :=
  let q := getPort s p
  setPort s p { q with granted := poolTake q.granted pool 1, owed := poolAdd q.owed pool 1 }

/-- The slots of an accepted frame. -/
def frameSlots (s : State) (p : Nat) (f : LinkFrame) : State :=
  if p = portM then f.mslots.foldl (fun st x => mirrorIn (passedOn st p (mPool x)) x) s
  else f.slots.foldl (fun st x => slotIn (passedOn st p (slotPool x)) x) s

/-- FRAME. Frames that pass are also the moment at which reads that waited are tried again. -/
def frameIn (s : State) (p : Nat) (f : LinkFrame) : State :=
  if !portUp s p then s
  else if !codewordDecodes f.noise then undecoded s p
  else
    let s1 := setPort s p { getPort s p with badRun := 0 }
    let s2 := if symbolErrors f.noise = 0 then s1 else countUp s1 (Reg.lkPortCorrected p) (Reg.lkPortOvf p) 0 1
    if !frameCrcOk f then discardFrame (countUp s2 (Reg.lkPortCrcFail p) (Reg.lkPortOvf p) 2 1) p
    else if f.idle then takeLink s2 p f
    else if f.seq ≠ ((getPort s2 p).rxSeq + 1) % 4096 then discardFrame s2 p
    else
      let q := { getPort s2 p with rxSeq := f.seq, gap := false, nakOut := false, ackOut := true }
      sendIdle (serveReads (frameSlots (takeLink (setPort s2 p q) p f) p f)) p

def execLinkFrame (t p : Nat) (f : LinkFrame) (s : State) : Host.Outcome State Fault Refusal :=
  presentUnit s t p numPorts fun s => frameIn s p f

/-! ## Export segments leaving service (R332) -/

/-- Accesses in progress on a segment. -/
def exportInUse (s : State) (n : Nat) : Bool :=
  (s.links.rputs.any fun r => !r.refused && decide (segOf r.base = n)) ||
    s.links.reads.any fun x => decide (segOf x.offset.toNat = n)

/-- VALID is cleared: BUSY while accesses are in progress. -/
def exportClear (s : State) (n : Nat) : State :=
  if flag s (Reg.lkExpCtrlValid n) then
    setFld (setFld s (Reg.lkExpCtrlValid n) 0) (Reg.lkExpStatusBusy n) (b2n (exportInUse s n))
  else s

/-- BUSY clears once the accesses have ended. -/
def exportEnd (s : State) (n : Nat) : State := if exportInUse s n then s else setFld s (Reg.lkExpStatusBusy n) 0

def execExportValidClear (t n : Nat) (s : State) : Host.Outcome State Fault Refusal :=
  presentUnit s t n 16 fun s => exportClear s n
def execExportBusyEnd (t n : Nat) (s : State) : Host.Outcome State Fault Refusal := presentUnit s t n 16 fun s => exportEnd s n

/-! ## Repairs and sealing, after which reads that waited go on (R155, R158) -/

def execSealingEnd (t n : Nat) (s : State) : Host.Outcome State Fault Refusal :=
  presentUnit s t n 16 fun s => serveReads (endSealing s n)
def execRepairStageEnd (t n b stage : Nat) (s : State) : Host.Outcome State Fault Refusal :=
  presentUnit s t n 16 fun s => serveReads (repairStageEnd s n b stage)

end Sys2Proof.Machine
end

