-- ==== Sys2Proof/Machine/RegRead.lean ====
section
/-! DEFINITION. What a read of BAR0 and BAR4 returns (R5, R19, R54, R368, R395): the register words, and the places whose value the
device forms at the read. -/
namespace Sys2Proof.Machine

/-- Bytes of the Clailaez window (R19). -/
def windowWord (s : State) (off : Nat) : Word32 := BitVec.ofNat 32 (fieldAt s.table off 4)

/-- NB_STATUS: ACTIVE counts the units in a burst at the last tick, which follows from no rule of a model without time: with no
command begun and unfinished it is 0, else a free value within the window's 2,048. A LIMIT lowered since binds only the bursts
that start after it (R213). -/
def nbStatusWord (s : State) : Word32 :=
  let busy := s.dot.any fun p => decide (p.2.state = .active ∧ p.2.kind = kNear) &&
    p.2.nb.any fun c => c.started && c.status.isNone
  BitVec.ofNat 32 (fld s Reg.nbStatusLimit + 2 ^ 16 * (if busy then freeNow s % 2049 else 0))

/-- The word at a BAR0 offset, or, at 0x0400_0000 + its offset, of BAR4. -/
def liveWord (s : State) (off : Nat) : Word32 :=
  if off < 0x10000 then windowWord s off
  else if off = 0x20000 then BitVec.ofNat 32 s.tk
  else if off = 0x20004 then BitVec.ofNat 32 (s.tk / 2 ^ 32)
  else if off = 0x30004 then regGet s off ||| BitVec.ofNat 32 (b2n (striping s))
  else if off = 0x40004 then nbStatusWord s
  else if 0x80040 ≤ off ∧ off < 0x80080 then
    (if s.mirror.digestFormed then BitVec.ofNat 32 (fieldAt (configDigest s) (off - 0x80040) 4) else 0)
  else if 0xC0020 ≤ off ∧ off < 0xC0030 then BitVec.ofNat 32 (Config.serial / 2 ^ (8 * (off - 0xC0020)))
  else if 0x4000000 ≤ off ∧ off < 0x4000040 then BitVec.ofNat 32 (readNat s.kolwin.mbCmd (off - 0x4000000) 4)
  else if 0x4000040 ≤ off ∧ off < 0x4000080 then BitVec.ofNat 32 (fieldAt s.kolwin.mbResp (off - 0x4000040) 4)
  else regGet s off

/-- The word a read returns: in the recovery loader BAR0 reads zero except at the KW_ registers (R395). -/
def readWord (s : State) (off : Nat) : Word32 :=
  if bootNow s = bootRecovery ∧ off < 0x4000000 ∧ !(decide (0xC0000 ≤ off) && decide (off < 0xD0000)) then 0
  else liveWord s off

/-- `n` words from an offset. -/
def readWords (s : State) (off n : Nat) : List Byte :=
  (List.range n).flatMap fun i => natBytes 4 (readWord s (off + 4 * i)).toNat

/-- TK_COUNT_LOW_READ: a 32-bit read of the low word latches the high word for the next read of it (R54). -/
def tkLowRead (s : State) : State :=
  { s with tkLatch := some (BitVec.ofNat 32 (s.tk / 2 ^ 32)), readOut := some (readWords s 0x20000 1) }

def execTkCountLowRead (t : Nat) (s : State) : Host.Outcome State Fault Refusal := presentAlways s t tkLowRead

end Sys2Proof.Machine
end

