-- ==== Sys2Proof/Machine/Kolwin.lean ====
section
/-! DEFINITION. Kolwin's commands (R389 to R392, Tables 17-2 to 17-4), from the board management controller and the host
mailbox, and its own events: the end of a flash write (R397), the management port's mode (R388). -/
namespace Sys2Proof.Machine

/-! ## Frames (Table 17-2) -/

/-- CRC-8 of SMBus, polynomial x^8 + x^2 + x + 1, high bit first (R389). -/
def pecStep (c b : Byte) : Byte :=
  (List.range 8).foldl (fun x _ => if x.getLsbD 7 then (x <<< 1) ^^^ 7#8 else x <<< 1) (c ^^^ b)
def pec (bs : List Byte) : Byte := bs.foldl pecStep 0

/-- A status and its result bytes, with LENGTH. -/
structure KwAnswer where
  status : Nat
  len    : Nat := 0
  result : List Byte := []
deriving DecidableEq, Repr

/-- A field of the operands. -/
def kwField (c : KwCmd) (off n : Nat) : Nat := fieldAt c.body off n

/-- The OPCODE byte of a frame of the row `op`. -/
def opcodeByte (op : Nat) (c : KwCmd) : Byte := c.code.getD (BitVec.ofNat 8 op)

/-- Opcodes of Table 17-3. -/
def listedOpcode (op : Nat) : Bool := decide (1 ≤ op ∧ op ≤ 13)

/-- The 64 bytes of a response. -/
def responseBytes (op : Nat) (c : KwCmd) (a : KwAnswer) : List Byte :=
  [opcodeByte op c] ++ natBytes 1 a.status ++ natBytes 2 c.tag.toNat ++ natBytes 4 a.len ++ padTo 56 a.result

/-- The 64 bytes of a command. -/
def commandBytes (op : Nat) (c : KwCmd) : List Byte :=
  [opcodeByte op c] ++ [c.flags] ++ natBytes 2 c.tag.toNat ++ natBytes 4 c.zero.toNat ++ padTo 56 c.body

/-- Answer a command: the board reads its response with PEC; the host's stands in the mailbox, with DONE and vector
265, and the mailbox is no longer BUSY. -/
def respond (op : Nat) (c : KwCmd) (r : State × KwAnswer) : State :=
  let bs := responseBytes op c r.2
  if c.board then { r.1 with kolwin := { r.1.kolwin with boardResp := bs ++ [pec bs] } }
  else
    let k := { r.1.kolwin with mbCmd := writeBytes r.1.kolwin.mbCmd 0 (commandBytes op c), mbHeld := [], mbResp := bs }
    sendIf (setFld (setFld { r.1 with kolwin := k } Reg.mbStatusBusy 0) Reg.mbStatusDone 1) Reg.kwCtrlMbIrqEn 265

/-- Ports of an opcode (Table 17-3). -/
def portNames (op : Nat) (board : Bool) : Bool :=
  if op = 0x0C then !board else if op = 3 ∨ op = 4 ∨ op = 7 ∨ op = 9 ∨ op = 0x0B then board else true

/-- The boot state accepts an opcode: the recovery loader three of them, the firmware all; a FATAL device those of R391. -/
def stateAccepts (s : State) (op : Nat) : Bool :=
  if bootNow s = bootRecovery then decide (op = 1 ∨ op = 8 ∨ op = 0x0A)
  else decide (2 ≤ bootNow s) && (!s.kolwin.fatal || decide (op = 1 ∨ op = 2 ∨ op = 3 ∨ op = 7 ∨ op = 0x0A ∨ op = 0x0B ∨ op = 0x0D))

/-- The PEC of a board frame is the CRC of the frame; a mailbox frame has none (R389). -/
def pecOk (op : Nat) (c : KwCmd) : Bool := !c.board || decide (c.pec = pec (commandBytes op c))

/-- A command of an opcode as Kolwin serves it (R389, R390): one whose PEC is wrong is discarded unanswered, and an opcode outside Table 17-3 answers BAD_OPCODE. -/
def kwRun (op : Nat) (c : KwCmd) (f : State → State × KwAnswer) (s : State) : State :=
  if !pecOk op c then s
  else if !listedOpcode (opcodeByte op c).toNat then respond op c (s, { status := 1 })
  else if !portNames op c.board then respond op c (s, { status := 3 })
  else if !stateAccepts s op then respond op c (s, { status := 4 })
  else if c.zero ≠ 0 then respond op c (s, { status := 2 })
  else respond op c (f s)

/-- The mailbox is BUSY with another command than this one (R389, Table 17-16). -/
def mbTaken (s : State) (op : Nat) (c : KwCmd) : Bool :=
  !c.board && flag s Reg.mbStatusBusy && decide (s.kolwin.mbHeld ≠ commandBytes op c)

/-- Present a Kolwin command: the host's are discarded while the device is FATAL (R391), and one that arrives while another
is unanswered is discarded with OVERRUN (R389). -/
def kwCmd (t op : Nat) (c : KwCmd) (s : State) (run : State → State) : Host.Outcome State Fault Refusal :=
  if c.board then presentAlways s t run
  else present s t fun s => if mbTaken s op c then setFld s Reg.mbStatusOverrun 1 else run s

/-- Bytes for a host-window address, as a device write puts them there (R201). -/
def toHost (s : State) (a : Nat) (bs : List Byte) : State × KwAnswer :=
  if rowOf s a bs.length ≠ .host then (s, { status := 2 })
  else if !mayWriteHost s then (s, { status := 4 })
  else (hostPut s a bs, { status := 0, len := bs.length })

/-- Chunk `i` of 56 bytes. -/
def chunk56 (bs : List Byte) (i : Nat) : List Byte := (bs.drop (56 * i)).take 56

/-! ## Identity and attestation (R398 to R400) -/

/-- The two certificates, each preceded by its length. -/
def certificates (s : State) : List Byte :=
  let identity := Config.certChain [0]
  let alias_ := Config.certChain (1 :: measure s 0)
  natBytes 4 identity.length ++ identity ++ natBytes 4 alias_.length ++ alias_

/-- IDENTITY. -/
def doIdentity (c : KwCmd) (s : State) : State × KwAnswer :=
  let bs := certificates s
  if c.board then
    let i := kwField c 0 2
    if bs.length ≤ 56 * i then (s, { status := 2 }) else (s, { status := 0, len := bs.length, result := chunk56 bs i })
  else toHost s (kwField c 0 8) bs

/-- The attestation report's bytes before its signature (Table 17-7). -/
def reportBody (s : State) (nonce : List Byte) : List Byte :=
  ascii "KWAR" ++ natBytes 2 0x0100 ++ natBytes 2 (inService s) ++ natBytes 16 Config.serial ++ partNumber ++ natBytes 8 s.tk ++
    natBytes 4 (fld s Reg.kwFwVersion) ++ natBytes 4 (fld s Reg.kwFwSecurity) ++ natBytes 8 (generation s) ++ padTo 32 nonce ++
    padTo 64 (s.table.drop 0x40) ++ (List.range 5).flatMap (fun i => padTo 64 (measure s i)) ++
    padTo 57 (ed448Public (Config.privateKey 1 (measure s 0))) ++ natBytes 7 0

/-- The report, signed with the alias key. -/
def report (s : State) (nonce : List Byte) : List Byte :=
  let b := reportBody s nonce
  b ++ padTo 114 (ed448Sign (Config.privateKey 1 (measure s 0)) b) ++ natBytes 6 0

/-- ATTEST. -/
def doAttest (c : KwCmd) (s : State) : State × KwAnswer :=
  let fresh := report s (c.body.take 32)
  if c.board then
    let i := kwField c 32 2
    let s1 := if i = 0 then { s with kolwin := { s.kolwin with report := fresh } } else s
    let b := chunk56 s1.kolwin.report i
    if 12 ≤ i ∨ b.isEmpty then (s, { status := 2 }) else (s1, { status := 0, len := b.length, result := b })
  else toHost s (kwField c 32 8) fresh

/-! ## Registers, profiles and modes -/

/-- REG_READ: as a host read returns them, the latch of TK_COUNT included (R54). -/
def doRegRead (c : KwCmd) (s : State) : State × KwAnswer :=
  let off := kwField c 0 4
  let n := kwField c 4 1
  if off % 4 ≠ 0 ∨ n % 4 ≠ 0 ∨ 48 < n ∨ 0x4000000 < off + n then (s, { status := 2 })
  else if off = 0x20000 ∧ n = 4 then
    ({ s with tkLatch := some (BitVec.ofNat 32 (s.tk / 2 ^ 32)) }, { status := 0, len := 4, result := readWords s off 1 })
  else if off = 0x20004 ∧ n = 4 then
    match s.tkLatch with
    | some w => ({ s with tkLatch := none }, { status := 0, len := 4, result := natBytes 4 w.toNat })
    | none => (s, { status := 0, len := 4, result := readWords s off 1 })
  else (tookFree s, { status := 0, len := n, result := readWords s off (n / 4) })

/-- Request a profile (R381): the last request presented before a boundary wins. -/
def requestProfile (s : State) (i : Nat) : State := setFld (modPower s fun p => { p with profileReq := some i }) Reg.pwProfilePending 1

/-- PROFILE_SELECT. -/
def doProfileSelect (c : KwCmd) (s : State) : State × KwAnswer :=
  let i := kwField c 0 1
  if 3 < i then (s, { status := 2 }) else (requestProfile s i, { status := 0 })

/-- PROFILE_WRITE (R380, R399): the active profile's new record is applied as a change to that profile. -/
def doProfileWrite (c : KwCmd) (s : State) : State × KwAnswer :=
  let i := kwField c 0 1
  let r := withCheck ((c.body.drop 8).take 48)
  if 3 < i ∨ kwField c 1 7 ≠ 0 then (s, { status := 2 })
  else if !recordOk r then (s, { status := 7 })
  else
    let s1 := { s with kolwin := { s.kolwin with profiles := (i, r) :: s.kolwin.profiles.filter fun p => decide (p.1 ≠ i) } }
    let s2 := extendM s1 2 (shake256 ((List.range 4).flatMap (storedRecord s1)) 64)
    (if fld s2 Reg.pwProfileActive = i then requestProfile s2 i else s2, { status := 0 })

/-- A write of PW_MODE acts at the next boundary or idle formation (R383). -/
def writeMode (s : State) (v : Word32) : State := modPower (plainWrite s 0xA000C v) fun p => { p with modeDirty := true }

/-- MODE. -/
def doMode (c : KwCmd) (s : State) : State × KwAnswer := (writeMode s (BitVec.ofNat 32 (kwField c 0 4)), { status := 0 })

/-- PAIR: a write to MR_CMD (R343, Table 14-8). -/
def doPair (c : KwCmd) (s : State) : State × KwAnswer :=
  let s1 := match kwField c 0 4 % 16 with
    | 1 => mirrorPair s
    | 2 => mirrorUnpair s
    | 3 => mirrorFence s
    | 4 => mirrorTakeover s
    | _ => s
  (s1, { status := 0 })

/-! ## Firmware (R395, R397) -/

/-- Accept a staged image: it is checked before anything is erased, and its write to flash begins. -/
def stageImage (s : State) (b : List Byte) : State × KwAnswer :=
  let s1 := { s with kolwin := { s.kolwin with staged := [], stagedLen := 0 } }
  match verifyImage s b with
  | 0 => (setFld { s1 with kolwin := { s1.kolwin with writing := b } } Reg.kwStatusFwWriting 1, { status := 0 })
  | st => (s1, { status := st })

/-- The bytes the board has staged: as long as its header says where the chunks reach that far. -/
def stagedBytes (s : State) : List Byte :=
  let n := 256 + leNat (readBytes s.kolwin.staged 0x10 4)
  readBytes s.kolwin.staged 0 (if n ≤ s.kolwin.stagedLen then n else s.kolwin.stagedLen)

/-- FW_STAGE. -/
def doFwStage (c : KwCmd) (s : State) : State × KwAnswer :=
  if flag s Reg.kwStatusFwWriting then (s, { status := 4 })
  else if c.board then
    let off := kwField c 0 4
    if 33554432 < off + 48 then (s, { status := 2 })
    else
      let s1 := { s with kolwin := { s.kolwin with
        staged := writeBytes s.kolwin.staged off ((c.body.drop 4).take 48)
        stagedLen := max s.kolwin.stagedLen (off + 48) } }
      if c.flags.getLsbD 0 then stageImage s1 (stagedBytes s1) else (s1, { status := 0 })
  else
    let a := kwField c 0 8
    let n := kwField c 8 4
    if n < 257 ∨ 33554432 < n ∨ rowOf s a n ≠ .host then (s, { status := 2 })
    else if (readFault s a n).isSome then (s, { status := 8 })
    else stageImage s (physRead s a n)

/-- COMMIT_SV: a fuse at or above the version stays. -/
def doCommitSv (s : State) : State × KwAnswer :=
  let v := max s.kolwin.svFuse (fld s Reg.kwFwSecurity)
  (setFld { s with kolwin := { s.kolwin with svFuse := v } } Reg.kwSvFuseMinimum v, { status := 0 })

/-- FLASH_WRITE_END: the recovery loader then performs a device reset (R395). -/
def flashEnd (s : State) : State :=
  if s.kolwin.writing.isEmpty then s
  else
    let s1 := setFld { s with kolwin := { s.kolwin with flash := s.kolwin.writing, writing := [] } } Reg.kwStatusFwWriting 0
    if bootNow s1 = bootRecovery then deviceReset s1 6 else s1

/-! ## Resets and power states (R401, R402) -/

/-- RESET: the device reset follows the response; after a shutdown only the input's removal recovers the module (R379). -/
def doReset (s : State) : State × KwAnswer := (s, { status := if s.power.shutdown then 4 else 0 })

/-- POWER_STATE: only a reset leaves OFF_READY. -/
def doPowerState (c : KwCmd) (s : State) : State × KwAnswer :=
  let v := kwField c 0 1
  if 2 < v then (s, { status := 2 })
  else if s.kolwin.powerState = 2 ∧ v ≠ 2 then (s, { status := 4 })
  else
    let s1 := { s with kolwin := { s.kolwin with powerState := v } }
    (if v = 0 then setFld s1 Reg.kwStatusQuiesced 0 else quiesce s1, { status := 0 })

/-! ## Repair and alerts -/

/-- REPAIR_SUPPLY (R411): a block whose CRC differs leaves the slot open. -/
def doRepairSupply (c : KwCmd) (s : State) : State × KwAnswer :=
  let slot := kwField c 0 1
  let a := kwField c 8 8
  if 15 < slot ∨ kwField c 1 7 ≠ 0 ∨ rowOf s a 4096 ≠ .host then (s, { status := 2 })
  else
    match s.repairs.find? fun r => decide (r.slot = some slot) with
    | none => (s, { status := 4 })
    | some r =>
      if (readFault s a 4096).isSome then (s, { status := 8 })
      else
      let b := physRead s a 4096
      let crc := (crc64 b).toNat
      if crc = fld s (Reg.kwRepairCrc slot) then (serveReads (repaired s r b crc), { status := 0 }) else (s, { status := 2 })

/-- ALERT_ACK (R392). -/
def doAlertAck (c : KwCmd) (s : State) : State × KwAnswer :=
  let v := fld s Reg.kwAlertCause
  (driveAlert (setFld s Reg.kwAlertCause (v - (v &&& kwField c 0 2))), { status := 0 })

/-! ## The rows -/

/-- RESET is obeyed once its response has been given: cause 4 for the host, 5 for the board (Table 17-15). -/
def resetRun (c : KwCmd) (s : State) : State :=
  let s1 := kwRun 0x0A c doReset s
  if pecOk 0x0A c && listedOpcode (opcodeByte 0x0A c).toNat && stateAccepts s 0x0A && decide (c.zero = 0) then deviceReset s1 (if c.board then 5 else 4) else s1

def execIdentity (t : Nat) (c : KwCmd) (s : State) : Host.Outcome State Fault Refusal := kwCmd t 0x01 c s (kwRun 0x01 c (doIdentity c))
def execAttest (t : Nat) (c : KwCmd) (s : State) : Host.Outcome State Fault Refusal := kwCmd t 0x02 c s (kwRun 0x02 c (doAttest c))
def execRegRead (t : Nat) (c : KwCmd) (s : State) : Host.Outcome State Fault Refusal := kwCmd t 0x03 c s (kwRun 0x03 c (doRegRead c))
def execProfileSelect (t : Nat) (c : KwCmd) (s : State) : Host.Outcome State Fault Refusal := kwCmd t 0x04 c s (kwRun 0x04 c (doProfileSelect c))
def execProfileWrite (t : Nat) (c : KwCmd) (s : State) : Host.Outcome State Fault Refusal := kwCmd t 0x05 c s (kwRun 0x05 c (doProfileWrite c))
def execModeCmd (t : Nat) (c : KwCmd) (s : State) : Host.Outcome State Fault Refusal := kwCmd t 0x06 c s (kwRun 0x06 c (doMode c))
def execPairCmd (t : Nat) (c : KwCmd) (s : State) : Host.Outcome State Fault Refusal := kwCmd t 0x07 c s (kwRun 0x07 c (doPair c))
def execFwStage (t : Nat) (c : KwCmd) (s : State) : Host.Outcome State Fault Refusal := kwCmd t 0x08 c s (kwRun 0x08 c (doFwStage c))
def execCommitSv (t : Nat) (c : KwCmd) (s : State) : Host.Outcome State Fault Refusal := kwCmd t 0x09 c s (kwRun 0x09 c doCommitSv)
def execPowerState (t : Nat) (c : KwCmd) (s : State) : Host.Outcome State Fault Refusal := kwCmd t 0x0B c s (kwRun 0x0B c (doPowerState c))
def execRepairSupply (t : Nat) (c : KwCmd) (s : State) : Host.Outcome State Fault Refusal := kwCmd t 0x0C c s (kwRun 0x0C c (doRepairSupply c))
def execAlertAck (t : Nat) (c : KwCmd) (s : State) : Host.Outcome State Fault Refusal := kwCmd t 0x0D c s (kwRun 0x0D c (doAlertAck c))
def execResetCmd (t : Nat) (c : KwCmd) (s : State) : Host.Outcome State Fault Refusal := kwCmd t 0x0A c s (resetRun c)

/-- The mailbox's doorbell submits the frame (Table 17-16): the mailbox is BUSY until the command's row presents it. A doorbell
while BUSY sets OVERRUN. An opcode outside Table 17-3, which has no row, is answered here (R390). -/
def mailboxRun (s : State) : State :=
  let b := readBytes s.kolwin.mbCmd 0 64
  let op := fieldAt b 0 1
  if flag s Reg.mbStatusBusy then setFld s Reg.mbStatusOverrun 1
  else if listedOpcode op then setFld { s with kolwin := { s.kolwin with mbHeld := b } } Reg.mbStatusBusy 1
  else
    let c : KwCmd := { board := false, pec := 0, code := some (BitVec.ofNat 8 op), flags := b.getD 1 0, tag := BitVec.ofNat 16 (fieldAt b 2 2),
                       zero := BitVec.ofNat 32 (fieldAt b 4 4), body := b.drop 8 }
    respond op c (s, { status := 1 })

/-! ## The management port (R388) -/

/-- SMBUS_FALLBACK: no dynamic address within 1 s of BOOT reaching STARTING. -/
def fallback (s : State) : State :=
  if bootNow s ≠ bootRom ∧ bootNow s ≠ bootVerifying ∧ bootNow s ≠ bootRecovery ∧ s.kolwin.dynamicAddr = none ∧
      s.kolwin.startedAt + 100000000 ≤ s.tk
  then setFld s Reg.kwStatusI3cMode 0 else s

/-- The port's static address, 0x40 + SLOT_ID. -/
def staticAddr (s : State) : BitVec 7 := BitVec.ofNat 7 (0x40 + s.pins.slotId % 32)

/-- The address at which the port answers now: its dynamic address once assigned, as SMBus the static one. -/
def portAddr (s : State) : BitVec 7 :=
  if flag s Reg.kwStatusI3cMode then s.kolwin.dynamicAddr.getD (staticAddr s) else staticAddr s

/-- DYNAMIC_ADDRESS: taken while the port runs I3C, by ENTDAA, or by SETDASA sent to the port's static address. -/
def dynamicTaken (s : State) (addr : BitVec 7) (setdasa : Option (BitVec 7)) : State :=
  if flag s Reg.kwStatusI3cMode ∧ setdasa.all (fun a => decide (a = staticAddr s)) then
    { s with kolwin := { s.kolwin with dynamicAddr := some addr } }
  else s

def execFlashWriteEnd (t : Nat) (s : State) : Host.Outcome State Fault Refusal := presentAlways s t flashEnd
def execSmbusFallback (t : Nat) (s : State) : Host.Outcome State Fault Refusal := presentAlways s t fallback
def execDynamicAddress (a : AddressAssign) (s : State) : Host.Outcome State Fault Refusal :=
  presentAlways s a.tick fun s => dynamicTaken s a.addr a.setdasa

end Sys2Proof.Machine
end

