-- ==== Sys2Proof/Machine/Tick.lean ====
section
/-! DEFINITION. The alignment of the tick between pair partners (R46 to R48). -/
namespace Sys2Proof.Machine

/-! ## The forward step at the first lock (R47) -/

/-- A deadline that is armed moves with the counter; 0 stands for none. -/
def shiftTick (d n : Nat) : Nat := if n = 0 then 0 else (n + d) % 2 ^ 64

/-- The four tick fields of a descriptor's bytes, those that hold a tick (R47). -/
def shiftImage (d : Nat) (bs : List Byte) : List Byte :=
  [0xA0, 0xA8, 0xB0, 0xB8].foldl (fun b off =>
    if b.length < off + 8 then b else patch b off (natBytes 8 (shiftTick d (fieldAt b off 8)))) bs

/-- The descriptor of a live request. -/
def shiftRc (d : Nat) (s : State) (rc : Nat) : State :=
  [0xA0, 0xA8, 0xB0, 0xB8].foldl (fun st off => rcPut st rc off 8 (shiftTick d (rcGet st rc off 8))) s

/-- The refill tick of a tenant. -/
def shiftTenant (d : Nat) (s : State) (t : Nat) : State :=
  let n := tenGet s t 0x18 8
  if n = 0 then s else tenPut s t 0x18 8 (shiftTick d n)

/-- An operation's start, deadline and limit, and the send ticks of its pieces. -/
def shiftOp (d : Nat) (e : DotEntry) : DotEntry :=
  if e.state = .free then e
  else { e with
    start := (e.start + d) % 2 ^ 64, deadline := if e.dlEn then (e.deadline + d) % 2 ^ 64 else e.deadline
    limit := shiftTick d e.limit
    coll := e.coll.map fun c => { c with unacked := c.unacked.map fun x => { x with sentAt := x.sentAt + d } } }

def shiftCell (d : Nat) (c : SyncCell) : SyncCell := { c with deadline := BitVec.ofNat 64 (shiftTick d c.deadline.toNat) }
def shiftCmd (d : Nat) (c : QCmd) : QCmd := { c with tick := c.tick + d }
def shiftStep (d : Nat) (p : Step) : Step := { p with launch := p.launch + d }
def shiftQueue (d : Nat) (q : Queue) : Queue := if q.unsent = 0 then q else { q with firstAt := q.firstAt + d }
def shiftPort (d : Nat) (p : Port) : Port :=
  { p with since := p.since + d, unacked := p.unacked.map fun f => { f with sentAt := f.sentAt + d } }

/-- What the scheduler keeps of a request: its limits, its commands and its saved descriptors. -/
def shiftReq (d : Nat) (r : Req) : Req := { r with
  limit := shiftTick d r.limit, owed := r.owed.map (shiftCmd d), share := r.share.map fun x => (x.1, x.2.1, shiftCmd d x.2.2)
  atLaunch := shiftImage d r.atLaunch, journal := r.journal.map fun e => (e.1, shiftImage d e.2) }

/-- The step scheduler's due ticks. The figure-of-merit window in progress closes unreported: the next report is of a
window that starts at an aligned multiple (R312). -/
def shiftSched (d now energy : Nat) (q : Sched) : Sched := { q with
  cmds := q.cmds.map (shiftCmd d), cur := q.cur.map (shiftStep d), formed := q.formed.map (shiftStep d)
  hist := q.hist.map (shiftStep d), rerunQ := q.rerunQ.map (shiftStep d), launches := q.launches.map (· + d)
  adapters := q.adapters.map fun a => (a.1, a.2.map (shiftCmd d))
  guestCopy := q.guestCopy.map fun g => (shiftCmd d g.1, g.2), fomStart := now, fomTokens := 0, fomEnergy := energy }

/-- The LIMIT of an open KW_REPAIR slot. -/
def shiftSlot (d : Nat) (s : State) (i : Nat) : State :=
  if fld s (Reg.kwRepairRequest i) = 0 then s
  else setReg64 s (0xC0118 + 0x20 * i) (shiftTick d (reg64 s (0xC0118 + 0x20 * i)))

/-- The ticks that the integrity engine, the mirror engine, the links, Kolwin and the repairs hold. -/
def shiftEngines (d : Nat) (s : State) : State := { s with
  timer0 := shiftTick d s.timer0, timer1 := shiftTick d s.timer1, timer2 := shiftTick d s.timer2
  repairs := s.repairs.map fun r => { r with limit := r.limit + d, began := r.began + d }
  integ := { s.integ with due := s.integ.due.map fun p => (p.1, p.2 + d)
                          disagree := s.integ.disagree.map fun x => { x with since := x.since + d } }
  links := { s.links with ports := s.links.ports.map fun p => (p.1, shiftPort d p.2) }
  mirror := { s.mirror with unacked := s.mirror.unacked.map fun f => (f.1, f.2 + d), lastBeat := s.mirror.lastBeat + d }
  kolwin := { s.kolwin with startedAt := s.kolwin.startedAt + d }
  power := { s.power with sampleCut := some ((s.power.sampleCut.getD (s.tk / 1000 * 1000)) + d) }
  align := { s.align with slewAt := s.align.slewAt.map (· + d) }
  pins := { s.pins with risenAt := s.pins.risenAt + d }
  loads := s.loads.map fun l => { l with cmd := shiftCmd d l.cmd }
  retrainDue := s.retrainDue.map fun p => (p.1, p.2 + d) }

/-- Step the counter forward by `d`, and every live absolute tick value with it (R47, Table 3-8). -/
def stepForward (s : State) (d : Nat) : State :=
  let now := (s.tk + d) % 2 ^ 64
  let s1 := (liveRcs s).foldl (shiftRc d) s
  let s2 := (List.range numTenants).foldl (shiftTenant d) s1
  let s3 := shiftEngines d ((List.range 16).foldl (shiftSlot d) s2)
  let s4 := (s3.dot.map (·.1)).foldl (fun st m => setDot st m (shiftOp d (getDot st m))) s3
  let s5 := (s4.cells.map (·.1)).foldl (fun st n => setCell st n (shiftCell d (getCell st n))) s4
  let s6 := (s5.reqs.map (·.1)).foldl (fun st n => setReq st n (shiftReq d (getReq st n))) s5
  let s7 := (s6.queues.map (·.1)).foldl (fun st n => setQueue st n (shiftQueue d (getQueue st n))) s6
  let s8 := { s7 with tk := now, sched := shiftSched d now (reg64 s7 Reg.pwEnergyUj.off) s7.sched }
  setReg64 (setReg64 s8 0x20010 now) 0x20018 d

/-! ## Pulses and slewing (R46, R48) -/

/-- TK_STATUS of a follower whose edge and count do or do not agree with the leader's. -/
def showAlign (s : State) (agree : Bool) : State :=
  setFld (setFld s Reg.tkStatusLocked (b2n agree)) Reg.tkStatusSlewing (b2n !agree)

/-- FF_SYNC_OUT: the leader pulses at every tick whose count is a multiple of 1,024 (R46). -/
def syncPulse (s : State) : State :=
  if flag s Reg.tkStatusLeader ∧ flag s Reg.tkCtrlSyncOutEn ∧ s.tk % 1024 = 0 then { s with pins := { s.pins with syncOut := some s.tk } }
  else s

/-- FF_SYNC_IN at tick `t` of a follower, with the leader's count there: the first pulse steps the counter, a later one
starts or ends slewing. An unpaired device and a leader ignore it. The counter never steps backward. -/
def syncIn (t leaderCount : Nat) (edgeOk : Bool) (s : State) : State :=
  if s.align.follower = false then s
  else
    let d : Int := (leaderCount : Int) - (t : Int)
    let s1 := if s.align.firstLock = false ∧ 0 < d then stepForward s d.toNat else s
    let left : Int := if s.align.firstLock = false ∧ 0 < d then 0 else d
    let agree := edgeOk && decide (left = 0)
    showAlign (setFld { s1 with align := { s1.align with
      locked := agree, firstLock := true, lastPulse := s1.tk, diff := left } } Reg.tkStatusHoldover 0) agree

/-- Four periods without a pulse (R48). -/
def loseSync (s : State) : State :=
  if s.align.follower ∧ s.align.firstLock ∧ flag s Reg.tkStatusHoldover = false ∧ s.align.lastPulse + 4096 ≤ s.tk then
    let s1 := setFld { s with align := { s.align with locked := false } } Reg.tkStatusHoldover 1
    let s2 := setFld (setFld s1 Reg.tkStatusLocked 0) Reg.tkStatusSlewing 0
    sendIf (setFld s2 Reg.tkStatusSyncLost 1) Reg.tkCtrlSyncIrqEn 258
  else s

/-- The next correction is due: one tick in every 1,024 (R48). -/
def slewDue (s : State) : Bool := s.align.slewAt.all fun n => decide (n + 1024 ≤ s.tk)

/-- One correction in 1,024 tk of a re-aligning follower: the edge first, then the count by one (R48). Behind, the
counter advances by two in the tick; ahead, it does not advance in the stretched tick. -/
def slew (edgeOk : Bool) (s0 : State) : State :=
  let s := { s0 with align := { s0.align with slewAt := some s0.tk } }
  if flag s0 Reg.tkStatusSlewing = false ∨ slewDue s0 = false then s0
  else if edgeOk = false then s
  else
    let a := s.align
    let behind := decide (0 < a.diff)
    let left : Int := if behind then a.diff - 1 else if a.diff < 0 then a.diff + 1 else 0
    let s1 := { s with tk := if behind then (s.tk + 1) % 2 ^ 64 else s.tk
                       align := { a with diff := left, locked := decide (left = 0) } }
    if left = 0 then showAlign s1 true else s1

def execFfSyncOut (t : Nat) (s : State) : Host.Outcome State Fault Refusal := present s t syncPulse
def execFfSyncIn (t leaderCount : Nat) (edgeOk : Bool) (s : State) : Host.Outcome State Fault Refusal :=
  present s t (syncIn t leaderCount edgeOk)
def execHoldover (t : Nat) (s : State) : Host.Outcome State Fault Refusal := present s t loseSync
def execSlewing (t : Nat) (edgeOk : Bool) (s : State) : Host.Outcome State Fault Refusal := present s t (slew edgeOk)

end Sys2Proof.Machine
end

