-- ==== Sys2Proof/Machine/Events.lean ====
section
/-! DEFINITION. Events of the memory controllers (R151, R153, R160 to R163) and disagreements of the two trees (R366,
Table 15-10). -/
namespace Sys2Proof.Machine

/-! ## Words of HBM -/

/-- UNCORRECTABLE_WORD: the word that holds `addr` reads from now on as its code decides from the 18 symbols the array returns
(R149, Table 7-2): as read, corrected, or uncorrectable until a write of the whole word replaces it. What follows of R150 and
R153 (the counts, the class 4 event, MC_UE_ADDR, the record with the reader's kind, Table 7-3) happens at the command that
reads it; in a guarded range its block fails its check there (DEDUCED, notes/assumptions 34). -/
def wordReads (s : State) (addr : Nat) (data : BitVec 128) (metadata : Word32) : State :=
  let w := addr / 16
  let c := wordSymbols data metadata (w % 2)
  let put := fun (bad soft : Bool) (st : State) =>
    { st with badWords := smSet boolDefault st.badWords w bad, softWords := smSet boolDefault st.softWords w soft }
  match wordOutcome c with
  | .asRead => put false false (store s (16 * w) (wordDelivered c))
  | .corrected _ => put false true (store s (16 * w) (wordDelivered c))
  | .uncorrectable => put true false s

/-- CORRECTED_WORD_WRITE_BACK (R151): the word is written back corrected, unless a write has superseded it. A burst that the
dies report as corrected on-die is counted for its stack. -/
def wordMended (s : State) (addr : Nat) (onDie : Bool) : State :=
  let k := (interleave addr).stack
  if onDie then countUp s (Reg.mcStkOdeCount k) (Reg.mcStkOvf k) 2 1
  else { s with softWords := smSet boolDefault s.softWords (addr / 16) false }

def execUncorrectableWord (t : Nat) (w : StoredWord) (s : State) : Host.Outcome State Fault Refusal :=
  presentUnit s t w.addr hbmBytes fun s => wordReads s w.addr w.data w.metadata
def execCorrectedWordWriteBack (t : Nat) (w : MendedWord) (s : State) : Host.Outcome State Fault Refusal :=
  presentUnit s t w.addr hbmBytes fun s => wordMended s w.addr w.onDie



def numChannels : Nat := 192
def numPseudo : Nat := 384

/-- REFRESH: one that falls due in a retraining window is issued at the window's end (R162). -/
def refreshDue (s : State) (pc : Nat) : State :=
  if smGet boolDefault s.retraining (pc / 2) then
    { s with refreshOwed := smSet natDefault s.refreshOwed pc (min 3 (smGet natDefault s.refreshOwed pc + 1)) }
  else issueRefresh s pc

/-- HBM_TEMPERATURE (R160): TEMP holds the reading and the rate it selects. -/
def stackTemperature (s : State) (k celsius : Nat) : State :=
  setFld s (Reg.mcStkTemp k) (rateAt (stackRate s k) celsius * 2 ^ 16 + celsius % 256)

/-- PERIODIC_RETRAIN (R162): with RETRAIN_DEFER it waits for the boundary of the step in progress, up to 1 ms. -/
def retrainPeriodic (s : State) (ch : Nat) : State :=
  let since := (s.retrainDue.find? fun p => decide (p.1 = ch)).map (·.2)
  let wait := flag s Reg.mcCtrlRetrainDefer && s.sched.cur.isSome
  match since with
  | some d =>
    if wait && decide (s.tk < d + 100000) then s
    else openWindow { s with retrainDue := s.retrainDue.filter fun p => decide (p.1 ≠ ch) } ch
  | none => if wait then { s with retrainDue := s.retrainDue ++ [(ch, s.tk)] } else openWindow s ch

/-- The window of a channel ends: the refreshes it held back are issued. -/
def closeWindow (s : State) (ch : Nat) : State :=
  let s1 := { s with retraining := smSet boolDefault s.retraining ch false }
  [2 * ch, 2 * ch + 1].foldl (fun st pc =>
    if smGet natDefault st.refreshOwed pc = 0 then st
    else issueRefresh { st with refreshOwed := smSet natDefault st.refreshOwed pc 0 } pc) s1

/-- RETRAIN_WINDOW_END: a failed retrain loses the stack (R163). -/
def windowEnd (s : State) (ch : Nat) (ok : Bool) : State :=
  if smGet boolDefault s.retraining ch = false then s
  else if ok then closeWindow s ch else stackLoss s (ch / 16)

def execRefresh (t pc : Nat) (s : State) : Host.Outcome State Fault Refusal :=
  presentUnit s t pc numPseudo fun s => refreshDue s pc
def execHbmTemperature (t stack celsius : Nat) (s : State) : Host.Outcome State Fault Refusal :=
  presentUnit s t stack 12 fun s => stackTemperature s stack celsius
def execPeriodicRetrain (t ch : Nat) (s : State) : Host.Outcome State Fault Refusal :=
  presentUnit s t ch numChannels fun s => retrainPeriodic s ch
def execErrorTriggeredRetrain (t ch : Nat) (s : State) : Host.Outcome State Fault Refusal :=
  presentUnit s t ch numChannels fun s => openWindow s ch
def execRetrainWindowEnd (t ch : Nat) (ok : Bool) (s : State) : Host.Outcome State Fault Refusal :=
  presentUnit s t ch numChannels fun s => windowEnd s ch ok

/-! ## The two trees (R366) -/

/-- Units of a kind (Table 15-10); none of any other kind. -/
def treeUnits (kind : Nat) : Nat :=
  if kind = 1 then numCores else if kind = 2 then 32 else if kind = 3 then 16 else if kind = 4 then numPseudo else 0

/-- DISAGREE stands while some unit's trees differ. -/
def showDisagree (s : State) : State :=
  setFld s Reg.inStatusDisagree (b2n !s.integ.disagree.isEmpty)

/-- The unit is fenced and its reconciliation starts: a core takes no tiles, a cluster's cores take none, a port in
service retrains, a pseudo-channel's channel retrains. -/
def fenceUnit (s : State) (kind index : Nat) : State :=
  if kind = 1 then (if retired s index then s else setCoreState s index icFenced)
  else if kind = 3 then retrain s index
  else if kind = 4 then openWindow s (index / 2)
  else s

/-- DISAGREE: the two trees have differed for two ticks. -/
def treesDiffer (s : State) (kind index dataSt ctrlSt : Nat) : State :=
  if dataSt = ctrlSt ∨ s.integ.disagree.any (fun d => decide (d.kind = kind ∧ d.index = index)) then s
  else
    let s1 := errorRecord s { type := 0x16, step := stepNow s, a0 := kind, a1 := index, a2 := dataSt, a3 := ctrlSt }
    let s2 := countUp s1 Reg.inCountDisagreements Reg.inCountOvf 7 1
    let d : Disagreement := { kind := kind, index := index, dataSt := dataSt, ctrlSt := ctrlSt, since := s.tk }
    fenceUnit (showDisagree { s2 with integ := { s2.integ with disagree := s2.integ.disagree ++ [d] } }) kind index

/-- A disagreement that Kolwin has still to reconcile comes before another in ascending kind and index. -/
def isFirst (s : State) (d : Disagreement) : Bool :=
  s.integ.disagree.all fun e => decide (d.kind < e.kind) || decide (d.kind = e.kind ∧ d.index ≤ e.index)

/-- A core whose control-tree state is RETIRED, or whose test failed, is retired: in service at the next boundary, a spare at
once (R359). -/
def retireUnit (s : State) (k : Nat) : State :=
  if retired s k then s
  else if serving s k then
    let s1 := setCoreState s k icDrained
    { s1 with integ := { s1.integ with losing := s1.integ.losing ++ [k] } }
  else
    let s1 := recordSpareRetired (setCoreState s k icRetired) k
    { s1 with integ := { s1.integ with spareLost := true } }

/-- Reconcile a core by its known-answer test: the state, and the result. The failing program of a failed test is no
operand of the row: a free value. -/
def reconcileCore (s : State) (d : Disagreement) (pass : Bool) : State × Nat :=
  if retired s d.index then (s, icRetired)
  else
    let s1 := setCoreState s d.index icTesting
    if d.ctrlSt = icRetired ∧ pass then (retireUnit (countUp s1 Reg.inCountCicadaRuns Reg.inCountOvf 0 1) d.index, icRetired)
    else if pass then (testEnd s1 d.index none, icInService)
    else (testEnd (tookFree s1) d.index (some (freeNow s1 % 2 ^ 64)), icRetired)

/-- Reconcile a peer port by its retrain (R319): the port state that results; RETIRED keeps it out of service. -/
def reconcilePort (s : State) (d : Disagreement) (pass : Bool) : State × Nat :=
  let p := d.index
  let s1 :=
    if d.ctrlSt = icRetired then setPortState s p psDisabled
    else if portState s p ≠ psRetraining then s
    else if pass then retrained s p (fld s (Reg.lkPortStatusLanesUp p))
    else setPortState s p psDown
  (s1, portState s1 p)

/-- Reconcile one unit. A cluster or a pseudo-channel that fails stays fenced, and the device enters FATAL afterwards. -/
def reconcileUnit (s : State) (d : Disagreement) (pass : Bool) : State × Nat :=
  if d.kind = 1 then reconcileCore s d pass
  else if d.kind = 3 then reconcilePort s d pass
  else if pass = false then (s, icFenced)
  else (if d.kind = 4 then closeWindow s (d.index / 2) else s, if d.ctrlSt = icRetired then icRetired else icInService)

/-- The state both trees hold of a unit once reconciled: one that the control tree calls RETIRED stays so. -/
def settled (d : Disagreement) (result : Nat) : Nat :=
  if d.ctrlSt = icRetired then icRetired else if d.kind = 3 then icInService else result

/-- RECONCILED: Kolwin's reconciliation of a unit ends. -/
def reconciledUnit (s : State) (kind index : Nat) (pass : Bool) : State :=
  match s.integ.disagree.find? fun d => decide (d.kind = kind ∧ d.index = index) with
  | none => s
  | some d =>
    if isFirst s d = false then s
    else
      let r := reconcileUnit s d pass
      let s1 := { r.1 with integ := { r.1.integ with
        disagree := r.1.integ.disagree.filter fun e => decide (e.kind ≠ kind ∨ e.index ≠ index)
        units := if kind = 1 then r.1.integ.units
          else smSet natDefault r.1.integ.units (unitKey kind index) (settled d r.2) } }
      let s2 := errorRecord (showDisagree s1)
        { type := 0x17, step := stepNow s, a0 := kind, a1 := index, a2 := r.2, a3 := s.tk - d.since }
      if pass then s2
      else if kind = 2 then enterFatal s2 1 16
      else if kind = 4 then stackLoss s2 (index / 32)
      else s2

def execDisagree (t kind index dataSt ctrlSt : Nat) (s : State) : Host.Outcome State Fault Refusal :=
  presentUnit s t index (treeUnits kind) fun s => treesDiffer s kind index dataSt ctrlSt
def execReconciled (t kind index : Nat) (pass : Bool) (s : State) : Host.Outcome State Fault Refusal :=
  presentUnit s t index (treeUnits kind) fun s => reconciledUnit s kind index pass

end Sys2Proof.Machine
end

