-- ==== Sys2Proof/Machine/Regs.lean ====
section
/-! DEFINITION. Host writes of registers (R5, R19, R54, R176, R258, R313, R332, R350, R367, R368, R386, R405, R412, R413) and host
accesses through BAR2 (R152, R157, R200, R279, Table 17-9). -/
namespace Sys2Proof.Machine

/-! ## Counters with an OVF bit (R367) -/

/-- The counters of an OVF word, bit 0 first; none at any other offset. -/
def ovfCounters (off : Nat) : List Nat :=
  let from_ := fun base n => (List.range n).map fun i => base + 4 * i
  if off = 0x40024 then from_ 0x40010 5
  else if off = 0x5006C then from_ 0x50050 7
  else if off = 0x6005C then from_ 0x60040 7
  else if off = 0x7002C then from_ 0x70010 7
  else if off = 0x8009C then from_ 0x80080 7
  else if off = 0x900A4 then from_ 0x90080 9
  else if off = 0xA0094 then from_ 0xA0080 5
  else if 0x30100 ≤ off ∧ off < 0x30280 ∧ (off - 0x30100) % 0x20 = 0x14 then from_ (off - 0x10) 4
  else if 0x70100 ≤ off ∧ off < 0x70540 ∧ (off - 0x70100) % 0x40 = 0x20 then from_ (off - 0x18) 6
  else []

/-- Clear OVF bits; each bit cleared zeroes its counter. -/
def ovfWrite (s : State) (off : Nat) (v : Word32) : State :=
  let old := regGet s off
  let cs := ovfCounters off
  (List.zip (List.range cs.length) cs).foldl (fun st p =>
    if old.getLsbD p.1 && v.getLsbD p.1 && !(heldBits s off).getLsbD p.1 then regPut st p.2 0 else st) (plainWrite s off v)

/-! ## Guarded ranges and zones (Tables 7-17 to 7-19) -/

/-- A write in a guarded range's registers: its layout is fixed while it is not OFF. -/
def guardRegs (s : State) (off : Nat) (v : Word32) : State :=
  let n := (off - 0x31000) / 0x80
  let r := (off - 0x31000) % 0x80
  if r < 0x20 then (if grState s n = 0 then plainWrite s off v else s)
  else if r = 0x20 then (if v.toNat % 4 = 1 then sealRange s n else if v.toNat % 4 = 2 then unsealRange s n else s)
  else if r = 0x24 then
    let clear := (regGet s off).getLsbD 8 && v.getLsbD 8 && !(heldBits s off).getLsbD 8
    if clear then setFld (plainWrite s off v) (Reg.mcGrRepairs n) 0 else s
  else s

/-- Make `[a, a + n)` of any tier read zero. -/
def tierClear (s : State) (a n : Nat) : State :=
  if hostBase ≤ a ∧ a < peerBase then { s with hostMem := clearRange s.hostMem (busAddr s a) n } else physClear s a n

/-- INIT (Table 7-19): ZERO entries in the whole map, which are all-zero (R167), and a clear bitmap. -/
def initZone (s : State) (z : Nat) : State :=
  if zoneBusy s z ∨ flag s (Reg.mcTzStatusInitialising z) then setFld s (Reg.mcTzStatusResult z) 3
  else if !zoneLayoutOk s z then setFld s (Reg.mcTzStatusResult z) 2
  else
    let s1 := tierClear (tierClear s (tzMap s z) (16 * tzBlocks s z)) (tzBitmap s z) ((tzSectors s z + 7) / 8)
    setFld (setFld s1 (Reg.mcTzFreeSectors z) (tzSectors s z)) (Reg.mcTzStatusInitialising z) 1

/-- ENABLE written to 1: READY once the layout has been checked. -/
def enableZone (s : State) (z : Nat) : State :=
  if flag s (Reg.mcTzCtrlEnable z) then s
  else if zoneLayoutOk s z then
    let s1 := setFld (setFld s (Reg.mcTzCtrlEnable z) 1) (Reg.mcTzStatusReady z) 1
    setFld (setFld s1 (Reg.mcTzStatusResult z) 1) (Reg.mcTzFreeSectors z) (countFree s z)
  else setFld s (Reg.mcTzStatusResult z) 2

/-- A write of a zone's CTRL: INIT, or ENABLE to 0, while a tier operation names the zone changes nothing. -/
def zoneCtrl (s : State) (z : Nat) (v : Word32) : State :=
  let x := v.toNat
  if (bit x 1 || !bit x 0) && zoneBusy s z then setFld s (Reg.mcTzStatusResult z) 3
  else
    let s1 := setFld (setFld (setFld s (Reg.mcTzCtrlAlt z) (bits x 11 8)) (Reg.mcTzCtrlTier z) (bits x 4 4)) (Reg.mcTzCtrlAltEn z) (bits x 3 3)
    let s2 := if bit x 1 then initZone s1 z else s1
    if bit x 0 then enableZone s2 z else setFld (setFld s2 (Reg.mcTzCtrlEnable z) 0) (Reg.mcTzStatusReady z) 0

/-- A write in a zone's registers: its address registers are fixed while it is enabled. -/
def zoneRegs (s : State) (off : Nat) (v : Word32) : State :=
  let z := (off - 0x32000) / 0x40
  let r := (off - 0x32000) % 0x40
  if r = 0x28 then zoneCtrl s z v
  else if r = 0x2C then plainWrite s off v
  else if flag s (Reg.mcTzCtrlEnable z) then s
  else plainWrite s off v

def initEnd (s : State) (z : Nat) : State := setFld s (Reg.mcTzStatusInitialising z) 0

/-! ## Paging (R258) -/

/-- The geometry meets R226 and Tables 10-12 and 10-15. -/
def geometryOk (s : State) : Bool :=
  let f := fld s Reg.kvGeomFormat
  decide (f = 2 ∨ f = 3 ∨ f = 6) && decide (1 ≤ kvH s ∧ kvH s ≤ 16) && decide (0 < kvD s ∧ kvD s % 16 = 0) &&
    decide (kvHalf s % 128 = 0 ∧ kvHalf s ≤ 2048) && decide (1 ≤ kvL s ∧ 1 ≤ kvHg s) && decide (kvLd s = 0 ↔ kvDhg s = 0) &&
    decide (poolFirst s % kvPf s = 0 ∧ poolFrames s % kvPf s = 0)

/-- Spill runs of the zone that holds spilled pages. -/
def spillRuns (s : State) : Nat := tzBlocks s (spillZone s) / kvPf s

/-- The areas the layout check compares, with their sizes. -/
def kvAreas (s : State) : List (Nat × Nat) :=
  [(4096 * poolFirst s, 4096 * poolFrames s), (baseFld s Reg.kvFtBaseBase, 4 * poolFrames s),
    (baseFld s Reg.kvFstackBase, 4 * poolFrames s / kvPf s)] ++
  (if spillStack s = 0 then [] else [(spillStack s, 4 * spillRuns s)]) ++
  (List.range 32).map fun c => (baseFld s (Reg.kvStgOvfBase c), roundUp (fld s (Reg.kvStgOvfEntries c) * entryBytes s) 4096)

/-- No two areas of a list share a byte. -/
def areasApart : List (Nat × Nat) → Bool
  | [] => true
  | a :: rest => rest.all (fun b => !overlaps a.1 a.2 b.1 b.2) && areasApart rest

/-- The whole check. -/
def kvLayoutOk (s : State) : Bool :=
  let ft := baseFld s Reg.kvFtBaseBase
  geometryOk s && (kvAreas s).all (fun a => decide (rowOf s a.1 a.2 = .hbm) && !guarded s a.1 a.2) && areasApart (kvAreas s) &&
    (cellsIn s.mem ft (4 * poolFrames s)).isEmpty && (badIn s ft (4 * poolFrames s)).isNone &&
    (decide (spillStack s = 0) || (tzReady s (spillZone s) && decide (tzTier s (spillZone s) = 2))) &&
    decide (fld s Reg.kvFreeCount ≤ poolFrames s / kvPf s) && decide (fld s Reg.kvSpillFreeCount ≤ spillRuns s)

/-- Some request context is live. -/
def anyLive (s : State) : Bool := !(liveRcs s).isEmpty

/-- A write of KV_CTRL (Table 10-11). A write of 1 while ENABLE is 1 changes nothing. -/
def kvCtrl (s : State) (v : Word32) : State :=
  if v.getLsbD 0 then
    if flag s Reg.kvCtrlEnable then s
    else if kvLayoutOk s then
      let s1 := setFld (setFld s Reg.kvCtrlEnable 1) Reg.kvStatusEnabled 1
      setFld (setFld s1 Reg.kvStatusPageFrames (kvPf s)) Reg.kvStatusResult 1
    else setFld s Reg.kvStatusResult 2
  else if anyLive s then setFld s Reg.kvStatusResult 3
  else setFld (setFld (setFld s Reg.kvCtrlEnable 0) Reg.kvStatusEnabled 0) Reg.kvStatusPageFrames 0

/-- A write of KV_INV drops entries from all 32 buffers; BUSY stands until every buffer has done so (R240). -/
def kvDrop (s : State) (v : Word32) : State :=
  if flag s Reg.kvInvBusy then s
  else
    let all := v.getLsbD 31
    let rc := v.toNat % 2 ^ 16
    let s1 := (s.clusters.map (·.1)).foldl (fun st n =>
      let cl := getCluster st n
      setCluster st n { cl with tb := if all then [] else cl.tb.filter fun e => decide (e.rc ≠ rc) }) s
    setFld (setFld s1 Reg.kvInvBusy 1) Reg.kvStatusInvBusy 1

def kvDropEnd (s : State) : State := setFld (setFld s Reg.kvInvBusy 0) Reg.kvStatusInvBusy 0

/-- A write in the KV_ registers: the layout is fixed while paging is on. -/
def kvRegs (s : State) (off : Nat) (v : Word32) : State :=
  if off = 0x50000 then kvCtrl s v
  else if off = 0x50014 then kvDrop s v
  else if off = 0x50018 ∨ off = 0x5001C ∨ off = 0x50004 then plainWrite s off v
  else if flag s Reg.kvCtrlEnable then s
  else plainWrite s off v

/-! ## Links and the pair (R321, R332, R350) -/

/-- LK_CTRL: DEVICE_ID is taken by the first write; ENABLE to 1 is ignored while ID_VALID is 0. -/
def linkCtrl (s : State) (v : Word32) : State :=
  let x := v.toNat
  let valid := flag s Reg.lkStatusIdValid
  let s1 := if valid then s else setFld (setFld s Reg.lkCtrlDeviceId (bits x 25 16)) Reg.lkStatusIdValid 1
  let s2 := setFld (setFld s1 Reg.lkCtrlLanesMin (bits x 6 4)) Reg.lkCtrlIrqEn (bits x 1 1)
  let on := if bit x 0 then (if valid then 1 else fld s2 Reg.lkCtrlEnable) else 0
  followEnables s (setFld (setFld s2 Reg.lkCtrlEnable on) Reg.lkStatusEnabled on)

/-- A peer port's CTRL: lanes taken off, RETRAIN, ENABLE. -/
def portCtrl (s : State) (p : Nat) (v : Word32) : State :=
  if p = portM then s
  else
    let x := v.toNat
    let off := bits x 8 3
    let s1 := setFld s (Reg.lkPortCtrlLaneOff p) off
    let s2 := (List.range 6).foldl (fun st i => if bit off i then loseLane st p i else st) s1
    let s3 := enablePort s2 p (bit x 0)
    if bit x 2 then retrain s3 p else s3

/-- An export segment's registers: its place and identifiers are fixed while it is VALID. -/
def exportRegs (s : State) (off : Nat) (v : Word32) : State :=
  let n := (off - 0x70800) / 0x20
  let r := (off - 0x70800) % 0x20
  let x := v.toNat
  let valid := flag s (Reg.lkExpCtrlValid n)
  if r = 0x10 then
    let s1 := setFld (setFld s (Reg.lkExpCtrlRead n) (bits x 1 1)) (Reg.lkExpCtrlWrite n) (bits x 2 2)
    if valid then (if bit x 0 then s1 else exportClear s1 n) else plainWrite s1 off v
  else if valid then s
  else plainWrite s off v

def linkRegs (s : State) (off : Nat) (v : Word32) : State :=
  if off = 0x70000 then linkCtrl s v
  else if 0x70100 ≤ off ∧ off < 0x70540 ∧ (off - 0x70100) % 0x40 = 0 then portCtrl s ((off - 0x70100) / 0x40) v
  else if 0x70800 ≤ off ∧ off < 0x70A00 then exportRegs s off v
  else plainWrite s off v

/-- The MR_ registers: HALF and the bases are written only while SOLO; MR_CMD has its own commands (R343, R350). -/
def mirrorRegs (s : State) (off : Nat) (v : Word32) : State :=
  if off = 0x80000 then
    let x := v.toNat
    let s1 := setFld s Reg.mrCtrlIrqEn (bits x 3 3)
    let s2 := if mState s = msSolo then setFld s1 Reg.mrCtrlHalf (bits x 4 4) else s1
    enablePort s2 portM (bit x 0)
  else if 0x80028 ≤ off ∧ off < 0x80040 ∧ mState s ≠ msSolo then s
  else plainWrite s off v

/-! ## Integrity, queues, Kolwin -/

/-- IN_CTRL (R353, R368). -/
def integCtrl (s : State) (v : Word32) : State :=
  let x := v.toNat
  let was := flag s Reg.inCtrlCheckEn
  let armed := !flag s Reg.inCtrlCicadaEn && bit x 1
  let s1 := setFld (setFld (setFld s Reg.inCtrlLogIrqEn (bits x 3 3)) Reg.inCtrlRetractIrqEn (bits x 2 2)) Reg.inCtrlCicadaEn (bits x 1 1)
  let s2 := if armed then armTests s1 else s1
  if bit x 0 then (if was then s2 else { s2 with integ := { s2.integ with checkPending := true } })
  else
    let s3 := setFld { s2 with integ := { s2.integ with checkPending := false } } Reg.inCtrlCheckEn 0
    let s4 := setFld s3 Reg.inStatusSample 0
    if was then modPower s4 fun p => { p with modeDirty := true } else s4

def integRegs (s : State) (off : Nat) (v : Word32) : State :=
  if off = 0x90000 then integCtrl s v
  else if 0x90008 ≤ off ∧ off < 0x90020 ∧ flag s Reg.inCtrlCheckEn then s
  else plainWrite s off v

/-- The host window registers are fixed while the queues are enabled, and a change of SIZE is published (R37, R405).
The recovery loader publishes no table: there the size is in force at once (log entry 119). -/
def hostWindow (s : State) (off : Nat) (v : Word32) : State :=
  if flag s Reg.hqCtrlEnable then s
  else
    let s1 := plainWrite s off v
    if fld s1 Reg.hqHostwinSize = fld s Reg.hqHostwinSize then s1
    else if bootNow s1 = bootRecovery then { s1 with kolwin := { s1.kolwin with hostWin := hostWinBytes s1 } }
    else if bootNow s1 = bootRunning then beginPublication s1 0x808
    else owePublication s1 0x808

def queueRegs (s : State) (off : Nat) (v : Word32) : State :=
  if off = 0xB0000 then fetchAll (plainWrite s off v)
  else if 0xB0008 ≤ off ∧ off < 0xB0018 then hostWindow s off v
  else if 0xB1000 ≤ off ∧ off < 0xB3000 then
    let q := (off - 0xB1000) / 0x20
    let r := (off - 0xB1000) % 0x20
    if r = 0x10 then queueCtrl s q v
    else if r < 0x10 ∧ flag s (Reg.hqSqCtrlEnable q) then s
    else plainWrite s off v
  else plainWrite s off v

/-- A doorbell word (R407). -/
def doorbellWord (s : State) (off : Nat) (v : Word32) : State :=
  let q := (off - 0x100000) / 0x1000
  let r := off % 0x1000
  if r = 0 then doorbell s q v.toNat else if r = 4 then headDoorbell s q v.toNat else s

/-- BAR4 (Table 17-16). -/
def mailboxWord (s : State) (off : Nat) (v : Word32) : State :=
  let a := off - 0x4000000
  if a < 0x40 then { s with kolwin := { s.kolwin with mbCmd := writeNat s.kolwin.mbCmd a 4 v.toNat } }
  else if a = 0x80 then (if v.getLsbD 0 then mailboxRun s else s)
  else plainWrite s off v

/-! ## One 32-bit write -/

/-- Words whose write is a command to an engine of the device: a FATAL device takes none (R52, R410). -/
def isControl (off : Nat) : Bool :=
  (decide (0x100000 ≤ off) && decide (off < 0x200000)) ||
  (decide (0x31000 ≤ off) && decide (off < 0x31800) && decide (off % 0x80 = 0x20)) ||
  (decide (0x32000 ≤ off) && decide (off < 0x32400) && decide (off % 0x40 = 0x28)) ||
  (decide (0x70100 ≤ off) && decide (off < 0x70540) && decide ((off - 0x70100) % 0x40 = 0)) ||
  (decide (0x70800 ≤ off) && decide (off < 0x70A00) && decide (off % 0x20 = 0x10)) ||
  (decide (0xB1000 ≤ off) && decide (off < 0xB3000) && decide (off % 0x20 = 0x10)) ||
  [0x50000, 0x50014, 0x70000, 0x80000, 0x90000, 0xA0008, 0xA000C, 0xB0000, 0xB0008, 0xB000C, 0x4000080].contains off

/-- A 32-bit write at a BAR0 offset, or, at 0x0400_0000 + its offset, of BAR4. -/
def writeReg (s : State) (off : Nat) (v : Word32) : State :=
  if off < 0x10000 then s
  else if !(ovfCounters off).isEmpty then ovfWrite s off v
  else if off = 0x2000C then
    let s1 := plainWrite s off v
    if flag s1 Reg.tkCtrlSyncOutEn then s1 else { s1 with pins := { s1.pins with syncOut := none } }
  else if 0x31000 ≤ off ∧ off < 0x31800 then guardRegs s off v
  else if 0x32000 ≤ off ∧ off < 0x32400 then zoneRegs s off v
  else if off = 0x40000 then showNbLimit (plainWrite s off v)
  else if 0x50000 ≤ off ∧ off < 0x60000 then kvRegs s off v
  else if 0x60018 ≤ off ∧ off < 0x60040 then (if anyLive s then s else plainWrite s off v)
  else if 0x70000 ≤ off ∧ off < 0x80000 then linkRegs s off v
  else if 0x80000 ≤ off ∧ off < 0x90000 then mirrorRegs s off v
  else if 0x90000 ≤ off ∧ off < 0xA0000 then integRegs s off v
  else if off = 0xA0008 then requestProfile s (bits v.toNat 3 2)
  else if off = 0xA000C then writeMode s v
  else if 0xB0000 ≤ off ∧ off < 0xC0000 then queueRegs s off v
  else if off = 0xC0030 then driveAlert (plainWrite s off v)
  else if 0x100000 ≤ off ∧ off < 0x200000 then doorbellWord s off v
  else if 0x4000000 ≤ off then mailboxWord s off v
  else plainWrite s off v

/-- BAR0 words that the recovery loader's part of the device takes: the KW_ registers, and the host window, which its commands
use (R395, R405; log entry 119). -/
def loaderWord (off : Nat) : Bool :=
  (decide (0xC0000 ≤ off) && decide (off < 0xD0000)) || (decide (0xB0008 ≤ off) && decide (off < 0xB0018))

/-- A host write as it reaches the device. -/
def hostWrite (s : State) (off : Nat) (v : Word32) : State :=
  if bootNow s = bootRecovery ∧ off < 0x4000000 ∧ !loaderWord off then s
  else if s.kolwin.fatal ∧ isControl off then s
  else writeReg s off v

/-- A 32-bit or 64-bit write; the low word first. -/
def hostWriteWide (s : State) (off : Nat) (wide : Bool) (v : Word) : State :=
  let s1 := hostWrite s off (BitVec.truncate 32 v)
  if wide then hostWrite s1 (off + 4) (BitVec.truncate 32 (v >>> 32)) else s1

/-- Bytes of a BAR, and the model's offset of its byte 0. -/
def barSize : Bar → Nat
  | .bar0 => 0x4000000
  | .bar4 => 0x1000

def barBase : Bar → Nat
  | .bar0 => 0
  | .bar4 => 0x4000000

/-- An aligned access of 32 or 64 bits that lies in its BAR. -/
def barAccessOk (bar : Bar) (off : Nat) (wide : Bool) : Bool :=
  let n := if wide then 8 else 4
  decide (off % n = 0) && decide (off + n ≤ barSize bar)

def execRegisterWrite (t : Nat) (bar : Bar) (off : Nat) (wide : Bool) (v : Word) (s : State) : Host.Outcome State Fault Refusal :=
  if barAccessOk bar off wide then presentAlways s t fun s => hostWriteWide s (barBase bar + off) wide v else .fault .noSuchUnit
def execOvfClear (t off : Nat) (v : Word32) (s : State) : Host.Outcome State Fault Refusal :=
  if barAccessOk .bar0 off false then presentAlways s t fun s => hostWrite s off v else .fault .noSuchUnit
def execZoneInit (t n : Nat) (s : State) : Host.Outcome State Fault Refusal := presentUnit s t n 16 fun s => initZone s n
def execInitEnd (t n : Nat) (s : State) : Host.Outcome State Fault Refusal := presentUnit s t n 16 fun s => initEnd s n
def execTzEnable (t n : Nat) (v : Word32) (s : State) : Host.Outcome State Fault Refusal :=
  presentUnit s t n 16 fun s => hostWrite s (0x32028 + 0x40 * n) v
def execKvEnable (t : Nat) (v : Word32) (s : State) : Host.Outcome State Fault Refusal := present s t fun s => hostWrite s 0x50000 v
def execKvInv (t : Nat) (v : Word32) (s : State) : Host.Outcome State Fault Refusal := present s t fun s => hostWrite s 0x50014 v
def execKvInvEnd (t : Nat) (s : State) : Host.Outcome State Fault Refusal := present s t kvDropEnd
def execCheckEn (t : Nat) (v : Word32) (s : State) : Host.Outcome State Fault Refusal := present s t fun s => hostWrite s 0x90000 v
def execPwProfileRequest (t : Nat) (v : Word32) (s : State) : Host.Outcome State Fault Refusal :=
  present s t fun s => hostWrite s 0xA0008 v
def execPwModeWrite (t : Nat) (v : Word32) (s : State) : Host.Outcome State Fault Refusal :=
  present s t fun s => hostWrite s 0xA000C v
def execHostwinSize (t : Nat) (v : Word) (s : State) : Host.Outcome State Fault Refusal :=
  present s t fun s => hostWriteWide s 0xB0008 true v

/-! ## BAR2 -/

/-- HBM address of a BAR2 offset. -/
def bar2Addr (s : State) (off : Nat) : Nat := baseFld s Reg.hqBar2BaseBase + off

/-- An access lies in BAR2 as it is sized now (Table 17-9). -/
def inBar2 (s : State) (off n : Nat) : Bool := decide (off + n ≤ 2 ^ s.pcie.bar2Log)

/-- BAR2 reaches `n` bytes of HBM from an offset: within the populated bytes (R10, R404), HBM trained and powered, and not in
the recovery loader (R395). -/
def bar2Reaches (s : State) (off n : Nat) : Bool :=
  decide (bar2Addr s off + n ≤ hbmBytes) && s.kolwin.hbmTrained && s.power.railsUp && decide (bootNow s ≠ bootRecovery)

/-- A write touches a table that R279 protects while a request context is live; one confined to a descriptor's RING_HEAD is
exempt. -/
def touchesTables (s : State) (a n : Nat) : Bool :=
  let rc := baseFld s Reg.sqRcBaseBase
  let inHead := decide (rc ≤ a ∧ a + n ≤ rc + 256 * numRcs) && decide (0x90 ≤ (a - rc) % 256 ∧ (a - rc) % 256 + n ≤ 0x94)
  anyLive s && !inHead &&
    (overlaps a n rc (256 * numRcs) || overlaps a n (baseFld s Reg.sqTenantBaseBase) (64 * numTenants) ||
     overlaps a n (baseFld s Reg.sqAdapterBaseBase) (32 * numAdapters))

/-- BAR2_WRITE. One beyond the BAR's size is not the function's. -/
def bar2Put (s : State) (off : Nat) (bs : List Byte) : State :=
  let a := bar2Addr s off
  if bs.isEmpty ∨ inBar2 s off bs.length = false then s
  else if !bar2Reaches s off bs.length then dropWrite s a
  else if guarded s a bs.length then dropWrite s a
  else if touchesTables s a bs.length then countUp s Reg.sqCountBar2Dropped Reg.sqCountOvf 5 1
  else physWrite s a bs

/-- BAR2_READ: an unsupported-request completion beyond what BAR2 reaches. -/
def bar2Get (s : State) (off n : Nat) : State :=
  if inBar2 s off n && bar2Reaches s off n then bar2Deliver s (bar2Addr s off, n) else { s with readOut := none }

def execBar2Write (t off : Nat) (data : List Byte) (s : State) : Host.Outcome State Fault Refusal :=
  presentAlways s t fun s => bar2Put s off data
def execBar2Read (t off n : Nat) (s : State) : Host.Outcome State Fault Refusal := presentAlways s t fun s => bar2Get s off n

end Sys2Proof.Machine
end

