-- ==== Sys2Proof/Machine/Scalar.lean ====
section
/-! DEFINITION. Class 0x1, the scalar instructions (Table 5-5, R97). -/
namespace Sys2Proof.Machine

/-- sD := f sA B, with B as IMMB selects it. -/
def aluEff (s : State) (k : Nat) (w : FmtT) (f : Word → Word → Word) : Res :=
  regOp s k fun c => writeS c w.d (f (readS c w.a) (operandB c w))

/-- Shift amount: B[5:0]. -/
def shAmt (b : Word) : Nat := b.toNat % 64

/-- High 64 bits of a signed product. -/
def mulhsWord (a b : Word) : Word := BitVec.ofInt 64 ((a.toInt * b.toInt) / 2 ^ 64)
/-- High 64 bits of an unsigned product. -/
def mulhuWord (a b : Word) : Word := BitVec.ofNat 64 (a.toNat * b.toNat / 2 ^ 64)
/-- DIVU by zero returns all ones; REMU by zero returns sA (R97). -/
def divuWord (a b : Word) : Word := if b = 0 then BitVec.allOnes 64 else a / b
def remuWord (a b : Word) : Word := if b = 0 then a else a % b
/-- MOVHI: bits [63:32] replaced, [31:0] kept. -/
def movhiWord (d : Word) (i : BitVec 32) : Word := (i ++ d.extractLsb' 0 32 : BitVec 64)

/-- Predicate logic: pD := f pA pB. -/
def predEff (s : State) (k : Nat) (w : FmtT) (f : Bool → Bool → Bool) : Res :=
  regOp s k fun c => writeP c w.d.toNat (f (readP c w.a.toNat) (readP c w.b.toNat))

def execAdd (k : Nat) (w : FmtT) (s : State) : Host.Outcome State Fault Refusal :=
  issueT k w s infoScalar fun _ => aluEff s k w (fun a b => a + b)
def execSub (k : Nat) (w : FmtT) (s : State) : Host.Outcome State Fault Refusal :=
  issueT k w s infoScalar fun _ => aluEff s k w (fun a b => a - b)
def execMul (k : Nat) (w : FmtT) (s : State) : Host.Outcome State Fault Refusal :=
  issueT k w s infoScalar fun _ => aluEff s k w (fun a b => a * b)
def execMulhu (k : Nat) (w : FmtT) (s : State) : Host.Outcome State Fault Refusal :=
  issueT k w s infoScalar fun _ => aluEff s k w mulhuWord
def execMulhs (k : Nat) (w : FmtT) (s : State) : Host.Outcome State Fault Refusal :=
  issueT k w s infoScalar fun _ => aluEff s k w mulhsWord
def execDivu (k : Nat) (w : FmtT) (s : State) : Host.Outcome State Fault Refusal :=
  issueT k w s infoScalar fun _ => aluEff s k w divuWord
def execRemu (k : Nat) (w : FmtT) (s : State) : Host.Outcome State Fault Refusal :=
  issueT k w s infoScalar fun _ => aluEff s k w remuWord
def execAnd (k : Nat) (w : FmtT) (s : State) : Host.Outcome State Fault Refusal :=
  issueT k w s infoScalar fun _ => aluEff s k w (fun a b => a &&& b)
def execOr (k : Nat) (w : FmtT) (s : State) : Host.Outcome State Fault Refusal :=
  issueT k w s infoScalar fun _ => aluEff s k w (fun a b => a ||| b)
def execXor (k : Nat) (w : FmtT) (s : State) : Host.Outcome State Fault Refusal :=
  issueT k w s infoScalar fun _ => aluEff s k w (fun a b => a ^^^ b)
def execShl (k : Nat) (w : FmtT) (s : State) : Host.Outcome State Fault Refusal :=
  issueT k w s infoScalar fun _ => aluEff s k w (fun a b => a <<< shAmt b)
def execShr (k : Nat) (w : FmtT) (s : State) : Host.Outcome State Fault Refusal :=
  issueT k w s infoScalar fun _ => aluEff s k w (fun a b => a >>> shAmt b)
def execSar (k : Nat) (w : FmtT) (s : State) : Host.Outcome State Fault Refusal :=
  issueT k w s infoScalar fun _ => aluEff s k w (fun a b => a.sshiftRight (shAmt b))
def execMin (k : Nat) (w : FmtT) (s : State) : Host.Outcome State Fault Refusal :=
  issueT k w s infoScalar fun _ => aluEff s k w (fun a b => if a.slt b then a else b)
def execMax (k : Nat) (w : FmtT) (s : State) : Host.Outcome State Fault Refusal :=
  issueT k w s infoScalar fun _ => aluEff s k w (fun a b => if a.slt b then b else a)
def execMinu (k : Nat) (w : FmtT) (s : State) : Host.Outcome State Fault Refusal :=
  issueT k w s infoScalar fun _ => aluEff s k w (fun a b => if a.ult b then a else b)
def execMaxu (k : Nat) (w : FmtT) (s : State) : Host.Outcome State Fault Refusal :=
  issueT k w s infoScalar fun _ => aluEff s k w (fun a b => if a.ult b then b else a)
/-- SEL: sA when pC is one, else B. -/
def execSel (k : Nat) (w : FmtT) (s : State) : Host.Outcome State Fault Refusal :=
  issueT k w s infoSel fun c => aluEff s k w fun a b => if readP c w.c.toNat then a else b
def execCmp (k : Nat) (w : FmtT) (s : State) : Host.Outcome State Fault Refusal :=
  issueT k w s infoCmp fun _ =>
    regOp s k fun c => writeP c w.d.toNat (cmpCond (modBits w 28 26) (readS c w.a) (operandB c w))
def execMovi (k : Nat) (w : FmtL) (s : State) : Host.Outcome State Fault Refusal :=
  issueL k w s infoMovi fun _ => regOp s k fun c => writeS c w.d (w.imm.signExtend 64)
def execMovhi (k : Nat) (w : FmtL) (s : State) : Host.Outcome State Fault Refusal :=
  issueL k w s infoMovi fun _ => regOp s k fun c => writeS c w.d (movhiWord (readS c w.d) w.imm)
def execPand (k : Nat) (w : FmtT) (s : State) : Host.Outcome State Fault Refusal :=
  issueT k w s infoPred fun _ => predEff s k w (fun a b => a && b)
def execPor (k : Nat) (w : FmtT) (s : State) : Host.Outcome State Fault Refusal :=
  issueT k w s infoPred fun _ => predEff s k w (fun a b => a || b)
def execPxor (k : Nat) (w : FmtT) (s : State) : Host.Outcome State Fault Refusal :=
  issueT k w s infoPred fun _ => predEff s k w (fun a b => a ^^ b)

end Sys2Proof.Machine
end

