-- ==== Sys2Proof/Machine/Dispatch.lean ====
section
/-! DEFINITION. The meaning of each command: one arm per constructor of `Instr`. -/
namespace Sys2Proof.Machine
open Sys2Proof

def exec (i : Instr) (s : State) : Host.Outcome State Fault Refusal :=
  match i with
  | .nop k w => Sys2Proof.Machine.execNop k w s
  | .br k w => Sys2Proof.Machine.execBr k w s
  | .brz k w => Sys2Proof.Machine.execBrz k w s
  | .brnz k w => Sys2Proof.Machine.execBrnz k w s
  | .call k w => Sys2Proof.Machine.execCall k w s
  | .callr k w => Sys2Proof.Machine.execCallr k w s
  | .ret k w => Sys2Proof.Machine.execRet k w s
  | .yield k w => Sys2Proof.Machine.execYield k w s
  | .gcall k w => Sys2Proof.Machine.execGcall k w s
  | .gret k w => Sys2Proof.Machine.execGret k w s
  | .add k w => Sys2Proof.Machine.execAdd k w s
  | .sub k w => Sys2Proof.Machine.execSub k w s
  | .mul k w => Sys2Proof.Machine.execMul k w s
  | .mulhu k w => Sys2Proof.Machine.execMulhu k w s
  | .mulhs k w => Sys2Proof.Machine.execMulhs k w s
  | .divu k w => Sys2Proof.Machine.execDivu k w s
  | .remu k w => Sys2Proof.Machine.execRemu k w s
  | .and k w => Sys2Proof.Machine.execAnd k w s
  | .or k w => Sys2Proof.Machine.execOr k w s
  | .xor k w => Sys2Proof.Machine.execXor k w s
  | .shl k w => Sys2Proof.Machine.execShl k w s
  | .shr k w => Sys2Proof.Machine.execShr k w s
  | .sar k w => Sys2Proof.Machine.execSar k w s
  | .min k w => Sys2Proof.Machine.execMin k w s
  | .max k w => Sys2Proof.Machine.execMax k w s
  | .minu k w => Sys2Proof.Machine.execMinu k w s
  | .maxu k w => Sys2Proof.Machine.execMaxu k w s
  | .sel k w => Sys2Proof.Machine.execSel k w s
  | .cmp k w => Sys2Proof.Machine.execCmp k w s
  | .movi k w => Sys2Proof.Machine.execMovi k w s
  | .movhi k w => Sys2Proof.Machine.execMovhi k w s
  | .pand k w => Sys2Proof.Machine.execPand k w s
  | .por k w => Sys2Proof.Machine.execPor k w s
  | .pxor k w => Sys2Proof.Machine.execPxor k w s
  | .vadd k w => Sys2Proof.Machine.execVadd k w s
  | .vsub k w => Sys2Proof.Machine.execVsub k w s
  | .vmul k w => Sys2Proof.Machine.execVmul k w s
  | .vfma k w => Sys2Proof.Machine.execVfma k w s
  | .vmax k w => Sys2Proof.Machine.execVmax k w s
  | .vmin k w => Sys2Proof.Machine.execVmin k w s
  | .vcmp k w => Sys2Proof.Machine.execVcmp k w s
  | .vexp k w => Sys2Proof.Machine.execVexp k w s
  | .vrcp k w => Sys2Proof.Machine.execVrcp k w s
  | .vrsq k w => Sys2Proof.Machine.execVrsq k w s
  | .vred k w => Sys2Proof.Machine.execVred k w s
  | .vcvt k w => Sys2Proof.Machine.execVcvt k w s
  | .vcvtsr k w => Sys2Proof.Machine.execVcvtsr k w s
  | .vtopk k w => Sys2Proof.Machine.execVtopk k w s
  | .vrand k w => Sys2Proof.Machine.execVrand k w s
  | .vbcast k w => Sys2Proof.Machine.execVbcast k w s
  | .vext k w => Sys2Proof.Machine.execVext k w s
  | .vsel k w => Sys2Proof.Machine.execVsel k w s
  | .wld k w => Sys2Proof.Machine.execWld k w s
  | .mma k w => Sys2Proof.Machine.execMma k w s
  | .apre k w => Sys2Proof.Machine.execApre k w s
  | .acfg k w => Sys2Proof.Machine.execAcfg k w s
  | .ast k w => Sys2Proof.Machine.execAst k w s
  | .aclr k w => Sys2Proof.Machine.execAclr k w s
  | .ard k w => Sys2Proof.Machine.execArd k w s
  | .lds k w => Sys2Proof.Machine.execLds k w s
  | .sts k w => Sys2Proof.Machine.execSts k w s
  | .vld k w => Sys2Proof.Machine.execVld k w s
  | .vst k w => Sys2Proof.Machine.execVst k w s
  | .ldc k w => Sys2Proof.Machine.execLdc k w s
  | .stc k w => Sys2Proof.Machine.execStc k w s
  | .ldv k w => Sys2Proof.Machine.execLdv k w s
  | .stv k w => Sys2Proof.Machine.execStv k w s
  | .dma k w => Sys2Proof.Machine.execDma k w s
  | .flushr k w => Sys2Proof.Machine.execFlushr k w s
  | .invr k w => Sys2Proof.Machine.execInvr k w s
  | .kvld k w => Sys2Proof.Machine.execKvld k w s
  | .kvapp k w => Sys2Proof.Machine.execKvapp k w s
  | .kvcmt k w => Sys2Proof.Machine.execKvcmt k w s
  | .kvdrop k w => Sys2Proof.Machine.execKvdrop k w s
  | .kvimp k w => Sys2Proof.Machine.execKvimp k w s
  | .nbiss k w => Sys2Proof.Machine.execNbiss k w s
  | .nbfnc k w => Sys2Proof.Machine.execNbfnc k w s
  | .nbrd k w => Sys2Proof.Machine.execNbrd k w s
  | .rput k w => Sys2Proof.Machine.execRput k w s
  | .coll k w => Sys2Proof.Machine.execColl k w s
  | .amrg k w => Sys2Proof.Machine.execAmrg k w s
  | .temit k w => Sys2Proof.Machine.execTemit k w s
  | .tverify k w => Sys2Proof.Machine.execTverify k w s
  | .sccfg k w => Sys2Proof.Machine.execSccfg k w s
  | .scrd k w => Sys2Proof.Machine.execScrd k w s
  | .scset k w => Sys2Proof.Machine.execScset k w s
  | .scadd k w => Sys2Proof.Machine.execScadd k w s
  | .scdl k w => Sys2Proof.Machine.execScdl k w s
  | .wait k w => Sys2Proof.Machine.execWait k w s
  | .dotrd k w => Sys2Proof.Machine.execDotrd k w s
  | .dotcan k w => Sys2Proof.Machine.execDotcan k w s
  | .dotrel k w => Sys2Proof.Machine.execDotrel k w s
  | .sysrd k w => Sys2Proof.Machine.execSysrd k w s
  | .tbrd k w => Sys2Proof.Machine.execTbrd k w s
  | .corePartEnd t k => Sys2Proof.Machine.execCorePartEnd t k s
  | .dmaDone t m => Sys2Proof.Machine.execDmaDone t m s
  | .tierDone t m => Sys2Proof.Machine.execTierDone t m s
  | .nearBankCommandFinish t m cmd => Sys2Proof.Machine.execNearBankCommandFinish t m cmd s
  | .nearBankDone t m => Sys2Proof.Machine.execNearBankDone t m s
  | .collectiveDone t m => Sys2Proof.Machine.execCollectiveDone t m s
  | .kvImportDone t m => Sys2Proof.Machine.execKvImportDone t m s
  | .flushDone t m => Sys2Proof.Machine.execFlushDone t m s
  | .invalidateDone t m => Sys2Proof.Machine.execInvalidateDone t m s
  | .operationFailed t m why => Sys2Proof.Machine.execOperationFailed t m why s
  | .operationDeadline t m => Sys2Proof.Machine.execOperationDeadline t m s
  | .tierWaitLimit t => Sys2Proof.Machine.execTierWaitLimit t s
  | .stepWatchdog t => Sys2Proof.Machine.execStepWatchdog t s
  | .syncCellDeadline t n => Sys2Proof.Machine.execSyncCellDeadline t n s
  | .admitCmd t q c => Sys2Proof.Machine.execAdmitCmd t q c s
  | .cancel t q c => Sys2Proof.Machine.execCancel t q c s
  | .resumeRequest t q c => Sys2Proof.Machine.execResumeRequest t q c s
  | .park t q c => Sys2Proof.Machine.execPark t q c s
  | .unpark t q c => Sys2Proof.Machine.execUnpark t q c s
  | .sharePrefix t q c => Sys2Proof.Machine.execSharePrefix t q c s
  | .tenantCmd t q c => Sys2Proof.Machine.execTenantCmd t q c s
  | .loadAdapter t q c => Sys2Proof.Machine.execLoadAdapter t q c s
  | .retireAdapter t q c => Sys2Proof.Machine.execRetireAdapter t q c s
  | .loadImage t q c => Sys2Proof.Machine.execLoadImage t q c s
  | .resumeScheduler t q c => Sys2Proof.Machine.execResumeScheduler t q c s
  | .guestTable t q c => Sys2Proof.Machine.execGuestTable t q c s
  | .adapterCopyEnd t version ok => Sys2Proof.Machine.execAdapterCopyEnd t version ok s
  | .loadAdapterCopyEnd t version ok => Sys2Proof.Machine.execLoadAdapterCopyEnd t version ok s
  | .imageLoadEnd t => Sys2Proof.Machine.execImageLoadEnd t s
  | .guestTableCopyEnd t ok => Sys2Proof.Machine.execGuestTableCopyEnd t ok s
  | .submissionDoorbell t q tail => Sys2Proof.Machine.execSubmissionDoorbell t q tail s
  | .completionHeadDoorbell t q head => Sys2Proof.Machine.execCompletionHeadDoorbell t q head s
  | .coalesceTime t q => Sys2Proof.Machine.execCoalesceTime t q s
  | .identity t c => Sys2Proof.Machine.execIdentity t c s
  | .attest t c => Sys2Proof.Machine.execAttest t c s
  | .regRead t c => Sys2Proof.Machine.execRegRead t c s
  | .profileSelect t c => Sys2Proof.Machine.execProfileSelect t c s
  | .profileWrite t c => Sys2Proof.Machine.execProfileWrite t c s
  | .modeCmd t c => Sys2Proof.Machine.execModeCmd t c s
  | .pairCmd t c => Sys2Proof.Machine.execPairCmd t c s
  | .fwStage t c => Sys2Proof.Machine.execFwStage t c s
  | .commitSv t c => Sys2Proof.Machine.execCommitSv t c s
  | .resetCmd t c => Sys2Proof.Machine.execResetCmd t c s
  | .powerState t c => Sys2Proof.Machine.execPowerState t c s
  | .repairSupply t c => Sys2Proof.Machine.execRepairSupply t c s
  | .alertAck t c => Sys2Proof.Machine.execAlertAck t c s
  | .flashWriteEnd t => Sys2Proof.Machine.execFlashWriteEnd t s
  | .smbusFallback t => Sys2Proof.Machine.execSmbusFallback t s
  | .dynamicAddress a => Sys2Proof.Machine.execDynamicAddress a s
  | .mrCmdPair t => Sys2Proof.Machine.execMrCmdPair t s
  | .unpair t => Sys2Proof.Machine.execUnpair t s
  | .fence t => Sys2Proof.Machine.execFence t s
  | .takeover t => Sys2Proof.Machine.execTakeover t s
  | .bar2Write t off data => Sys2Proof.Machine.execBar2Write t off data s
  | .bar2Read t off n => Sys2Proof.Machine.execBar2Read t off n s
  | .registerWrite t bar off wide val => Sys2Proof.Machine.execRegisterWrite t bar off wide val s
  | .ovfClear t off val => Sys2Proof.Machine.execOvfClear t off val s
  | .tkCountLowRead t => Sys2Proof.Machine.execTkCountLowRead t s
  | .seal t n => Sys2Proof.Machine.execSeal t n s
  | .sealingEnd t n => Sys2Proof.Machine.execSealingEnd t n s
  | .unseal t n => Sys2Proof.Machine.execUnseal t n s
  | .zoneInit t n => Sys2Proof.Machine.execZoneInit t n s
  | .initEnd t n => Sys2Proof.Machine.execInitEnd t n s
  | .tzEnable t n val => Sys2Proof.Machine.execTzEnable t n val s
  | .kvEnable t val => Sys2Proof.Machine.execKvEnable t val s
  | .kvInv t val => Sys2Proof.Machine.execKvInv t val s
  | .kvInvEnd t => Sys2Proof.Machine.execKvInvEnd t s
  | .checkEn t val => Sys2Proof.Machine.execCheckEn t val s
  | .pwProfileRequest t val => Sys2Proof.Machine.execPwProfileRequest t val s
  | .pwModeWrite t val => Sys2Proof.Machine.execPwModeWrite t val s
  | .hqSqEnable t q val => Sys2Proof.Machine.execHqSqEnable t q val s
  | .hostwinSize t val => Sys2Proof.Machine.execHostwinSize t val s
  | .portEnable t p enable => Sys2Proof.Machine.execPortEnable t p enable s
  | .retrain t p => Sys2Proof.Machine.execRetrain t p s
  | .exportValidClear t n => Sys2Proof.Machine.execExportValidClear t n s
  | .exportBusyEnd t n => Sys2Proof.Machine.execExportBusyEnd t n s
  | .stepBoundary t => Sys2Proof.Machine.execStepBoundary t s
  | .stepLaunch t => Sys2Proof.Machine.execStepLaunch t s
  | .idleFormation t => Sys2Proof.Machine.execIdleFormation t s
  | .spill t rc layer hg page => Sys2Proof.Machine.execSpill t rc layer hg page s
  | .restore t rc layer hg page => Sys2Proof.Machine.execRestore t rc layer hg page s
  | .clailaezPublication t => Sys2Proof.Machine.execClailaezPublication t s
  | .fomWindowEnd t => Sys2Proof.Machine.execFomWindowEnd t s
  | .linkFrame t p f => Sys2Proof.Machine.execLinkFrame t p f s
  | .replayTimeout t p => Sys2Proof.Machine.execReplayTimeout t p s
  | .pieceResend t m dest chunk piece => Sys2Proof.Machine.execPieceResend t m dest chunk piece s
  | .notReadyRetry t m dest chunk piece => Sys2Proof.Machine.execNotReadyRetry t m dest chunk piece s
  | .routeRetry t m => Sys2Proof.Machine.execRouteRetry t m s
  | .trainingComplete t p lanes peerId peerPort => Sys2Proof.Machine.execTrainingComplete t p lanes peerId peerPort s
  | .trainingTimeout t p => Sys2Proof.Machine.execTrainingTimeout t p s
  | .laneLockLost t p lane => Sys2Proof.Machine.execLaneLockLost t p lane s
  | .laneErrorRate t p lane => Sys2Proof.Machine.execLaneErrorRate t p lane s
  | .retrainingComplete t p lanes => Sys2Proof.Machine.execRetrainingComplete t p lanes s
  | .retrainingTimeout t p => Sys2Proof.Machine.execRetrainingTimeout t p s
  | .downTimeout t p => Sys2Proof.Machine.execDownTimeout t p s
  | .heartbeatSend t => Sys2Proof.Machine.execHeartbeatSend t s
  | .heartbeatSilence t => Sys2Proof.Machine.execHeartbeatSilence t s
  | .ackDeadlineMissed t => Sys2Proof.Machine.execAckDeadlineMissed t s
  | .pairPresentChange t high => Sys2Proof.Machine.execPairPresentChange t high s
  | .ffSyncOut t => Sys2Proof.Machine.execFfSyncOut t s
  | .ffSyncIn t leaderCount edgeOk => Sys2Proof.Machine.execFfSyncIn t leaderCount edgeOk s
  | .holdover t => Sys2Proof.Machine.execHoldover t s
  | .slewing t edgeOk => Sys2Proof.Machine.execSlewing t edgeOk s
  | .powerSample t sample => Sys2Proof.Machine.execPowerSample t sample s
  | .thermalSetpointStep t rail junction => Sys2Proof.Machine.execThermalSetpointStep t rail junction s
  | .inputBelow44v t => Sys2Proof.Machine.execInputBelow44v t s
  | .inputLowPersists t => Sys2Proof.Machine.execInputLowPersists t s
  | .inputBelow40v t => Sys2Proof.Machine.execInputBelow40v t s
  | .inputAbove58v t => Sys2Proof.Machine.execInputAbove58v t s
  | .junctionLimit t => Sys2Proof.Machine.execJunctionLimit t s
  | .junction110c t => Sys2Proof.Machine.execJunction110c t s
  | .hbmAbove105c t stack => Sys2Proof.Machine.execHbmAbove105c t stack s
  | .coolantAlarm t => Sys2Proof.Machine.execCoolantAlarm t s
  | .coolantAlarmPersists t => Sys2Proof.Machine.execCoolantAlarmPersists t s
  | .emergencyEnd t source => Sys2Proof.Machine.execEmergencyEnd t source s
  | .quarterLoss t quarter => Sys2Proof.Machine.execQuarterLoss t quarter s
  | .stackLost t stack => Sys2Proof.Machine.execStackLost t stack s
  | .kolwinDetectedFault t => Sys2Proof.Machine.execKolwinDetectedFault t s
  | .selfCheck t pass => Sys2Proof.Machine.execSelfCheck t pass s
  | .uncorrectableWord t word => Sys2Proof.Machine.execUncorrectableWord t word s
  | .correctedWordWriteBack t word => Sys2Proof.Machine.execCorrectedWordWriteBack t word s
  | .repairStageEnd t range block stage => Sys2Proof.Machine.execRepairStageEnd t range block stage s
  | .repairStageLimit t range block => Sys2Proof.Machine.execRepairStageLimit t range block s
  | .repairSlotLimit t slot => Sys2Proof.Machine.execRepairSlotLimit t slot s
  | .refresh t pc => Sys2Proof.Machine.execRefresh t pc s
  | .hbmTemperature t stack celsius => Sys2Proof.Machine.execHbmTemperature t stack celsius s
  | .periodicRetrain t channel => Sys2Proof.Machine.execPeriodicRetrain t channel s
  | .errorTriggeredRetrain t channel => Sys2Proof.Machine.execErrorTriggeredRetrain t channel s
  | .retrainWindowEnd t channel ok => Sys2Proof.Machine.execRetrainWindowEnd t channel ok s
  | .knownAnswerTestDue t k => Sys2Proof.Machine.execKnownAnswerTestDue t k s
  | .knownAnswerTestEnd t k failing => Sys2Proof.Machine.execKnownAnswerTestEnd t k failing s
  | .disagree t kind index dataState controlState => Sys2Proof.Machine.execDisagree t kind index dataState controlState s
  | .reconciled t kind index pass => Sys2Proof.Machine.execReconciled t kind index pass s
  | .inputApplied t => Sys2Proof.Machine.execInputApplied t s
  | .inputRemoved t => Sys2Proof.Machine.execInputRemoved t s
  | .resetNAsserted t => Sys2Proof.Machine.execResetNAsserted t s
  | .resetNDeasserted t prof slot => Sys2Proof.Machine.execResetNDeasserted t prof slot s
  | .pcieReset t => Sys2Proof.Machine.execPcieReset t s
  | .imageVerificationEnd t => Sys2Proof.Machine.execImageVerificationEnd t s
  | .hbmTrainingEnd t => Sys2Proof.Machine.execHbmTrainingEnd t s
  | .tier2TrainingEnd t => Sys2Proof.Machine.execTier2TrainingEnd t s
  | .startUpTestsEnd t failed => Sys2Proof.Machine.execStartUpTestsEnd t failed s
  | .laneOff t p lane => Sys2Proof.Machine.execLaneOff t p lane s
  | .pcieLinkTrained t generation width => Sys2Proof.Machine.execPcieLinkTrained t generation width s
  | .firmwareStart t => Sys2Proof.Machine.execFirmwareStart t s
  | .pwrgdHigh t resetNHigh => Sys2Proof.Machine.execPwrgdHigh t resetNHigh s
  | .resetNDeassertionTaken t prof slot => Sys2Proof.Machine.execResetNDeassertionTaken t prof slot s

end Sys2Proof.Machine
end

