-- ==== Sys2Proof/Machine/Step.lean ====
section
/-! DEFINITION. One step of the module: the command at the front of the queue, or one tick when the queue is empty. -/
namespace Sys2Proof.Machine

/-- With nothing queued, one tick of the reference clock passes (R44; DESIGN CHOICE, notes/assumptions). A module without
power counts nothing. -/
def idleTick (s : State) : State := if s.pins.powered then { s with tk := (s.tk + 1) % 2 ^ 64 } else s

/-- Take the command at the front of the queue and run it on the state with the queue's rest. -/
def step (s : State) : Host.Outcome State Fault Refusal :=
  match s.pending with
  | [] => .next (idleTick s)
  | i :: rest => exec i { s with pending := rest }

/-- The state with the command a table word spells put at the front of its queue; unchanged where it spells none. -/
def State.withFetchWord (s : State) (nbits w : Nat) : State :=
  match decodeTableWord nbits w with
  | some i => { s with pending := i :: s.pending }
  | none => s

end Sys2Proof.Machine
end

