-- ==== Sys2Proof/Safety.lean ====
section
/-! DEFINITION. What a safe run is, in the terms the claims use: every sparse table of the state is in its one
canonical form, a command completes, and a core is ready to execute an instruction. -/
namespace Sys2Proof
open Sys2Proof.Machine

/-- Every byte memory is in canonical form: device memory, host memory and instruction memory. -/
def Safety.memoriesCanonical (s : State) : Prop :=
  Memory.wf s.mem = true ∧ Memory.wf s.hostMem = true ∧ Memory.wf s.imem = true

/-- The registers and the tables of units are in canonical form. -/
def Safety.tablesCanonical (s : State) : Prop :=
  smWf regReset s.regs = true ∧ smWf coreDefault s.cores = true ∧ smWf homeGid s.gids = true ∧
  smWf clusterDefault s.clusters = true ∧ smWf cellDefault s.cells = true ∧ smWf dotDefault s.dot = true ∧
  smWf reqDefault s.reqs = true ∧ smWf queueDefault s.queues = true

/-- Memories and tables are in canonical form. -/
def Safety.canonical (s : State) : Prop := Safety.memoriesCanonical s ∧ Safety.tablesCanonical s

/-- A step that neither faults nor refuses. -/
def Safety.completes (o : Host.Outcome State Fault Refusal) : Prop := ∃ t, o = .next t

/-- Core `k` is ready to execute an instruction under the guard `pg`, `pn`: it exists, it issues (R59, R61, R78), its PC and
the word after it lie in code it may reach (R96), a guest call has budget left (R73), the guard holds (R94), the word at its
PC is an encoding (R93, R123), and nothing waits at the head of its memory queue (R114). -/
structure Safety.ready (s : State) (k : Nat) (pg : BitVec 3) (pn : BitVec 1) : Prop where
  core   : k < numCores
  issues : issuing s k = true
  inside : inCode s k (getCore s k).pc = true
  after  : inCode s k ((getCore s k).pc + 8) = true
  budget : ∀ g, (getCore s k).guest = some g → g.left ≠ 0
  guard  : guardOn (getCore s k) pg pn = true
  word   : wordOk s k = true
  free   : (getCore s k).memHold = .none

/-- The same at operator privilege: no guest call is in progress. -/
structure Safety.operator (s : State) (k : Nat) (pg : BitVec 3) (pn : BitVec 1) : Prop extends Safety.ready s k pg pn where
  noGuest : (getCore s k).guest = none

/-- `t` is `s` but that core `k` stands as `c`: every other core and everything that is not a core is as in `s`. -/
structure Safety.onCore (s : State) (k : Nat) (c : Core) (t : State) : Prop where
  this   : getCore t k = c
  others : ∀ j, j ≠ k → getCore t j = getCore s j
  rest   : { t with cores := s.cores } = s

/-- A core after an instruction that goes on at PC + 8: its registers as in `c`, one instruction of a guest's budget gone
(R73). -/
def Safety.past (c : Core) : Core := { retire c with pc := c.pc + 8 }

/-- The guard fields of a core instruction, with its core: none for any other command. -/
def Safety.issued (i : Instr) : Option (Nat × BitVec 3 × BitVec 1) :=
  match i with
  | .nop k w => some (k, w.pg, w.pn)
  | .br k w => some (k, w.pg, w.pn)
  | .brz k w => some (k, w.pg, w.pn)
  | .brnz k w => some (k, w.pg, w.pn)
  | .call k w => some (k, w.pg, w.pn)
  | .callr k w => some (k, w.pg, w.pn)
  | .ret k w => some (k, w.pg, w.pn)
  | .yield k w => some (k, w.pg, w.pn)
  | .gcall k w => some (k, w.pg, w.pn)
  | .gret k w => some (k, w.pg, w.pn)
  | .add k w => some (k, w.pg, w.pn)
  | .sub k w => some (k, w.pg, w.pn)
  | .mul k w => some (k, w.pg, w.pn)
  | .mulhu k w => some (k, w.pg, w.pn)
  | .mulhs k w => some (k, w.pg, w.pn)
  | .divu k w => some (k, w.pg, w.pn)
  | .remu k w => some (k, w.pg, w.pn)
  | .and k w => some (k, w.pg, w.pn)
  | .or k w => some (k, w.pg, w.pn)
  | .xor k w => some (k, w.pg, w.pn)
  | .shl k w => some (k, w.pg, w.pn)
  | .shr k w => some (k, w.pg, w.pn)
  | .sar k w => some (k, w.pg, w.pn)
  | .min k w => some (k, w.pg, w.pn)
  | .max k w => some (k, w.pg, w.pn)
  | .minu k w => some (k, w.pg, w.pn)
  | .maxu k w => some (k, w.pg, w.pn)
  | .sel k w => some (k, w.pg, w.pn)
  | .cmp k w => some (k, w.pg, w.pn)
  | .movi k w => some (k, w.pg, w.pn)
  | .movhi k w => some (k, w.pg, w.pn)
  | .pand k w => some (k, w.pg, w.pn)
  | .por k w => some (k, w.pg, w.pn)
  | .pxor k w => some (k, w.pg, w.pn)
  | .vadd k w => some (k, w.pg, w.pn)
  | .vsub k w => some (k, w.pg, w.pn)
  | .vmul k w => some (k, w.pg, w.pn)
  | .vfma k w => some (k, w.pg, w.pn)
  | .vmax k w => some (k, w.pg, w.pn)
  | .vmin k w => some (k, w.pg, w.pn)
  | .vcmp k w => some (k, w.pg, w.pn)
  | .vexp k w => some (k, w.pg, w.pn)
  | .vrcp k w => some (k, w.pg, w.pn)
  | .vrsq k w => some (k, w.pg, w.pn)
  | .vred k w => some (k, w.pg, w.pn)
  | .vcvt k w => some (k, w.pg, w.pn)
  | .vcvtsr k w => some (k, w.pg, w.pn)
  | .vtopk k w => some (k, w.pg, w.pn)
  | .vrand k w => some (k, w.pg, w.pn)
  | .vbcast k w => some (k, w.pg, w.pn)
  | .vext k w => some (k, w.pg, w.pn)
  | .vsel k w => some (k, w.pg, w.pn)
  | .wld k w => some (k, w.pg, w.pn)
  | .mma k w => some (k, w.pg, w.pn)
  | .apre k w => some (k, w.pg, w.pn)
  | .acfg k w => some (k, w.pg, w.pn)
  | .ast k w => some (k, w.pg, w.pn)
  | .aclr k w => some (k, w.pg, w.pn)
  | .ard k w => some (k, w.pg, w.pn)
  | .lds k w => some (k, w.pg, w.pn)
  | .sts k w => some (k, w.pg, w.pn)
  | .vld k w => some (k, w.pg, w.pn)
  | .vst k w => some (k, w.pg, w.pn)
  | .ldc k w => some (k, w.pg, w.pn)
  | .stc k w => some (k, w.pg, w.pn)
  | .ldv k w => some (k, w.pg, w.pn)
  | .stv k w => some (k, w.pg, w.pn)
  | .dma k w => some (k, w.pg, w.pn)
  | .flushr k w => some (k, w.pg, w.pn)
  | .invr k w => some (k, w.pg, w.pn)
  | .kvld k w => some (k, w.pg, w.pn)
  | .kvapp k w => some (k, w.pg, w.pn)
  | .kvcmt k w => some (k, w.pg, w.pn)
  | .kvdrop k w => some (k, w.pg, w.pn)
  | .kvimp k w => some (k, w.pg, w.pn)
  | .nbiss k w => some (k, w.pg, w.pn)
  | .nbfnc k w => some (k, w.pg, w.pn)
  | .nbrd k w => some (k, w.pg, w.pn)
  | .rput k w => some (k, w.pg, w.pn)
  | .coll k w => some (k, w.pg, w.pn)
  | .amrg k w => some (k, w.pg, w.pn)
  | .temit k w => some (k, w.pg, w.pn)
  | .tverify k w => some (k, w.pg, w.pn)
  | .sccfg k w => some (k, w.pg, w.pn)
  | .scrd k w => some (k, w.pg, w.pn)
  | .scset k w => some (k, w.pg, w.pn)
  | .scadd k w => some (k, w.pg, w.pn)
  | .scdl k w => some (k, w.pg, w.pn)
  | .wait k w => some (k, w.pg, w.pn)
  | .dotrd k w => some (k, w.pg, w.pn)
  | .dotcan k w => some (k, w.pg, w.pn)
  | .dotrel k w => some (k, w.pg, w.pn)
  | .sysrd k w => some (k, w.pg, w.pn)
  | .tbrd k w => some (k, w.pg, w.pn)
  | _ => none

/-- A core instruction that Table 4-6 lists as not available at guest privilege. -/
def Safety.operatorOnly (i : Instr) : Bool :=
  match i with
  | .call _ _ | .callr _ _ | .ret _ _ | .yield _ _ | .gcall _ _ | .wld _ _ | .mma _ _ | .apre _ _ | .acfg _ _ | .ast _ _ | .aclr _ _ | .ard _ _
  | .stc _ _ | .ldv _ _ | .stv _ _ | .dma _ _ | .flushr _ _ | .invr _ _ | .kvld _ _ | .kvapp _ _ | .kvcmt _ _ | .kvdrop _ _ | .kvimp _ _ | .nbiss _ _
  | .nbfnc _ _ | .nbrd _ _ | .rput _ _ | .coll _ _ | .amrg _ _ | .temit _ _ | .tverify _ _ | .sccfg _ _ | .scrd _ _ | .scset _ _ | .scadd _ _ | .scdl _ _
  | .wait _ _ | .dotrd _ _ | .dotcan _ _ | .dotrel _ _ | .tbrd _ _ => true
  | _ => false

/-- A core instruction of the memory queue (Table 4-3). -/
def Safety.memoryQueue (i : Instr) : Bool :=
  match i with
  | .lds _ _ | .sts _ _ | .vld _ _ | .vst _ _ | .ldc _ _ | .stc _ _ | .ldv _ _ | .stv _ _ | .dma _ _ | .flushr _ _ | .invr _ _
  | .kvld _ _ | .kvapp _ _ | .kvcmt _ _ | .kvdrop _ _ | .kvimp _ _ | .nbiss _ _ | .nbfnc _ _ | .nbrd _ _ | .rput _ _ | .coll _ _ => true
  | _ => false

/-- Command `i` completes in `s`, and the state it leaves is as `p` says. -/
def Safety.answers (i : Instr) (s : State) (p : State → Prop) : Prop := ∃ t, exec i s = .next t ∧ p t

/-- The instruction completes: core `k` goes on at PC + 8 with its registers as in `c`, and nothing else changes. -/
def Safety.runs (i : Instr) (s : State) (k : Nat) (c : Core) : Prop :=
  Safety.answers i s (Safety.onCore s k (Safety.past c))

/-- The instruction raises a fault at its own address with nothing else done. -/
def Safety.traps (i : Instr) (s : State) (k code : Nat) : Prop :=
  exec i s = .next (takeFault s k code (getCore s k).pc)

/-- A host command as the scheduler holds it once it has been fetched from queue `q` in tick `t` (R284, R406). -/
def Safety.fetched (s : State) (t q op : Nat) (c : HostCmd) : QCmd :=
  { queue := q, opcode := op, cmd := c, tick := reach s.tk t, head := (fld s (Reg.hqSqHeadsSqHead q) + 1) % sqSize s q }

/-- No word of memory is in error. -/
def Safety.clean (s : State) : Prop := s.badWords = [] ∧ s.softWords = []

/-- The doorbells whose commands wait, once the head stands at `head`. -/
def Safety.bellsLeft (bells : List (Nat × Nat)) (head : Nat) : List (Nat × Nat) :=
  if bells.head?.map (·.1) = some head then bells.tail else bells

/-- `s` in tick `t` with the command at the submission head of queue `q` taken. -/
def Safety.afterFetch (s : State) (t q : Nat) : State :=
  let head := (fld s (Reg.hqSqHeadsSqHead q) + 1) % sqSize s q
  let qu := getQueue s q
  setQueue (setFld (atTick s t) (Reg.hqSqHeadsSqHead q) head) q
    { qu with open_ := qu.open_ + 1, tail := head, bells := Safety.bellsLeft qu.bells head }

/-- Where queue `q` posts its next completion. -/
def Safety.completionSlot (s : State) (q : Nat) : Nat := baseFld s (Reg.hqSqCqBase q) + 32 * fld s (Reg.hqSqHeadsCqTail q)

/-- `v` follows `s` with the completion of `c` posted: the 32 bytes of Table 12-7 at the completion tail, which advances,
the phase turned when it wraps, the vector sent as R408 says. No other byte of host memory, no other queue, and no register
but the queue's HEADS and ERR and those of `ch` differs. -/
structure Safety.posted (s : State) (c : QCmd) (status result : Nat) (ch : List Nat) (v : State) : Prop where
  entry  : readBytes v.hostMem (busAddr s (Safety.completionSlot s c.queue)) 32 =
    natBytes 2 c.cmd.cid.toNat ++ natBytes 1 c.opcode ++ natBytes 1 status ++ natBytes 2 c.cmd.rc.toNat ++ natBytes 2 0 ++
      natBytes 8 result ++ natBytes 8 v.tk ++ natBytes 4 0 ++
      natBytes 4 (c.queue * 2 ^ 24 + b2n (getQueue s c.queue).phase * 2 ^ 16 + c.head)
  bytes  : ∀ x, (x < busAddr s (Safety.completionSlot s c.queue) ∨ busAddr s (Safety.completionSlot s c.queue) + 32 ≤ x) →
    readByte v.hostMem x = readByte s.hostMem x
  tail   : fld v (Reg.hqSqHeadsCqTail c.queue) = (fld s (Reg.hqSqHeadsCqTail c.queue) + 1) % cqSize s c.queue
  phase  : (getQueue v c.queue).phase =
    if (fld s (Reg.hqSqHeadsCqTail c.queue) + 1) % cqSize s c.queue = 0 then !(getQueue s c.queue).phase else (getQueue s c.queue).phase
  vector : v.msix = if flag s (Reg.hqSqCtrlIrqEn c.queue) = true ∧
      (max 1 (fld s (Reg.hqSqCoalCount c.queue)) ≤ (getQueue s c.queue).unsent + 1 ∨ fld s (Reg.hqSqCoalTime c.queue) = 0)
    then c.queue :: s.msix else s.msix
  others : ∀ p, p ≠ c.queue → getQueue v p = getQueue s p
  regs   : ∀ off, off ≠ (Reg.hqSqHeadsSqHead c.queue).off → off ≠ (Reg.hqSqErrIdle c.queue).off → off ∉ ch →
    regGet v off = regGet s off

/-- The same with the command fetched in the same command: the submission head has advanced, and as many commands are
outstanding as before. -/
structure Safety.completed (s : State) (c : QCmd) (status result : Nat) (ch : List Nat) (v : State) : Prop
    extends Safety.posted s c status result ch v where
  head   : fld v (Reg.hqSqHeadsSqHead c.queue) = c.head
  same   : (getQueue v c.queue).open_ = (getQueue s c.queue).open_
  tick   : v.tk = c.tick

/-- A completion posted for a command fetched earlier: one command fewer is outstanding. -/
structure Safety.ended (s : State) (c : QCmd) (t status result : Nat) (ch : List Nat) (v : State) : Prop
    extends Safety.posted s c status result ch v where
  head   : fld v (Reg.hqSqHeadsSqHead c.queue) = fld s (Reg.hqSqHeadsSqHead c.queue)
  fewer  : (getQueue v c.queue).open_ = (getQueue s c.queue).open_ - 1
  tick   : v.tk = reach s.tk t

/-- Nothing but the registers, the queues, host memory, the vectors, the tick, device memory and the requests' state
differs. -/
def Safety.onRequests (s v : State) : Prop :=
  { v with regs := s.regs, queues := s.queues, hostMem := s.hostMem, msix := s.msix, tk := s.tk, mem := s.mem,
           badWords := s.badWords, softWords := s.softWords, reqs := s.reqs, hwSet := s.hwSet, hwSetAt := s.hwSetAt } = s

/-- A host command acts in the command that presents it, and its completion goes to the host window: the device runs, the
queue may be fetched from, the fields pass, the scheduler is halted or the command is CANCEL or LOAD_IMAGE (R284), and no
restore waits for a boundary. -/
structure Safety.actsAtOnce (s : State) (t q op : Nat) (c : HostCmd) : Prop where
  alive  : alive s = true
  queue  : q < 256
  fetch  : canFetch s q = true
  now    : op = 2 ∨ op = 10 ∨ flag s Reg.sqStatusHalted = true
  others : flag s Reg.sqStatusHalted = true → ∀ p ∈ s.reqs, p.2.needRestore = false
  fields : fieldStatus (Safety.fetched s t q op c) = none
  slot   : rowOf s (Safety.completionSlot s q) 32 = .host

/-- A Kolwin command of an opcode is served: it reaches the device (the host's only while that is not FATAL), its PEC is
good, its port is one of the opcode's, the boot state accepts it, its reserved field is zero, and the mailbox is not BUSY with
another command (R389, R390). -/
structure Safety.kolwinServes (s : State) (op : Nat) (c : KwCmd) : Prop where
  up     : s.pins.powered = true ∧ s.pins.resetN = true
  host   : c.board = false → s.kolwin.fatal = false
  row    : c.code = none
  pec    : pecOk op c = true
  port   : portNames op c.board = true
  boot   : stateAccepts s op = true
  zero   : c.zero = 0
  free   : mbTaken s op c = false

/-- `v` follows `s` with the response of Table 17-2 given: to the board with its PEC, or in the mailbox with DONE set, BUSY
clear and vector 265 where MB_IRQ_EN is set and the device is not FENCED (R342). -/
structure Safety.answered (s : State) (op : Nat) (c : KwCmd) (status len : Nat) (result : List Byte) (v : State) : Prop where
  board : c.board = true → v.msix = s.msix ∧ v.kolwin.mbResp = s.kolwin.mbResp ∧
    let bs := natBytes 1 op ++ natBytes 1 status ++ natBytes 2 c.tag.toNat ++ natBytes 4 len ++ padTo 56 result
    v.kolwin.boardResp = bs ++ [pec bs]
  host  : c.board = false → v.kolwin.boardResp = s.kolwin.boardResp ∧ fld v Reg.mbStatusDone = 1 ∧ fld v Reg.mbStatusBusy = 0 ∧
    v.msix = (if flag s Reg.kwCtrlMbIrqEn = true ∧ mState s ≠ 5 then 265 :: s.msix else s.msix) ∧
    v.kolwin.mbResp = natBytes 1 op ++ natBytes 1 status ++ natBytes 2 c.tag.toNat ++ natBytes 4 len ++ padTo 56 result

/-- Nothing but the registers `ch` and the mailbox's STATUS, Kolwin's own state, the vectors and the tick differs. -/
def Safety.onKolwin (s : State) (ch : List Nat) (v : State) : Prop :=
  { v with regs := s.regs, hwSet := s.hwSet, hwSetAt := s.hwSetAt, kolwin := s.kolwin, msix := s.msix, tk := s.tk } = s ∧
  ∀ off, off ≠ Reg.mbStatusDone.off → off ∉ ch → regGet v off = regGet s off

/-- `v` follows `s` with a device reset of a cause done (R401, Table 17-8): what a reset keeps stands and the rest is
cleared; boot is in ROM, or in VERIFYING at once where the PCIe link stays trained. -/
structure Safety.wasReset (s : State) (cause : Nat) (v : State) : Prop where
  cleared : v.cores = [] ∧ v.clusters = [] ∧ v.cells = [] ∧ v.dot = [] ∧ v.reqs = [] ∧ v.queues = [] ∧ v.images = [] ∧ v.imem = [] ∧
    v.loads = [] ∧ v.table = [] ∧ v.repairs = [] ∧ v.timer1 = 0 ∧ v.timer2 = 0 ∧ v.kolwin.fatal = false
  memory  : v.mem = s.mem.filter fun c => decide (tier2Base ≤ c.1 ∧ c.1 < tier2Base + tier2Bytes)
  kept    : v.gids = s.gids ∧ v.hostMem = s.hostMem ∧ v.pending = s.pending ∧ v.kolwin.svFuse = s.kolwin.svFuse ∧
    v.kolwin.profiles = s.kolwin.profiles ∧ v.pins.powered = s.pins.powered ∧ v.pins.resetN = s.pins.resetN
  flash   : v.kolwin.flash = if s.kolwin.writing.isEmpty then s.kolwin.flash else []
  retired : ∀ k < 544, retired s k = true → retired v k = true
  boot    : fld v Reg.kwStatusBoot = if cause ≠ 3 ∧ fld s Reg.hqStatusWidth ≠ 0 then 1 else 0
  cause   : fld v Reg.kwResetCause = cause
  profile : fld v Reg.pwProfileActive = fld s Reg.pwProfileActive ∧ fld v Reg.pwProfilePins = fld s Reg.pwProfilePins

/-- `v` follows `s` with the block under repair `r` written with `data` and its CRC table entry with `crc`: the quarantine
has ended, its slot is closed, and an error record of type 0x03 names the repair (R158). -/
structure Safety.blockRepaired (s : State) (r : Repair) (data : List Byte) (crc : Nat) (v : State) : Prop where
  block  : readBytes v.mem (grBase s r.range + 4096 * r.block) 4096 = data
  entry  : readNat v.mem (grCrcBase s r.range + 8 * r.block) 8 = crc
  free   : inRepair v r.range r.block = false
  slot   : ∀ i, r.slot = some i → i < 16 → fld v (Reg.kwRepairRequest i) = 0
  shown  : fld v (Reg.mcGrFailBlock r.range) = r.block % 2 ^ 32 ∧ fld v ⟨0x900C0, 7, 0⟩ = 3

/-- The block of a repair and its CRC table word lie apart, below the host window, and no read waits. -/
structure Safety.repairable (s : State) (r : Repair) : Prop where
  range : r.range < 16
  apart : overlaps (grBase s r.range + 4096 * r.block) 4096 (grCrcBase s r.range + 8 * (2 * (r.block / 2))) 16 = false
  below : grBase s r.range + 4096 * r.block + 4096 ≤ hostBase ∧ grCrcBase s r.range + 8 * r.block + 16 ≤ hostBase
  reads : s.links.reads = [] ∧ s.bar2Reads = [] ∧ ∀ p ∈ s.dot, p.2.waitStart = false

/-- `v` follows `s` with port `p` taken to another state in tick `t` (R319, Table 13-4): PORTS_UP and PORT_EVENT show it, a
port that leaves service discards what it holds and has no lane, and every other port's state stands. -/
structure Safety.portGoes (s : State) (t p st : Nat) (v : State) : Prop where
  state  : portState v p = st
  since  : (getPort v p).since = reach s.tk t
  others : ∀ j < 17, j ≠ p → portState v j = portState s j
  shown  : fld v Reg.lkStatusPortEvent = 1 ∧ bit (fld v Reg.lkStatusPortsUp) p = decide (st = 2)
  gone   : st = 0 ∨ st = 4 → fld v (Reg.lkPortStatusLanesUp p) = 0 ∧ (getPort v p).unacked = [] ∧ (getPort v p).queued = []
  rest   : v.mem = s.mem ∧ v.cores = s.cores ∧ v.dot = s.dot ∧ v.tk = reach s.tk t

/-- A frame that port `p` accepts: the port is UP, the codeword decodes, the CRC matches, and the frame is the next in order;
it asks for no replay, and nothing here waits for a guarded block (R315 to R317). -/
structure Safety.acceptsFrame (s : State) (p : Nat) (f : LinkFrame) : Prop where
  up      : portUp s p = true
  decodes : codewordDecodes f.noise = true
  crc     : frameCrcOk f = true
  idle    : f.idle = false
  nak     : f.nak = false
  order   : f.seq = ((getPort s p).rxSeq + 1) % 4096
  reads   : s.links.reads = [] ∧ s.bar2Reads = [] ∧ ∀ p ∈ s.dot, p.2.waitStart = false

/-- `v` follows `s` with a frame discarded at port `p`: the gap is noted, and the first frame of it asks for a replay in an IDLE
frame, unless the device is FENCED (R317, R342). -/
structure Safety.discards (s : State) (p : Nat) (v : State) : Prop where
  gap   : (getPort v p).gap = true
  asks  : (getPort s p).gap = false → mState s ≠ 5 → ∃ g, (getPort v p).idleOut = some g ∧ g.nak = true ∧ g.ack = (getPort s p).rxSeq ∧
    g.slots = [] ∧ g.mslots = []
  once  : (getPort s p).gap = true → (getPort v p).idleOut = (getPort s p).idleOut
  stays : (getPort v p).rxSeq = (getPort s p).rxSeq ∧ (getPort v p).unacked = (getPort s p).unacked ∧
    (getPort v p).queued = (getPort s p).queued

/-- `v` follows `s` with the slots `xs` sent, or queued for want of credit, towards device `d` (R322): none where no port leads
there. -/
def Safety.replies (s : State) (d : Nat) (xs : List Slot) (v : State) : Prop :=
  ∀ r, sidePort s d = some r → ∀ x ∈ xs, x ∈ (getPort v r).unacked.flatMap (·.slots) ++ (getPort v r).queued

/-- Nothing is due at a boundary but the end of the step: no request, command, check, test, retirement, profile or mode
request, publication, copy, adapter version, refill or record from a peer waits, the module is SOLO, and no translation
buffer or staging pool holds an entry. -/
structure Safety.quiet (s : State) : Prop where
  requests : liveRcs s = [] ∧ s.reqs = [] ∧ s.sched.cmds = [] ∧ s.sched.freeing = []
  checks   : s.integ.checks = [] ∧ s.integ.waiting = [] ∧ s.integ.postponed = [] ∧ s.integ.passed = [] ∧ s.integ.losing = [] ∧
    s.integ.target = none ∧ s.integ.received = [] ∧ s.integ.spareLost = false ∧ s.integ.checkPending = false
  power    : s.power.profileReq = none ∧ s.power.modeDirty = false ∧ s.kolwin.publish = 0 ∧ s.kolwin.powerState = 0
  copies   : s.loads = [] ∧ s.sched.landed = [] ∧ s.retrainDue = [] ∧ ∀ v < 1024, adState s v < 2
  tenants  : ∀ n < 4096, tenGet s n 0x14 4 = 0
  mirror   : mState s = 0 ∧ s.mirror.adopting = false ∧ s.mirror.partner = [] ∧ s.mirror.gated = []
  clusters : ∀ p ∈ s.clusters, p.2.tb = [] ∧ p.2.stg = []

/-- What a formation with nothing to admit leaves formed: the next recorded step to rerun, or none. -/
def Safety.formedNext (s : State) : Option Step :=
  if formationOff s = true ∨ participants s = [] then none else s.sched.rerunQ.head?.map (rerunOf s)

/-- Core `k` has entered step `p` as the core of index `i` among those that take part (R59, Table 4-1): s3 names its dense tiles
and, at `off`, its item list; every register not named is zero, and the accumulators stand at zero in the mode `mode`. -/
structure Safety.entered (s : State) (p : Step) (mode : AccMode) (off i k : Nat) (c : Core) : Prop where
  at_   : c.phase = .issuing ∧ c.pc = stepEntry s ∧ c.guest = none ∧ c.wait = .none ∧ c.memHold = .none
  step  : c.step = BitVec.ofNat 64 p.idx ∧ readS c 1 = BitVec.ofNat 64 p.idx
  area  : readS c 2 = BitVec.ofNat 64 (baseFld s Reg.sqWorkBaseBase)
  tiles : let f := tileFirsts p.tiles p.rates
    readS c 3 = BitVec.ofNat 64 (f.getD i 0 + 2 ^ 16 * (f.getD (i + 1) 0 - f.getD i 0) + 2 ^ 32 * off)
  table : readS c 4 = BitVec.ofNat 64 (if s.table.isEmpty then 0 else fieldAt s.table 0x10 8)
  rate  : readS c 5 = BitVec.ofNat 64 (p.rates.getD i 0)
  place : readS c 6 = BitVec.ofNat 64 p.cores.length ∧ readS c 7 = BitVec.ofNat 64 i
  clear : c.p = 0 ∧ c.v = [] ∧ ∀ j : BitVec 5, 8 ≤ j.toNat → readS c j = 0
  acc   : (∀ a ∈ c.acc, a.2.mode = mode ∧ a.2.elems = [] ∧ a.2.seed = 0 ∧ a.2.tile = 0) ∧
    c.accw = if mode = .exact then some { flags := flagWord .exact {} } else none
  kept  : c.scratch = (getCore s k).scratch ∧ c.wbuf = (getCore s k).wbuf

end Sys2Proof
end

