-- ==== Sys2Proof/WellFormed.lean ====
section
/-! DEFINITION. Well-formed commands: a core instruction's words are encodings of it (R93) and it names a physical core;
every other command names units that exist (Tables 0-4, 1-6, 2-12). -/
namespace Sys2Proof
open Sys2Proof.Machine

/-- An aligned access of 32 or 64 bits that lies in its BAR: 64 MiB of BAR0, 4 KiB of BAR4 (Table 17-9). -/
def barOk (bar : Bar) (off : Nat) (wide : Bool) : Bool :=
  let n := if wide then 8 else 4
  decide (off % n = 0) && decide (off + n ≤ match bar with | .bar0 => 0x4000000 | .bar4 => 0x1000)

/-- Units of a kind of Table 15-10: cores, clusters, peer ports, pseudo-channels. -/
def unitKinds (kind : Nat) : Nat :=
  if kind = 1 then 544 else if kind = 2 then 32 else if kind = 3 then 16 else if kind = 4 then 384 else 0

/-- A frame whose OPCODE byte differs from its row's carries an opcode that Table 17-3 does not list (R390). -/
def rowCode (c : KwCmd) : Bool :=
  match c.code with
  | none => true
  | some x => decide (x.toNat = 0 ∨ 13 < x.toNat)

/-- A command whose operands name units the spec gives and, for a core instruction, whose word is an encoding. -/
def Instr.wf (i : Instr) : Bool :=
  match i with
  | .nop k w => decide (k < 544) && infoNone.okT w
  | .br k w => decide (k < 544) && infoBr.okL w
  | .brz k w => decide (k < 544) && infoBrc.okL w
  | .brnz k w => decide (k < 544) && infoBrc.okL w
  | .call k w => decide (k < 544) && infoCall.okL w
  | .callr k w => decide (k < 544) && infoCallr.okT w
  | .ret k w => decide (k < 544) && infoRet.okT w
  | .yield k w => decide (k < 544) && infoYield.okT w
  | .gcall k w => decide (k < 544) && infoGcall.okT w
  | .gret k w => decide (k < 544) && infoNone.okT w
  | .add k w => decide (k < 544) && infoScalar.okT w
  | .sub k w => decide (k < 544) && infoScalar.okT w
  | .mul k w => decide (k < 544) && infoScalar.okT w
  | .mulhu k w => decide (k < 544) && infoScalar.okT w
  | .mulhs k w => decide (k < 544) && infoScalar.okT w
  | .divu k w => decide (k < 544) && infoScalar.okT w
  | .remu k w => decide (k < 544) && infoScalar.okT w
  | .and k w => decide (k < 544) && infoScalar.okT w
  | .or k w => decide (k < 544) && infoScalar.okT w
  | .xor k w => decide (k < 544) && infoScalar.okT w
  | .shl k w => decide (k < 544) && infoScalar.okT w
  | .shr k w => decide (k < 544) && infoScalar.okT w
  | .sar k w => decide (k < 544) && infoScalar.okT w
  | .min k w => decide (k < 544) && infoScalar.okT w
  | .max k w => decide (k < 544) && infoScalar.okT w
  | .minu k w => decide (k < 544) && infoScalar.okT w
  | .maxu k w => decide (k < 544) && infoScalar.okT w
  | .sel k w => decide (k < 544) && infoSel.okT w
  | .cmp k w => decide (k < 544) && infoCmp.okT w
  | .movi k w => decide (k < 544) && infoMovi.okL w
  | .movhi k w => decide (k < 544) && infoMovi.okL w
  | .pand k w => decide (k < 544) && infoPred.okT w
  | .por k w => decide (k < 544) && infoPred.okT w
  | .pxor k w => decide (k < 544) && infoPred.okT w
  | .vadd k w => decide (k < 544) && infoVec3.okT w
  | .vsub k w => decide (k < 544) && infoVec3.okT w
  | .vmul k w => decide (k < 544) && infoVec3.okT w
  | .vfma k w => decide (k < 544) && infoVfma.okT w
  | .vmax k w => decide (k < 544) && infoVec3.okT w
  | .vmin k w => decide (k < 544) && infoVec3.okT w
  | .vcmp k w => decide (k < 544) && infoVcmp.okT w
  | .vexp k w => decide (k < 544) && infoVexp.okT w
  | .vrcp k w => decide (k < 544) && infoVrcp.okT w
  | .vrsq k w => decide (k < 544) && infoVrcp.okT w
  | .vred k w => decide (k < 544) && infoVred.okT w
  | .vcvt k w => decide (k < 544) && infoVcvt.okT w
  | .vcvtsr k w => decide (k < 544) && infoVcvtsr.okT w
  | .vtopk k w => decide (k < 544) && infoVtopk.okT w
  | .vrand k w => decide (k < 544) && infoVrand.okT w
  | .vbcast k w => decide (k < 544) && infoVbcast.okT w
  | .vext k w => decide (k < 544) && infoVext.okT w
  | .vsel k w => decide (k < 544) && infoVsel.okT w
  | .wld k w => decide (k < 544) && infoWld.okT w
  | .mma k w => decide (k < 544) && infoMma.okT w
  | .apre k w => decide (k < 544) && infoApre.okT w
  | .acfg k w => decide (k < 544) && infoAcfg.okT w
  | .ast k w => decide (k < 544) && infoAst.okT w
  | .aclr k w => decide (k < 544) && infoAclr.okT w
  | .ard k w => decide (k < 544) && infoArd.okT w
  | .lds k w => decide (k < 544) && infoLds.okT w
  | .sts k w => decide (k < 544) && infoSts.okT w
  | .vld k w => decide (k < 544) && infoVld.okT w
  | .vst k w => decide (k < 544) && infoVld.okT w
  | .ldc k w => decide (k < 544) && infoLdc.okT w
  | .stc k w => decide (k < 544) && infoLines.okT w
  | .ldv k w => decide (k < 544) && infoLines.okT w
  | .stv k w => decide (k < 544) && infoLines.okT w
  | .dma k w => decide (k < 544) && infoLongOp.okT w
  | .flushr k w => decide (k < 544) && infoLongOp.okT w
  | .invr k w => decide (k < 544) && infoLongOp.okT w
  | .kvld k w => decide (k < 544) && infoKv.okT w
  | .kvapp k w => decide (k < 544) && infoKv.okT w
  | .kvcmt k w => decide (k < 544) && infoKv.okT w
  | .kvdrop k w => decide (k < 544) && infoKv.okT w
  | .kvimp k w => decide (k < 544) && infoLongOp.okT w
  | .nbiss k w => decide (k < 544) && infoLongOp.okT w
  | .nbfnc k w => decide (k < 544) && infoNbfnc.okT w
  | .nbrd k w => decide (k < 544) && infoNbrd.okT w
  | .rput k w => decide (k < 544) && infoRput.okT w
  | .coll k w => decide (k < 544) && infoLongOp.okT w
  | .amrg k w => decide (k < 544) && infoAmrg.okT w
  | .temit k w => decide (k < 544) && infoTemit.okT w
  | .tverify k w => decide (k < 544) && infoTverify.okT w
  | .sccfg k w => decide (k < 544) && infoSccfg.okT w
  | .scrd k w => decide (k < 544) && infoScrd.okT w
  | .scset k w => decide (k < 544) && infoScset.okT w
  | .scadd k w => decide (k < 544) && infoScadd.okT w
  | .scdl k w => decide (k < 544) && infoScdl.okT w
  | .wait k w => decide (k < 544) && infoWait.okT w
  | .dotrd k w => decide (k < 544) && infoDotrd.okT w
  | .dotcan k w => decide (k < 544) && infoDotp.okT w
  | .dotrel k w => decide (k < 544) && infoDotp.okT w
  | .sysrd k w => decide (k < 544) && infoSysrd.okT w
  | .tbrd k w => decide (k < 544) && infoTbrd.okT w
  | .corePartEnd _ k => decide (k < 544)
  | .dmaDone _ m => decide (m < 4096)
  | .tierDone _ m => decide (m < 4096)
  | .nearBankCommandFinish _ m _ => decide (m < 4096)
  | .nearBankDone _ m => decide (m < 4096)
  | .collectiveDone _ m => decide (m < 4096)
  | .kvImportDone _ m => decide (m < 4096)
  | .flushDone _ m => decide (m < 4096)
  | .invalidateDone _ m => decide (m < 4096)
  | .operationFailed _ m _ => decide (m < 4096)
  | .operationDeadline _ m => decide (m < 4096)
  | .tierWaitLimit _ => true
  | .stepWatchdog _ => true
  | .syncCellDeadline _ n => decide (n < 32768)
  | .admitCmd _ q _ => decide (q < 256)
  | .cancel _ q _ => decide (q < 256)
  | .resumeRequest _ q _ => decide (q < 256)
  | .park _ q _ => decide (q < 256)
  | .unpark _ q _ => decide (q < 256)
  | .sharePrefix _ q _ => decide (q < 256)
  | .tenantCmd _ q _ => decide (q < 256)
  | .loadAdapter _ q _ => decide (q < 256)
  | .retireAdapter _ q _ => decide (q < 256)
  | .loadImage _ q _ => decide (q < 256)
  | .resumeScheduler _ q _ => decide (q < 256)
  | .guestTable _ q _ => decide (q < 256)
  | .adapterCopyEnd _ version _ => decide (version < 1024)
  | .loadAdapterCopyEnd _ version _ => decide (version < 1024)
  | .imageLoadEnd _ => true
  | .guestTableCopyEnd _ _ => true
  | .submissionDoorbell _ q _ => decide (q < 256)
  | .completionHeadDoorbell _ q _ => decide (q < 256)
  | .coalesceTime _ q => decide (q < 256)
  | .identity _ c => rowCode c
  | .attest _ c => rowCode c
  | .regRead _ c => rowCode c
  | .profileSelect _ c => rowCode c
  | .profileWrite _ c => rowCode c
  | .modeCmd _ c => rowCode c
  | .pairCmd _ c => rowCode c
  | .fwStage _ c => rowCode c
  | .commitSv _ c => rowCode c
  | .resetCmd _ c => rowCode c
  | .powerState _ c => rowCode c
  | .repairSupply _ c => rowCode c
  | .alertAck _ c => rowCode c
  | .flashWriteEnd _ => true
  | .smbusFallback _ => true
  | .dynamicAddress _ => true
  | .mrCmdPair _ => true
  | .unpair _ => true
  | .fence _ => true
  | .takeover _ => true
  | .bar2Write _ _ _ => true
  | .bar2Read _ _ _ => true
  | .registerWrite _ bar off wide _ => barOk bar off wide
  | .ovfClear _ off _ => barOk .bar0 off false
  | .tkCountLowRead _ => true
  | .seal _ n => decide (n < 16)
  | .sealingEnd _ n => decide (n < 16)
  | .unseal _ n => decide (n < 16)
  | .zoneInit _ n => decide (n < 16)
  | .initEnd _ n => decide (n < 16)
  | .tzEnable _ n _ => decide (n < 16)
  | .kvEnable _ _ => true
  | .kvInv _ _ => true
  | .kvInvEnd _ => true
  | .checkEn _ _ => true
  | .pwProfileRequest _ _ => true
  | .pwModeWrite _ _ => true
  | .hqSqEnable _ q _ => decide (q < 256)
  | .hostwinSize _ _ => true
  | .portEnable _ p _ => decide (p < 17)
  | .retrain _ p => decide (p < 17)
  | .exportValidClear _ n => decide (n < 16)
  | .exportBusyEnd _ n => decide (n < 16)
  | .stepBoundary _ => true
  | .stepLaunch _ => true
  | .idleFormation _ => true
  | .spill _ rc _ _ _ => decide (rc < 65536)
  | .restore _ rc _ _ _ => decide (rc < 65536)
  | .clailaezPublication _ => true
  | .fomWindowEnd _ => true
  | .linkFrame _ p _ => decide (p < 17)
  | .replayTimeout _ p => decide (p < 17)
  | .pieceResend _ m _ _ _ => decide (m < 4096)
  | .notReadyRetry _ m _ _ _ => decide (m < 4096)
  | .routeRetry _ m => decide (m < 4096)
  | .trainingComplete _ p _ _ _ => decide (p < 17)
  | .trainingTimeout _ p => decide (p < 17)
  | .laneLockLost _ p lane => decide (p < 17) && decide (lane < 6)
  | .laneErrorRate _ p lane => decide (p < 17) && decide (lane < 6)
  | .retrainingComplete _ p _ => decide (p < 17)
  | .retrainingTimeout _ p => decide (p < 17)
  | .downTimeout _ p => decide (p < 17)
  | .heartbeatSend _ => true
  | .heartbeatSilence _ => true
  | .ackDeadlineMissed _ => true
  | .pairPresentChange _ _ => true
  | .ffSyncOut _ => true
  | .ffSyncIn _ _ _ => true
  | .holdover _ => true
  | .slewing _ _ => true
  | .powerSample _ _ => true
  | .thermalSetpointStep _ rail _ => decide (rail < 8)
  | .inputBelow44v _ => true
  | .inputLowPersists _ => true
  | .inputBelow40v _ => true
  | .inputAbove58v _ => true
  | .junctionLimit _ => true
  | .junction110c _ => true
  | .hbmAbove105c _ stack => decide (stack < 12)
  | .coolantAlarm _ => true
  | .coolantAlarmPersists _ => true
  | .emergencyEnd _ source => decide (source < 6)
  | .quarterLoss _ quarter => decide (quarter < 4)
  | .stackLost _ stack => decide (stack < 12)
  | .kolwinDetectedFault _ => true
  | .selfCheck _ _ => true
  | .uncorrectableWord _ w => decide (w.addr < 0x4800000000)
  | .correctedWordWriteBack _ w => decide (w.addr < 0x4800000000)
  | .repairStageEnd _ range _ _ => decide (range < 16)
  | .repairStageLimit _ range _ => decide (range < 16)
  | .repairSlotLimit _ slot => decide (slot < 16)
  | .refresh _ pc => decide (pc < 384)
  | .hbmTemperature _ stack _ => decide (stack < 12)
  | .periodicRetrain _ channel => decide (channel < 192)
  | .errorTriggeredRetrain _ channel => decide (channel < 192)
  | .retrainWindowEnd _ channel _ => decide (channel < 192)
  | .knownAnswerTestDue _ k => decide (k < 544)
  | .knownAnswerTestEnd _ k _ => decide (k < 544)
  | .disagree _ kind index dataState controlState => decide (index < unitKinds kind) && decide (dataState < 5) && decide (controlState < 5)
  | .reconciled _ kind index _ => decide (index < unitKinds kind)
  | .inputApplied _ => true
  | .inputRemoved _ => true
  | .resetNAsserted _ => true
  | .resetNDeasserted _ prof slot => decide (prof < 4) && decide (slot < 32)
  | .pcieReset _ => true
  | .imageVerificationEnd _ => true
  | .hbmTrainingEnd _ => true
  | .tier2TrainingEnd _ => true
  | .startUpTestsEnd _ failed => failed.all fun p => decide (p.1 < 544)
  | .laneOff _ p lane => decide (p < 17) && decide (lane < 6)
  | .pcieLinkTrained _ generation width => decide (1 ≤ generation ∧ generation ≤ 6 ∧ 1 ≤ width ∧ width ≤ 16)
  | .firmwareStart _ => true
  | .pwrgdHigh _ _ => true
  | .resetNDeassertionTaken _ prof slot => decide (prof < 4) && decide (slot < 32)

end Sys2Proof
end

