-- ==== Sys2Proof/Certificates/Slice0/Obligations.lean ====
section
/-! DEFINITION. The statements about the module that the provers settle. -/
open Sys2Proof Sys2Proof.Machine

/-- For every command c, state s and queue rest: step of s with c at the front of its queue is exec of c on s with
the queue's rest. With an empty queue a powered module's tick counter advances by one tick, modulo 2^64, and nothing
else changes, and a module without power does not change (the model's own choice, assumption 2).
[03_time_and_events.md, R44] -/
def Obligations.StepRunsFrontCommand : Prop :=
  ∀ (s : State) (c : Instr) (rest : List Instr),
    step { s with pending := c :: rest } = exec c { s with pending := rest } ∧
    step { s with pending := [] } =
      .next { s with pending := [], tk := if s.pins.powered = true then (s.tk + 1) % 2 ^ 64 else s.tk }

/-- From every state whose queue holds only well-formed commands, and for every n, n steps of the machine answer a
next state, whose queue is what is left of the queue after its first n commands. No command changes the queue of
waiting commands. [03_time_and_events.md, 05_nimyo_instructions.md] -/
def Obligations.WellFormedQueueRuns : Prop :=
  ∀ (s : State) (n : Nat), ((∀ i ∈ s.pending, i.wf = true) →
    ∃ t, Sys2Proof.core.run n s = .next t ∧ t.pending = s.pending.drop n) ∧
    ∀ (i : Instr) (t : State), exec i s = .next t → t.pending = s.pending

/-- For every state whose device memory, host memory, instruction memory, register file, cores, core IDs, clusters,
sync cells, device operation table, requests and queues are in canonical form (indices strictly rising, no entry
equal to its default), every step that answers a next state leaves all of them in canonical form.
[07_memory_tiers.md, 04_nimyo_model.md, 17_management_boot_host.md] -/
def Obligations.StepKeepsTablesCanonical : Prop :=
  ∀ s t : State, Safety.canonical s → step s = .next t → Safety.canonical t

/-- The state after reset has every memory and table of the invariant of StepKeepsTablesCanonical in canonical form;
the tick counter and every sync cell are zero, every operation table entry is FREE with all words zero, every core
is idle, no command waits; BOOT reads ROM, CL_GEN and VALID read 0, the pair is SOLO, the watchdog is off,
NB_CTRL.SW_LIMIT and NB_STATUS.LIMIT read 2,048 and KV_EVICT.DECAY reads 1. [R39, R44, R75, R83, 00_scope.md,
09_near_bank.md, 10_kv_cache.md, 17_management_boot_host.md] -/
def Obligations.ResetState : Prop :=
  let s := State.reset
  Safety.canonical s ∧ s.pending = [] ∧ s.tk = 0 ∧ (∀ n, getCell s n = { value := 0, cfg := 0, deadline := 0 }) ∧
    (∀ m, getDot s m = dotDefault m ∧ (getDot s m).state = .free ∧ ∀ i < 4, dotWord (getDot s m) i = 0) ∧
    (∀ k, (getCore s k).phase = .idle) ∧ bootNow s = 0 ∧ generation s = 0 ∧ fld s Reg.clStatusValid = 0 ∧ mState s = 0 ∧
    s.timer2 = 0 ∧ fld s Reg.nbCtrlSwLimit = 2048 ∧ fld s Reg.nbStatusLimit = 2048 ∧ fld s Reg.kvEvictDecay = 1

/-- For every core state: s0 reads zero and p0 reads one; after a write of a scalar register, every scalar register
reads as before but the one written, which reads the value, and a write to s0 is discarded; likewise for the eight
predicates and p0; a vector register reads what was written to it and the others are unchanged. [R63,
04_nimyo_model.md] -/
def Obligations.RegisterFileReads : Prop :=
  ∀ c : Core, readS c 0 = 0 ∧ readP c 0 = true ∧
    (∀ (i j : BitVec 5) (v : Word), readS (writeS c i v) j = if j = i ∧ i ≠ 0 then v else readS c j) ∧
    (∀ (i j : Nat) (b : Bool), i < 8 → j < 8 → readP (writeP c i b) j = if j = i ∧ i ≠ 0 then b else readP c j) ∧
    (∀ (i j : BitVec 5) (v : VecReg), readV (writeV c i v) j = if j = i then v else readV c j) ∧
    writeS c 0 = (fun _ => c) ∧ writeP c 0 = fun _ => c

/-- On a core ready to execute, ADD, SUB, MUL, MULHU, MULHS, DIVU, REMU, AND, OR, XOR, SHL, SHR, SAR, MIN, MAX,
MINU, MAXU and SEL each complete: sD takes the wrapped result of sA and operand B (B is IMM16 sign-extended when
IMMB is set, else sB; DIVU by zero all ones, REMU by zero sA; shifts by B[5:0]; SEL takes sA when pC is one), a
write to s0 is discarded, the PC advances by 8, and no other register, core or state changes (a guest's budget
counts the instruction). [R97, R63, R94, R96] -/
def Obligations.ScalarArithmeticResults : Prop :=
  ∀ (s : State) (k : Nat) (w : FmtT), Safety.ready s k w.pg w.pn →
    let c := getCore s k
    let a := readS c w.a
    let b := if w.md.getLsbD 13 then w.imm.signExtend 64 else readS c w.b
    (infoScalar.okT w = true → ∀ p ∈ ([(.add k w, a + b), (.sub k w, a - b), (.mul k w, a * b),
        (.mulhu k w, BitVec.ofNat 64 (a.toNat * b.toNat / 2 ^ 64)),
        (.mulhs k w, BitVec.ofInt 64 (a.toInt * b.toInt / 2 ^ 64)),
        (.divu k w, if b = 0 then 0xFFFFFFFFFFFFFFFF else a / b), (.remu k w, if b = 0 then a else a % b),
        (.and k w, a &&& b), (.or k w, a ||| b), (.xor k w, a ^^^ b),
        (.shl k w, a <<< (b.toNat % 64)), (.shr k w, a >>> (b.toNat % 64)), (.sar k w, a.sshiftRight (b.toNat % 64)),
        (.min k w, if a.toInt < b.toInt then a else b), (.max k w, if a.toInt < b.toInt then b else a),
        (.minu k w, if a.toNat < b.toNat then a else b),
        (.maxu k w, if a.toNat < b.toNat then b else a)] : List (Instr × Word)),
      Safety.runs p.1 s k (writeS c w.d p.2)) ∧
    (infoSel.okT w = true → Safety.runs (.sel k w) s k (writeS c w.d (if readP c w.c.toNat then a else b)))

/-- On a core ready to execute: CMP writes pD with the comparison its COND names (equal, not equal, signed and
unsigned less, signed and unsigned less or equal) of sA and operand B; MOVI writes IMM32 sign-extended; MOVHI
replaces sD[63:32] and keeps sD[31:0]; PAND, POR and PXOR write pD from pA and pB. Each completes, goes on at PC + 8
and changes nothing else; writes to s0 and p0 are discarded. [R97, R63, R95, 05_nimyo_instructions.md] -/
def Obligations.ScalarMovesAndPredicates : Prop :=
  ∀ (s : State) (k : Nat),
    (∀ w : FmtT, Safety.ready s k w.pg w.pn →
      let c := getCore s k
      let a := readS c w.a
      let b := if w.md.getLsbD 13 then w.imm.signExtend 64 else readS c w.b
      let pa := readP c w.a.toNat
      let pb := readP c w.b.toNat
      (infoCmp.okT w = true → ∃ r : Bool,
        (r = true ↔ (modBits w 28 26 = 0 ∧ a = b) ∨ (modBits w 28 26 = 1 ∧ a ≠ b) ∨
          (modBits w 28 26 = 2 ∧ a.toInt < b.toInt) ∨ (modBits w 28 26 = 3 ∧ a.toNat < b.toNat) ∨
          (modBits w 28 26 = 4 ∧ a.toInt ≤ b.toInt) ∨ (modBits w 28 26 = 5 ∧ a.toNat ≤ b.toNat)) ∧
        Safety.runs (.cmp k w) s k (writeP c w.d.toNat r)) ∧
      (infoPred.okT w = true →
        Safety.runs (.pand k w) s k (writeP c w.d.toNat (pa && pb)) ∧
        Safety.runs (.por k w) s k (writeP c w.d.toNat (pa || pb)) ∧
        Safety.runs (.pxor k w) s k (writeP c w.d.toNat (pa != pb)))) ∧
    (∀ w : FmtL, Safety.ready s k w.pg w.pn → infoMovi.okL w = true →
      let c := getCore s k
      Safety.runs (.movi k w) s k (writeS c w.d (w.imm.signExtend 64)) ∧
      ∃ v : Word, v.toNat = 2 ^ 32 * w.imm.toNat + (readS c w.d).toNat % 2 ^ 32 ∧ Safety.runs (.movhi k w) s k (writeS c w.d v))

/-- On a core ready to execute, NOP goes on at PC + 8. A taken branch (BR always, BRZ when sA is zero, BRNZ when it
is not) goes to PC + 8 times IMM32 when that is a multiple of 8 in code the core may reach; a target that is not a
multiple of 8 raises ALIGNMENT, and one outside raises CODE_RANGE at operator and WINDOW at guest privilege. A
branch not taken goes on at PC + 8. Nothing else changes. [R96, R72, 05_nimyo_instructions.md] -/
def Obligations.BranchesTransferControl : Prop :=
  ∀ (s : State) (k : Nat),
    (∀ w : FmtT, Safety.ready s k w.pg w.pn → infoNone.okT w = true → Safety.runs (.nop k w) s k (getCore s k)) ∧
    (∀ w : FmtL, Safety.ready s k w.pg w.pn →
      let c := getCore s k
      let target : Int := (c.pc : Int) + 8 * w.imm.toInt
      ∀ p ∈ ([(.br k w, infoBr, true), (.brz k w, infoBrc, decide (readS c w.a = 0)),
          (.brnz k w, infoBrc, decide (readS c w.a ≠ 0))] : List (Instr × OpInfo × Bool)), p.2.1.okL w = true →
        (p.2.2 = false → Safety.runs p.1 s k c) ∧
        (p.2.2 = true → ∀ n : Nat, target = n → n % 8 = 0 → inCode s k n = true →
          Safety.answers p.1 s (Safety.onCore s k { retire c with pc := n })) ∧
        (p.2.2 = true → target % 8 ≠ 0 → Safety.traps p.1 s k 0x04) ∧
        (p.2.2 = true → target % 8 = 0 → (∀ n : Nat, target = n → inCode s k n = false) →
          Safety.traps p.1 s k (if c.guest.isSome then 0x05 else 0x09)))

/-- At operator privilege on a core ready to execute: CALL writes PC + 8 to sD and goes to PC + 8 times IMM32; CALLR
goes to sA as read before the link is written to sD; RET goes to sA; each when the target is a multiple of 8 inside
a loaded image, and with ALIGNMENT or CODE_RANGE otherwise, and then with no link written (the model's choice,
assumption 25). YIELD stops the core's issue with its part not yet ended. Nothing else changes. [R96, R61,
05_nimyo_instructions.md] -/
def Obligations.CallsReturnsAndYield : Prop :=
  ∀ (s : State) (k : Nat),
    (∀ (p : Instr × Option (BitVec 5) × Int) (pg : BitVec 3) (pn : BitVec 1), Safety.operator s k pg pn →
      let c := getCore s k
      (∃ w : FmtL, w.pg = pg ∧ w.pn = pn ∧ infoCall.okL w = true ∧
          p = (.call k w, some w.d, (c.pc : Int) + 8 * w.imm.toInt)) ∨
        (∃ w : FmtT, w.pg = pg ∧ w.pn = pn ∧
          ((infoCallr.okT w = true ∧ p = (.callr k w, some w.d, ((readS c w.a).toNat : Int))) ∨
           (infoRet.okT w = true ∧ p = (.ret k w, none, ((readS c w.a).toNat : Int))))) →
      let linked := match p.2.1 with
        | some d => writeS c d (BitVec.ofNat 64 (c.pc + 8))
        | none => c
      (∀ n : Nat, p.2.2 = n → n % 8 = 0 → inCode s k n = true →
        Safety.answers p.1 s (Safety.onCore s k { linked with pc := n })) ∧
      (p.2.2 % 8 ≠ 0 → Safety.traps p.1 s k 0x04) ∧
      (p.2.2 % 8 = 0 → (∀ n : Nat, p.2.2 = n → inCode s k n = false) → Safety.traps p.1 s k 0x09)) ∧
    (∀ w : FmtT, Safety.operator s k w.pg w.pn → infoYield.okT w = true →
      Safety.answers (.yield k w) s
        (Safety.onCore s k { getCore s k with phase := .yielded, pc := (getCore s k).pc + 8 }))

/-- At operator privilege on a core ready to execute: with the guest-programs mode BARRED, GCALL writes 0xFE to sD
and zero to sB and goes on; with a call block that fails a check of R70 it writes 0xFD and zero; otherwise the core
stands at the entry address at guest privilege with s1 to s8 the block's fields, every other scalar and every vector
zero, p0 one and the other predicates zero, the accumulators, weight buffer and scratchpad as they were. A block
offset that is not a multiple of 64 raises ALIGNMENT. GRET at guest privilege restores the operator's registers,
writes 0 to sd and the guest's s1 to se, and goes on at the instruction after GCALL. At operator privilege GRET has
no effect (the model's choice, assumption 26). [R69, R70, R74, R96] -/
def Obligations.GuestCallEntersAndReturns : Prop :=
  ∀ (s : State) (k : Nat) (w : FmtT),
    (Safety.operator s k w.pg w.pn → infoGcall.okT w = true →
      let c := getCore s k
      let off := (readS c w.a).toNat
      let b := callBlock (readBytes c.scratch off 64)
      (off % 64 ≠ 0 → Safety.traps (.gcall k w) s k 0x04) ∧
      (off % 64 = 0 → 0x100000 < off + 64 → Safety.traps (.gcall k w) s k 0x03) ∧
      (off % 64 = 0 → off + 64 ≤ 0x100000 → guestAllowed s = false →
        Safety.runs (.gcall k w) s k (writeS (writeS c w.d 0xFE) w.b 0)) ∧
      (off % 64 = 0 → off + 64 ≤ 0x100000 → guestAllowed s = true →
        (blockOk b off = false ∨ entryImage s b = none) →
        Safety.runs (.gcall k w) s k (writeS (writeS c w.d 0xFD) w.b 0)) ∧
      (∀ i, off % 64 = 0 → off + 64 ≤ 0x100000 → guestAllowed s = true → blockOk b off = true → entryImage s b = some i →
        Safety.answers (.gcall k w) s fun t =>
          let d := getCore t k
          Safety.onCore s k d t ∧ d.pc = b.entry ∧ d.guest.isSome = true ∧
          (∀ j : BitVec 5, readS d j = BitVec.ofNat 64 (([0, b.inB, b.inL, b.wkB, b.wkL, b.tbB, b.tbL, b.arg, b.rc] : List Nat).getD j.toNat 0)) ∧
          (∀ j < 8, readP d j = decide (j = 0)) ∧ (∀ j : BitVec 5, readV d j = 0) ∧
          d.acc = c.acc ∧ d.accw = c.accw ∧ d.wbuf = c.wbuf ∧ d.scratch = c.scratch)) ∧
    (∀ g, Safety.ready s k w.pg w.pn → infoNone.okT w = true → (getCore s k).guest = some g →
      (s.images.any fun i => decide (i.off ≤ g.retPc) && decide (g.retPc + 8 ≤ i.off + i.len)) = true →
      Safety.answers (.gret k w) s (Safety.onCore s k
        (let c := getCore s k
         writeS (writeS { c with s := g.savedS, p := g.savedP, v := g.savedV, guest := none, pc := g.retPc }
           (BitVec.ofNat 5 g.sd) 0) (BitVec.ofNat 5 g.se) (readS c 1)))) ∧
    (Safety.operator s k w.pg w.pn → infoNone.okT w = true → Safety.runs (.gret k w) s k (getCore s k))

/-- For every core instruction on an existing core that issues, with nothing at the head of its memory queue and its
PC in code it may reach: a word that is no encoding raises ENCODING, whatever its guard, and so does every
instruction where the word in instruction memory at the PC is none, a cell marked — of the opcode map (R123;
assumption 146); of the words that are encodings, one that a guest call without budget left reaches raises BUDGET,
whatever its guard; one whose guard is false does nothing but go on at PC + 8 (a guest's budget counts it); and one
that Table 4-6 withholds raises PRIVILEGE at guest privilege. On a core that does not issue, a core instruction
changes nothing (the model's choice, assumption 6). While an NBRD or NBFNC waits at that head, every instruction of
the memory queue behind it changes nothing (assumption 141). [R93, R94, R73, R72, R96, R61, R123, R64] -/
def Obligations.IssueChecksInOrder : Prop :=
  ∀ (i : Instr) (s : State) (k : Nat) (pg : BitVec 3) (pn : BitVec 1), Safety.issued i = some (k, pg, pn) → k < 544 →
    let c := getCore s k
    (issuing s k = false → exec i s = .next s) ∧
    (c.memHold ≠ .none → Safety.memoryQueue i = true → exec i s = .next s) ∧
    (issuing s k = true → inCode s k c.pc = true → c.memHold = .none →
      (i.wf = false ∨ wordOk s k = false → Safety.traps i s k 0x01) ∧
      (∀ g, i.wf = true → wordOk s k = true → c.guest = some g → g.left = 0 → Safety.traps i s k 0x06) ∧
      (i.wf = true → wordOk s k = true → (∀ g, c.guest = some g → g.left ≠ 0) → guardOn c pg pn = false → inCode s k (c.pc + 8) = true →
        Safety.runs i s k c) ∧
      (∀ g, i.wf = true → wordOk s k = true → c.guest = some g → g.left ≠ 0 → guardOn c pg pn = true → Safety.operatorOnly i = true →
        Safety.traps i s k 0x02))

/-- A fault with a code and an address: at operator privilege the core's part of the step ends, the step is marked
to be rolled back, and on a device that is not FATAL the IN_LAST registers take the 64-byte record of type 0x01 with
the code, the address and the core's global ID; other cores and device memory are unchanged. At guest privilege the
call's request is marked, the operator's registers are restored, sd takes the code and se the address, and the core
goes on at the instruction after GCALL; nothing else changes. When a core is to go on at PC + 8 and that lies
outside the code it may reach, it raises CODE_RANGE at operator privilege and WINDOW at guest privilege at that
address, with the instruction itself done; inside, it goes on there and nothing else changes. A fetch at a PC
outside raises the same fault there and no instruction has an effect. [R87, R88, R74, R365, R96, R72] -/
def Obligations.FaultEndsPartOrGuestCall : Prop :=
  (∀ (s : State) (k code pc : Nat),
    let c := getCore s k
    let t := takeFault s k code pc
    (c.guest = none →
      getCore t k = { c with phase := .ended, wait := .none, memHold := .none, guest := none, faulted := true } ∧
      (∀ j, j ≠ k → getCore t j = getCore s j) ∧
      t.sched.cur = s.sched.cur.map (fun p => { p with faulted := true }) ∧
      (s.kolwin.fatal = false → regBytes t 0x900C0 64 = recordBytes s
        { type := 0x01, step := stepNow s, a0 := code, a1 := pc, a2 := gidOf s k, a3 := b2n s.sched.faultRerun }) ∧
      { t with cores := s.cores, sched := s.sched, regs := s.regs, hwSet := s.hwSet, hwSetAt := s.hwSetAt, hostMem := s.hostMem,
               integ := s.integ, msix := s.msix } = s) ∧
    (∀ g, c.guest = some g →
      (s.images.any fun i => decide (i.off ≤ g.retPc) && decide (g.retPc + 8 ≤ i.off + i.len)) = true →
      getReq t g.rc = { getReq s g.rc with guestFault := true } ∧
      (∀ n, n ≠ g.rc → getReq t n = getReq s n) ∧
      Safety.onCore { s with reqs := t.reqs } k
        (writeS (writeS { c with s := g.savedS, p := g.savedP, v := g.savedV, guest := none, pc := g.retPc }
          (BitVec.ofNat 5 g.sd) (BitVec.ofNat 64 code)) (BitVec.ofNat 5 g.se) (BitVec.ofNat 64 pc)) t)) ∧
  ∀ (s : State) (k : Nat),
    let c := getCore s k
    let code := fun (c : Core) => if c.guest.isSome then 0x05 else 0x09
    (inCode s k (c.pc + 8) = true → Safety.onCore s k (Safety.past c) (advance s k)) ∧
    (inCode s k (c.pc + 8) = false → ∃ s1, Safety.onCore s k (Safety.past c) s1 ∧
      advance s k = takeFault s1 k (code c) (c.pc + 8)) ∧
    ∀ (i : Instr) (pg : BitVec 3) (pn : BitVec 1), Safety.issued i = some (k, pg, pn) → k < 544 →
      issuing s k = true → c.memHold = .none → inCode s k c.pc = false → Safety.traps i s k (code c)

/-- On a core ready to execute, VADD, VSUB, VMUL and VFMA write to each lane of vD the exact sum, difference,
product or product plus addend of the same lanes rounded once to nearest even; VMAX and VMIN the greater or lesser
lane where neither is NaN and they differ in value; VCMP all ones where its condition holds and zero elsewhere; VSEL
vA's lane where vC's lane has a set bit and else vB's; VBCAST the low bits of sA. The core goes on at PC + 8 and
nothing else changes. Every NaN that VMAX or VMIN writes is the positive encoding of the format (R129). (A NaN
operand of VMAX or VMIN and zeros of opposite sign: a free value, assumption 18; NaN operands and an exact
cancellation of the arithmetic: assumption 17; a lane of vC that is -0 selects vA: assumption 124.) [R98, R129,
05_nimyo_instructions.md] -/
def Obligations.VectorLaneResults : Prop :=
  ∀ (s : State) (k : Nat) (w : FmtT), Safety.ready s k w.pg w.pn →
    let c := getCore s k
    let f := vFmt w
    let a := laneBits f (readV c w.a)
    let b := laneBits f (readV c w.b)
    let d := laneBits f (readV c w.c)
    let v := fun n => decodeF f n
    let whole := 2 ^ fmtBits f
    let lanes := fun (i : Instr) (p : Nat → Nat → Prop) =>
      ∃ r : VecReg, (∀ j < fmtLanes f, p j (laneBits f r j)) ∧ Safety.runs i s k (writeV c w.d r)
    let order := fun (i : Instr) (up : Bool) => lanes i fun j x =>
      (isNan (v (a j)) = false → isNan (v (b j)) = false → eqF (v (a j)) (v (b j)) = false →
        x = if ltF (v (a j)) (v (b j)) = up then b j else a j) ∧ (isNan (v x) = true → x = nanBits f)
    (infoVec3.okT w = true →
      lanes (.vadd k w) (fun j x => x = encodeF f (addF (v (a j)) (v (b j))) % whole) ∧
      lanes (.vsub k w) (fun j x => x = encodeF f (addF (v (a j)) (negF (v (b j)))) % whole) ∧
      lanes (.vmul k w) (fun j x => x = encodeF f (mulF (v (a j)) (v (b j))) % whole) ∧
      order (.vmax k w) true ∧ order (.vmin k w) false) ∧
    (infoVfma.okT w = true →
      lanes (.vfma k w) fun j x => x = encodeF f (addF (mulF (v (a j)) (v (b j))) (v (d j))) % whole) ∧
    (infoVcmp.okT w = true → lanes (.vcmp k w) fun j x =>
      let lt := ltF (v (a j)) (v (b j))
      let eq := eqF (v (a j)) (v (b j))
      let gt := ltF (v (b j)) (v (a j))
      x = if ([eq, !eq, lt, lt || eq, gt, gt || eq] : List Bool).getD (vFn w) false then whole - 1 else 0) ∧
    (infoVsel.okT w = true → lanes (.vsel k w) fun j x => x = if d j = 0 then b j else a j) ∧
    (infoVbcast.okT w = true → lanes (.vbcast k w) fun _ x => x = (readS c w.a).toNat % whole)

/-- On a core ready to execute, each lane of VEXP is the exponential rounded to nearest even for BF16 and within 2
ulp for FP32, +0 for minus infinity and plus infinity for plus infinity; each lane of VRCP and of VRSQ (of a
positive number) is within 1 ulp of the exact value, and of an infinity the reciprocal is a zero of its sign; a NaN
lane gives the format's NaN in VRCP and VRSQ. Only vD and the PC change. A NaN that VRCP of zero or VRSQ of a zero
writes is the format's NaN (R129). (VRCP of zero and VRSQ of zero or less: free values, assumption 18; where a
result lies within its bound: assumption 19.) [R98, R129, 05_nimyo_instructions.md] -/
def Obligations.VectorFunctionResults : Prop :=
  ∀ (s : State) (k : Nat) (w : FmtT), Safety.ready s k w.pg w.pn →
    let c := getCore s k
    let f := vFmt w
    let v := fun j => decodeF f (laneBits f (readV c w.a) j)
    let whole := 2 ^ fmtBits f
    let lanes := fun (i : Instr) (p : Nat → Nat → Prop) =>
      ∃ r : VecReg, (∀ j < fmtLanes f, p j (laneBits f r j)) ∧ Safety.runs i s k (writeV c w.d r)
    (infoVexp.okT w = true → lanes (.vexp k w) fun j x =>
      (f = 6 → x = encodeF 6 (expF (vFn w) (v j)) % whole) ∧
      (f = 8 → isNan (v j) = false → ∃ n, x = withinUlp 8 2 n (expF (vFn w) (v j)) % whole) ∧
      (v j = .inf true → x = 0) ∧ (v j = .inf false → decodeF f x = .inf false)) ∧
    (infoVrcp.okT w = true →
      (lanes (.vrcp k w) fun j x =>
        (∀ sg m e, v j = .fin sg m e → m ≠ 0 → ∃ n, x = withinUlp f 1 n (divFin sg 1 0 m e) % whole) ∧
        (∀ sg : Bool, v j = .inf sg → x = if sg then 2 ^ (fmtBits f - 1) else 0) ∧
        (v j = .nan → x = nanBits f) ∧
        (∀ sg e, v j = .fin sg 0 e → isNan (decodeF f x) = true → x = nanBits f)) ∧
      (lanes (.vrsq k w) fun j x =>
        (∀ m e, v j = .fin false m e → m ≠ 0 → ∃ n, x = withinUlp f 1 n (rsqrtFin m e) % whole) ∧
        (v j = .inf false → x = 0) ∧ (v j = .nan → x = nanBits f) ∧
        (∀ sg e, v j = .fin sg 0 e → isNan (decodeF f x) = true → x = nanBits f)))

/-- On a core ready to execute: VRED writes to lane 0 the pairwise-tree sum (FN 0) or maximum (FN 1) of the lanes
converted exactly to FP32 and zero to the other lanes; VCVT into a narrower format writes the converted source lanes
to segment SEG and keeps the other lanes of vD, and into a wider one converts source segment SEG into every lane;
VCVTSR does the same with the random bits of its seed sB and counter sC + i; lane i of VRAND is word 0 of the
generator at seed sA and counter sB + i (FN 0), or its top 24 bits times 2^-24 (FN 1); VEXT writes the lane IMM16
names to sD. Only the destination and the PC change. (A NaN in a sum or a maximum: assumptions 17 and 18.) [R98,
R99, 05_nimyo_instructions.md] -/
def Obligations.VectorReduceConvertResults : Prop :=
  ∀ (s : State) (k : Nat) (w : FmtT), Safety.ready s k w.pg w.pn →
    let c := getCore s k
    let f := vFmt w
    let a := laneBits f (readV c w.a)
    let g := w.imm.toNat % 16
    let n := min (fmtLanes f) (fmtLanes g)
    let lanes := fun (i : Instr) (h : Nat) (p : Nat → Nat → Prop) =>
      ∃ r : VecReg, (∀ j < fmtLanes h, p j (laneBits h r j)) ∧ Safety.runs i s k (writeV c w.d r)
    let converted := fun (i : Instr) (conv : Nat → Nat → Nat) => lanes i g fun j x =>
      x = if fmtLanes f < fmtLanes g then
          (if vSeg w * n ≤ j ∧ j < vSeg w * n + n then conv (j - vSeg w * n) (a (j - vSeg w * n)) % 2 ^ fmtBits g
           else laneBits g (readV c w.d) j)
        else conv j (a (vSeg w * n + j)) % 2 ^ fmtBits g
    (infoVred.okT w = true → lanes (.vred k w) 8 fun j x =>
      let parts := (List.range (fmtLanes f)).map fun i => encodeF 8 (decodeF f (a i))
      x = if j ≠ 0 then 0 else (if vFn w = 0 then treeFold fadd32 10 parts else treeFold (pickLane 8 true) 10 parts) % 2 ^ 32) ∧
    (infoVcvt.okT w = true → converted (.vcvt k w) fun _ x => encodeF g (decodeF f x)) ∧
    (infoVcvtsr.okT w = true → converted (.vcvtsr k w) fun i x =>
      (roundTo g (.stoch (keyedWord (readS c w.b).toNat (((readS c w.c).toNat + i) % 2 ^ 64) 0 2 / 256)) (decodeF f x)).bits) ∧
    (infoVrand.okT w = true → lanes (.vrand k w) 8 fun j x =>
      let word := keyedWord (readS c w.a).toNat (((readS c w.b).toNat + j) % 2 ^ 64) 0 1
      x = if vFn w = 0 then word else encodeF 8 (.fin false (word / 256) (-24)) % 2 ^ 32) ∧
    (infoVext.okT w = true →
      Safety.runs (.vext k w) s k (writeS c w.d (BitVec.ofNat 64 (a (w.imm.toNat % fmtLanes f)))))

/-- On a core ready to execute, VTOPK with a 256-byte aligned offset and a range it may read writes, for every i
below k (sC clamped to 1 to 64), to lane i of vD the FP32 value and to lane i of vD+1 the index of the i-th entry of
the list of the range's k largest elements that are no NaN, in descending order with equal values by ascending
index; and minus infinity with index 0xFFFF_FFFF where that list is shorter. A misaligned offset raises ALIGNMENT,
and a range beyond what it may read ADDRESS, or WINDOW at guest privilege. Only the two registers and the PC change.
[R100, R98] -/
def Obligations.TopKSelectsLargest : Prop :=
  ∀ (s : State) (k : Nat) (w : FmtT), Safety.ready s k w.pg w.pn → infoVtopk.okT w = true →
    let c := getCore s k
    let f := vFmt w
    let off := (readS c w.a).toNat
    let n := (readS c w.b).toNat
    let kk := max 1 (min 64 (readS c w.c).toNat)
    let elem := fun i => readNat c.scratch (off + fmtBits f / 8 * i) (fmtBits f / 8)
    let fault := scratchFault c false off (n * (fmtBits f / 8))
    (off % 256 ≠ 0 → Safety.traps (.vtopk k w) s k 0x04) ∧
    (∀ code, off % 256 = 0 → fault = some code → Safety.traps (.vtopk k w) s k code ∧ code = if c.guest.isSome then 0x05 else 0x03) ∧
    (off % 256 = 0 → fault = none → ∃ (vals idxs : VecReg) (top : List Nat),
      Safety.runs (.vtopk k w) s k (writeV (writeV c w.d vals) (w.d + 1) idxs) ∧
      top.Nodup ∧ (∀ i ∈ top, i < n ∧ isNan (decodeF f (elem i)) = false) ∧
      top.Pairwise (fun i j => ltF (decodeF f (elem i)) (decodeF f (elem j)) = false ∧
        (eqF (decodeF f (elem i)) (decodeF f (elem j)) = true → i < j)) ∧
      top.length = min kk ((List.range n).filter fun i => !isNan (decodeF f (elem i))).length ∧
      (∀ i < n, i ∉ top → isNan (decodeF f (elem i)) = false →
        ∀ j ∈ top, ltF (decodeF f (elem j)) (decodeF f (elem i)) = false) ∧
      ∀ j < kk, (∀ i, top[j]? = some i → laneBits 8 vals j = encodeF 8 (decodeF f (elem i)) % 2 ^ 32 ∧ laneBits 8 idxs j = i % 2 ^ 32) ∧
        (top[j]? = none → laneBits 8 vals j = 0xFF800000 ∧ laneBits 8 idxs j = 0xFFFFFFFF))

/-- For each of the eight formats FP4, FP8 E4M3, FP8 E5M2, INT4, INT8, BF16, FP16 and FP32: every bit pattern of the
format's width whose value is not NaN is what that value rounds to nearest even as; and every value, whatever its
size, rounds to a pattern of the format's width, whatever the 24 random bits of a stochastic rounding.
[06_arithmetic.md, R125, R129] -/
def Obligations.NumberFormatsRoundTrip : Prop :=
  ∀ f, 1 ≤ f → f ≤ 8 →
    (∀ x, x < 2 ^ fmtBits f → isNan (decodeF f x) = false → encodeF f (decodeF f x) = x) ∧
    (∀ v, encodeF f v < 2 ^ fmtBits f) ∧ ∀ r v, (roundTo f (.stoch r) v).bits < 2 ^ fmtBits f

/-- At operator privilege on a core ready to execute: a WLD whose base or stride is not a multiple of 64 or whose
stride is below one row, or whose FP4 scale base is not a multiple of 64, raises ALIGNMENT; one whose rows or scales
pass the end of scratchpad raises ADDRESS. Otherwise the half H holds the format, element (k, n) is element n of the
row at base + k times stride, and for FP4 scale j of column n is the byte at 4n + j of the scales; the other half,
every register and all else are unchanged but for the PC. [R101, R127, R125, 05_nimyo_instructions.md] -/
def Obligations.MatrixWeightsLoad : Prop :=
  ∀ (s : State) (k : Nat) (w : FmtT), Safety.operator s k w.pg w.pn → infoWld.okT w = true →
    let c := getCore s k
    let f := mFmt w
    let base := (readS c w.a).toNat
    let stride := (readS c w.b).toNat
    let sc := (readS c w.c).toNat
    let row := 16 * fmtBits f
    let bad := base % 64 ≠ 0 ∨ stride % 64 ≠ 0 ∨ stride < row ∨ (f = 1 ∧ sc % 64 ≠ 0)
    let outside := 0x100000 < base + 127 * stride + row ∨ (f = 1 ∧ 0x100000 < sc + 512)
    (bad → Safety.traps (.wld k w) s k 0x04) ∧
    (¬ bad → outside → Safety.traps (.wld k w) s k 0x03) ∧
    (¬ bad → ¬ outside → ∃ h : WHalf,
      Safety.runs (.wld k w) s k { c with wbuf := smSet (fun _ => ({} : WHalf)) c.wbuf (modBits w 28 28) h } ∧
      h.fmt = f ∧
      (∀ r < 128, ∀ n < 128, (smGet (fun _ => (0 : Half)) h.elems (128 * r + n)).toNat = rowElem c.scratch (base + r * stride) f n) ∧
      (f = 1 → ∀ n < 128, ∀ j < 4, smGet (fun _ => (0 : Byte)) h.scales (4 * n + j) = readByte c.scratch (sc + (4 * n + j))))

/-- At operator privilege on a core ready to execute: an MMA whose pair of formats has no record, or an EXACT
accumulator with a pair that lacks EXACT, raises FEATURE and adds nothing; bad rows raise ALIGNMENT or ADDRESS.
Otherwise each element of rows 0 to m-1 of an FP32 accumulator takes the window sum of its 128 products and its old
value, rounded once under the accumulator's mode; each element of accw takes its products added exactly in ascending
k; rows m to 127, the mode, seed and tile, the other accumulators and all else are unchanged but for the flags and
the PC. (The order of the products of accw: assumption 21; WINDOW_LOW and WINDOW_HIGH of a marked element:
assumption 129.) [R102, R134, R137, R126, 06_arithmetic.md] -/
def Obligations.MatrixMultiplyAccumulates : Prop :=
  ∀ (s : State) (k : Nat) (w : FmtT), Safety.operator s k w.pg w.pn → infoMma.okT w = true →
    let c := getCore s k
    let fx := mFmt w
    let h := smGet (fun _ => ({} : WHalf)) c.wbuf (modBits w 28 28)
    let m := w.imm.toNat % 128 + 1
    let kstep := w.imm.toNat / 128
    let base := (readS c w.a).toNat
    let stride := (readS c w.b).toNat
    let d := w.d.toNat
    let rows := rowsFault base stride (if fx = 1 then 128 else 16 * fmtBits fx) m
    let terms := fun r n => mmaTerms c h fx (base + r * stride) n
    (pairRecord h.fmt fx = none → Safety.traps (.mma k w) s k 0x0A) ∧
    (pairRecord h.fmt fx = some false → d < 3 → c.accw.isSome = true → Safety.traps (.mma k w) s k 0x0A) ∧
    (∀ code ex, pairRecord h.fmt fx = some ex → (d = 3 ∨ c.accw = none ∨ ex = true) → rows = some code →
      Safety.traps (.mma k w) s k code) ∧
    (∀ ex, pairRecord h.fmt fx = some ex → (d = 3 ∨ c.accw = none) → rows = none →
      ∃ a' : Acc, Safety.runs (.mma k w) s k (setAcc c d a') ∧
        let a := getAcc c d
        (a'.mode, a'.seed, a'.tile) = (a.mode, a.seed, a.tile) ∧
        ∀ r < 128, ∀ n < 128, let i := 128 * r + n
          (smGet elemDefault a'.elems i).toNat =
            if r < m then (roundTo 8 (if a.mode = .stochastic then .stoch (accRandom a.seed a.tile kstep i 3) else .nearest)
              (windowSum (terms r n ++ [decodeF 8 (smGet elemDefault a.elems i).toNat]))).bits
            else (smGet elemDefault a.elems i).toNat) ∧
    (∀ a, pairRecord h.fmt fx = some true → d < 3 → c.accw = some a → rows = none →
      ∃ a' : AccW, Safety.runs (.mma k w) s k { c with accw := some a' } ∧
        (a'.base, a'.seed, a'.tile) = (a.base, a.seed, a.tile) ∧
        ∀ r < 128, ∀ n < 128, let i := 128 * r + n
          let x := (terms r n).foldl (wideAdd a.base) (wideOf a i)
          smGet boolDefault a'.nans i = (if r < m then x.nan else smGet boolDefault a.nans i) ∧
          smGet limbDefault a'.elems i = if r < m then (if x.nan then 0 else x.val) else smGet limbDefault a.elems i)

/-- At operator privilege on a core ready to execute: ACFG with MODE EXACT naming acc3, or with a window base
outside -149 to 31, raises FEATURE; naming acc0 to acc2 it forms accw zeroed with the base, seed and tile, all three
of mode EXACT and zeroed. ACFG with another mode zeroes the accumulator named with that mode, seed and tile, and
when it names one of acc0 to acc2 while accw is formed dissolves accw with all three of that mode and zeroed; MODE 3
is the default in force. ACLR zeroes the accumulator named (accw while it is formed) and keeps its mode, seed and
tile. Nothing else changes but the PC. (The seed and tile of the accumulators that a dissolving ACFG does not name
are the model's choice, assumption 125.) [R103, R136, R104, 05_nimyo_instructions.md] -/
def Obligations.AccumulatorConfiguration : Prop :=
  ∀ (s : State) (k : Nat) (w : FmtT), Safety.operator s k w.pg w.pn →
    let c := getCore s k
    let seed := readS c w.a
    let tile := readS c w.b
    let i := w.d.toNat
    let md := modeOf (if modBits w 29 28 = 3 then bits (regGet s 0xA0010).toNat 13 12 else modBits w 29 28)
    let b := (seed.extractLsb' 0 9).toInt
    (infoAcfg.okT w = true →
      (md = .exact → (i = 3 ∨ b < -149 ∨ 31 < b) → Safety.traps (.acfg k w) s k 0x0A) ∧
      (md = .exact → i < 3 → -149 ≤ b → b ≤ 31 → ∃ d : Core, Safety.runs (.acfg k w) s k d ∧
        { d with acc := c.acc, accw := c.accw } = c ∧
        d.accw = some { base := b, seed := seed, tile := tile, flags := flagWord .exact {} } ∧
        (∀ j < 3, (getAcc d j).mode = .exact ∧ (getAcc d j).elems = []) ∧ getAcc d 3 = getAcc c 3) ∧
      (md ≠ .exact → ∃ d : Core, Safety.runs (.acfg k w) s k d ∧
        { d with acc := c.acc, accw := c.accw } = c ∧ d.accw = (if i < 3 then none else c.accw) ∧
        ∀ j < 4, getAcc d j =
          if j = i then { mode := md, seed := seed, tile := tile, elems := [], flags := flagWord md {} }
          else if i < 3 ∧ j < 3 ∧ c.accw.isSome then { getAcc c j with mode := md, elems := [], flags := flagWord md {} }
          else getAcc c j)) ∧
    (infoAclr.okT w = true → ∃ d : Core, Safety.runs (.aclr k w) s k d ∧
      { d with acc := c.acc, accw := c.accw } = c ∧
      (∀ a, i < 3 → c.accw = some a →
        d.acc = c.acc ∧ d.accw = some { a with elems := [], nans := [], flags := flagWord .exact {} }) ∧
      (i = 3 ∨ c.accw = none → d.accw = c.accw ∧ ∀ j < 4, getAcc d j =
        if j = i then { getAcc c j with elems := [], flags := flagWord (getAcc c j).mode {} } else getAcc c j))

/-- At operator privilege on a core ready to execute, with rows that raise no fault: APRE sets each element of rows
0 to m-1 of an FP32 accumulator to its source element as FP32 (BIAS: the one row for every r) and keeps the other
rows; AST stores each element of rows 0 to m-1 rounded to FMT at its place in scratchpad, leaves every other byte,
writes the tile's flag word to sD, and zeroes the accumulator only with CLEAR; ARD writes 64 elements of a row half
to vD, of accw as limb j (sA[10:8]): d_j x 2^(B + 16j), the NaN encoding where the marker is set, +0 for j of 6 or
7. Rows that are misaligned or pass the end of scratchpad raise ALIGNMENT or ADDRESS. Only these and the PC change.
[R104, R139, R140, R141, R138, R127] -/
def Obligations.AccumulatorPreloadStoreRead : Prop :=
  ∀ (s : State) (k : Nat) (w : FmtT), Safety.operator s k w.pg w.pn →
    let c := getCore s k
    let f := mFmt w
    let m := w.imm.toNat % 128 + 1
    let base := (readS c w.a).toNat
    let stride := (readS c w.b).toNat
    let eb := fmtBits f / 8
    let whole := modBits w 28 28 = 1
    (infoApre.okT w = true →
      let wide := decide (w.d.toNat < 3) && c.accw.isSome
      let rows := rowsFault base stride (if f = 6 then 256 else if wide then 3072 else 512) (if whole then m else 1)
      (∀ code, rows = some code → Safety.traps (.apre k w) s k code) ∧
      (rows = none → wide = false → ∃ a' : Acc, Safety.runs (.apre k w) s k (setAcc c w.d.toNat a') ∧
        let a := getAcc c w.d.toNat
        (a'.mode, a'.seed, a'.tile) = (a.mode, a.seed, a.tile) ∧
        ∀ r < 128, ∀ n < 128, (smGet elemDefault a'.elems (128 * r + n)).toNat =
          if r < m then encodeF 8 (decodeF f (readNat c.scratch (base + (if whole then r * stride else 0) + eb * n) eb))
          else (smGet elemDefault a.elems (128 * r + n)).toNat) ∧
      (∀ a, rows = none → w.d.toNat < 3 → c.accw = some a → ∃ a' : AccW,
        Safety.runs (.apre k w) s k { c with accw := some a' } ∧ (a'.base, a'.seed, a'.tile) = (a.base, a.seed, a.tile) ∧
        ∀ r < 128, ∀ n < 128, let i := 128 * r + n
          let x := wideAdd a.base ⟨0, smGet boolDefault a.nans i, false, false⟩
            (apreVal c f true (base + if whole then r * stride else 0) n)
          smGet boolDefault a'.nans i = (if r < m then x.nan else smGet boolDefault a.nans i) ∧
          smGet limbDefault a'.elems i = if r < m then (if x.nan then 0 else x.val) else smGet limbDefault a.elems i)) ∧
    (infoAst.okT w = true →
      let rows := rowsFault base stride (16 * fmtBits f) m
      (∀ code, rows = some code → Safety.traps (.ast k w) s k code) ∧
      (rows = none → ∃ d : Core, Safety.runs (.ast k w) s k d ∧
        { d with scratch := c.scratch, acc := c.acc, accw := c.accw } = writeS c w.d (astFlags c w.c.toNat f m) ∧
        (d.acc, d.accw) = (if whole then ((accZero c w.c.toNat).acc, (accZero c w.c.toNat).accw) else (c.acc, c.accw)) ∧
        (∀ r < m, ∀ n < 128, readNat d.scratch (base + r * stride + eb * n) eb = (astElem c w.c.toNat f (128 * r + n)).bits) ∧
        ∀ x, (∀ r < m, x < base + r * stride ∨ base + r * stride + 16 * fmtBits f ≤ x) → readByte d.scratch x = readByte c.scratch x)) ∧
    (infoArd.okT w = true → ∃ v : VecReg, Safety.runs (.ard k w) s k (writeV c w.d v) ∧
      let sel := (readS c w.a).toNat
      ∀ n < 64, laneBits 8 v n =
        match (if w.c.toNat < 3 then c.accw else none) with
        | some a =>
          let e := 128 * (sel % 128) + 64 * mSeg w + n
          let j := sel / 256 % 8
          let u := ((smGet limbDefault a.elems e) % 2 ^ 96).toNat / 2 ^ (16 * j) % 2 ^ 16
          let d : Int := if j = 5 ∧ 2 ^ 15 ≤ u then (u : Int) - 2 ^ 16 else u
          if 6 ≤ j then 0 else if smGet boolDefault a.nans e then 0x7FC00000
          else encodeF 8 (finOfInt false d (a.base + 16 * j)) % 2 ^ 32
        | none => (smGet elemDefault (getAcc c w.c.toNat).elems (128 * (sel % 128) + 64 * mSeg w + n)).toNat)

/-- On a core ready to execute, with offset sA + IMM16: an offset that is not a multiple of the access's bytes
raises ALIGNMENT; one that passes the scratchpad ADDRESS, or at guest privilege one outside the regions it may read
or write WINDOW. Otherwise LDS writes to sD the little-endian bytes sign- or zero-extended, VLD the 256 bytes to vD;
STS and VST make the bytes read as the source's low bytes and leave every other byte of scratchpad. Only these and
the PC change. [R105, R72, R4, 05_nimyo_instructions.md] -/
def Obligations.ScratchpadLoadsAndStores : Prop :=
  ∀ (s : State) (k : Nat) (w : FmtT), Safety.ready s k w.pg w.pn →
    let c := getCore s k
    let off := (readS c w.a + w.imm.signExtend 64).toNat
    let n := 2 ^ modBits w 29 28
    let stored := fun (i : Instr) (n v : Nat) => ∃ m, Safety.runs i s k { c with scratch := m } ∧ readNat m off n = v ∧
      ∀ x, (x < off ∨ off + n ≤ x) → readByte m x = readByte c.scratch x
    let reach := fun (store : Bool) (n : Nat) => match c.guest with
      | none => off + n ≤ 0x100000
      | some g => (g.wkBase ≤ off ∧ off + n ≤ g.wkBase + g.wkLen) ∨
          (store = false ∧ g.inBase ≤ off ∧ off + n ≤ g.inBase + g.inLen)
    (∀ p ∈ ([(.lds k w, infoLds.okT w, false, n), (.sts k w, infoSts.okT w, true, n), (.vld k w, infoVld.okT w, false, 256),
        (.vst k w, infoVld.okT w, true, 256)] : List (Instr × Bool × Bool × Nat)), p.2.1 = true →
      (off % p.2.2.2 ≠ 0 → Safety.traps p.1 s k 0x04) ∧
      (off % p.2.2.2 = 0 → ¬ reach p.2.2.1 p.2.2.2 → Safety.traps p.1 s k (if c.guest.isSome then 0x05 else 0x03))) ∧
    (infoLds.okT w = true → off % n = 0 → reach false n → Safety.runs (.lds k w) s k (writeS c w.d
      (if modBits w 27 27 = 1 then (BitVec.ofNat (8 * n) (readNat c.scratch off n)).signExtend 64
       else BitVec.ofNat 64 (readNat c.scratch off n)))) ∧
    (infoSts.okT w = true → off % n = 0 → reach true n → stored (.sts k w) n ((readS c w.d).toNat % 2 ^ (8 * n))) ∧
    (infoVld.okT w = true → off % 256 = 0 →
      (reach false 256 → ∃ v : VecReg, v.toNat = readNat c.scratch off 256 ∧ Safety.runs (.vld k w) s k (writeV c w.d v)) ∧
      (reach true 256 → stored (.vst k w) 256 (readV c w.d).toNat))

/-- On a core ready to execute, with operands that raise no fault, no word of the lines uncorrectable or
correctable, every guarded block of them passing its check and room in the cluster cache: LDC copies to scratchpad
the cached bytes of each line its cluster holds and HBM's of the others, which it installs clean with the other
lines of a guarded block fetched (R156); LDV copies HBM's bytes, a line dirty in its own cluster cache being written
back first and left clean, and installs nothing. Every other byte of scratchpad and memory, every other cached line
and all else but the PC are unchanged. Where a guarded block that must be fetched is of a SEALING range, under
repair, or fails its check, the instruction waits with no core, cache or memory changed, and a block that fails
begins its repair (the wait: assumption 30). An uncorrectable word outside guarded ranges is delivered as zero and
stays; at operator privilege the core's issue ends and the step will be rolled back (assumption 110), a second such
read of the granule in the rerun halting it; a guest load goes on and marks its request MEM_UE (R153). [R105, R106,
R183, R182, R153, R155, R156, R158, Table 7-3, 08_memory_model.md] -/
def Obligations.LineLoadsDeliverLines : Prop :=
  ∀ (s : State) (k : Nat) (w : FmtT) (cached : Bool), Safety.ready s k w.pg w.pn →
    (if cached then infoLdc.okT w = true else infoLines.okT w = true ∧ (getCore s k).guest = none) →
    let c := getCore s k
    let cl := getCluster s (clusterOf k)
    let a := (readS c w.a).toNat
    let off := (readS c w.b).toNat
    let n := w.imm.toNat % 256 + 1
    let line := fun g => match cacheGet cl g with
      | some l => if cached || l.dirty then l.data else physRead s (256 * g) 256
      | none => physRead s (256 * g) 256
    let named := fun g => decide (a / 256 ≤ g) && decide (g < a / 256 + n)
    let blocks := guardBlocks s a (256 * n)
    let waits := fun (p : Nat × Nat) => grState s p.1 = 1 ∨ inRepair s p.1 p.2 = true ∨ blockFails s p.1 p.2 = true
    let clean := fun (p : Nat × Nat) => softWordsIn s (grBase s p.1 + 4096 * p.2) 4096 = [] ∧ softWordsIn s (grCrcBase s p.1 + 8 * p.2) 8 = []
    let fetched := fun g => (fetchBlocks s k a n true).any fun p =>
      decide (grBase s p.1 + 4096 * p.2 ≤ 256 * g) && decide (256 * g < grBase s p.1 + 4096 * p.2 + 4096)
    let i := if cached then Instr.ldc k w else .ldv k w
    lineFault s c false a off (256 * n) = none → a + 256 * n ≤ 0x4800000000 →
    ((∀ p ∈ blocks, ¬ waits p ∧ clean p) → badIn s a (256 * n) = none → softWordsIn s a (256 * n) = [] →
      cl.cache.length + n + 16 * blocks.length ≤ 32768 → (∀ g, named g = true → (line g).length = 256) →
      (cached = false → ∀ g l, named g = true → guarded s (256 * g) 256 = true → cacheGet cl g = some l → l.dirty = false) →
      Safety.answers i s fun t =>
        let d := getCore t k
        (∀ x, x < 256 * n → readByte d.scratch (off + x) = (line (a / 256 + x / 256)).getD (x % 256) 0) ∧
        (∀ x, (x < off ∨ off + 256 * n ≤ x) → readByte d.scratch x = readByte c.scratch x) ∧
        { d with scratch := c.scratch } = Safety.past c ∧ (∀ j, j ≠ k → getCore t j = getCore s j) ∧
        (∀ x, readByte t.mem x =
          if cached = false ∧ named (x / 256) = true then (line (x / 256)).getD (x % 256) 0 else readByte s.mem x) ∧
        (∀ j, j ≠ clusterOf k → getCluster t j = getCluster s j) ∧
        { getCluster t (clusterOf k) with cache := cl.cache } = cl ∧
        (∀ g, cacheGet (getCluster t (clusterOf k)) g = match cacheGet cl g with
          | some l => some (if cached = false ∧ named g = true then { l with dirty := false } else l)
          | none => if cached = true ∧ (named g || fetched g) = true then some { dirty := false, data := physRead s (256 * g) 256 } else none) ∧
        { t with cores := s.cores, clusters := s.clusters, mem := s.mem } = s) ∧
    ((∃ p ∈ (if cached then fetchBlocks s k a n true else blocks), waits p) →
      Safety.answers i s fun t => t.cores = s.cores ∧ t.clusters = s.clusters ∧ t.mem = s.mem ∧
        ∀ p ∈ (if cached then fetchBlocks s k a n true else blocks), waits p → grState s p.1 ≠ 1 → inRepair t p.1 p.2 = true) ∧
    (blocks = [] → (badIn s a (256 * n)).isSome = true → cl.cache.length + n ≤ 32768 → (∀ g, named g = true → cacheGet cl g = none) →
      Safety.answers i s fun t =>
        let d := getCore t k
        (∀ x, x < 256 * n → readByte d.scratch (off + x) =
          if smGet boolDefault s.badWords ((a + x) / 16) then 0 else readByte s.mem (a + x)) ∧
        (∀ x, (x < off ∨ off + 256 * n ≤ x) → readByte d.scratch x = readByte c.scratch x) ∧
        (∀ j, j ≠ k → getCore t j = getCore s j) ∧ t.mem = s.mem ∧ t.badWords = s.badWords ∧
        fld t Reg.mcStatusUeSeen = 1 ∧
        (c.guest = none → { d with scratch := c.scratch } = { c with phase := .ended } ∧
          t.sched.cur = s.sched.cur.map fun p => { p with
            ueHit := true
            faulted := p.faulted || (s.sched.faultRerun && (List.range n).any fun i =>
              (badIn s (a + 256 * i) 256).isSome && s.sched.ueGranule.contains (a / 256 + i)) }) ∧
        (∀ g, c.guest = some g → { d with scratch := c.scratch } = Safety.past c ∧ t.sched = s.sched ∧
          0x12 ∈ (getReq t g.rc).codes ∧ ∀ rc, rc ≠ g.rc → getReq t rc = getReq s rc))

/-- At operator privilege on a core ready to execute, with operands that raise no fault: STC, with room in the
cluster cache, leaves each line named in it, dirty, with scratchpad's bytes and memory as it was; STV makes each
line of HBM read as scratchpad's bytes, its words no longer uncorrectable, an own cached copy taking the bytes and
standing clean, and no copy installed. Every other byte of memory, every other cached line, all registers and all
else but the PC are unchanged. A line transfer misaligned raises ALIGNMENT; one outside scratchpad or HBM, or a
store into a guarded range, raises ADDRESS. LDC raises the same, and at guest privilege WINDOW where its lines are
not all in the call's table region and in runs of the pool owned by its tenant, or its scratchpad range is not in
the work region (R72). (Guarded stores: assumption 31; what an acquire outside the scope reads: assumption 132; a
full cache: assumption 32.) [R105, R106, R183, R157, R72, 08_memory_model.md] -/
def Obligations.LineStoresTakeLines : Prop :=
  (∀ (s : State) (k : Nat) (w : FmtT), Safety.ready s k w.pg w.pn → infoLdc.okT w = true →
    let c := getCore s k
    let a := (readS c w.a).toNat
    let off := (readS c w.b).toNat
    let n := w.imm.toNat % 256 + 1
    let owned := fun (g : GuestCall) (x : Nat) => match runAt s x with
      | some f => (ftGet s f).owner = g.tenant ∧ (ftGet s f).refs ≠ 0
      | none => False
    ((a % 256 ≠ 0 ∨ off % 256 ≠ 0) → Safety.traps (.ldc k w) s k 0x04) ∧
    (a % 256 = 0 → off % 256 = 0 →
      (c.guest = none → (0x100000 < off + 256 * n ∨ 0x4800000000 < a + 256 * n) → Safety.traps (.ldc k w) s k 0x03) ∧
      ∀ g, c.guest = some g →
        (off < g.wkBase ∨ g.wkBase + g.wkLen < off + 256 * n ∨ a < g.tbBase ∨ g.tbBase + g.tbLen < a + 256 * n ∨
          (∃ x, a / 4096 ≤ x / 4096 ∧ x < a + 256 * n ∧ ¬ owned g x)) → Safety.traps (.ldc k w) s k 0x05)) ∧
  ∀ (s : State) (k : Nat) (w : FmtT), Safety.operator s k w.pg w.pn → infoLines.okT w = true →
    let c := getCore s k
    let cl := getCluster s (clusterOf k)
    let a := (readS c w.a).toNat
    let off := (readS c w.b).toNat
    let n := w.imm.toNat % 256 + 1
    let data := fun g => readBytes c.scratch (off + 256 * (g - a / 256)) 256
    let named := fun g => decide (a / 256 ≤ g) && decide (g < a / 256 + n)
    (∀ i ∈ ([.stc k w, .stv k w, .ldv k w] : List Instr),
      ((a % 256 ≠ 0 ∨ off % 256 ≠ 0) → Safety.traps i s k 0x04) ∧
      (a % 256 = 0 → off % 256 = 0 → (0x100000 < off + 256 * n ∨ 0x4800000000 < a + 256 * n) → Safety.traps i s k 0x03)) ∧
    (a % 256 = 0 → off % 256 = 0 → off + 256 * n ≤ 0x100000 → a + 256 * n ≤ 0x4800000000 →
      (guarded s a (256 * n) = true → Safety.traps (.stc k w) s k 0x03 ∧ Safety.traps (.stv k w) s k 0x03) ∧
      (guarded s a (256 * n) = false → cl.cache.length + n ≤ 32768 → Safety.answers (.stc k w) s fun t =>
        getCore t k = Safety.past c ∧ (∀ j, j ≠ k → getCore t j = getCore s j) ∧
        (∀ j, j ≠ clusterOf k → getCluster t j = getCluster s j) ∧
        { getCluster t (clusterOf k) with cache := cl.cache } = cl ∧
        (∀ g, cacheGet (getCluster t (clusterOf k)) g =
          if named g then some { dirty := true, data := data g } else cacheGet cl g) ∧
        { t with cores := s.cores, clusters := s.clusters } = s) ∧
      (guarded s a (256 * n) = false → (∀ g l, named g = true → cacheGet cl g = some l → l.data.length ≤ 256) →
        Safety.answers (.stv k w) s fun t =>
        getCore t k = Safety.past c ∧ (∀ j, j ≠ k → getCore t j = getCore s j) ∧
        (∀ x, readByte t.mem x = if named (x / 256) then (data (x / 256)).getD (x % 256) 0 else readByte s.mem x) ∧
        (∀ j, j ≠ clusterOf k → getCluster t j = getCluster s j) ∧
        { getCluster t (clusterOf k) with cache := cl.cache } = cl ∧
        (∀ g, cacheGet (getCluster t (clusterOf k)) g =
          if named g && (cacheGet cl g).isSome then some { dirty := false, data := data g } else cacheGet cl g) ∧
        badWordsIn t a (256 * n) = [] ∧
        { t with cores := s.cores, clusters := s.clusters, mem := s.mem, badWords := s.badWords, softWords := s.softWords } = s))

/-- At operator privilege on a core ready to execute, for DMA, FLUSHR, INVR, KVIMP, COLL, and NBISS with the offload
mode on: a descriptor offset that is not a multiple of 64 raises ALIGNMENT, one that passes scratchpad ADDRESS, a
nonzero zero field ENCODING, a completion cell that is UNCONFIGURED SYNC_CONFIG. With no entry FREE nothing starts,
sD takes all ones and pC is cleared. Otherwise sD takes the index of the lowest FREE entry, pC is set, and the entry
stands ACTIVE with its kind, the issuing core's global ID and the descriptor's fields, START_TICK the tick, when the
operation's own start is applied (a Length of 0 completes it at once but for COLL, assumption 42); the core goes on
at PC + 8. (When data moves: assumption 8; where the list of an import and a group descriptor is read: assumption
57.) [R82, R107, R83, R84] -/
def Obligations.LongOperationsAllocate : Prop :=
  ∀ (s : State) (k : Nat) (w : FmtT), Safety.operator s k w.pg w.pn → infoLongOp.okT w = true →
    let c := getCore s k
    let off := (readS c w.a).toNat
    let b := readBytes c.scratch off 64
    let d := descOf b
    let kind := if (!d.srcSp && inTierRow d.src) || (!d.dstSp && inTierRow d.dst) then 2 else 1
    ∀ p ∈ ([(.dma k w, kind, kwZero d, dmaCheck s d, true, transferStart), (.flushr k w, 6, kwZero d, rangeCheck d, true, rangeStart true),
        (.invr k w, 7, kwZero d, rangeCheck d, true, rangeStart false), (.kvimp k w, 5, impZero d, none, true, importStart),
        (.nbiss k w, 3, nbZero d, none, true, nbStart), (.coll k w, 4, true, none, false, collStart)] :
        List (Instr × Nat × Bool × Option Nat × Bool × (State → Nat → State))),
      (p.1 = .nbiss k w → modeOffload s ≠ 0) →
      (off % 64 ≠ 0 → Safety.traps p.1 s k 0x04) ∧
      (off % 64 = 0 → 0x100000 < off + 64 → Safety.traps p.1 s k 0x03) ∧
      (off % 64 = 0 → off + 64 ≤ 0x100000 →
        ((descZero b && p.2.2.1) = false → Safety.traps p.1 s k 0x01) ∧
        ((descZero b && p.2.2.1) = true →
          (d.cellEn = true → (getCell s d.cell).kind = 0 → Safety.traps p.1 s k 0x07) ∧
          ((d.cellEn = true → (getCell s d.cell).kind ≠ 0) →
            (∀ code, p.2.2.2.1 = some code → Safety.traps p.1 s k code) ∧
            (p.2.2.2.1 = none → (∀ m < 4096, (getDot s m).state ≠ .free) →
              Safety.runs p.1 s k (writeP (writeS c w.d 0xFFFFFFFFFFFFFFFF) w.c.toNat false)) ∧
            (∀ m, p.2.2.2.1 = none → m < 4096 → (getDot s m).state = .free → (∀ j < m, (getDot s j).state ≠ .free) →
              ∃ s2, { s2 with cores := s.cores, dot := s.dot } = s ∧
                getCore s2 k = writeP (writeS c w.d (BitVec.ofNat 64 m)) w.c.toNat true ∧
                (∀ j, j ≠ k → getCore s2 j = getCore s j) ∧ (∀ j, j ≠ m → getDot s2 j = getDot s j) ∧
                getDot s2 m = {
                  state := .active, kind := p.2.1, autofree := d.autofree, dlEn := decide (d.deadline ≠ 0),
                  cellEn := d.cellEn, owner := gidOf s k, cell := d.cell, rc := d.rc, start := s.tk, deadline := d.deadline,
                  rcEn := d.rcEn, core := k, src := d.src, dst := d.dst, len := d.len, compress := d.compress,
                  srcSp := d.srcSp, dstSp := d.dstSp, kw0 := d.kw0, kw1 := d.kw1, kw2 := d.kw2 } ∧
                exec p.1 s = .next (advance (if p.2.2.2.2.1 && decide (d.len = 0) then leaveActive s2 m .done 0
                  else p.2.2.2.2.2 s2 m) k)))))

/-- At operator privilege on a core ready to execute: NBISS with the offload mode OFF starts nothing, writes
0xFFFF_FFFF_FFFF_FFFE to sD and clears pC. NBFNC goes on at PC + 8 when none of the core's near-bank operations is
ACTIVE, and otherwise goes on with the core's memory queue held on those that are. NBRD with an index of 4,096 or
more, or lines past scratchpad, raises ADDRESS, and at a misaligned offset ALIGNMENT; of an entry that is FREE or no
near-bank operation it writes 0xF1 to sD and copies nothing; of one that has left ACTIVE and failed it writes
RESULT; of one DONE it copies the lines of its destination to scratchpad and writes zero; of one ACTIVE it goes on
with the memory queue held on that entry. Nothing else changes. (An index of 4,096 or more: the model's choice,
assumption 127; how a held queue is modelled: assumption 141.) [R114, R207, R64, 05_nimyo_instructions.md] -/
def Obligations.NearBankWaitAndRead : Prop :=
  ∀ (s : State) (k : Nat) (w : FmtT), Safety.operator s k w.pg w.pn →
    let c := getCore s k
    (infoLongOp.okT w = true → modeOffload s = 0 →
      Safety.runs (.nbiss k w) s k (writeP (writeS c w.d 0xFFFFFFFFFFFFFFFE) w.c.toNat false)) ∧
    (infoNbfnc.okT w = true →
      let open_ := c.nbOps.filter fun m => decide ((getDot s m).state = .active ∧ (getDot s m).kind = 3 ∧ (getDot s m).core = k)
      (open_ = [] → Safety.runs (.nbfnc k w) s k { c with nbOps := [] }) ∧
      (open_ ≠ [] → Safety.runs (.nbfnc k w) s k { c with nbOps := open_, memHold := .nbfnc open_ })) ∧
    (infoNbrd.okT w = true →
      let m := (readS c w.a).toNat
      let off := (readS c w.b).toNat
      let n := w.imm.toNat % 256 + 1
      let e := getDot s m
      (4096 ≤ m → Safety.traps (.nbrd k w) s k 0x03) ∧
      (m < 4096 → off % 256 ≠ 0 → Safety.traps (.nbrd k w) s k 0x04) ∧
      (m < 4096 → off % 256 = 0 → 0x100000 < off + 256 * n → Safety.traps (.nbrd k w) s k 0x03) ∧
      (m < 4096 → off % 256 = 0 → off + 256 * n ≤ 0x100000 →
        ((e.state = .free ∨ e.kind ≠ 3) → Safety.runs (.nbrd k w) s k (writeS c w.d 0xF1)) ∧
        (e.kind = 3 → e.state = .active → Safety.runs (.nbrd k w) s k { c with memHold := .nbrd m w.d.toNat n off }) ∧
        (e.kind = 3 → e.state = .failed ∨ e.state = .timedOut ∨ e.state = .cancelled →
          Safety.runs (.nbrd k w) s k (writeS c w.d (BitVec.ofNat 64 e.result))) ∧
        (e.kind = 3 → e.state = .done → ∃ sp : List Host.Cell,
          (∀ x, readByte sp x = if off ≤ x ∧ x < off + 256 * n then (pocRead s e.dst (256 * n)).getD (x - off) 0
            else readByte c.scratch x) ∧
          Safety.runs (.nbrd k w) s k (writeS { c with scratch := sp } w.d 0))))

/-- At operator privilege on a core ready to execute: a cell index of 32,768 or more raises ADDRESS; SCCFG, SCSET,
SCADD and SCDL of a held cell raise SYNC_HELD; SCSET, SCADD and SCDL of an UNCONFIGURED cell SYNC_CONFIG, as do SCDL
without DEADLINE_EN and SCCFG with a bad operand. SCRD writes the value to sD and WRAPPED to pC. When no core waits
on the cell: SCCFG sets its configuration, value (modulo its width) and deadline; SCSET sets its value modulo its
width; SCADD writes the old value to sD and adds modulo the width, setting WRAPPED when the sum passes it; SCDL sets
the deadline slot. Each goes on at PC + 8 and changes nothing else. [R75, R76, R79, R80, R121] -/
def Obligations.SyncCellInstructions : Prop :=
  ∀ (s : State) (k : Nat) (w : FmtT), Safety.operator s k w.pg w.pn →
    let c := getCore s k
    let n := (readS c w.a).toNat
    let e := getCell s n
    let width := if e.kind = 2 then 48 else 64
    let b := readS c w.b
    let quiet := ∀ j cond tg pd tm, (getCore s j).wait ≠ .cell n cond tg pd tm
    let cellTo := fun (i : Instr) (v : Core) (x : SyncCell) => Safety.answers i s fun t =>
      getCell t n = x ∧ (∀ j, j ≠ n → getCell t j = getCell s j) ∧ Safety.onCore { s with cells := t.cells } k (Safety.past v) t
    (∀ p ∈ ([(.sccfg k w, infoSccfg.okT w), (.scrd k w, infoScrd.okT w), (.scset k w, infoScset.okT w),
        (.scadd k w, infoScadd.okT w), (.scdl k w, infoScdl.okT w)] : List (Instr × Bool)), p.2 = true →
      (32768 ≤ n → Safety.traps p.1 s k 0x03) ∧
      (32512 ≤ n → n < 32768 → p.1 ≠ .scrd k w → Safety.traps p.1 s k 0x08) ∧
      (n < 32512 → e.kind = 0 → p.1 ≠ .scrd k w → p.1 ≠ .sccfg k w → Safety.traps p.1 s k 0x07)) ∧
    (infoScrd.okT w = true → n < 32768 →
      Safety.runs (.scrd k w) s k (writeP (writeS c w.d e.value) w.c.toNat (e.cfg.getLsbD 24))) ∧
    (infoSccfg.okT w = true → n < 32512 →
      let v := (readS c w.c).toNat
      ((2 ^ 32 ≤ v ∨ v % 2 ^ 25 ≠ 0 ∨ 2 < v / 2 ^ 29 % 8 ∨ 5 < v / 2 ^ 26 % 8) → Safety.traps (.sccfg k w) s k 0x07) ∧
      (quiet → v < 2 ^ 32 → v % 2 ^ 25 = 0 → v / 2 ^ 29 % 8 ≤ 2 → v / 2 ^ 26 % 8 ≤ 5 →
        cellTo (.sccfg k w) c { value := BitVec.ofNat 64 (b.toNat % 2 ^ (if v / 2 ^ 29 = 2 then 48 else 64)),
                                cfg := BitVec.ofNat 32 v, deadline := readS c w.d })) ∧
    (n < 32512 → e.kind ≠ 0 →
      (infoScset.okT w = true → quiet →
        cellTo (.scset k w) c { e with value := BitVec.ofNat 64 (b.toNat % 2 ^ width) }) ∧
      (infoScadd.okT w = true → quiet →
        cellTo (.scadd k w) (writeS c w.d e.value)
          { e with value := BitVec.ofNat 64 ((e.value.toNat + b.toNat) % 2 ^ width),
                   cfg := if 2 ^ width ≤ e.value.toNat + b.toNat then e.cfg ||| 0x1000000#32 else e.cfg }) ∧
      (infoScdl.okT w = true → (e.cfg.getLsbD 25 = false → Safety.traps (.scdl k w) s k 0x07) ∧
        (e.cfg.getLsbD 25 = true → cellTo (.scdl k w) c { e with deadline := b })))

/-- At operator privilege on a core ready to execute: WAIT of a cell index of 32,768 or more raises ADDRESS, of an
UNCONFIGURED cell or timed on one without DEADLINE_EN SYNC_CONFIG. Otherwise, with the target modulo 2^w, it goes on
at PC + 8 with pD set when its condition (REACHED, EQUAL, NOT_EQUAL or ANY_BITS) is met; with pD cleared when it is
timed, the condition is not met and the deadline slot is clear; and else it holds the core's issue on the cell with
its condition, target and predicate. Nothing else changes. [R77, R78, R79, R76] -/
def Obligations.WaitTestsCondition : Prop :=
  ∀ (s : State) (k : Nat) (w : FmtT), Safety.operator s k w.pg w.pn → infoWait.okT w = true →
    let c := getCore s k
    let n := (readS c w.a).toNat
    let e := getCell s n
    let m := 2 ^ (if e.kind = 2 then 48 else 64)
    let t := (readS c w.b).toNat % m
    let v := e.value.toNat
    let timed := decide (modBits w 24 24 = 1)
    let cond := modBits w 26 25
    let met := (cond = 0 ∧ (v + m - t) % m < m / 2) ∨ (cond = 1 ∧ v = t) ∨ (cond = 2 ∧ v ≠ t) ∨ (cond = 3 ∧ v &&& t ≠ 0)
    (32768 ≤ n → Safety.traps (.wait k w) s k 0x03) ∧
    (n < 32768 → (e.kind = 0 ∨ (timed = true ∧ e.cfg.getLsbD 25 = false)) → Safety.traps (.wait k w) s k 0x07) ∧
    (n < 32768 → e.kind ≠ 0 → (timed = true → e.cfg.getLsbD 25 = true) →
      (met → Safety.runs (.wait k w) s k (writeP c w.d.toNat true)) ∧
      (¬ met → timed = true → e.deadline = 0 → Safety.runs (.wait k w) s k (writeP c w.d.toNat false)) ∧
      (¬ met → (timed = false ∨ e.deadline ≠ 0) → Safety.answers (.wait k w) s
        (Safety.onCore s k { c with wait := .cell n cond (readS c w.b) w.d.toNat timed })))

/-- For every state whose table of cores is in canonical form and every core that waits on a cell in a WAIT whose
instruction is followed by code the core may reach: when the cell's value changes and the wait's condition is met by
the new value, the wait ends with its predicate set; when SCCFG's effect reconfigures the cell, with it cleared;
when the cell's deadline is presented and the wait is timed with its condition not met, with it cleared and the
deadline slot clear. The core goes on at PC + 8. A wait on the cell that is not so ended, and a wait on another
cell, stand as they were. [R78, R79, R75, R76] -/
def Obligations.CellUpdatesEndWaits : Prop :=
  ∀ (s : State) (n j m cond pd : Nat) (target : Word) (timed : Bool), smWf coreDefault s.cores = true →
    (getCore s j).wait = .cell m cond target pd timed → inCode s j ((getCore s j).pc + 8) = true →
    let c := getCore s j
    let ended := fun (t : State) (b : Bool) => getCore t j = Safety.past { writeP c pd b with wait := .none }
    (∀ x : SyncCell,
      getCell (putCell s n x) n = x ∧
      (m = n → waitMet cond x.kind x.value target = true → ended (putCell s n x) true) ∧
      ((m ≠ n ∨ waitMet cond x.kind x.value target = false) → getCore (putCell s n x) j = c)) ∧
    (∀ (cfg : Word32) (v dl : Word), (m = n → ended (configureCell s n cfg v dl) false) ∧
      (m ≠ n → getCore (configureCell s n cfg v dl) j = c)) ∧
    (let x := getCell s n
     getCell (cellDeadline s n) n = { x with deadline := 0 } ∧
     (m = n → timed = true → waitMet cond x.kind x.value target = false → ended (cellDeadline s n) false) ∧
     ((m ≠ n ∨ timed = false ∨ waitMet cond x.kind x.value target = true) → getCore (cellDeadline s n) j = c))

/-- At operator privilege on a core ready to execute: each raises ADDRESS for an index of 4,096 or more. DOTRD
writes word IMM16 of the entry to sD: state, kind, result and the other fields at their places of Table 4-10, and
zero of a FREE entry. DOTREL of a finished entry frees it, which then reads zero, and sets pD; of one ACTIVE or FREE
it changes nothing and clears pD. DOTCAN of an entry not ACTIVE changes nothing and clears pD; of one ACTIVE the
entry stands CANCELLED with RESULT 0x50 and pD is set. [R83, R84, R85, R86, R121] -/
def Obligations.OperationTableInstructions : Prop :=
  ∀ (s : State) (k : Nat) (w : FmtT), Safety.operator s k w.pg w.pn →
    let c := getCore s k
    let m := (readS c w.a).toNat
    let e := getDot s m
    let word0 := dotCode e.state * 2 ^ 60 + e.kind * 2 ^ 56 + e.result * 2 ^ 48 + b2n e.autofree * 2 ^ 47 +
      b2n e.dlEn * 2 ^ 46 + b2n e.cellEn * 2 ^ 45 + e.owner * 2 ^ 32 + e.cell * 2 ^ 16 + e.rc
    (∀ p ∈ ([(.dotrd k w, infoDotrd.okT w), (.dotcan k w, infoDotp.okT w), (.dotrel k w, infoDotp.okT w)] :
        List (Instr × Bool)), p.2 = true → 4096 ≤ m → Safety.traps p.1 s k 0x03) ∧
    (infoDotrd.okT w = true → m < 4096 → Safety.runs (.dotrd k w) s k (writeS c w.d (if e.state = .free then 0 else
      BitVec.ofNat 64 (([word0, e.bytesDone, e.start, e.deadline] : List Nat).getD w.imm.toNat 0)))) ∧
    (infoDotp.okT w = true → m < 4096 →
      ((e.state = .free ∨ e.state = .active) → Safety.runs (.dotrel k w) s k (writeP c w.d.toNat false)) ∧
      (e.state ≠ .free → e.state ≠ .active → Safety.answers (.dotrel k w) s fun t =>
        getDot t m = {} ∧ (∀ j, j ≠ m → getDot t j = getDot s j) ∧
        Safety.onCore { s with dot := t.dot } k (Safety.past (writeP c w.d.toNat true)) t) ∧
      (e.state ≠ .active → Safety.runs (.dotcan k w) s k (writeP c w.d.toNat false)) ∧
      (e.state = .active → Safety.answers (.dotcan k w) s fun t =>
        (getDot t m).state = .cancelled ∧ (getDot t m).result = 0x50 ∧ (∀ j, j ≠ m → getDot t j = getDot s j) ∧
        (getCore t k).p = (writeP c w.d.toNat true).p ∧ (getCore t k).pc = c.pc + 8))

/-- On a core ready to execute, SYSRD writes to sD, at operator privilege, the global core ID, the physical index,
cluster, quarter, rail, step index, tick, snapshot generation, rate factor and default accumulation that index 0 to
8 and 11 name and zero at every other index; at guest privilege 1 at index 9, the budget left at index 10 and zero
elsewhere. TBRD at operator privilege writes the eight bytes of the snapshot at sA + IMM16, zero beyond its end, and
raises ALIGNMENT where that is not a multiple of 8. Nothing else changes but the PC. (BUDGET_LEFT counts the SYSRD
itself out: assumption 28; how an inexact rate factor is rounded: assumption 20.) [R67, R57, 04_nimyo_model.md] -/
def Obligations.SystemAndTableReads : Prop :=
  ∀ (s : State) (k : Nat) (w : FmtT), Safety.ready s k w.pg w.pn →
    let c := getCore s k
    let i := w.imm.toNat
    let off := (readS c w.a + w.imm.signExtend 64).toNat
    let operator : List Nat := [gidOf s k, k, k / 17, k / 136, k / 17 % 8, c.step.toNat, s.tk, c.gen.toNat, coreRate s k, 0, 0,
      bits (regGet s 0xA0010).toNat 13 12]
    (infoSysrd.okT w = true → Safety.runs (.sysrd k w) s k (writeS c w.d (BitVec.ofNat 64 (match c.guest with
      | some g => if i = 9 then 1 else if i = 10 then g.left else 0
      | none => operator.getD i 0)))) ∧
    (infoTbrd.okT w = true → c.guest = none →
      (off % 8 ≠ 0 → Safety.traps (.tbrd k w) s k 0x04) ∧
      (off % 8 = 0 → ∃ v : Word, Safety.runs (.tbrd k w) s k (writeS c w.d v) ∧
        ∀ j < 8, (v.extractLsb' (8 * j) 8 : Byte) = s.snapshot.getD (off + j) 0))

/-- At operator privilege on a core ready to execute: a descriptor offset that is not a multiple of 32 raises
ALIGNMENT, one past scratchpad ADDRESS; nothing in the descriptor raises a fault. A context that is not live gives
status 0xF0, a cancelled one 0x50, a nonzero zero field 0xF1, KVLD and KVAPP with neither KEYS nor VALUES 0xF1, a
KVLD of no positions 0; each to sD with nothing else done. Otherwise the status the operation answers goes to sD, a
completion code among them is noted as an end of the request, and the core goes on at PC + 8; KVAPP that finds no
free run waits. Where its pages translate and nothing read is uncorrectable, KVLD puts each half named of each
position at its place of the page layout (R227): the bytes of an entry staged in its cluster, zeros of an evicted
page, else the frame's bytes of a confirmed position; no byte outside the page images changes. A first page found in
tier 2 gives NOT_RESIDENT (0xF3). Where its checks pass and its pages stand, KVAPP leaves in its cluster's pool one
entry for each position, with the bytes of the halves named and its SPEC, and every other entry there but for what
has been written to its run. KVCMT confirms exactly the request's complete entries without SPEC, once in a step;
KVDROP removes exactly the unconfirmed entries of the slot at and after the first position. (Positions that are
neither staged nor confirmed, the area checks: assumption 53; pools: 54, 55; buffers: 56; halves from two clusters:
122.) [R111, R112, R227, R232, R241, R245, R246, R249, 05_nimyo_instructions.md] -/
def Obligations.KeyValueInstructions : Prop :=
  ∀ (s : State) (k : Nat) (w : FmtT), Safety.operator s k w.pg w.pn → infoKv.okT w = true →
    let c := getCore s k
    let off := (readS c w.a).toNat
    let d := kvDescOf (readBytes c.scratch off 32)
    let status := fun (i : Instr) (v : Word) => Safety.runs i s k (writeS c w.d v)
    let rows : List (Instr × KvRes) := [(.kvld k w, kvldDo s k d), (.kvapp k w, kvappDo s k c d), (.kvcmt k w, kvcmtDo s d),
      (.kvdrop k w, kvdropDo s d)]
    (∀ p ∈ rows,
      (off % 32 ≠ 0 → Safety.traps p.1 s k 0x04) ∧ (off % 32 = 0 → 0x100000 < off + 32 → Safety.traps p.1 s k 0x03) ∧
      (off % 32 = 0 → off + 32 ≤ 0x100000 →
        ((kvEnabled s = false ∨ rcLive s d.rc = false) → status p.1 0xF0) ∧
        (kvEnabled s = true → rcLive s d.rc = true → rcCancelled s d.rc = true → status p.1 0x50) ∧
        (ctxStatus s d.rc = none → d.zero = false → status p.1 0xF1) ∧
        (ctxStatus s d.rc = none → d.zero = true →
          (∀ t v, p.2 = .status t v → exec p.1 s = .next (advance
            (modCore (if v = 0x11 ∨ v = 0x12 ∨ v = 0x41 then addCode t d.rc v else t) k
              fun c => writeS c w.d (BitVec.ofNat 64 v)) k)) ∧
          (∀ t, p.2 = .wait t → exec p.1 s = .next t)))) ∧
    (off % 32 = 0 → off + 32 ≤ 0x100000 → ctxStatus s d.rc = none → d.zero = true →
      (d.keys = false → d.vals = false → status (.kvld k w) 0xF1 ∧ status (.kvapp k w) 0xF1) ∧
      ((d.keys = true ∨ d.vals = true) → d.count = 0 → status (.kvld k w) 0) ∧
      (let n := k / 17
       let p0 := d.first / 16
       let pages := (d.first + d.count - 1) / 16 - p0 + 1
       let size := kvHalf s
       let staged := fun (pos : Nat) (key : Bool) => (getCluster s n).stg.find? fun e =>
         decide (e.rc = d.rc ∧ e.layer = d.layer ∧ e.hg = d.hg ∧ e.pos = pos) && (d.spec || !e.spec) && (if key then e.key.isSome else e.val.isSome)
       ((d.keys = true ∨ d.vals = true) → 0 < d.count → d.first + d.count ≤ rcRb s d.rc * 8192 → d.off % 256 = 0 →
         d.off + pages * (32 * size) ≤ 0x100000 →
         (∀ s1 es, translatePages s n d.rc d.layer d.hg pages p0 = (s1, .ok es) → s.badWords = [] → geometryOk s = true →
           Safety.answers (.kvld k w) s fun t => ∃ sp : List Host.Cell,
             getCore t k = Safety.past (writeS { c with scratch := sp } w.d 0) ∧ (∀ j, j ≠ k → getCore t j = getCore s j) ∧
             t.mem = s.mem ∧ t.reqs = s.reqs ∧ (∀ x, (x < d.off ∨ d.off + pages * (32 * size) ≤ x) → readByte sp x = readByte c.scratch x) ∧
             ∀ i < d.count, let pos := d.first + i
               let u := pos % 16
               ∀ p, es[pos / 16 - p0]? = some p → let at_ := d.off + (pos / 16 - p0) * (32 * size)
                 (d.keys = true → ∀ j < size, readByte sp (at_ + (u * size + j)) = match staged pos true with
                   | some e => (e.key.getD []).getD j (readByte sp (at_ + (u * size + j)))
                   | none => if p.evicted = true then 0 else if u < p.count then readByte s.mem (4096 * p.frame + (u * size + j))
                     else readByte sp (at_ + (u * size + j))) ∧
                 (d.vals = true → ∀ h < kvH s, ∀ x < kvD s, ∀ b < kvEb s,
                   let o := 16 * size + ((h * kvD s / 16 + x / 16) * 256 + 16 * (x % 16) + u) * kvEb s + b
                   readByte sp (at_ + o) = match staged pos false with
                     | some e => (e.val.getD []).getD ((h * kvD s + x) * kvEb s + b) (readByte sp (at_ + o))
                     | none => if p.evicted = true then 0 else if u < p.count then readByte s.mem (4096 * p.frame + o)
                       else readByte sp (at_ + o))) ∧
         (∀ e, kvInRange s d.rc d.layer d.hg (16 * p0) = true → (getCluster s n).tb.find? (tbKey d.rc d.layer d.hg p0) = some e →
           (pteOf e.pte).hg = d.hg → (pteOf e.pte).evicted = false → (pteOf e.pte).tier = true → e.check = 0 →
           Safety.answers (.kvld k w) s fun t => getCore t k = Safety.past (writeS c w.d 0xF3) ∧ t.mem = s.mem ∧ t.reqs = s.reqs ∧
             ∀ j, j ≠ k → getCore t j = getCore s j)) ∧
       (let dec := declared s d.rc
        let covers := fun (e : StgEntry) => decide (e.rc = d.rc ∧ e.layer = d.layer ∧ e.hg = d.hg ∧ d.first ≤ e.pos ∧ e.pos < d.first + d.count)
        ∀ s1, (d.keys = true ∨ d.vals = true) → 0 < d.count → d.count ≤ 16 → dec.1 ≤ d.first → d.first + d.count ≤ dec.1 + dec.2 →
          kvInRange s d.rc d.layer d.hg d.first = true → kvInRange s d.rc d.layer d.hg (d.first + d.count - 1) = true →
          d.off % 256 = 0 → d.off + d.count * (2 * size) ≤ 0x100000 →
          (d.keys = true → d.first = nextPos s d.rc d.layer d.hg true) → (d.vals = true → d.first = nextPos s d.rc d.layer d.hg false) →
          (∀ q ∈ slotOf s d.rc d.layer d.hg, covers q.2 = true → q.2.spec = d.spec) →
          makePages s n d.rc d.layer d.hg pages p0 = some (s1, .ok ()) →
          Safety.answers (.kvapp k w) s fun t =>
            getCore t k = Safety.past (writeS c w.d 0) ∧ (∀ j, j ≠ k → getCore t j = getCore s j) ∧
            (∀ i < d.count, ∃ e ∈ (getCluster t n).stg, covers e = true ∧ e.pos = d.first + i ∧ e.spec = d.spec ∧
              (d.keys = true → e.key = some (readBytes c.scratch (d.off + i * (2 * size)) size)) ∧
              (d.vals = true → e.val = some (readBytes c.scratch (d.off + i * (2 * size) + size) size))) ∧
            ∀ e ∈ (getCluster s n).stg, covers e = false → ∃ e' ∈ (getCluster t n).stg, { e' with written := e.written } = e)) ∧
      (let mine := fun (e : StgEntry) => decide (e.rc = d.rc) && !e.spec && !e.confirmed
       let es := (allStg s).filter fun q => mine q.2
       ((getReq s d.rc).kvcmt = true → status (.kvcmt k w) 0xF2) ∧
       ((getReq s d.rc).kvcmt = false → (∃ q ∈ es, stgWhole s q.2 = false) → status (.kvcmt k w) 0xF1) ∧
       ((getReq s d.rc).kvcmt = false → es = [] → status (.kvcmt k w) 0) ∧
       ((getReq s d.rc).kvcmt = false → es ≠ [] → (∀ q ∈ es, stgWhole s q.2 = true) → Safety.answers (.kvcmt k w) s fun t =>
         (∀ n < 32, (getCluster t n).stg =
           (getCluster s n).stg.map fun e => if mine e then { e with confirmed := true } else e) ∧
         getReq t d.rc = { getReq s d.rc with kvcmt := true } ∧ getCore t k = Safety.past (writeS c w.d 0) ∧
         { t with cores := s.cores, clusters := s.clusters, reqs := s.reqs, regs := s.regs, hwSet := s.hwSet, hwSetAt := s.hwSetAt } = s)) ∧
      (d.layer < kvLayers s → d.hg < layerHgs s d.layer → Safety.answers (.kvdrop k w) s fun t =>
        (∀ n < 32, (getCluster t n).stg = (getCluster s n).stg.filter fun e =>
          !(decide (e.rc = d.rc ∧ e.layer = d.layer ∧ e.hg = d.hg ∧ d.first ≤ e.pos) && !e.confirmed)) ∧
        getCore t k = Safety.past (writeS c w.d 0) ∧ t.reqs = s.reqs ∧ t.dot = s.dot))

/-- At operator privilege on a core ready to execute: TEMIT and TVERIFY of a request that is not live give status
0xF0, of a cancelled one 0x50, of one with no part in the step 0xF1, with nothing else done. TEMIT with SPEC of a
request that holds eight Mayflies, or while speculation is OFF, gives 0xF1; otherwise the token joins the end of its
pending Mayflies and the status is 0. A second TEMIT without SPEC or TVERIFY for the request in the step gives 0xF2,
and a TVERIFY of more Mayflies than are pending 0xF1, with nothing else done. Otherwise the tokens confirmed, which
go to the emission hold at the step boundary, are the token named, for TVERIFY after the first sB Mayflies (stated
where no SPEC bit of a page changes), up to the first that is a stop token or reaches the token limit (R303);
TVERIFY leaves the request no Mayfly, confirms its complete speculative entries at the accepted positions and
removes its other speculative ones. Where the descriptor and the tenant's entry lie apart in memory with no word in
error, BUDGET falls by the tokens named, not below 0, unless the tenant is UNMETERED, OVERDRAW takes the excess of
the charge that brings BUDGET to zero in the step and grows by each later one (R281), and the status is
BUDGET_PAUSED (0x20) when BUDGET then reads zero and else 0. The core goes on at PC + 8. (A request with a replay
list confirms recorded tokens, assumption 70 for verify steps.) [R119, R118, R281, R303, 05_nimyo_instructions.md]
-/
def Obligations.TokenInstructions : Prop :=
  ∀ (s : State) (k : Nat) (w : FmtT), Safety.operator s k w.pg w.pn →
    let c := getCore s k
    let rc := (readS c w.a).toNat % 65536
    let r := getReq s rc
    let spec := modBits w 29 29 = 1
    let named := ∃ p, s.sched.cur = some p ∧ (p.members.any fun m => decide (m.rc = rc) && !m.gone) = true
    let status := fun (i : Instr) (v : Word) => Safety.runs i s k (writeS c w.d v)
    (∀ p ∈ ([(.temit k w, infoTemit.okT w), (.tverify k w, infoTverify.okT w)] : List (Instr × Bool)), p.2 = true →
      (rcLive s rc = false → status p.1 0xF0) ∧ (rcLive s rc = true → rcCancelled s rc = true → status p.1 0x50) ∧
      (rcLive s rc = true → rcCancelled s rc = false → ¬ named → status p.1 0xF1)) ∧
    (rcLive s rc = true → rcCancelled s rc = false → named →
      (infoTemit.okT w = true → spec →
        ((modeSpec s = false ∨ 8 ≤ r.mayflies.length) → status (.temit k w) 0xF1) ∧
        (modeSpec s = true → r.mayflies.length < 8 → Safety.answers (.temit k w) s fun t =>
          getReq t rc = { r with mayflies := r.mayflies ++ [(readS c w.b).extractLsb' 0 32] } ∧
          (∀ n, n ≠ rc → getReq t n = getReq s n) ∧ getCore t k = Safety.past (writeS c w.d 0) ∧
          { t with cores := s.cores, reqs := s.reqs, mem := s.mem, hostMem := s.hostMem, badWords := s.badWords, softWords := s.softWords,
                   regs := s.regs, hwSet := s.hwSet, hwSetAt := s.hwSetAt, integ := s.integ, msix := s.msix } = s)) ∧
      (let ten := rcTenant s rc
       let budget := tenBudget s ten
       let gen := rcGet s rc 0x38 4
       let limit := rcGet s rc 0x34 4
       let stops := (List.range 4).map fun i => rcGet s rc (0x40 + 4 * i) 4
       let apart := s.badWords = [] ∧ s.softWords = [] ∧ rcAddr s rc + 256 ≤ hostBase ∧ tenAddr s ten + 64 ≤ hostBase ∧
         (rcAddr s rc + 256 ≤ tenAddr s ten ∨ tenAddr s ten + 64 ≤ rcAddr s rc)
       let taken := fun (toks : List Word32) (t : State) =>
         let ends := fun i => (∃ x, toks[i]? = some x ∧ x ≠ 0xFFFFFFFF ∧ x.toNat ∈ stops) ∨ limit ≤ gen + i + 1
         (getReq t rc).confirmed = true ∧ (getReq t rc).charges = r.charges ++ [(stepNow s, if tenUnmetered s ten then 0 else toks.length)] ∧
         (∀ n, n ≠ rc → getReq t n = getReq s n) ∧
         ∃ m, 0 < m ∧ m ≤ toks.length ∧ (getReq t rc).tokens = toks.take m ∧ (∀ i, i + 1 < m → ¬ ends i) ∧ (m < toks.length → ends (m - 1))
       let charged := fun (n : Nat) (t : State) =>
         tenBudget t ten = (if tenUnmetered s ten then budget else budget - n) ∧
         tenGet t ten 0x20 8 = (if tenUnmetered s ten = true then tenGet s ten 0x20 8
           else if ten ∈ s.sched.zeroed ∧ budget = 0 then (tenGet s ten 0x20 8 + n) % 2 ^ 48
           else if n < budget then tenGet s ten 0x20 8 else n - budget) ∧
         (getCore t k = Safety.past (writeS c w.d (if tenUnmetered s ten = false ∧ budget ≤ n then 0x20 else 0))) ∧
         (tenUnmetered s ten = false → budget ≤ n → 0x20 ∈ (getReq t rc).codes)
       r.replay = [] →
      (infoTemit.okT w = true → ¬ spec →
        (r.confirmed = true → status (.temit k w) 0xF2) ∧
        (r.confirmed = false → Safety.answers (.temit k w) s fun t =>
          taken [(readS c w.b).extractLsb' 0 32] t ∧ (getReq t rc).mayflies = r.mayflies ∧ t.clusters = s.clusters ∧
          (getCore t k = Safety.past (writeS c w.d 0) ∨ getCore t k = Safety.past (writeS c w.d 0x20)) ∧ (apart → charged 1 t))) ∧
      (infoTverify.okT w = true →
        let n := (readS c w.b).toNat
        (r.confirmed = true → status (.tverify k w) 0xF2) ∧
        (r.confirmed = false → r.mayflies.length < n → status (.tverify k w) 0xF1) ∧
        let start := (declared s rc).1
        let kept := fun (e : StgEntry) => e.spec && stgWhole s e && decide (e.rc = rc ∧ start < e.pos ∧ e.pos ≤ start + n)
        let pagesStand := (∀ q ∈ allStg s, q.2.rc = rc → q.2.spec = true → kept q.2 = true) ∨
          ∀ layer hg page a p, findPte s rc layer hg page = some (a, p) → p.spec = false
        (r.confirmed = false → n ≤ r.mayflies.length → Safety.answers (.tverify k w) s fun t =>
          (getReq t rc).confirmed = true ∧ (getReq t rc).mayflies = [] ∧ (getReq t rc).verify = some (r.mayflies.length, n) ∧
          (pagesStand → taken (r.mayflies.take n ++ [(readS c w.c).extractLsb' 0 32]) t) ∧
          (∀ j < 32, (getCluster t j).stg = ((getCluster s j).stg.map fun e => if kept e then { e with confirmed := true } else e).filter
             fun e => !(decide (e.rc = rc) && e.spec && !e.confirmed)) ∧
          (getCore t k = Safety.past (writeS c w.d 0) ∨ getCore t k = Safety.past (writeS c w.d 0x20)) ∧
          (apart → pagesStand → charged (n + 1) t)))))

/-- At operator privilege on a core ready to execute: AMRG writes m = max(m1, m2), l and the empty-row flag to lanes
0 to 2 of vC and +0 to its others, and to each lane of vD:vD+1 the weighted sum a1*o1 + a2*o2 (0 when m is minus
infinity), divided by l with FINAL, and 0 with the flag 1.0 when l is then zero. RPUT raises ALIGNMENT for a
misaligned offset or address and ADDRESS for lines past scratchpad, an address outside the peer windows or in the
device's own; otherwise its lines, from scratchpad as it stands, are handed to the link for the window's device, and
the core goes on at PC + 8. A lane of vC that is also one of vD rests on assumption 128, the larger of NaN partials
on 18, lines past the window on 79. [R117, R115, R324, 05_nimyo_instructions.md] -/
def Obligations.AttentionMergeAndRemoteWrite : Prop :=
  ∀ (s : State) (k : Nat) (w : FmtT), Safety.operator s k w.pg w.pn →
    let c := getCore s k
    (infoAmrg.okT w = true → ∃ o0 o1 r : VecReg,
      Safety.runs (.amrg k w) s k (writeV (writeV (writeV c w.d o0) (w.d + 1) o1) w.c r) ∧
      let q := laneBits 8 (readV c w.c)
      let m := pickLane 8 true (q 0) (q 2)
      let empty := m = 0xFF800000
      let ex := fun a => encodeF 8 (expF 0 (decodeF 8 (encodeF 8 (addF (decodeF 8 a) (negF (decodeF 8 m))))))
      let both := fun x y => if empty then 0 else fadd32 (fmul32 (ex (q 0)) x) (fmul32 (ex (q 2)) y)
      let l := both (q 1) (q 3)
      let final := modBits w 29 29 = 1
      let noSum := l % 2 ^ 31 = 0
      let out := fun (x y : Nat) => if final then (if noSum then 0 else encodeF 8 (divF (decodeF 8 (both x y)) (decodeF 8 l))) else both x y
      (laneBits 8 r 0, laneBits 8 r 1, laneBits 8 r 2) = (m % 2 ^ 32, l % 2 ^ 32, if final ∧ noSum then 0x3F800000 else 0) ∧
      (∀ j, 3 ≤ j → j < 64 → laneBits 8 r j = 0) ∧
      ∀ j < 64, laneBits 8 o0 j = out (laneBits 8 (readV c w.a) j) (laneBits 8 (readV c w.b) j) % 2 ^ 32 ∧
        laneBits 8 o1 j = out (laneBits 8 (readV c (w.a + 1)) j) (laneBits 8 (readV c (w.b + 1)) j) % 2 ^ 32) ∧
    (infoRput.okT w = true →
      let off := (readS c w.a).toNat
      let a := (readS c w.b).toNat
      let n := w.imm.toNat % 256 + 1
      let dest := (a - 0xC00000000000) / 0x1000000000
      let inWindow := (a - 0xC00000000000) % 0x1000000000
      let outside := 0x100000 < off + 256 * n ∨ a < 0xC00000000000 ∨ 0x1000000000000 < a + 256 * n ∨ dest = ownId s ∨
        0x1000000000 < inWindow + 256 * n
      ((off % 256 ≠ 0 ∨ a % 256 ≠ 0) → Safety.traps (.rput k w) s k 0x04) ∧
      (off % 256 = 0 → a % 256 = 0 → outside → Safety.traps (.rput k w) s k 0x03) ∧
      (off % 256 = 0 → a % 256 = 0 → ¬ outside → exec (.rput k w) s = .next (advance
        (sendRput (markLinks s) dest inWindow ((readS c w.c).toNat % 32768)
          ((List.range n).map fun i => readBytes c.scratch (off + 256 * i) 256)) k)))

/-- On a device that is FATAL, without power or held in reset, a well-formed core instruction changes nothing, and
an event that is neither of class 0 nor a board command (completions, deadlines, doorbells, host commands, scheduler
events, frames, memory and integrity events) changes nothing but the tick counter, which takes the event's tick when
that is later. The rows of the statement are those the model presents so. Power off, reset held and late ticks rest
on assumptions 4 and 1. [R52, 03_time_and_events.md] -/
def Obligations.DeviceNotRunningDiscardsEvents : Prop :=
  ∀ (s : State) (t : Nat), alive s = false →
    (∀ i k pg pn, Safety.issued i = some (k, pg, pn) → i.wf = true → exec i s = .next s) ∧
    (∀ m < 4096, ∀ i ∈ ([.dmaDone t m, .tierDone t m, .nearBankDone t m, .collectiveDone t m, .kvImportDone t m, .flushDone t m,
        .invalidateDone t m, .operationDeadline t m, .routeRetry t m] : List Instr), exec i s = .next (atTick s t)) ∧
    (∀ q < 256, ∀ v c, ∀ i ∈ ([.submissionDoorbell t q v, .completionHeadDoorbell t q v, .admitCmd t q c, .cancel t q c,
        .park t q c, .unpark t q c, .tenantCmd t q c, .loadImage t q c] : List Instr), exec i s = .next (atTick s t)) ∧
    (∀ p < 17, ∀ f, exec (.linkFrame t p f) s = .next (atTick s t)) ∧
    ∀ i ∈ ([.stepBoundary t, .stepLaunch t, .idleFormation t, .stepWatchdog t, .tierWaitLimit t, .heartbeatSend t,
        .heartbeatSilence t] : List Instr), exec i s = .next (atTick s t)

/-- For every ACTIVE entry, every final state and RESULT: the entry stands in that state with that RESULT, or is
FREE and all zero when it is DONE with AUTOFREE; every other entry is unchanged. With CELL_EN, a COUNTER or ARRIVE
cell takes the addition of 1 as it then stands and an UNCONFIGURED cell is unchanged; without it no cell changes.
The request of an entry with RC_EN is noted to end with RESULT exactly when the entry is FAILED, or TIMED_OUT with a
nonzero RESULT. On a core in no WAIT, an NBFNC at the head of the memory queue no longer waits for the entry, and is
gone once it waits for none; an NBRD of the entry there completes: of one DONE it copies the lines of its
destination to scratchpad and writes zero, of another it writes RESULT alone; every other core in no WAIT is
unchanged. (How a held memory queue is modelled: assumption 141.) [R84, R83, R76, R114] -/
def Obligations.EntryLeavesActive : Prop :=
  ∀ (s : State) (m : Nat) (st : DotState) (result : Nat), (getDot s m).state = .active → st ≠ .active →
    let e := getDot s m
    let t := leaveActive s m st result
    getDot t m = (if st = .done ∧ e.autofree = true then {} else { e with state := st, result := result }) ∧
    (∀ j, j ≠ m → getDot t j = getDot s j) ∧
    (∀ n, getCell t n = if e.cellEn = true ∧ n = e.cell ∧ (getCell s n).kind ≠ 0 then
      let c := getCell s n
      let v := c.value.toNat + 1
      let w := 2 ^ (if c.kind = 2 then 48 else 64)
      { c with value := BitVec.ofNat 64 (v % w), cfg := if w ≤ v then c.cfg ||| 0x1000000#32 else c.cfg } else getCell s n) ∧
    (∀ n, (getReq t n).codes = if n = e.rc ∧ e.rcEn = true ∧ (st = .failed ∨ (st = .timedOut ∧ result ≠ 0)) then
      (getReq s n).codes ++ [result] else (getReq s n).codes) ∧
    (∀ k, (getCore s k).wait = .none →
      let c := getCore s k
      (c.memHold = .none → getCore t k = c) ∧
      (∀ ops, c.memHold = .nbfnc ops → getCore t k = if m ∈ ops then
        { c with memHold := if ops.filter (fun o => o ≠ m) = [] then .none else .nbfnc (ops.filter fun o => o ≠ m) } else c) ∧
      (∀ x d n off, c.memHold = .nbrd x d n off → x ≠ m → getCore t k = c) ∧
      (∀ d n off, c.memHold = .nbrd m d n off → st ≠ .done →
        getCore t k = writeS { c with memHold := .none } (BitVec.ofNat 5 d) (BitVec.ofNat 64 result)) ∧
      ∀ d n off, c.memHold = .nbrd m d n off → st = .done → e.dst + 256 * n ≤ 0x4800000000 → badIn s e.dst (256 * n) = none →
        getCore t k = writeS { c with scratch := writeBytes c.scratch off (readBytes s.mem e.dst (256 * n)), memHold := .none }
          (BitVec.ofNat 5 d) 0) ∧
    t.mem = s.mem ∧ t.tk = s.tk

/-- On a running device, a completion event of an entry that is not an ACTIVE operation of its kind changes nothing
but the tick. FLUSH_DONE writes back each dirty unguarded line found and leaves it clean; INVALIDATE_DONE drops its
lines, memory as it was. DMA_DONE and TIER_DONE of a plain transfer whose source (scratchpad, HBM, tier 2 or the
host window) can be read and whose destination takes writes leave the destination's bytes equal to the source's and
every other byte of device and host memory as it was; from a compressed zone the destination holds the blocks the
zone's map entries decode to; one block to a zone leaves its map entry, payload and free sectors as R169 says, or
sets POOL_FULL and fails 0x11 with memory unchanged. An uncorrectable source word fails 0x12, an unreadable tier
0x11, a destination in no row 0x41. NEAR_BANK_DONE needs every command finished; COLLECTIVE_DONE copies SCRATCH
whole to the destination; KV_IMPORT_DONE of a one-page host import writes the page to the run on top of the stack,
its entry in the leaf block and its frame entry. Each that completes is DONE with RESULT 0 (FREE with AUTOFREE).
(Assumptions 8, 11, 16, 42, 43, 57, 131 and 139.) [R84, R108, R185, R186, R166, R169, R170, R174, R153, R210, R328,
R253] -/
def Obligations.OperationCompletionEvents : Prop :=
  ∀ (s : State) (t m : Nat), alive s = true → m < 4096 →
    let u := atTick s t
    let e := getDot s m
    let isDone := fun (v : State) (x : DotEntry) => getDot v m = (if e.autofree then {} else { x with state := .done, result := 0 }) ∧
      v.tk = reach s.tk t
    let cl := getCluster s (clusterOf e.core)
    let byteAt := fun (v : State) (sp : Bool) (a : Nat) => if sp then readByte (getCore v e.core).scratch a
      else if hostBase ≤ a ∧ a < peerBase then readByte v.hostMem (busAddr s a) else readByte v.mem a
    -- no error record is written, and no NBRD at the head of the core's memory queue ends with the entry
    let plainEnd := (e.cellEn = true → (getCell s e.cell).kind ≠ 0) ∧ (∀ d n o, (getCore s e.core).memHold ≠ .nbrd m d n o)
    let srcOk := e.srcSp = true ∨ (rowOf s e.src e.len = .hbm ∧ badIn s e.src e.len = none ∧ (readReady u e.src e.len).2 = true) ∨
      ((rowOf s e.src e.len = .tier2 ∨ rowOf s e.src e.len = .host) ∧ readFault s e.src e.len = none)
    let dstOk := e.dstSp = true ∨ (rowOf s e.dst e.len = .hbm ∧ guarded s e.dst e.len = false) ∨
      rowOf s e.dst e.len = .tier2 ∨ rowOf s e.dst e.len = .host
    let apart := e.srcSp ≠ e.dstSp ∨ e.src + e.len ≤ e.dst ∨ e.dst + e.len ≤ e.src
    let framed := fun (v : State) =>
      (∀ x, e.dstSp = true ∨ x < e.dst ∨ e.dst + e.len ≤ x → readByte v.mem x = readByte s.mem x) ∧
      (∀ x, e.dstSp = true ∨ rowOf s e.dst e.len ≠ .host ∨ x < busAddr s e.dst ∨ busAddr s e.dst + e.len ≤ x →
        readByte v.hostMem x = readByte s.hostMem x)
    (∀ p ∈ ([(.dmaDone t m, 1), (.tierDone t m, 2), (.nearBankDone t m, 3), (.collectiveDone t m, 4), (.kvImportDone t m, 5),
        (.flushDone t m, 6), (.invalidateDone t m, 7)] : List (Instr × Nat)),
      (e.state ≠ .active ∨ e.kind ≠ p.2) → exec p.1 s = .next u) ∧
    (e.state = .active →
      (e.kind = 6 → Safety.answers (.flushDone t m) s fun v => isDone v e ∧
        (∀ g l, g ∈ e.lines → cacheGet cl g = some l → cacheGet (getCluster v (clusterOf e.core)) g = some { l with dirty := false } ∧
          (l.dirty = true → guarded s (256 * g) 256 = false → 256 * g + 256 ≤ 0x4800000000 → l.data.length = 256 →
            (∀ h ∈ e.lines, ∀ o, cacheGet cl h = some o → o.data.length = 256) → readBytes v.mem (256 * g) 256 = l.data)) ∧
        (∀ g, g ∉ e.lines → cacheGet (getCluster v (clusterOf e.core)) g = cacheGet cl g)) ∧
      (e.kind = 7 → Safety.answers (.invalidateDone t m) s fun v => isDone v e ∧ v.mem = s.mem ∧
        ∀ g, cacheGet (getCluster v (clusterOf e.core)) g = if g ∈ e.lines then none else cacheGet cl g) ∧
      (e.kind = 3 → (∀ c ∈ e.nb, c.status.isSome = true) → Safety.answers (.nearBankDone t m) s fun v => isDone v e ∧ v.mem = s.mem) ∧
      (∀ p ∈ ([(.dmaDone t m, 1), (.tierDone t m, 2)] : List (Instr × Nat)), e.kind = p.2 →
        -- plain transfers
        (e.compress = false → e.src % 256 = 0 → e.dst % 256 = 0 → e.len % 256 = 0 →
          (plainEnd → srcOk → dstOk → apart → Safety.answers p.1 s fun v =>
            isDone v { e with bytesDone := e.len, readGot := [] } ∧
            (∀ i < e.len, byteAt v e.dstSp (e.dst + i) = byteAt s e.srcSp (e.src + i)) ∧ framed v) ∧
          (e.srcSp = true → e.dstSp = false → 256 ≤ e.len → rowOf s e.dst 256 = .none →
            Safety.answers p.1 s fun v => (getDot v m).state = .failed ∧ (getDot v m).result = 0x41 ∧ v.mem = s.mem) ∧
          (e.srcSp = false → 256 ≤ e.len → rowOf s e.src e.len = .hbm → (badIn s e.src 256).isSome = true →
            (readReady u e.src e.len).2 = true →
            Safety.answers p.1 s fun v => (getDot v m).state = .failed ∧ (getDot v m).result = 0x12 ∧ (getDot v m).bytesDone = 0) ∧
          (e.srcSp = false → 256 ≤ e.len → (rowOf s e.src e.len = .tier2 ∨ rowOf s e.src e.len = .host) →
            (readFault s e.src 256).isSome = true →
            Safety.answers p.1 s fun v => (getDot v m).state = .failed ∧ (getDot v m).result = 0x11 ∧ v.mem = s.mem)) ∧
        -- from a compressed zone to scratchpad or HBM, the blocks' 256-byte pieces `f`
        (∀ f : Nat → List Byte, e.compress = true → e.srcSp = false → inTierRow e.src = true → dstTier e = false →
          e.dst % 256 = 0 → e.len % 256 = 0 → zonesWaiting s e = false → plainEnd →
          (e.dstSp = true ∨ (rowOf s e.dst e.len = .hbm ∧ guarded s e.dst e.len = false)) →
          (∀ z < 16, 0x100000000000 ≤ tzMap s z ∧ 0x100000000000 ≤ tzPool s z) →
          (∀ i < e.len / 256, (f i).length = 256 ∧ ∃ z j bs, zoneOf s (e.src + 256 * i) = some (z, j) ∧ draws s z = false ∧
            zoneReadOne s z j = .ok bs ∧ f i = (bs.drop ((e.src + 256 * i) % 4096)).take 256) →
          Safety.answers p.1 s fun v => isDone v { e with bytesDone := e.len, readGot := [] } ∧
            (∀ i < e.len, byteAt v e.dstSp (e.dst + i) = (f (i / 256)).getD (i % 256) 0) ∧ framed v) ∧
        -- one block from scratchpad to a compressed zone of tier 2
        (∀ z j, e.compress = true → e.srcSp = true → e.dstSp = false → inTierRow e.dst = true → e.len = 4096 →
          zonesWaiting s e = false → zoneOf s e.dst = some (z, j) → tzTier s z = 2 → tzSectors s z % 8 = 0 →
          (∀ r ∈ [(tzMap s z, 16 * tzBlocks s z), (tzBitmap s z, tzSectors s z / 8), (tzPool s z, 512 * tzSectors s z)],
            0x100000000000 ≤ r.1 ∧ r.1 + r.2 ≤ 0x110000000000) →
          overlaps (tzMap s z) (16 * tzBlocks s z) (tzBitmap s z) (tzSectors s z / 8) = false →
          overlaps (tzMap s z) (16 * tzBlocks s z) (tzPool s z) (512 * tzSectors s z) = false →
          overlaps (tzBitmap s z) (tzSectors s z / 8) (tzPool s z) (512 * tzSectors s z) = false →
          (mapEntry s z j).first + (mapEntry s z j).sectors ≤ tzSectors s z →
          let block := readBytes (getCore s e.core).scratch e.src 4096
          let w := compressBlock (decide (bits (regGet s 0xA0010).toNat 7 6 = 0)) block
          let old := mapEntry s z j
          let freed := markSectors u z old.first old.sectors false
          let written := fun (v : State) (first : Nat) => isDone v { e with bytesDone := 4096, readGot := [] } ∧
            mapEntry v z j = { crc := (crc64 block).toNat, method := w.1, sectors := w.2.1, first := first } ∧
            (∀ i < 512 * w.2.1, readByte v.mem (tzPool s z + 512 * first + i) = w.2.2.getD i 0) ∧
            (∀ i < tzSectors s z, sectorUsed v z i = (decide (first ≤ i ∧ i < first + w.2.1) ||
              (sectorUsed s z i && !decide (old.first ≤ i ∧ i < old.first + old.sectors))))
          (w.2.1 = old.sectors → Safety.answers p.1 s fun v => isDone v { e with bytesDone := 4096, readGot := [] } ∧
            mapEntry v z j = { crc := (crc64 block).toNat, method := w.1, sectors := w.2.1, first := old.first } ∧
            ∀ i < 512 * w.2.1, readByte v.mem (tzPool s z + 512 * old.first + i) = w.2.2.getD i 0) ∧
          (∀ first, w.2.1 ≠ old.sectors → freeRun freed z w.2.1 = some first → Safety.answers p.1 s fun v => written v first) ∧
          (w.2.1 ≠ old.sectors → freeRun freed z w.2.1 = none → Safety.answers p.1 s fun v =>
            (getDot v m).state = .failed ∧ (getDot v m).result = 0x11 ∧ v.mem = s.mem ∧ fld v (Reg.mcTzStatusPoolFull z) = 1))) ∧
      (∀ c, e.kind = 4 → e.waitStart = false → e.coll = some c → collComplete u e c = true → plainEnd →
        let n := collOut u e c
        e.dst % 256 = 0 → n % 256 = 0 → c.scratch + n ≤ 0x4800000000 → badIn s c.scratch n = none →
        (e.dstSp = true → e.dst + n ≤ 0x100000) →
        (e.dstSp = false → rowOf s e.dst n = .hbm ∧ guarded s e.dst n = false ∧ overlaps e.dst n c.scratch n = false) →
        Safety.answers (.collectiveDone t m) s fun v => isDone v { e with bytesDone := n } ∧
          (∀ i < n, byteAt v e.dstSp (e.dst + i) = readByte s.mem (c.scratch + i)) ∧
          ∀ x, e.dstSp = true ∨ x < e.dst ∨ e.dst + n ≤ x → readByte v.mem x = readByte s.mem x) ∧
      (e.kind = 5 → e.waitStart = false → importHost e = true → importReadable u e (e.imports.map impRec) = true →
        importRuns u e.rc (e.imports.map impRec) ≤ unreserved u → importFault u e (e.imports.map impRec) = none → e.byScheduler = false →
        Safety.answers (.kvImportDone t m) s fun v => isDone v e) ∧
      (∀ b f, e.kind = 5 → e.waitStart = false → importHost e = true → e.byScheduler = false →
        ∀ r, e.imports.map impRec = [r] → importReadable u e [r] = true → importFault u e [r] = none →
        leafBlock s e.rc r.layer r.hg r.first = some b → 0 < fld s Reg.kvFreeCount → 1 ≤ unreserved s →
        f = readNat s.mem (baseFld s Reg.kvFstackBase + 4 * (fld s Reg.kvFreeCount - 1)) 4 →
        poolFirst s ≤ f → r.count ≤ 16 → r.hg < 256 → rcTenant s e.rc < 4096 →
        s.badWords = [] → s.softWords = [] →
        (∀ x ∈ [(4096 * f, pageBytes s), (pteIn b r.first, 8), (ftAddr s f, 4)], x.1 + x.2 ≤ 0x4800000000) →
        overlaps (4096 * f) (pageBytes s) (pteIn b r.first) 8 = false → overlaps (4096 * f) (pageBytes s) (ftAddr s f) 4 = false →
        overlaps (pteIn b r.first) 8 (ftAddr s f) 4 = false →
        (∀ x ∈ [(4096 * f, pageBytes s), (pteIn b r.first, 8), (ftAddr s f, 4)],
          overlaps x.1 x.2 (rootAddr s e.rc r.layer r.hg r.first) 8 = false ∧ overlaps x.1 x.2 (rcAddr s e.rc) 256 = false) →
        Safety.answers (.kvImportDone t m) s fun v => isDone v e ∧
          readBytes v.mem (4096 * f) (pageBytes s) = physRead s (e.src + pageBytes s * r.src) (pageBytes s) ∧
          pteOf (readNat v.mem (pteIn b r.first) 8) =
            { score := 0, hg := r.hg, count := r.count, valid := true, shared := false, tier := false, spec := false
              evicted := false, exempt := bit r.flags 0 || decide (r.first / 16 < bits s.sched.evict 15 8), frame := f % 2 ^ 32 } ∧
          fteOf (readNat v.mem (ftAddr s f) 4) =
            { owner := rcTenant s e.rc, shared := false, poisoned := false, moving := false, table := false, refs := 1 } ∧
          fld v Reg.kvFreeCount = fld s Reg.kvFreeCount - 1))

/-- On a running device: OPERATION_FAILED of an ACTIVE entry leaves it FAILED with RESULT 0x41 for a refusal, 0x12
for an uncorrectable word or a collective's digest mismatch and 0x11 for a tier failure, and of another entry
changes nothing but the tick. OPERATION_DEADLINE of an ACTIVE entry whose armed deadline the tick has reached, and
whose end waits in no event of that tick, leaves it TIMED_OUT with RESULT 0x10 for a tier transfer or import and 0
for another; otherwise it changes nothing but the tick. Every other entry is unchanged. NEAR_BANK_COMMAND_FINISH of
a command that has started writes its status word (status, request, granules) at 8 times its place in the status
area and notes it finished, or fails the operation 0x41 where a guarded range refuses the write. An MV, SCORE or
VALUE over readable unguarded operands finishes with status 0: each output, an FP32 at its place in the result area,
is the tree sum over slices or pages of partials that add groups of 128 products to a running FP32 value (a SCORE
output is one partial; an evicted page's score is -infinity and its value part +0). (Assumptions 8, 33, 43, 70, 101,
130 and 138.) [R84, R85, R174, R153, R210, R211, R208, R209, R142, R215, R53] -/
def Obligations.OperationFailuresAndDeadlines : Prop :=
  ∀ (s : State) (t m : Nat), alive s = true → m < 4096 →
    let u := atTick s t
    let e := getDot s m
    let others := fun (v : State) => (∀ j, j ≠ m → getDot v j = getDot s j) ∧ v.tk = reach s.tk t
    (∀ (a tier code block d ch pc : Nat), ∀ p ∈ ([(.denied, 0x41), (.ue a, 0x12), (.tier tier code block, 0x11),
        (.digest d ch pc, 0x12)] : List (OpFailure × Nat)), (p.1 = .digest d ch pc → e.kind = 4) →
      (e.state ≠ .active → exec (.operationFailed t m p.1) s = .next u) ∧
      (e.state = .active → Safety.answers (.operationFailed t m p.1) s fun v =>
        (getDot v m).state = .failed ∧ (getDot v m).result = p.2 ∧ others v)) ∧
    ((e.state ≠ .active ∨ e.dlEn = false ∨ reach s.tk t < e.deadline ∨ endsNow u m = true) → exec (.operationDeadline t m) s = .next u) ∧
    (e.state = .active → e.dlEn = true → e.deadline ≤ reach s.tk t → endsNow u m = false →
      Safety.answers (.operationDeadline t m) s fun v =>
        (getDot v m).state = .timedOut ∧ (getDot v m).result = (if e.kind = 2 ∨ e.kind = 5 then 0x10 else 0) ∧ others v) ∧
    (∀ (i : Nat) (c : NbCmd), e.state = .active → e.kind = 3 → e.nb[i]? = some c → c.status = none →
      let f := nbFields c.bytes
      let a := e.dst + 8 * i
      let finished := fun (v : State) (st g : Nat) =>
        physNat v a 8 = (st + 65536 * f.rc + 2 ^ 32 * g) % 2 ^ 64 ∧
        (((getDot v m).nb[i]?).map (·.status)) = some (some (BitVec.ofNat 64 (st + 65536 * f.rc + 2 ^ 32 * g))) ∧
        (getDot v m).nb.map (fun x => (x.bytes, x.status)) =
          (e.nb.set i { c with status := some (BitVec.ofNat 64 (st + 65536 * f.rc + 2 ^ 32 * g)) }).map (fun x => (x.bytes, x.status)) ∧
        (getDot v m).state = .active ∧ v.tk = reach s.tk t ∧
        ∀ j, j ≠ m → { getDot v j with nb := [] } = { getDot s j with nb := [] }
      (c.started = false → exec (.nearBankCommandFinish t m i) s = .next u) ∧
      (c.started = true → guarded s a 8 = true → Safety.answers (.nearBankCommandFinish t m i) s fun v =>
        (getDot v m).state = .failed ∧ (getDot v m).result = 0x41) ∧
      (c.started = true → guarded s a 8 = false → a + 8 ≤ 0x4800000000 → a % 8 = 0 →
        (∀ s1 st g, nbRun u (clusterOf e.core) f = .done s1 st g → smGet boolDefault s1.badWords (a / 16) = false →
          Safety.answers (.nearBankCommandFinish t m i) s fun v => finished v st g) ∧
        -- a command over readable operands outside guarded ranges
        (∀ es : List Pte, s.badWords = [] → s.softWords = [] → nbFieldsOk u f = true → f.rcEn = true ∨ f.kind = 1 →
          (f.rcEn = true → ctxStatus u f.rc = none) → f.pin = false →
          (∀ r ∈ nbUnitRanges f es ++ nbDelivered f, r.1 + r.2 ≤ 0x4800000000 ∧ guarded s r.1 r.2 = false ∧
            (f.rcEn = true → foreignRuns u f.rc r.1 r.2 false = false)) →
          f.result + nbResultBytes f ≤ 0x4800000000 → guarded s f.result (nbResultBytes f) = false →
          (f.rcEn = true → foreignRuns u f.rc f.result (nbResultBytes f) true = false) →
          overlaps f.result (nbResultBytes f) a 8 = false →
          (f.kind = 1 → es = []) →
          (f.kind ≠ 1 → (translatePages u (clusterOf e.core) f.rc f.layer f.hg ((f.rows + 15) / 16) (f.first / 16)).2 = .ok es ∧
            nbPagesOk f es = true ∧
            (translatePages u (clusterOf e.core) f.rc f.layer f.hg ((f.rows + 15) / 16) (f.first / 16)).1.mem = s.mem) →
          let out := fun (v : State) (n : Nat) => readNat v.mem (f.result + 4 * n) 4
          let bf := fun (base i : Nat) => decodeF 6 (readNat s.mem (base + 2 * i) 2)
          let elem := fun (base i : Nat) => if f.fmt = 1 then
              decodeF 1 ((readByte s.mem (base + i / 2)).toNat / 16 ^ (i % 2) % 16)
            else decodeF f.fmt (readByte s.mem (base + i)).toNat
          let run := fun (ts : List FVal) =>
            (chunks 128 (ts.length + 1) ts).foldl (fun r g => encodeF 8 (addF (decodeF 8 r) (windowSum g))) 0
          let width := if f.fmt = 1 then 512 else 256
          Safety.answers (.nearBankCommandFinish t m i) s fun v => finished v 0 (nbGranules f es) ∧
            (f.kind = 1 → ∀ x < f.vecs, ∀ n < f.rows, out v (x * f.rows + n) =
              treeSum ((List.range (f.kk / width)).map fun j => run ((List.range width).map fun y =>
                let p := width * j + y
                let wt := elem (f.source + n * f.kk * fmtBits f.fmt / 8) p
                let sc := if f.fmt = 1 then mulF wt (scaleVal (readByte s.mem (f.scales + n * f.kk / 32 + p / 32)).toNat) else wt
                mulF sc (bf (f.vector + 2 * f.kk * x) p)))) ∧
            (f.kind = 2 → ∀ x < f.vecs, ∀ n < f.rows, ∀ p, es[n / 16]? = some p → out v (x * f.rows + n) =
              if p.evicted then 0xFF800000 else run ((List.range 128).map fun d =>
                mulF (bf (f.vector + 256 * x) d) (elem (4096 * p.frame + 128 * (n % 16)) d))) ∧
            (f.kind = 3 → ∀ x < f.vecs, ∀ d < 128, out v (128 * x + d) =
              treeSum ((List.zip (List.range es.length) es).map fun q => if q.2.evicted then 0 else
                run ((List.range (min 16 (f.rows - 16 * q.1))).map fun y =>
                  mulF (bf (f.vector + 2 * (x * ((f.rows + 127) / 128 * 128))) (16 * q.1 + y))
                    (elem (4096 * q.2.frame + 2048 + 256 * (d / 16) + 16 * (d % 16)) y))))))) 

/-- On a running device: CORE_PART_END ends the part of a core that has yielded and has nothing at the head of its
memory queue, all else of the core and every other core unchanged, and of another core changes nothing but the tick.
STEP_WATCHDOG, once timer 2 is armed and due, ends with STEP_TIMEOUT (0x0B) the part of every core whose part has
not ended, leaves the other cores and disarms the timer; with one such core the last error record is of type 0x01
and names the step, the code, that core's PC and its global ID. TIER_WAIT_LIMIT, once timer 1 is armed and due,
leaves TIMED_OUT with RESULT 0x10 every ACTIVE operation whose limit has passed and whose end waits in no event of
the tick, no other entry changed. SYNC_CELL_DEADLINE of a cell whose slot is set and reached clears the slot and
ends the timed waits on it. Each of the three not armed or not due changes nothing but the tick; a timer 2 held by a
pending repair is not armed. (Assumptions 2 and 4.) [R61, R62, R79, R88, R159, R173, R251, R53] -/
def Obligations.PartEndsAndDeviceTimers : Prop :=
  ∀ (s : State) (t : Nat), alive s = true →
    let u := atTick s t
    (∀ k < 544, let c := getCore s k
      ((c.phase ≠ .yielded ∨ c.memHold ≠ .none) → exec (.corePartEnd t k) s = .next u) ∧
      (c.phase = .yielded → c.memHold = .none → Safety.answers (.corePartEnd t k) s fun v =>
        getCore v k = { c with phase := .ended } ∧ (∀ j, j ≠ k → getCore v j = getCore s j) ∧ v.tk = reach s.tk t ∧ v.dot = s.dot ∧
        ∀ g, cacheGet (getCluster v (clusterOf k)) g = cacheGet (getCluster s (clusterOf k)) g)) ∧
    ((s.timer2 = 0 ∨ reach s.tk t < s.timer2) → exec (.stepWatchdog t) s = .next u) ∧
    (s.timer2 ≠ 0 → s.timer2 ≤ reach s.tk t → Safety.answers (.stepWatchdog t) s fun v =>
      v.timer2 = 0 ∧ (∀ k, let c := getCore s k
        getCore v k = if c.phase = .issuing ∨ c.phase = .yielded then
          { c with phase := .ended, wait := .none, memHold := .none, guest := none, faulted := true } else c) ∧
      (∀ k, (∀ j, j ≠ k → (getCore s j).phase ≠ .issuing ∧ (getCore s j).phase ≠ .yielded) →
        ((getCore s k).phase = .issuing ∨ (getCore s k).phase = .yielded) →
        regBytes v 0x900C0 64 = recordBytes u
          { type := 0x01, step := stepNow s, a0 := 0x0B, a1 := (getCore s k).pc, a2 := gidOf s k, a3 := b2n s.sched.faultRerun })) ∧
    ((s.timer1 = 0 ∨ reach s.tk t < s.timer1) → exec (.tierWaitLimit t) s = .next u) ∧
    (s.timer1 ≠ 0 → s.timer1 ≤ reach s.tk t → smWf dotDefault s.dot = true → Safety.answers (.tierWaitLimit t) s fun v =>
      ∀ m, let e := getDot s m
        if e.state = .active ∧ e.limit ≠ 0 ∧ e.limit ≤ reach s.tk t ∧ endsNow u m = false then
          (getDot v m).state = .timedOut ∧ (getDot v m).result = 0x10
        else getDot v m = e) ∧
    ∀ n < 32768, let c := getCell s n
      ((c.deadline = 0 ∨ reach s.tk t < c.deadline.toNat) → exec (.syncCellDeadline t n) s = .next u) ∧
      (c.deadline ≠ 0 → c.deadline.toNat ≤ reach s.tk t → Safety.answers (.syncCellDeadline t n) s fun v =>
        v = cellDeadline u n ∧ getCell v n = { c with deadline := 0 } ∧ (∀ j, j ≠ n → getCell v j = getCell s j) ∧ v.mem = s.mem)

/-- On a running device, for each of the twelve host commands. While its queue may not be fetched from, the command
changes nothing but the tick. Fetched while the scheduler is not halted, and being neither CANCEL nor LOAD_IMAGE, it
joins the commands that wait for the step boundary, in the order of their doorbells, with the queue's submission
head advanced and one more command outstanding; nothing else changes. A command that acts at once and whose opcode
or fields are bad is completed with the status of its fields, and neither device memory nor any request changes. (A
row is the fetch of its command by the doorbell that delivers it: assumption 103; queues: assumption 102.) [R284,
R407, R285, Table 12-6] -/
def Obligations.HostCommandsAreFetched : Prop :=
  ∀ (s : State) (t q : Nat) (c : HostCmd), alive s = true → q < 256 →
    ∀ p ∈ ([(.admitCmd t q c, 1), (.cancel t q c, 2), (.resumeRequest t q c, 3), (.park t q c, 4), (.unpark t q c, 5),
        (.sharePrefix t q c, 6), (.tenantCmd t q c, 7), (.loadAdapter t q c, 8), (.retireAdapter t q c, 9), (.loadImage t q c, 10),
        (.resumeScheduler t q c, 11), (.guestTable t q c, 12)] : List (Instr × Nat)),
      let qc := Safety.fetched s t q p.2 c
      (canFetch s q = false → exec p.1 s = .next (atTick s t)) ∧
      (canFetch s q = true → p.2 ≠ 2 → p.2 ≠ 10 → flag s Reg.sqStatusHalted = false → Safety.answers p.1 s fun v =>
        v.sched = { s.sched with cmds := insertCmd qc s.sched.cmds } ∧
        fld v (Reg.hqSqHeadsSqHead q) = qc.head ∧
        (∀ off, off ≠ (Reg.hqSqHeadsSqHead q).off → regGet v off = regGet s off) ∧
        (∀ j, getQueue v j = if j = q then
          { getQueue s q with open_ := (getQueue s q).open_ + 1, tail := qc.head, bells := Safety.bellsLeft (getQueue s q).bells qc.head }
        else getQueue s j) ∧
        { v with sched := s.sched, regs := s.regs, hwSet := s.hwSet, hwSetAt := s.hwSetAt, queues := s.queues, tk := s.tk } = s ∧
        v.tk = reach s.tk t) ∧
      (∀ st, canFetch s q = true → (p.2 = 2 ∨ p.2 = 10 ∨ flag s Reg.sqStatusHalted = true) → fieldStatus qc = some st →
        rowOf s (Safety.completionSlot s q) 32 = .host →
        Safety.answers p.1 s fun v => Safety.completed s qc st 0 [] v ∧ Safety.onRequests s v ∧ v.mem = s.mem ∧ v.reqs = s.reqs)

/-- For a command that acts at once, with no word of memory in error and the descriptor below the host window.
CANCEL of a live context not ENDING sets CANCEL_PENDING and notes code 0x50; else status 3. RESUME_REQUEST of a
PAUSED context with limit 0 sets READY, with a limit that fits also GEN_LIMIT; one that does not fit answers 2, a
context not PAUSED 3. PARK of a PREFILL or READY context notes which it was and sets PARKED, with SPILL its pages
that may be spilled are MOVING and listed; else 3. UNPARK of a PARKED context with no page list and no spilled page
restores that state; with spilled pages the pages are listed, the tier wait limit is set and the completion is owed;
else 3. SHARE_PREFIX answers 3 (so to a target that holds valid pages) or 2 where R288 forbids it; it waits while a
page of the source cannot be shared; across tenants with an unshared run it notes 0x41 and answers 5; too few runs
answers 4; else CONFIRMED_POS becomes n and the share is noted. (Assumptions 59, 60, 63 and 71.) [R284, R287, R288,
R305, R250, R251, R237, Table 12-1] -/
def Obligations.HostCommandsOnRequests : Prop :=
  ∀ (s : State) (t q : Nat) (c : HostCmd),
    let rc := c.rc.toNat
    let a := rcAddr s rc
    let st := rcState s rc
    let r := getReq s rc
    let one := fun (v : State) (x : Req) => ∀ j, getReq v j = if j = rc then x else getReq s j
    a + 256 ≤ hostBase → Safety.clean s →
    (Safety.actsAtOnce s t q 2 c → let qc := Safety.fetched s t q 2 c
      (st ≠ 0 → st ≠ 6 → Safety.answers (.cancel t q c) s fun v => Safety.completed s qc 0 0 [] v ∧ Safety.onRequests s v ∧
        v.mem = writeBytes s.mem (a + 2) (natBytes 2 (setBits (rcFlags s rc) 3 3 1)) ∧ one v { r with codes := r.codes ++ [0x50] }) ∧
      (st = 0 ∨ st = 6 → Safety.answers (.cancel t q c) s fun v => Safety.completed s qc 3 0 [] v ∧ v.mem = s.mem ∧ v.reqs = s.reqs)) ∧
    (Safety.actsAtOnce s t q 3 c → let qc := Safety.fetched s t q 3 c
      let limit := fieldAt c.body 0 4
      (st = 5 → limit = 0 → Safety.answers (.resumeRequest t q c) s fun v => Safety.completed s qc 0 0 [] v ∧ Safety.onRequests s v ∧
        v.mem = writeBytes s.mem a [3] ∧ v.reqs = s.reqs) ∧
      (st = 5 → limit ≠ 0 → limit ≤ 16777215 → rcGet s rc 0x24 4 + limit ≤ 8192 * rcRb s rc →
        Safety.answers (.resumeRequest t q c) s fun v => Safety.completed s qc 0 0 [] v ∧ Safety.onRequests s v ∧
          v.mem = writeBytes (writeBytes s.mem (a + 0x34) (natBytes 4 limit)) a [3] ∧ v.reqs = s.reqs) ∧
      (st = 5 → limit ≠ 0 → (16777215 < limit ∨ 8192 * rcRb s rc < rcGet s rc 0x24 4 + limit) →
        Safety.answers (.resumeRequest t q c) s fun v => Safety.completed s qc 2 0 [] v ∧ v.mem = s.mem ∧ v.reqs = s.reqs) ∧
      (st ≠ 5 → Safety.answers (.resumeRequest t q c) s fun v => Safety.completed s qc 3 0 [] v ∧ v.mem = s.mem ∧ v.reqs = s.reqs)) ∧
    (Safety.actsAtOnce s t q 4 c → let qc := Safety.fetched s t q 4 c
      (st = 2 ∨ st = 3 → bit c.flags.toNat 0 = false → Safety.answers (.park t q c) s fun v => Safety.completed s qc 0 0 [] v ∧
        Safety.onRequests s v ∧ v.reqs = s.reqs ∧
        v.mem = writeBytes (writeBytes s.mem (a + 2) (natBytes 2 (setBits (rcFlags s rc) 5 5 (if st = 2 then 1 else 0)))) a [4]) ∧
      (st = 2 ∨ st = 3 → bit c.flags.toNat 0 = true →
        let m := writeBytes (writeBytes s.mem (a + 2) (natBytes 2 (setBits (rcFlags s rc) 5 5 (if st = 2 then 1 else 0)))) a [4]
        let ps := (allPages { s with mem := m } rc).filter fun p => maySpill { s with mem := m } p.2.2.2.2 && decide (spillStack s ≠ 0)
        (ps = [] → Safety.answers (.park t q c) s fun v => Safety.completed s qc 0 0 [] v ∧ v.mem = m ∧ v.reqs = s.reqs) ∧
        (ps ≠ [] → (∀ p ∈ ps, ftAddr s p.2.2.2.2.frame + 4 ≤ hostBase) → Safety.answers (.park t q c) s fun v =>
          one v { r with pages := ps.map (fun p => (p.1, p.2.1, p.2.2.1)), restoring := false, spillFull := false, owed := some qc } ∧
          (∀ p ∈ ps, (ftGet v p.2.2.2.2.frame).moving = true) ∧ v.hostMem = s.hostMem ∧
          ∀ x, (∀ p ∈ ps, x < ftAddr s p.2.2.2.2.frame ∨ ftAddr s p.2.2.2.2.frame + 4 ≤ x) → readByte v.mem x = readByte m x)) ∧
      (st ≠ 2 → st ≠ 3 → Safety.answers (.park t q c) s fun v => Safety.completed s qc 3 0 [] v ∧ v.mem = s.mem ∧ v.reqs = s.reqs)) ∧
    (Safety.actsAtOnce s t q 5 c → let qc := Safety.fetched s t q 5 c
      let away := (allPages (Safety.afterFetch s t q) rc).filter fun p => p.2.2.2.2.tier
      (st = 4 → r.pages = [] → r.needRestore = false → r.parkedFrom = none → away = [] → Safety.answers (.unpark t q c) s fun v =>
        Safety.completed s qc 0 0 [] v ∧ one v { r with restoring := false, limit := 0, owed := none } ∧
        rcState v rc = (if bit (rcFlags s rc) 5 then 2 else 3) ∧ rcFlags v rc = setBits (rcFlags s rc) 5 5 0 ∧
        ∀ x, (x < a ∨ a + 4 ≤ x ∨ x = a + 1) → readByte v.mem x = readByte s.mem x) ∧
      (st = 4 → r.pages = [] → r.needRestore = false → away ≠ [] → Safety.answers (.unpark t q c) s fun v => v.mem = s.mem ∧
        one v { r with pages := away.map fun p => (p.1, p.2.1, p.2.2.1), restoring := true, owed := some qc,
                       limit := reach s.tk t + tierWait s }) ∧
      (st ≠ 4 ∨ r.pages ≠ [] → Safety.answers (.unpark t q c) s fun v =>
        Safety.completed s qc 3 0 [] v ∧ v.mem = s.mem ∧ v.reqs = s.reqs)) ∧
    (Safety.actsAtOnce s t q 6 c → let qc := Safety.fetched s t q 6 c
      let src := fieldAt c.body 0 2
      let n := fieldAt c.body 4 4
      let w := Safety.afterFetch s t q
      let ps := sharePages w src n
      let own := rcTenant s src = c.tenant.toNat ∧ bit c.flags.toNat 0 = true
      let w1 := if own then markShared (setReq w rc { r with share := none }) (rcTenant s src) ps else w
      let mine := rcTenant s rc = rcTenant s src
      let shared := ps.all (fun p => (ftGet w1 p.2.2.2.2.frame).shared) = true
      let bad := st ≠ 2 ∨ rcPos s rc ≠ 0 ∨ r.share.isSome = true ∨ allPages s rc ≠ [] ∨ rcState s src = 0 ∨ rcPos s src < n
      let ok := ¬ bad ∧ n ≠ 0 ∧ n ≤ rcGet s rc 0x24 4 ∧ ps.all (fun p => sharable w p.2.2.2.2) = true
      (bad → Safety.answers (.sharePrefix t q c) s fun v => Safety.completed s qc 3 0 [] v ∧ v.mem = s.mem ∧ v.reqs = s.reqs) ∧
      (¬ bad → (n = 0 ∨ rcGet s rc 0x24 4 < n) →
        Safety.answers (.sharePrefix t q c) s fun v => Safety.completed s qc 2 0 [] v ∧ v.mem = s.mem ∧ v.reqs = s.reqs) ∧
      (¬ bad → n ≠ 0 → n ≤ rcGet s rc 0x24 4 → ps.all (fun p => sharable w p.2.2.2.2) = false →
        Safety.answers (.sharePrefix t q c) s fun v => v.mem = s.mem ∧ v.hostMem = s.hostMem ∧ one v { r with share := some (src, n, qc) }) ∧
      (ok → ¬ mine → ¬ shared → Safety.answers (.sharePrefix t q c) s fun v => Safety.completed s qc 5 0 [] v ∧ v.mem = s.mem ∧
        one v { r with share := none, codes := r.codes ++ [0x41] }) ∧
      (ok → (mine ∨ shared) → unreserved w1 < shareRuns w1 ps → Safety.answers (.sharePrefix t q c) s fun v =>
        Safety.completed s qc 4 0 [] v ∧ v.mem = s.mem ∧ one v { r with share := none }) ∧
      (ok → (mine ∨ shared) → shareRuns w1 ps ≤ unreserved w1 → Safety.answers (.sharePrefix t q c) s fun v =>
        fld v (Reg.hqSqHeadsCqTail q) = (fld s (Reg.hqSqHeadsCqTail q) + 1) % cqSize s q ∧ rcPos v rc = n ∧ (getReq v rc).share = none ∧ (getReq v rc).shared.map (·.1) = some n ∧ v.tk = reach s.tk t))

/-- For a command that acts at once, no word of memory in error, tables below the host window. ADMIT, its image read
from the host window, answers the first status of R287 that applies; accepted, the descriptor is the image with the
device's fields at their values, the pinned version counts one pin more, and completion is SUCCESS; with an import
the context is IMPORTING, its import left for the next boundary where no entry is FREE. TENANT writes the entry's
five fields and keeps its device fields, or answers 2. LOAD_ADAPTER answers 2 for bad operands and 4 without a FREE
version, else writes the lowest FREE version's entry LOADING and starts its copy. RETIRE_ADAPTER sets RETIRED, or
answers 2 or 3. LOAD_IMAGE, likewise read, answers 2 for bad operands, the first failing check of Table 4-14 as
RESULT, else starts the load. RESUME_SCHEDULER clears HALTED, completes and forms a step. GUEST_TABLE with RELEASE
zeroes the range's entries or answers 3; else it answers 2 or 3, or takes the runs and starts its copy. (Assumptions
71 to 73, 121, 123 and 134.) [R284, R287, R58, R90, R280, R282, R283, R289, R297, Table 12-6] -/
def Obligations.HostCommandsOnTables : Prop :=
  ∀ (s : State) (t q : Nat) (c : HostCmd),
    let w := Safety.afterFetch s t q
    let rc := c.rc.toNat
    let f := fieldAt c.body
    let a := rcAddr s rc
    Safety.clean s →
    let queued := fun (v : State) => v.hostMem = s.hostMem ∧ v.msix = s.msix ∧ v.tk = reach s.tk t ∧
      (getQueue v q).open_ = (getQueue s q).open_ + 1 ∧ fld v (Reg.hqSqHeadsSqHead q) = (fld s (Reg.hqSqHeadsSqHead q) + 1) % sqSize s q
    (Safety.actsAtOnce s t q 1 c → a + 256 ≤ hostBase → baseFld s Reg.sqAdapterBaseBase + 32768 ≤ hostBase →
      hostReads s (f 0 8) 256 = true → let qc := Safety.fetched s t q 1 c
      let b := physRead s (f 0 8) 256
      let id := f 8 4
      let vs := pinnable w (fieldAt b 4 2) id
      let st := if rcState s rc ≠ 0 ∨ kvEnabled s = false ∨ pairPermits w rc = false then 3
        else if c.tenant.toNat ≠ fieldAt b 4 2 then 5 else if admitFieldsOk w b = false then 2
        else if guestBarred w b = true then 6 else if id ≠ 0xFFFFFFFF ∧ vs = [] then 7 else 0
      (st ≠ 0 → Safety.answers (.admitCmd t q c) s fun v => Safety.completed s qc st 0 [] v ∧ v.mem = s.mem ∧ v.reqs = s.reqs) ∧
      (st = 0 → id = 0xFFFFFFFF → bit (fieldAt b 2 2) 2 = false → Safety.answers (.admitCmd t q c) s fun v =>
        Safety.completed s qc 0 0 [Reg.sqCountAdmitted.off, Reg.sqCountOvf.off, Reg.kvStatusLive.off] v ∧
        v.mem = writeBytes s.mem a (admitImage qc b 0xFFFF) ∧ rcState v rc = 2 ∧ rcPos v rc = 0 ∧ rcTenant v rc = c.tenant.toNat ∧
        rcAdapter v rc = 0xFFFF ∧ rcGet v rc 0x38 4 = 0 ∧ rcGet v rc 0xA0 8 = qc.tick % 2 ^ 64 ∧
        (∀ j, getReq v j = if j = rc then { ({} : Req) with born := stepNow s } else getReq s j) ∧ Safety.onRequests s v) ∧
      (st = 0 → id = 0xFFFFFFFF → bit (fieldAt b 2 2) 2 = true → (∀ m < 4096, (getDot s m).state ≠ .free) →
        (guardBlocks s (fieldAt b 0xC8 8) (16 * fieldAt b 0xF8 4) = []) → Safety.answers (.admitCmd t q c) s fun v =>
          Safety.completed s qc 0 0 [Reg.sqCountAdmitted.off, Reg.sqCountOvf.off, Reg.kvStatusLive.off] v ∧
          v.mem = writeBytes s.mem a (admitImage qc b 0xFFFF) ∧ rcState v rc = 1 ∧ v.dot = s.dot ∧
          ∀ j, getReq v j = if j = rc then { ({} : Req) with born := stepNow s, needImport := true } else getReq s j) ∧
      (∀ x, st = 0 → id ≠ 0xFFFFFFFF → vs.getLast? = some x → 65534 < adGet s x 2 2 + 1 → Safety.answers (.admitCmd t q c) s fun v =>
        Safety.completed s qc 4 0 [] v ∧ v.mem = s.mem ∧ v.reqs = s.reqs) ∧
      (∀ x, st = 0 → id ≠ 0xFFFFFFFF → vs.getLast? = some x → adGet s x 2 2 < 65534 → bit (fieldAt b 2 2) 2 = false →
        (adAddr s x + 32 ≤ a ∨ a + 256 ≤ adAddr s x) →
        Safety.answers (.admitCmd t q c) s fun v =>
          let m := writeBytes s.mem a (admitImage qc b x)
          v.mem = writeBytes m (adAddr s x + 2) (natBytes 2 (readNat m (adAddr s x + 2) 2 + 1)) ∧ Safety.onRequests s v)) ∧
    (Safety.actsAtOnce s t q 7 c → let qc := Safety.fetched s t q 7 c
      let n := c.tenant.toNat
      let e := tenAddr s n
      let bad := 2 ^ 48 ≤ f 0 8 ∨ 2 ^ 48 ≤ f 8 8 ∨ 4 ≤ f 24 4
      (bad → Safety.answers (.tenantCmd t q c) s fun v => Safety.completed s qc 2 0 [] v ∧ v.mem = s.mem ∧ v.reqs = s.reqs) ∧
      (¬ bad → e + 64 ≤ hostBase → Safety.answers (.tenantCmd t q c) s fun v =>
        Safety.completed s qc 0 0 [] v ∧ Safety.onRequests s v ∧ v.reqs = s.reqs ∧
        tenGet v n 0 8 = (if bit c.flags.toNat 0 then min (2 ^ 48 - 1) (tenBudget s n + f 0 8) else f 0 8) ∧ tenGet v n 8 8 = f 8 8 ∧
        tenGet v n 0x10 4 = f 16 4 ∧ tenGet v n 0x14 4 = f 20 4 ∧ tenGet v n 0x18 8 = (reach s.tk t + 100 * f 20 4) % 2 ^ 64 ∧
        tenGet v n 0x2C 4 = tenGet s n 0x2C 4 / 4 * 4 + f 24 4 ∧
        ∀ x, (x < e ∨ e + 0x30 ≤ x ∨ (e + 0x20 ≤ x ∧ x < e + 0x2C)) → readByte v.mem x = readByte s.mem x)) ∧
    (Safety.actsAtOnce s t q 8 c → baseFld s Reg.sqAdapterBaseBase + 32768 ≤ hostBase → let qc := Safety.fetched s t q 8 c
      let ok := loadFieldsOk w (f 8 8) (f 16 8) (f 24 8) (f 32 4)
      (ok = false → Safety.answers (.loadAdapter t q c) s fun v => Safety.completed s qc 2 0 [] v ∧ v.mem = s.mem ∧ v.reqs = s.reqs) ∧
      (ok = true → (∀ x < 1024, adGet s x 0 1 ≠ 0) →
        Safety.answers (.loadAdapter t q c) s fun v => Safety.completed s qc 4 0 [] v ∧ v.mem = s.mem ∧ v.reqs = s.reqs) ∧
      (∀ x < 1024, ok = true → adGet s x 0 1 = 0 → (∀ y < x, adGet s y 0 1 ≠ 0) → Safety.answers (.loadAdapter t q c) s fun v =>
        queued v ∧ v.reqs = s.reqs ∧ v.sched = { s.sched with adapters := s.sched.adapters ++ [(x, some qc)], loadOrder := x :: s.sched.loadOrder } ∧
        v.mem = writeBytes s.mem (adAddr s x) (natBytes 1 1 ++ natBytes 1 (2 * b2n (bit c.flags.toNat 0)) ++ natBytes 2 0 ++
          natBytes 4 (f 0 4) ++ natBytes 8 (f 16 8) ++ natBytes 8 (f 24 8) ++ natBytes 4 (f 32 4) ++ natBytes 2 c.tenant.toNat ++
          natBytes 2 0))) ∧
    (Safety.actsAtOnce s t q 9 c → baseFld s Reg.sqAdapterBaseBase + 32768 ≤ hostBase → let qc := Safety.fetched s t q 9 c
      let x := f 0 2
      let st := if 1024 ≤ x then 2 else if adGet s x 0 1 = 0 then 3 else 0
      Safety.answers (.retireAdapter t q c) s fun v => Safety.completed s qc st 0 [] v ∧ Safety.onRequests s v ∧ v.reqs = s.reqs ∧
        v.mem = if st = 0 then writeBytes s.mem (adAddr s x + 1) (natBytes 1 (setBits (adGet s x 1 1) 0 0 1)) else s.mem) ∧
    (Safety.actsAtOnce s t q 10 c → let qc := Safety.fetched s t q 10 c
      let off := f 8 4
      let kind := f 12 1
      let h := physRead s (f 0 8) 128
      let len := fieldAt h 0x0C 4
      let code := if len = 0 then [] else physRead s (f 0 8 + 128) len
      let bad := 1 < kind ∨ off % 8 ≠ 0 ∨ 0x10000 ≤ off
      let st := imageStatus w h code off kind
      (bad → Safety.answers (.loadImage t q c) s fun v => Safety.completed s qc 2 0 [] v ∧ v.mem = s.mem ∧ v.loads = s.loads) ∧
      (¬ bad → hostReads s (f 0 8) 128 = true → (len ≠ 0 → hostReads s (f 0 8 + 128) len = true) →
        (st ≠ 0 → Safety.answers (.loadImage t q c) s fun v => Safety.completed s qc 0 st [] v ∧ v.mem = s.mem ∧ v.loads = s.loads) ∧
        (st = 0 → Safety.answers (.loadImage t q c) s fun v => queued v ∧ v.mem = s.mem ∧ v.imem = s.imem ∧
          let i : Image := { off := off, len := code.length, guest := decide (kind = 1), tenant := c.tenant.toNat,
                             entry := off + fieldAt h 0x10 4 }
          v.loads = s.loads ++ [{ image := i, code := code, header := h, cmd := qc, atBoundary := usedByStep w i }]))) ∧
    (Safety.actsAtOnce s t q 11 c → let qc := Safety.fetched s t q 11 c
      Safety.answers (.resumeScheduler t q c) s fun v => ∃ z, v = form z ∧ Safety.completed s qc 0 0 [Reg.sqStatusHalted.off] z ∧
        fld z Reg.sqStatusHalted = 0 ∧ Safety.onRequests s z ∧ z.mem = s.mem ∧ z.reqs = s.reqs) ∧
    (Safety.actsAtOnce s t q 12 c → let qc := Safety.fetched s t q 12 c
      let b := f 0 8
      let n := f 8 8
      let src := f 16 8
      let own : Fte := { owner := c.tenant.toNat, shared := false, poisoned := false, moving := false, table := false, refs := 1 }
      let run := 4096 * max 1 (kvPf s)
      let inRange := b % run = 0 ∧ n % run = 0 ∧ poolFirst s ≤ b / 4096 ∧ (b + n) / 4096 ≤ poolFirst s + poolFrames s
      let release := bit c.flags.toNat 0 = true
      let fits := inRange ∧ (release ∨ (kvEnabled s = true ∧ n ≤ 268435456))
      let refused := fun (st : Nat) => Safety.answers (.guestTable t q c) s fun v =>
        Safety.completed s qc st 0 [] v ∧ v.mem = s.mem ∧ v.reqs = s.reqs
      (∀ x ∈ rangeFrames b n, ftAddr s x + 4 ≤ hostBase) →
      (¬ fits → refused 2) ∧
      (fits → bit c.flags.toNat 0 = true →
        let free := (rangeRuns s b n).all (fun x => decide (ftGet s x = own)) = true ∧ tableInUse w b n = false
        (¬ free → refused 3) ∧
        (free → Safety.answers (.guestTable t q c) s fun v => Safety.completed s qc 0 0 [] v ∧ Safety.onRequests s v ∧ v.reqs = s.reqs ∧
          (∀ x ∈ rangeFrames b n, readNat v.mem (ftAddr s x) 4 = 0) ∧
          ∀ y, (∀ x ∈ rangeFrames b n, y < ftAddr s x ∨ ftAddr s x + 4 ≤ y) → readByte v.mem y = readByte s.mem y)) ∧
      (fits → bit c.flags.toNat 0 = false →
        let source := src = 0 ∨ rowOf s src n = .host ∨ rowOf s src n = .hbm
        let used := ∃ x ∈ rangeFrames b n, readNat s.mem (ftAddr s x) 4 ≠ 0
        (¬ source → refused 2) ∧ (source → used → refused 3) ∧
        (source → ¬ used → Safety.answers (.guestTable t q c) s fun v =>
          queued v ∧ v.reqs = s.reqs ∧ v.sched = { s.sched with guestCopy := s.sched.guestCopy ++ [(qc, b, n, src)] } ∧
          (∀ x ∈ rangeRuns s b n, readNat v.mem (ftAddr s x) 4 = fteNat own) ∧
          ∀ y, (∀ x ∈ rangeRuns s b n, y < ftAddr s x ∨ ftAddr s x + 4 ≤ y) → readByte v.mem y = readByte s.mem y)))

/-- On a running device. IMAGE_LOAD_END: with no load whose copies run, nothing but the tick changes; the oldest one
waits for the boundary if it overlaps an image the step may run, else its code stands in instruction memory,
overlapping images are gone, and its command completes. GUEST_TABLE_COPY_END: the oldest copy puts the source's
bytes in the range, no cluster caches a line of it, and its command completes; one that fails or whose source the
host does not answer zeroes the range's frame-table entries and answers 8. LOAD_ADAPTER_COPY_END: waits while pinned
versions hold the area; a failed copy leaves the version FREE and answers 8, a pinned one RETIRED with 0x11 noted
for its requests; one whose source is the golden area puts the bytes in the resident area unless COLD, and notes the
version for the boundary. ADAPTER_COPY_END, which waits likewise: the golden bytes stand in the resident area, the
version is RESIDENT and the waiting requests' limits are lifted; failed, it is COLD and each waiter is noted 0x11.
Completions go to the host window; no word of memory is in error. (Assumptions 72, 73, 113 and 121.) [R58, R399,
R283, R286, R289, R174, R157] -/
def Obligations.CopyCompletions : Prop :=
  ∀ (s : State) (t : Nat), alive s = true → mState s ≠ msFenced → Safety.clean s →
    let u := atTick s t
    let slot := fun (c : QCmd) => rowOf s (Safety.completionSlot s c.queue) 32 = .host
    ((∀ l ∈ s.loads, l.atBoundary = true) → exec (.imageLoadEnd t) s = .next u) ∧
    (∀ (l : ImageLoad), s.loads.find? (fun l => !l.atBoundary) = some l → slot l.cmd →
      let rest := s.loads.filter fun k => decide (k ≠ l)
      (usedByStep s l.image = true → exec (.imageLoadEnd t) s = .next { u with loads := rest ++ [{ l with atBoundary := true }] }) ∧
      (usedByStep s l.image = false → Safety.answers (.imageLoadEnd t) s fun v => Safety.ended s l.cmd t 0 0 [] v ∧ v.loads = rest ∧
        v.imem = writeBytes s.imem l.image.off l.code ∧
        v.images = (s.images.filter fun j => !overlaps l.image.off l.image.len j.off j.len) ++ [l.image] ∧ v.mem = s.mem ∧
        measure v (if l.image.guest then 4 else 3) = shake256 (measure s (if l.image.guest then 4 else 3) ++
          (l.header.drop 0x40).take 64 ++ (if l.image.guest then natBytes 2 l.image.tenant else [])) 64)) ∧
    (∀ ok, s.sched.guestCopy = [] → exec (.guestTableCopyEnd t ok) s = .next u) ∧
    (∀ ok c a n src rest, s.sched.guestCopy = (c, a, n, src) :: rest → slot c → a + n ≤ hostBase →
      (∀ x ∈ rangeFrames a n, ftAddr s x + 4 ≤ hostBase) → (src = 0 ∨ rowOf s src n = .host) →
      (src = 0 ∨ ok = true ∧ readFault s src n = none → Safety.answers (.guestTableCopyEnd t ok) s fun v => Safety.ended s c t 0 0 [] v ∧
        v.sched = { s.sched with guestCopy := rest } ∧ v.mem = (if src = 0 then s.mem else writeBytes s.mem a (physRead s src n)) ∧
        ∀ k < 32, ∀ g, cacheGet (getCluster v k) g = if a ≤ 256 * g ∧ 256 * g < a + n then none else cacheGet (getCluster s k) g) ∧
      (src ≠ 0 → ok = false ∨ readFault s src n ≠ none → Safety.answers (.guestTableCopyEnd t ok) s fun v => Safety.ended s c t 8 0 [] v ∧
        (∀ x ∈ rangeFrames a n, readNat v.mem (ftAddr s x) 4 = 0) ∧ v.clusters = s.clusters)) ∧
    ∀ x < 1024, baseFld s Reg.sqAdapterBaseBase + 32768 ≤ hostBase → adHbm s x + adBytes s x ≤ hostBase →
      let e := adAddr s x
      let bs := (goldenRead s (adGolden s x) (adBytes s x / 4096)).2
      let pinned := (liveRcs s).filter fun rc => decide (rcAdapter s rc = x)
      let gone := s.sched.adapters.filter fun p => decide (p.1 ≠ x)
      (∀ ok, (∀ p ∈ s.sched.adapters, p.1 ≠ x) → exec (.loadAdapterCopyEnd t x ok) s = .next u ∧ exec (.adapterCopyEnd t x ok) s = .next u) ∧
      (∀ ok c, s.sched.adapters.find? (fun p => decide (p.1 = x) && p.2.isSome) = some (x, some c) → slot c →
        let cold := bit c.cmd.flags.toNat 1
        (cold = false → areaPinned s x = true → exec (.loadAdapterCopyEnd t x ok) s = .next u) ∧
        (cold = true ∨ areaPinned s x = false →
          (ok = false → fieldAt c.cmd.body 8 8 = adGolden s x → pinned = [] → Safety.answers (.loadAdapterCopyEnd t x false) s fun v =>
            Safety.ended s c t 8 0 [] v ∧ v.mem = writeBytes s.mem e (natBytes 32 0) ∧
            v.sched = { s.sched with adapters := gone, loadOrder := s.sched.loadOrder.filter (· ≠ x) }) ∧
          (ok = false → fieldAt c.cmd.body 8 8 = adGolden s x → pinned ≠ [] → pinned.Nodup →
            Safety.answers (.loadAdapterCopyEnd t x false) s fun v => Safety.ended s c t 8 0 [] v ∧
              v.mem = writeBytes s.mem (e + 1) (natBytes 1 (setBits (adGet s x 1 1) 0 0 1)) ∧ v.sched = { s.sched with adapters := gone } ∧
              ∀ rc, (getReq v rc).codes = if rc ∈ pinned then (getReq s rc).codes ++ [0x11] else (getReq s rc).codes) ∧
          (∀ l, fieldAt c.cmd.body 8 8 = adGolden s x → bs = .ok l → Safety.answers (.loadAdapterCopyEnd t x true) s fun v =>
            Safety.ended s c t 0 x [] v ∧ v.sched = { s.sched with adapters := gone, landed := s.sched.landed ++ [(x, cold)] } ∧
            (cold = true → v.mem = s.mem) ∧ (cold = false → areaHolders s x = [] → v.mem = writeBytes s.mem (adHbm s x) l)))) ∧
      (s.sched.adapters.contains (x, none) = true → smWf reqDefault s.reqs = true →
        (∀ l, bs = .ok l → areaPinned s x = true → exec (.adapterCopyEnd t x true) s = .next u) ∧
        (∀ l, bs = .ok l → guarded s (adHbm s x) l.length = false → l.length = adBytes s x → areaHolders s x = [] →
          let m := writeBytes (writeBytes s.mem (adHbm s x) l) e [2]
          Safety.answers (.adapterCopyEnd t x true) s fun v => v.mem = m ∧ v.sched = { s.sched with adapters := gone } ∧
            ∀ rc, getReq v rc = if rc ∈ adapterWaiters { s with mem := m } x then { getReq s rc with limit := 0 } else getReq s rc) ∧
        (∀ m, m = writeBytes s.mem e [3] →
          Safety.answers (.adapterCopyEnd t x false) s fun v => v.mem = m ∧ v.sched = { s.sched with adapters := gone } ∧
            ∀ rc, getReq v rc = if rc ∈ adapterWaiters { s with mem := m } x then
              { getReq s rc with limit := 0, codes := (getReq s rc).codes ++ [0x11] } else getReq s rc))

/-- On a running device, for each queue. A doorbell of a queue not enabled changes nothing but the tick. A tail or
head at or above the entry count stops the queue with cause 1 or 2: ERR.CAUSE, IDLE and QUEUE_ERROR are set and
nothing else changes. Another tail is taken; where it leaves one command in the ring that may be fetched and waits
for the boundary, that command's 64 bytes join the commands that wait, with the tick of the doorbell that brought
it, and the head has advanced. A completion head is taken. COALESCE_TIME, once completions wait and the time has run
out, starts counting anew and sends the queue's vector if IRQ_EN is set; else nothing but the tick changes. Writing
CTRL takes IRQ_EN and, while ENABLE was 0, the sizes; with ENABLE 1 and both rings in permitted rows the heads and
tails are 0, PHASE 1 and no error stands, with a ring elsewhere the queue stops with cause 4; with ENABLE 0 it is
disabled. (Assumptions 3 and 102.) [R404, R406, R407, R408] -/
def Obligations.QueuesAndDoorbells : Prop :=
  ∀ (s : State) (t q : Nat), alive s = true → q < 256 →
    let u := atTick s t
    let qu := getQueue s q
    let on := flag s (Reg.hqSqCtrlEnable q)
    let head := fld s (Reg.hqSqHeadsSqHead q)
    let frame := fun (v : State) => (∀ p, p ≠ q → getQueue v p = getQueue s p) ∧
      { v with regs := s.regs, hwSet := s.hwSet, hwSetAt := s.hwSetAt, queues := s.queues, tk := s.tk } = s ∧ v.tk = reach s.tk t
    let rung := fun (x : Nat) => if x = qu.tail then qu.bells else qu.bells ++ [(x, reach s.tk t)]
    let stops := fun (cause : Nat) (v : State) => frame v ∧ fld v (Reg.hqSqErrCause q) = cause ∧ getQueue v q = { qu with stopped := true } ∧
      fld v Reg.hqStatusQueueError = 1 ∧ fld v (Reg.hqSqErrIdle q) = (if qu.open_ = 0 then 1 else 0) ∧
      ∀ off, off ≠ (Reg.hqSqErrCause q).off → off ≠ Reg.hqStatusQueueError.off → regGet v off = regGet s off
    (∀ x, on = false → exec (.submissionDoorbell t q x) s = .next u ∧ exec (.completionHeadDoorbell t q x) s = .next u) ∧
    (∀ x, on = true → sqSize s q ≤ x → Safety.answers (.submissionDoorbell t q x) s (stops 1)) ∧
    (∀ x, on = true → cqSize s q ≤ x → Safety.answers (.completionHeadDoorbell t q x) s (stops 2)) ∧
    (∀ x, on = true → x < sqSize s q → (x = head ∨ canFetch s q = false) →
      exec (.submissionDoorbell t q x) s = .next (setQueue u q { qu with tail := x, bells := rung x })) ∧
    (∀ x, on = true → x < cqSize s q → qu.tail = head →
      exec (.completionHeadDoorbell t q x) s = .next (setQueue u q { qu with cqHead := x })) ∧
    (let a := baseFld s (Reg.hqSqSqBase q) + 64 * head
      let b := physRead s a 64
      let x := (head + 1) % sqSize s q
      on = true → x ≠ head → canFetch s q = true → hostReads s a 64 = true → fieldAt b 0 1 ≠ 2 → fieldAt b 0 1 ≠ 10 →
      flag s Reg.sqStatusHalted = false → Safety.answers (.submissionDoorbell t q x) s fun v =>
        fld v (Reg.hqSqHeadsSqHead q) = x ∧
        getQueue v q = { qu with tail := x, open_ := qu.open_ + 1, bells := Safety.bellsLeft (rung x) x } ∧
        let tick := (((rung x).head?).map (·.2)).getD (reach s.tk t)
        v.sched = { s.sched with cmds := insertCmd { queue := q, opcode := fieldAt b 0 1, tick := tick, head := x, cmd :=
          { flags := BitVec.ofNat 8 (fieldAt b 1 1), cid := BitVec.ofNat 16 (fieldAt b 2 2), rc := BitVec.ofNat 16 (fieldAt b 4 2),
            tenant := BitVec.ofNat 16 (fieldAt b 6 2), body := b.drop 8 } } s.sched.cmds } ∧ v.mem = s.mem ∧ v.hostMem = s.hostMem) ∧
    (let time := fld s (Reg.hqSqCoalTime q)
      let due := time ≠ 0 ∧ qu.unsent ≠ 0 ∧ qu.firstAt + 100 * time ≤ reach s.tk t
      (¬ due → exec (.coalesceTime t q) s = .next u) ∧
      (due → Safety.answers (.coalesceTime t q) s fun v => getQueue v q = { qu with unsent := 0 } ∧
        (∀ p, p ≠ q → getQueue v p = getQueue s p) ∧ v.msix = (if flag s (Reg.hqSqCtrlIrqEn q) = true ∧ mState s ≠ 5 then q :: s.msix else s.msix) ∧
        { v with queues := s.queues, msix := s.msix, tk := s.tk } = s ∧ v.tk = reach s.tk t)) ∧
    ∀ x : Word32,
      let sl := if on then fld s (Reg.hqSqCtrlSqLog2 q) else bits x.toNat 7 3
      let cl := if on then fld s (Reg.hqSqCtrlCqLog2 q) else bits x.toNat 12 8
      let row := fun (a n : Nat) => rowOf s a n = .host ∨ rowOf s a n = .hbm
      let rings := row (baseFld s (Reg.hqSqSqBase q)) (64 * ringSize sl) ∧ row (baseFld s (Reg.hqSqCqBase q)) (32 * ringSize cl)
      let ctrl := fun (v : State) => fld v (Reg.hqSqCtrlIrqEn q) = bits x.toNat 1 1 ∧ fld v (Reg.hqSqCtrlSqLog2 q) = sl ∧
        fld v (Reg.hqSqCtrlCqLog2 q) = cl ∧ frame v
      (x.getLsbD 0 = true → rings → Safety.answers (.hqSqEnable t q x) s fun v => ctrl v ∧ fld v (Reg.hqSqCtrlEnable q) = 1 ∧
        fld v (Reg.hqSqHeadsSqHead q) = 0 ∧ fld v (Reg.hqSqHeadsCqTail q) = 0 ∧ fld v (Reg.hqSqErrCause q) = 0 ∧
        getQueue v q = { open_ := qu.open_ } ∧ (getQueue v q).phase = true ∧ (getQueue v q).stopped = false) ∧
      (x.getLsbD 0 = true → ¬ rings → Safety.answers (.hqSqEnable t q x) s fun v => ctrl v ∧ fld v (Reg.hqSqCtrlEnable q) = 0 ∧
        fld v (Reg.hqSqErrCause q) = 4 ∧ getQueue v q = { qu with stopped := true } ∧ fld v Reg.hqStatusQueueError = 1) ∧
      (x.getLsbD 0 = false → Safety.answers (.hqSqEnable t q x) s fun v => ctrl v ∧ fld v (Reg.hqSqCtrlEnable q) = 0 ∧
        getQueue v q = qu ∧ fld v (Reg.hqSqErrIdle q) = if qu.open_ = 0 then 1 else 0)

/-- Powered, out of reset and not in the recovery loader. A 32-bit write of a BAR0 word with no behaviour of its
own: each RW bit takes the value written, each WC bit written 1 clears unless hardware has set it in the same tick,
every other bit and word stands; a 64-bit write of two such words writes both. A misaligned access, or one beyond
its BAR, is no access the device receives. A write of an OVF word likewise clears the bits written 1 and zeroes
their counters, and no other register. A 32-bit read of TK_COUNT's low word returns it and latches the high word. A
write of HOSTWIN takes SIZE while HQ_CTRL.ENABLE is 0 and nothing while it is 1; the window in force stands until it
is published. An access beyond BAR2's size is not the function's. Within it and populated, trained HBM, a read of
unguarded words returns the bytes, those of an uncorrectable word zero, and a read of a SEALING block waits; a write
stores its bytes, one of part of an uncorrectable word nothing; one to a guarded range or beyond HBM changes no
memory, and one to a table of a live scheduler only counts. (Assumptions 45 to 49, 101, 105 and 117.) [R5, R19, R54,
R367, R405, R404, R152, R201, R279, R395] -/
def Obligations.HostAccessToRegistersAndMemory : Prop :=
  ∀ (s : State) (t : Nat), s.pins.powered = true → s.pins.resetN = true → bootNow s ≠ 4 →
    let u := atTick s t
    let plain := fun (off : Nat) => off % 4 = 0 ∧ ovfCounters off = [] ∧ ((0x10000 ≤ off ∧ off < 0x31000 ∧ off ≠ 0x2000C) ∨
      (0x40004 ≤ off ∧ off < 0x50000) ∨ (0x60000 ≤ off ∧ off < 0x60018) ∨ (0x60040 ≤ off ∧ off < 0x70000) ∨
      (0xC0000 ≤ off ∧ off < 0xD0000 ∧ off ≠ 0xC0030))
    let written := fun (off : Nat) (x : Word32) => match regWord off with
      | none => regGet s off
      | some w => BitVec.ofNat 32 (((regGet s off).toNat &&& (0xFFFFFFFF - (w.rw ||| (w.wc &&& x.toNat &&& (0xFFFFFFFF - (heldBits u off).toNat))) % 2 ^ 32)) ||| (x.toNat &&& w.rw))
    let only := fun (v : State) => { v with regs := s.regs, hwSet := s.hwSet, hwSetAt := s.hwSetAt, mirror := s.mirror, tk := s.tk } = s ∧
      v.tk = reach s.tk t ∧ v.mirror = { s.mirror with digestFormed := v.mirror.digestFormed }
    (∀ off (x : Word), plain off → Safety.answers (.registerWrite t .bar0 off false x) s fun v => only v ∧
      (∀ o, regGet v o = if o = off then written off (BitVec.truncate 32 x) else regGet s o) ∧
      (v.mirror = s.mirror ∨ (regGet v off ^^^ regGet s off) &&& digestMask off ≠ 0)) ∧
    (∀ off (x : Word), plain off → plain (off + 4) → off % 8 = 0 → Safety.answers (.registerWrite t .bar0 off true x) s fun v => only v ∧
      ∀ o, regGet v o = if o = off then written off (BitVec.truncate 32 x) else if o = off + 4 then
        written (off + 4) (BitVec.truncate 32 (x >>> 32)) else regGet s o) ∧
    (∀ b off (wide : Bool) x, (off % (if wide then 8 else 4) ≠ 0 ∨ (if b = .bar0 then 0x4000000 else 0x1000) < off + (if wide then 8 else 4)) →
      exec (.registerWrite t b off wide x) s = .fault .noSuchUnit) ∧
    (∀ off (x : Word32), ovfCounters off ≠ [] → off % 4 = 0 → off < 0x100000 → Safety.answers (.ovfClear t off x) s fun v => only v ∧
      (∀ i c, (ovfCounters off)[i]? = some c → (regGet v off).getLsbD i =
          ((regGet s off).getLsbD i && (!x.getLsbD i || (heldBits u off).getLsbD i)) ∧
        regGet v c = if (regGet s off).getLsbD i = true ∧ x.getLsbD i = true ∧ (heldBits u off).getLsbD i = false then 0#32 else regGet s c) ∧
      ∀ o, o ≠ off → o ∉ ovfCounters off → regGet v o = regGet s o) ∧
    (Safety.answers (.tkCountLowRead t) s fun v => v.tkLatch = some (BitVec.ofNat 32 (reach s.tk t / 2 ^ 32)) ∧
      v.readOut = some (natBytes 4 (reach s.tk t)) ∧ v.tk = reach s.tk t ∧ { v with tkLatch := s.tkLatch, readOut := s.readOut, tk := s.tk } = s) ∧
    (∀ x : Word, s.kolwin.fatal = false →
      (flag s Reg.hqCtrlEnable = true → exec (.hostwinSize t x) s = .next u) ∧
      (flag s Reg.hqCtrlEnable = false → Safety.answers (.hostwinSize t x) s fun v =>
        fld v Reg.hqHostwinSize = bits x.toNat 46 12 ∧ fld v Reg.hqHostwinBaseBase = fld s Reg.hqHostwinBaseBase ∧
        v.kolwin.hostWin = s.kolwin.hostWin ∧ v.mem = s.mem ∧ v.tk = reach s.tk t)) ∧
    (∀ off n, let a := baseFld s Reg.hqBar2BaseBase + off
      let reaches := off + n ≤ 2 ^ s.pcie.bar2Log ∧ a + n ≤ hbmBytes ∧ s.kolwin.hbmTrained = true ∧ s.power.railsUp = true
      (¬ reaches → exec (.bar2Read t off n) s = .next { u with readOut := none }) ∧
      (reaches → guardBlocks s a n = [] → softWordsIn s a n = [] → Safety.answers (.bar2Read t off n) s fun v => v.mem = s.mem ∧
        v.tk = reach s.tk t ∧ v.readOut = some ((List.range n).map fun i =>
          if smGet boolDefault s.badWords ((a + i) / 16) then 0 else readByte s.mem (a + i))) ∧
      (reaches → guardBlocks s a n = [] → softWordsIn s a n = [] → badWordsIn s a n = [] →
        exec (.bar2Read t off n) s = .next { u with readOut := some (readBytes s.mem a n) }) ∧
      ∀ b, reaches → guardBlocks s a n = [b] → grState s b.1 = 1 →
        exec (.bar2Read t off n) s = .next { u with bar2Reads := s.bar2Reads ++ [(a, n)] }) ∧
    ∀ off (bs : List Byte), bs ≠ [] → let a := baseFld s Reg.hqBar2BaseBase + off
      let inside := off + bs.length ≤ 2 ^ s.pcie.bar2Log
      let reaches := inside ∧ a + bs.length ≤ hbmBytes ∧ s.kolwin.hbmTrained = true ∧ s.power.railsUp = true
      (¬ inside → exec (.bar2Write t off bs) s = .next u) ∧
      (inside → ¬ reaches ∨ guarded s a bs.length = true → Safety.answers (.bar2Write t off bs) s fun v => v.mem = s.mem ∧
        v.tk = reach s.tk t ∧ (s.kolwin.fatal = false → fld v ⟨0x900C0, 7, 0⟩ = 0x0A)) ∧
      (reaches → guarded s a bs.length = false → touchesTables u a bs.length = true → Safety.answers (.bar2Write t off bs) s fun v =>
        only v ∧ v.mirror = s.mirror ∧ fld v Reg.sqCountBar2Dropped = min 0xFFFFFFFF (fld s Reg.sqCountBar2Dropped + 1)) ∧
      (reaches → guarded s a bs.length = false → touchesTables u a bs.length = false → Safety.clean s →
        Safety.answers (.bar2Write t off bs) s fun v => v.mem = writeBytes s.mem a bs ∧ v.tk = reach s.tk t ∧ v.cores = s.cores ∧
          v.hostMem = s.hostMem ∧ v.clusters = s.clusters) ∧
      (reaches → guarded s a bs.length = false → touchesTables u a bs.length = false → bs.length < 16 →
        a / 16 = (a + bs.length - 1) / 16 → smGet boolDefault s.badWords (a / 16) = true → Safety.answers (.bar2Write t off bs) s fun v =>
          (∀ x, readByte v.mem x = readByte s.mem x) ∧ v.badWords = s.badWords ∧ (s.kolwin.fatal = false → fld v ⟨0x900C0, 7, 0⟩ = 0x0A))

/-- For each of the thirteen opcodes. A command to a device without power or in reset, one of the host's to a FATAL
device, and a board command whose PEC is wrong change nothing but the tick. One that finds the mailbox BUSY with
another is discarded with OVERRUN set. Otherwise: from a port that is not the opcode's, the response is BAD_PORT
(3); in a boot state that does not accept the opcode, BAD_STATE (4); with a nonzero reserved field, BAD_FIELD (2); a
frame whose opcode Table 17-3 does not list is answered BAD_OPCODE (1); in each case nothing but the response
changes. The mailbox's doorbell takes the frame and sets BUSY, or OVERRUN while BUSY, and answers BAD_OPCODE to such
an opcode. On a powered device out of reset. FLASH_WRITE_END with no write changes nothing but the tick; with one
the image stands in flash and FW_WRITING is 0, and a device in the recovery loader then resets with cause 6.
SMBUS_FALLBACK takes the port to SMBus 1 s after BOOT reached STARTING without a dynamic address, else changes
nothing. DYNAMIC_ADDRESS is taken while the port runs I3C, one of SETDASA only if it was sent to the static address
0x40 + SLOT_ID. (Assumptions 98 and 99.) [R388, R389, R390, R391, R395, R397, R401, Table 17-3, Table 17-4] -/
def Obligations.KolwinTurnsAwayAndEvents : Prop :=
  (∀ (s : State) (t : Nat) (c : KwCmd), ∀ p ∈ ([(.identity t c, 1), (.attest t c, 2), (.regRead t c, 3), (.profileSelect t c, 4),
      (.profileWrite t c, 5), (.modeCmd t c, 6), (.pairCmd t c, 7), (.fwStage t c, 8), (.commitSv t c, 9), (.resetCmd t c, 10),
      (.powerState t c, 11), (.repairSupply t c, 12), (.alertAck t c, 13)] : List (Instr × Nat)),
    let up := s.pins.powered = true ∧ s.pins.resetN = true ∧ (c.board = false → s.kolwin.fatal = false)
    let replies := fun (op status : Nat) => Safety.answers p.1 s fun v => Safety.answered s op c status 0 [] v ∧ Safety.onKolwin s [] v ∧
      v.tk = reach s.tk t ∧ v.kolwin.flash = s.kolwin.flash ∧ v.kolwin.powerState = s.kolwin.powerState
    (¬ up ∨ (c.board = true ∧ pecOk p.2 c = false) → exec p.1 s = .next (atTick s t)) ∧
    (up → mbTaken s p.2 c = true → exec p.1 s = .next (setFld (atTick s t) Reg.mbStatusOverrun 1)) ∧
    (up → mbTaken s p.2 c = false → (c.board = true → pecOk p.2 c = true) →
      (c.code = none → portNames p.2 c.board = false → replies p.2 3) ∧
      (c.code = none → portNames p.2 c.board = true → stateAccepts s p.2 = false → replies p.2 4) ∧
      (c.code = none → portNames p.2 c.board = true → stateAccepts s p.2 = true → c.zero ≠ 0 → replies p.2 2) ∧
      ∀ x, c.code = some x → (x.toNat = 0 ∨ 13 < x.toNat) → replies x.toNat 1)) ∧
  (∀ (s : State) (t : Nat) (x : Word), alive s = true → let b := readBytes s.kolwin.mbCmd 0 64
    let u := atTick s t
    x.getLsbD 0 = true → (flag s Reg.mbStatusBusy = true → exec (.registerWrite t .bar4 0x80 false x) s = .next (setFld u Reg.mbStatusOverrun 1)) ∧
    (flag s Reg.mbStatusBusy = false →
      (1 ≤ fieldAt b 0 1 → fieldAt b 0 1 ≤ 13 → exec (.registerWrite t .bar4 0x80 false x) s = .next
        (setFld { u with kolwin := { s.kolwin with mbHeld := b } } Reg.mbStatusBusy 1)) ∧
      (fieldAt b 0 1 = 0 ∨ 13 < fieldAt b 0 1 → Safety.answers (.registerWrite t .bar4 0x80 false x) s fun v =>
        fld v Reg.mbStatusDone = 1 ∧ fld v Reg.mbStatusBusy = 0 ∧ Safety.onKolwin s [] v ∧
        v.kolwin.mbResp = natBytes 1 (fieldAt b 0 1) ++ natBytes 1 1 ++ natBytes 2 (fieldAt b 2 2) ++ natBytes 4 0 ++ padTo 56 []))) ∧
  ∀ (s : State) (t : Nat), s.pins.powered = true → s.pins.resetN = true →
    let u := atTick s t
    (s.kolwin.writing = [] → exec (.flashWriteEnd t) s = .next u) ∧
    (s.kolwin.writing ≠ [] → bootNow s ≠ 4 → Safety.answers (.flashWriteEnd t) s fun v => v.tk = reach s.tk t ∧
      v.kolwin = { s.kolwin with flash := s.kolwin.writing, writing := [] } ∧ fld v Reg.kwStatusFwWriting = 0 ∧
      Safety.onKolwin s [0xC0000] v) ∧
    (s.kolwin.writing ≠ [] → bootNow s = 4 → s.kolwin.resetting = false → s.power.shutdown = false →
      Safety.answers (.flashWriteEnd t) s fun v => v.kolwin.flash = s.kolwin.writing ∧
        Safety.wasReset { s with kolwin := { s.kolwin with flash := s.kolwin.writing, writing := [] } } 6 v) ∧
    (let due := (bootNow s = 2 ∨ bootNow s = 3 ∨ 5 ≤ bootNow s) ∧ s.kolwin.dynamicAddr = none ∧
        s.kolwin.startedAt + 100000000 ≤ reach s.tk t;
      (¬ due → exec (.smbusFallback t) s = .next u) ∧
      (due → Safety.answers (.smbusFallback t) s fun v => fld v Reg.kwStatusI3cMode = 0 ∧ Safety.onKolwin s [0xC0000] v ∧
        bootNow v = bootNow s ∧ v.kolwin = s.kolwin)) ∧
    ∀ (a : BitVec 7) (into : Option (BitVec 7)), exec (.dynamicAddress ⟨t, a, into⟩) s = .next
      (if flag s Reg.kwStatusI3cMode = true ∧ (∀ x, into = some x → x = BitVec.ofNat 7 (0x40 + s.pins.slotId % 32)) then
        { u with kolwin := { s.kolwin with dynamicAddr := some a } } else u)

/-- IDENTITY and ATTEST give the certificates and the signed report, to the board in chunks of 56 bytes and to the
host at its address (bad ranges answer 2). REG_READ returns the words, with TK_COUNT's latch. PROFILE_SELECT
requests a profile (above 3: 2). PROFILE_WRITE stores a valid record, extends M2 and requests the profile if active;
an invalid one answers 7. MODE writes PW_MODE. PAIR does what MR_CMD's code asks. FW_STAGE stores a chunk or, with
the last, checks the image and starts its write (5 or 6 where it fails; 4 while one is being written). COMMIT_SV
raises the fuse to the firmware's version. RESET answers, then resets the device (4 after a shutdown). POWER_STATE
takes RUN, IDLE or OFF_READY (above 2: 2; leaving OFF_READY: 4). REPAIR_SUPPLY repairs the slot's block if its CRC
matches (2 if not, 4 for a closed slot). Both answer 8 where the host read fails. ALERT_ACK clears the causes and
drives ALERT_N. (Assumptions 96, 98, 99 and 105.) [R54, R380, R381, R383, R392, R397, R398, R400, R401, R402, R411,
Table 17-3] -/
def Obligations.KolwinCommandsAct : Prop :=
  ∀ (s : State) (t : Nat) (c : KwCmd),
    let u := atTick s t
    let f := fieldAt c.body
    let replies := fun (i : Instr) (op status : Nat) => Safety.answers i s fun v =>
      Safety.answered s op c status 0 [] v ∧ Safety.onKolwin s [] v ∧ v.tk = reach s.tk t
    let toHost := fun (i : Instr) (op a : Nat) (bs : List Byte) =>
      (rowOf s a bs.length ≠ .host → replies i op 2) ∧
      (rowOf s a bs.length = .host → mState s = msFenced → replies i op 4) ∧
      (rowOf s a bs.length = .host → mState s ≠ msFenced → Safety.answers i s fun v =>
        Safety.answered s op c 0 bs.length [] v ∧ v.hostMem = writeBytes s.hostMem (busAddr s a) bs ∧ v.mem = s.mem)
    (Safety.kolwinServes s 1 c → let bs := certificates s
      (c.board = true → (bs.length ≤ 56 * f 0 2 → replies (.identity t c) 1 2) ∧
        (56 * f 0 2 < bs.length → Safety.answers (.identity t c) s fun v => Safety.onKolwin s [] v ∧
          Safety.answered s 1 c 0 bs.length ((bs.drop (56 * f 0 2)).take 56) v)) ∧
      (c.board = false → toHost (.identity t c) 1 (f 0 8) bs)) ∧
    (Safety.kolwinServes s 2 c → let bs := report u (c.body.take 32)
      (c.board = true → (f 32 2 = 0 → Safety.answers (.attest t c) s fun v => v.kolwin.report = bs ∧ Safety.onKolwin s [] v ∧
          Safety.answered s 2 c 0 (bs.take 56).length (bs.take 56) v) ∧
        (f 32 2 ≠ 0 → let b := (s.kolwin.report.drop (56 * f 32 2)).take 56
          (12 ≤ f 32 2 ∨ b = [] → replies (.attest t c) 2 2) ∧
          (f 32 2 < 12 → b ≠ [] → Safety.answers (.attest t c) s fun v => Safety.onKolwin s [] v ∧ v.kolwin.report = s.kolwin.report ∧
            Safety.answered s 2 c 0 b.length b v))) ∧
      (c.board = false → toHost (.attest t c) 2 (f 32 8) bs)) ∧
    (Safety.kolwinServes s 3 c → let off := f 0 4
      let n := f 4 1
      let bad := off % 4 ≠ 0 ∨ n % 4 ≠ 0 ∨ 48 < n ∨ 0x4000000 < off + n
      let reads := fun (bs : List Byte) (latch : Option Word32) => Safety.answers (.regRead t c) s fun v =>
        Safety.answered s 3 c 0 n bs v ∧ v.tkLatch = latch ∧ Safety.onKolwin { s with tkLatch := latch, free := v.free } [] v
      (bad → replies (.regRead t c) 3 2) ∧
      (¬ bad → off = 0x20000 → n = 4 → reads (readWords u off 1) (some (BitVec.ofNat 32 (reach s.tk t / 2 ^ 32)))) ∧
      (∀ w, ¬ bad → off = 0x20004 → n = 4 → s.tkLatch = some w → reads (natBytes 4 w.toNat) none) ∧
      (¬ bad → off = 0x20004 → n = 4 → s.tkLatch = none → reads (readWords u off 1) none) ∧
      (¬ bad → (off ≠ 0x20000 ∧ off ≠ 0x20004 ∨ n ≠ 4) → reads (readWords u off (n / 4)) s.tkLatch)) ∧
    (Safety.kolwinServes s 4 c → (3 < f 0 1 → replies (.profileSelect t c) 4 2) ∧
      (f 0 1 ≤ 3 → Safety.answers (.profileSelect t c) s fun v => Safety.answered s 4 c 0 0 [] v ∧ fld v Reg.pwProfilePending = 1 ∧
        v.power = { s.power with profileReq := some (f 0 1) } ∧ Safety.onKolwin { s with power := v.power } [0xA0008] v)) ∧
    (Safety.kolwinServes s 5 c → let i := f 0 1
      let r := withCheck ((c.body.drop 8).take 48)
      let all := (List.range 4).flatMap fun j => if j = i then r else storedRecord s j
      (3 < i ∨ f 1 7 ≠ 0 → replies (.profileWrite t c) 5 2) ∧
      (i ≤ 3 → f 1 7 = 0 → recordOk r = false → replies (.profileWrite t c) 5 7) ∧
      (i ≤ 3 → f 1 7 = 0 → recordOk r = true → Safety.answers (.profileWrite t c) s fun v => Safety.answered s 5 c 0 0 [] v ∧
        (∀ j, storedRecord v j = if j = i then r else storedRecord s j) ∧
        measure v 2 = shake256 (measure s 2 ++ shake256 all 64) 64 ∧
        v.power.profileReq = (if fld s Reg.pwProfileActive = i then some i else s.power.profileReq) ∧
        Safety.onKolwin { s with power := v.power } [0xA0008] v)) ∧
    (Safety.kolwinServes s 6 c → Safety.answers (.modeCmd t c) s fun v => Safety.answered s 6 c 0 0 [] v ∧
      v.power = { s.power with modeDirty := true } ∧ Safety.onKolwin { s with power := v.power } [0xA000C] v ∧
      ∃ w, regWord 0xA000C = some w ∧ regGet v 0xA000C = writeWord w (regGet s 0xA000C) (heldBits u 0xA000C) (BitVec.ofNat 32 (f 0 4))) ∧
    (Safety.kolwinServes s 7 c → ∀ p ∈ ([(0, id), (1, mirrorPair), (2, mirrorUnpair), (3, mirrorFence), (4, mirrorTakeover)] :
      List (Nat × (State → State))), f 0 4 % 16 = p.1 → Safety.answers (.pairCmd t c) s fun v =>
        Safety.answered (p.2 u) 7 c 0 0 [] v ∧ Safety.onKolwin (p.2 u) [] v) ∧
    (Safety.kolwinServes s 8 c →
      (flag s Reg.kwStatusFwWriting = true → replies (.fwStage t c) 8 4) ∧
      (flag s Reg.kwStatusFwWriting = false → c.board = true →
        (33554432 < f 0 4 + 48 → replies (.fwStage t c) 8 2) ∧
        (f 0 4 + 48 ≤ 33554432 → c.flags.getLsbD 0 = false → Safety.answers (.fwStage t c) s fun v =>
          Safety.answered s 8 c 0 0 [] v ∧ Safety.onKolwin s [] v ∧ v.kolwin.writing = s.kolwin.writing ∧
          v.kolwin.staged = writeBytes s.kolwin.staged (f 0 4) ((c.body.drop 4).take 48) ∧
          v.kolwin.stagedLen = max s.kolwin.stagedLen (f 0 4 + 48)) ∧
        (f 0 4 + 48 ≤ 33554432 → c.flags.getLsbD 0 = true →
          let w := { u with kolwin := { s.kolwin with staged := writeBytes s.kolwin.staged (f 0 4) ((c.body.drop 4).take 48)
                                                      stagedLen := max s.kolwin.stagedLen (f 0 4 + 48) } }
          let st := verifyImage s (stagedBytes w)
          Safety.answers (.fwStage t c) s fun v => Safety.answered s 8 c st 0 [] v ∧ Safety.onKolwin s [0xC0000] v ∧
            v.kolwin.writing = (if st = 0 then stagedBytes w else s.kolwin.writing) ∧ v.kolwin.staged = [] ∧
            fld v Reg.kwStatusFwWriting = (if st = 0 then 1 else 0))) ∧
      (flag s Reg.kwStatusFwWriting = false → c.board = false → let n := f 8 4
        let b := physRead s (f 0 8) n
        let bad := n < 257 ∨ 33554432 < n ∨ rowOf s (f 0 8) n ≠ .host
        (bad → replies (.fwStage t c) 8 2) ∧ (¬ bad → readFault s (f 0 8) n ≠ none → replies (.fwStage t c) 8 8) ∧
        (hostReads s (f 0 8) n = true → ¬ bad → verifyImage s b ≠ 0 → Safety.answers (.fwStage t c) s fun v => Safety.answered s 8 c (verifyImage s b) 0 [] v ∧
          v.kolwin.writing = s.kolwin.writing ∧ v.kolwin.flash = s.kolwin.flash ∧ Safety.onKolwin s [] v) ∧
        (hostReads s (f 0 8) n = true → ¬ bad → verifyImage s b = 0 → Safety.answers (.fwStage t c) s fun v => Safety.answered s 8 c 0 0 [] v ∧
          v.kolwin.writing = b ∧ v.kolwin.flash = s.kolwin.flash ∧ fld v Reg.kwStatusFwWriting = 1 ∧ Safety.onKolwin s [0xC0000] v))) ∧
    (Safety.kolwinServes s 9 c → Safety.answers (.commitSv t c) s fun v => Safety.answered s 9 c 0 0 [] v ∧
      v.kolwin.svFuse = max s.kolwin.svFuse (fld s Reg.kwFwSecurity) ∧ fld v Reg.kwSvFuseMinimum = v.kolwin.svFuse % 2 ^ 32 ∧
      Safety.onKolwin s [Reg.kwSvFuseMinimum.off] v) ∧
    (Safety.kolwinServes s 10 c → (s.power.shutdown = true → replies (.resetCmd t c) 10 4) ∧
      (s.power.shutdown = false → s.kolwin.resetting = true → replies (.resetCmd t c) 10 0) ∧
      (s.power.shutdown = false → s.kolwin.resetting = false → Safety.answers (.resetCmd t c) s fun v =>
        Safety.wasReset s (if c.board then 5 else 4) v ∧ v.tk = reach s.tk t ∧
        (c.board = true → Safety.answered { s with kolwin := v.kolwin } 10 c 0 0 [] v))) ∧
    (Safety.kolwinServes s 11 c → let x := f 0 1
      (2 < x → replies (.powerState t c) 11 2) ∧
      (x ≤ 2 → s.kolwin.powerState = 2 → x ≠ 2 → replies (.powerState t c) 11 4) ∧
      (x = 0 → s.kolwin.powerState ≠ 2 → Safety.answers (.powerState t c) s fun v => Safety.answered s 11 c 0 0 [] v ∧
        v.kolwin.powerState = 0 ∧ fld v Reg.kwStatusQuiesced = 0 ∧ Safety.onKolwin s [0xC0000] v) ∧
      ((x = 1 ∧ s.kolwin.powerState ≠ 2) ∨ x = 2 → Safety.answers (.powerState t c) s fun v => Safety.answered s 11 c 0 0 [] v ∧
        v.kolwin.powerState = x ∧
        (s.sched.cur = none → fld v Reg.kwStatusQuiesced = 1 ∧ v.sched = { s.sched with formed := none } ∧
          v.power.railsUp = (s.power.railsUp && decide (x = 1))) ∧
        (s.sched.cur ≠ none → Safety.onKolwin s [] v))) ∧
    (Safety.kolwinServes s 12 c → let slot := f 0 1
      let a := f 8 8
      let bad := 15 < slot ∨ f 1 7 ≠ 0 ∨ rowOf s a 4096 ≠ .host
      (bad → replies (.repairSupply t c) 12 2) ∧
      (¬ bad → (∀ r ∈ s.repairs, r.slot ≠ some slot) → replies (.repairSupply t c) 12 4) ∧
      ∀ r, ¬ bad → s.repairs.find? (fun r => decide (r.slot = some slot)) = some r →
        (readFault s a 4096 ≠ none → replies (.repairSupply t c) 12 8) ∧ (hostReads s a 4096 = true → let b := physRead s a 4096
        let crc := (crc64 b).toNat
        (crc ≠ fld s (Reg.kwRepairCrc slot) → replies (.repairSupply t c) 12 2) ∧
        (crc = fld s (Reg.kwRepairCrc slot) → Safety.repairable s r → Safety.answers (.repairSupply t c) s fun v =>
          Safety.blockRepaired s r b crc v ∧ v.kolwin.mbResp = natBytes 1 12 ++ natBytes 1 0 ++ natBytes 2 c.tag.toNat ++
            natBytes 4 0 ++ padTo 56 []))) ∧
    (Safety.kolwinServes s 13 c → Safety.answers (.alertAck t c) s fun v => Safety.answered s 13 c 0 0 [] v ∧
      fld v Reg.kwAlertCause = fld s Reg.kwAlertCause - (fld s Reg.kwAlertCause &&& f 0 2) ∧
      v.pins.alertN = decide (fld v Reg.kwAlertCause &&& fld s Reg.kwAlertEnable = 0) ∧
      Safety.onKolwin { s with pins := v.pins } [0xC0030] v)

/-- MR_CMD's commands act on a powered device out of reset, the timers on a running one. PAIR of a device not SOLO
gives RESULT 7, with PAIR_PRESENT high or port M not UP 5; else it is PAIRING with RESULT 0 and SYNC_OUT_EN set;
with the partner's HELLO at hand, RESULT 2, 3 or 4 and SOLO where R333 refuses, else RESULT 1 and the leader chosen.
UNPAIR in PAIRING, SYNCING, PAIRED, SUSPECT or TAKEN_OVER leaves the device SOLO and its own leader, its gate open
and its mirror gone; else RESULT 7. FENCE abandons the step and leaves the device FENCED with nothing queued.
TAKEOVER from SUSPECT after 300 ticks of silence is TAKING_OVER with adoption pending; else RESULT 7. An adopted
request is PARKED, keeps the tokens its mirror holds, replays those its CONFIRM frames brought, and owes a NOTICE of
type 0x31 with the partner's step and the tokens covered. HEARTBEAT_SEND in SOLO or FENCED, with port M not UP or
before device timer 0 is due, does nothing; due, the timer moves to 100 ticks on, and the heartbeat goes out, or
waits in the queue without credit. PAIRING starts the timer, SOLO and FENCED stop it. 300 ticks of silence, or a
frame 200 ticks unacknowledged, make a PAIRED or SYNCING device SUSPECT with CAUSE and vector 262; earlier, or in
another state, nothing changes. The frames' form and their pools rest on log entry 84, HELLO remembered in SOLO and
the end of SYNCING on 85, the partner's mirror on 86 and 144. [R333, R337, R341, R342, R343, R344, R345, R346, R415,
R46, Table 14-1] -/
def Obligations.PairCommandsAndTimers : Prop :=
  ∀ (s : State) (t : Nat), s.pins.powered = true → s.pins.resetN = true →
    let u := atTick s t
    let st := mState s
    let result := fun (i : Instr) (x : Nat) => Safety.answers i s fun v => fld v Reg.mrStatusResult = x ∧ mState v = st ∧
      { v with regs := s.regs, tk := s.tk, hwSet := s.hwSet, hwSetAt := s.hwSetAt } = s ∧
      (∀ off, off ≠ Reg.mrStatusResult.off → regGet v off = regGet s off) ∧ v.tk = reach s.tk t
    (st ≠ 0 → result (.mrCmdPair t) 7) ∧
    (st = 0 → (s.pins.pairPresent = true ∨ portUp s 16 = false) → result (.mrCmdPair t) 5) ∧
    (st = 0 → s.pins.pairPresent = false → portUp s 16 = true →
      (s.mirror.hello = none → Safety.answers (.mrCmdPair t) s fun v => mState v = 1 ∧ fld v Reg.mrStatusResult = 0 ∧ v.timer0 = (if s.timer0 = 0 then reach s.tk t + 100 else s.timer0) ∧
        fld v Reg.tkCtrlSyncOutEn = 1 ∧ v.mirror.lastBeat = reach s.tk t ∧ v.mirror.helloTick = reach s.tk t ∧ v.mem = s.mem) ∧
      ∀ h, s.mirror.hello = some h →
        let mine := reach s.tk t
        let tick := fieldAt h 8 8
        let why := if tick = mine ∧ fieldAt h 2 1 = s.pins.slotId then 2 else if fieldAt h 3 1 = fld s Reg.mrCtrlHalf then 3
          else if (h.drop 16).take 64 ≠ configDigest s then 4 else 1
        Safety.answers (.mrCmdPair t) s fun v => fld v Reg.mrStatusResult = why ∧
          (why ≠ 1 → mState v = 0) ∧
          (why = 1 → (mState v = 2 ∨ mState v = 3) ∧
            v.align.follower = (decide (mine < tick) || (decide (mine = tick) && decide (fieldAt h 2 1 < s.pins.slotId))) ∧
            fld v Reg.tkStatusLeader = if v.align.follower then 0 else 1)) ∧
    (st ∈ [1, 2, 3, 4, 7] → Safety.answers (.unpair t) s fun v => mState v = 0 ∧ v.timer0 = 0 ∧ v.align = {} ∧ fld v Reg.tkStatusLeader = 1 ∧
      v.mirror.partner = [] ∧ v.mirror.gated = [] ∧ v.mirror.unacked = [] ∧ v.tk = reach s.tk t) ∧
    (st ∉ [1, 2, 3, 4, 7] → result (.unpair t) 7) ∧
    (Safety.answers (.fence t) s fun v => mState v = 5 ∧ v.timer0 = 0 ∧ v.mirror.queued = [] ∧ v.sched.cur = none ∧ v.sched.formed = none ∧
      v.timer2 = 0 ∧ fld v Reg.sqStatusRunning = 0 ∧ v.mem = s.mem ∧ v.hostMem = s.hostMem ∧ v.dot = s.dot ∧ v.tk = reach s.tk t) ∧
    (st = 4 → s.mirror.lastBeat + 300 ≤ reach s.tk t → Safety.answers (.takeover t) s fun v => mState v = 6 ∧ v.mirror.adopting = true ∧
      v.mirror.queued = [] ∧ v.mirror.unacked = [] ∧ v.mirror.gated = [] ∧ v.reqs = s.reqs) ∧
    (st ≠ 4 ∨ reach s.tk t < s.mirror.lastBeat + 300 → result (.takeover t) 7) ∧
    (∀ m : MirrorReq, let b := readBytes s.mem (mimg s m.rc) 256
      (∀ f ∈ m.later, f.type ≠ 0x12#8) → m.ring = [] → fieldAt b 6 2 = 0xFFFF → rcAddr s m.rc + 256 ≤ hostBase →
        let v := adoptOne s m
        let r := getReq v m.rc
        rcState v m.rc = 4 ∧ rcGet v m.rc 0x8C 4 = m.tail % 2 ^ 32 ∧ r.adopted = true ∧ r.held = m.tokens ∧ r.replayFrom = fieldAt b 0x38 4 ∧
        r.replay = (m.later.filter fun f => decide (f.type = 0x11)).flatMap (fun f =>
          (List.range (fieldAt f.data 0 1)).map fun i => BitVec.ofNat 32 (fieldAt f.data (16 + 4 * i) 4)) ∧
        r.notices = [(0x31, reg64 s Reg.mrPartnerStep.off, fieldAt b 0x38 4 - (m.tokens.length + m.unseen))]) ∧
    (alive s = true →
      let due := portUp s 16 = true ∧ st ≠ 0 ∧ st ≠ 5 ∧ s.timer0 ≠ 0 ∧ s.timer0 ≤ reach s.tk t ∧ s.mirror.queued = []
      ((portUp s 16 = false ∨ st = 0 ∨ st = 5 ∨ s.timer0 = 0 ∨ reach s.tk t < s.timer0) → exec (.heartbeatSend t) s = .next u) ∧
      (due → creditIn (getPort s 16).credits 12 = 0 → exec (.heartbeatSend t) s =
        .next { u with timer0 := reach s.tk t + 100, mirror := { s.mirror with queued := [heartbeat u] } }) ∧
      (due → creditIn (getPort s 16).credits 12 ≠ 0 → (getPort s 16).unacked.length < 1024 →
        Safety.answers (.heartbeatSend t) s fun v => v.mirror = s.mirror ∧ v.timer0 = reach s.tk t + 100 ∧
          ∃ f, (getPort v 16).unacked = (getPort s 16).unacked ++ [f] ∧ f.seq = (getPort s 16).txSeq % 4096 ∧ f.sentAt = reach s.tk t ∧
            f.mslots.map (·.type) = [1#8] ∧ creditIn (getPort v 16).credits 12 = creditIn (getPort s 16).credits 12 - 1) ∧
      (∀ p ∈ ([(.heartbeatSilence t, (0, decide (s.mirror.lastBeat + 300 ≤ reach s.tk t))),
          (.ackDeadlineMissed t, (1, s.mirror.unacked.any fun p => decide (p.2 + 200 ≤ reach s.tk t)))] : List (Instr × (Nat × Bool))),
        ((p.2.2 = false ∨ (st ≠ 2 ∧ st ≠ 3)) → exec p.1 s = .next u) ∧
        (p.2.2 = true → st = 2 ∨ st = 3 → Safety.answers p.1 s fun v => mState v = 4 ∧ v.mirror.prior = st ∧
          fld v Reg.mrStatusCause = 2 ^ p.2.1 ∧ fld v Reg.mrStatusSuspectSeen = 1 ∧ bit (fld v Reg.kwAlertCause) 0 = true ∧
          v.msix = (if flag s Reg.mrCtrlIrqEn then 262 :: s.msix else s.msix) ∧ v.mem = s.mem)))

/-- On a running device. FF_SYNC_OUT drives the pin in a tick whose count is a multiple of 1,024 on a leader with
SYNC_OUT_EN set, and else changes nothing but the tick. FF_SYNC_IN is ignored by a device that does not follow. At a
follower's first pulse with the leader ahead, the counter takes the leader's lead d, TK_STEP's registers hold the
new count and d, every armed device timer and the start of the power sample in progress move by d; at any other
pulse the counter stands. LOCKED reads 1 and SLEWING 0 exactly when edge and count agree, HOLDOVER 0. Four periods
without a pulse after the first lock set HOLDOVER and SYNC_LOST, clear LOCKED and SLEWING and send vector 258 where
enabled; else nothing changes. SLEWING corrects once in 1,024 ticks: it notes its tick, and with the edge matched
advances a counter that is behind by one, leaves one that is ahead, and brings the difference one closer to 0;
sooner, or not slewing, nothing changes. What counts as the leader's lead and when LOCKED and HOLDOVER read 1 rest
on log entry 87, the pulse's pin on 88. [R45, R46, R47, R48, R49] -/
def Obligations.TickAlignment : Prop :=
  ∀ (s : State) (t : Nat), alive s = true →
    let u := atTick s t
    let now := reach s.tk t
    let a := s.align
    exec (.ffSyncOut t) s = .next (if flag s Reg.tkStatusLeader = true ∧ flag s Reg.tkCtrlSyncOutEn = true ∧ now % 1024 = 0 then
      { u with pins := { s.pins with syncOut := some now } } else u) ∧
    (∀ n ok, a.follower = false → exec (.ffSyncIn t n ok) s = .next u) ∧
    (∀ (n : Nat) (ok : Bool), a.follower = true →
      let step := a.firstLock = false ∧ t < n
      let d : Int := if step then 0 else (n : Int) - (t : Int)
      let agree := ok && decide (d = 0)
      Safety.answers (.ffSyncIn t n ok) s fun v =>
        v.align = { a with locked := agree, firstLock := true, diff := d, lastPulse := v.tk
                           slewAt := if step then a.slewAt.map (· + (n - t)) else a.slewAt } ∧
        v.tk = (if step then (now + (n - t)) % 2 ^ 64 else now) ∧
        fld v Reg.tkStatusLocked = (if agree then 1 else 0) ∧ fld v Reg.tkStatusSlewing = (if agree then 0 else 1) ∧
        fld v Reg.tkStatusHoldover = 0 ∧ v.cores = s.cores ∧
        (step → reg64 v 0x20010 = v.tk ∧ reg64 v 0x20018 = (n - t) % 2 ^ 64 ∧
          v.timer0 = (if s.timer0 = 0 then 0 else (s.timer0 + (n - t)) % 2 ^ 64) ∧
          v.power.sampleCut = some (s.power.sampleCut.getD (now / 1000 * 1000) + (n - t)) ∧
          v.timer1 = (if s.timer1 = 0 then 0 else (s.timer1 + (n - t)) % 2 ^ 64) ∧
          v.timer2 = (if s.timer2 = 0 then 0 else (s.timer2 + (n - t)) % 2 ^ 64)) ∧
        (¬ step → { v with align := s.align, regs := s.regs, tk := s.tk, hwSet := s.hwSet, hwSetAt := s.hwSetAt } = s)) ∧
    (let lost := a.follower = true ∧ a.firstLock = true ∧ flag s Reg.tkStatusHoldover = false ∧ a.lastPulse + 4096 ≤ now;
      (¬ lost → exec (.holdover t) s = .next u) ∧
      (lost → Safety.answers (.holdover t) s fun v => v.align = { a with locked := false } ∧ fld v Reg.tkStatusHoldover = 1 ∧
        fld v Reg.tkStatusLocked = 0 ∧ fld v Reg.tkStatusSlewing = 0 ∧ fld v Reg.tkStatusSyncLost = 1 ∧ v.tk = now ∧
        v.msix = (if flag s Reg.tkCtrlSyncIrqEn = true ∧ mState s ≠ 5 then 258 :: s.msix else s.msix) ∧
        { v with align := s.align, regs := s.regs, msix := s.msix, tk := s.tk, hwSet := s.hwSet, hwSetAt := s.hwSetAt } = s)) ∧
    (let due := a.slewAt.all fun n => decide (n + 1024 ≤ now);
      let w := { u with align := { a with slewAt := some now } };
      (∀ ok, (flag s Reg.tkStatusSlewing = false ∨ due = false) → exec (.slewing t ok) s = .next u) ∧
      (flag s Reg.tkStatusSlewing = true → due = true → exec (.slewing t false) s = .next w) ∧
      (flag s Reg.tkStatusSlewing = true → due = true → Safety.answers (.slewing t true) s fun v =>
        v.tk = (if 0 < a.diff then (now + 1) % 2 ^ 64 else now) ∧
        v.align = { a with slewAt := some now, diff := v.align.diff, locked := decide (v.align.diff = 0) } ∧
        v.align.diff = (if 0 < a.diff then a.diff - 1 else if a.diff < 0 then a.diff + 1 else 0) ∧
        (v.align.diff = 0 → fld v Reg.tkStatusLocked = 1 ∧ fld v Reg.tkStatusSlewing = 0) ∧ (v.align.diff ≠ 0 → v.regs = s.regs) ∧
        { v with align := s.align, regs := s.regs, tk := s.tk, hwSet := s.hwSet, hwSetAt := s.hwSetAt } = s))

/-- On a running device, for each of the 17 ports. Training that completes on enough lanes within 10,000,000 ticks
takes a TRAINING port UP with those lanes and the peer's ID and port, RX state fresh; with this device's own ID it
is DISABLED with ID_CONFLICT. Retraining that completes takes a RETRAINING port UP. 10,000,000 ticks of TRAINING, or
200,000 of RETRAINING, take the port DOWN, 100,000,000 of DOWN back to TRAINING. A lane in service that loses lock,
passes its error rate or is taken off leaves LANES_UP, and an UP port RETRAINS. RETRAIN retrains an UP peer port. A
DISABLED port trains as ENABLE or PAIR_PRESENT comes to let it, not while they stand, and a port they do not let
train is DISABLED. Where the event does not apply nothing changes but the tick. Clearing VALID of an export segment
sets BUSY while accesses to it are in progress, and BUSY clears once they have ended. LK_CTRL and the enables rest
on log entry 82, what a port that leaves service discards on 139. [R319, R320, R321, R332, R350, R415, Table 13-4]
-/
def Obligations.PortsChangeState : Prop :=
  ∀ (s : State) (t p : Nat), alive s = true → p < 17 →
    let u := atTick s t
    let st := portState s p
    let q := getPort s p
    let now := reach s.tk t
    let up := fld s (Reg.lkPortStatusLanesUp p)
    let goes := fun (i : Instr) (x : Nat) => Safety.answers i s (Safety.portGoes s t p x)
    (∀ (l : BitVec 6) id pp, let m := lanesOn s p l.toNat
      (st ≠ 1 ∨ laneCount m < lanesMin s ∨ q.since + 10000000 < now → exec (.trainingComplete t p l id pp) s = .next u) ∧
      (st = 1 → lanesMin s ≤ laneCount m → now ≤ q.since + 10000000 → id % 1024 = ownId s → Safety.answers (.trainingComplete t p l id pp) s fun v =>
        Safety.portGoes s t p 0 v ∧ fld v Reg.lkStatusIdConflict = 1) ∧
      (st = 1 → lanesMin s ≤ laneCount m → now ≤ q.since + 10000000 → id % 1024 ≠ ownId s → Safety.answers (.trainingComplete t p l id pp) s fun v =>
        Safety.portGoes s t p 2 v ∧ fld v (Reg.lkPortStatusLanesUp p) = m ∧ fld v (Reg.lkPortStatusPeerId p) = id % 1024 ∧
        fld v (Reg.lkPortStatusPeerPort p) = pp % 32 ∧ (getPort v p).rxSeq = 0 ∧ (getPort v p).nakOut = false ∧
        (getPort v p).replays = 0)) ∧
    (∀ l : BitVec 6, let m := lanesOn s p (l.toNat &&& up)
      let ok := st = 3 ∧ lanesMin s ≤ laneCount m ∧ now ≤ q.since + 200000
      (¬ ok → exec (.retrainingComplete t p l) s = .next u) ∧
      (ok → Safety.answers (.retrainingComplete t p l) s fun v => Safety.portGoes s t p 2 v ∧ fld v (Reg.lkPortStatusLanesUp p) = m ∧
        (getPort v p).rxSeq = q.rxSeq ∧ (getPort v p).replays = 0)) ∧
    (∀ x ∈ ([(.trainingTimeout t p, (1, 10000000, 4)), (.retrainingTimeout t p, (3, 200000, 4)), (.downTimeout t p, (4, 100000000, 1))] :
        List (Instr × (Nat × Nat × Nat))),
      (st ≠ x.2.1 ∨ now < q.since + x.2.2.1 → exec x.1 s = .next u) ∧
      (st = x.2.1 → q.since + x.2.2.1 ≤ now → goes x.1 x.2.2.2)) ∧
    (∀ l < 6, ∀ i ∈ ([.laneLockLost t p l, .laneErrorRate t p l] : List Instr),
      (bit up l = false → exec i s = .next u) ∧
      (bit up l = true → st = 2 → Safety.answers i s fun v => Safety.portGoes s t p 3 v ∧
        fld v (Reg.lkPortStatusLanesUp p) = setBits up l l 0) ∧
      (bit up l = true → st ≠ 2 → exec i s = .next (setFld u (Reg.lkPortStatusLanesUp p) (setBits up l l 0)))) ∧
    (∀ l < 6, (p = 16 → exec (.laneOff t p l) s = .next u) ∧
      (p < 16 → Safety.answers (.laneOff t p l) s fun v => bit (fld v (Reg.lkPortCtrlLaneOff p)) l = true ∧
        bit (fld v (Reg.lkPortStatusLanesUp p)) l = false ∧ (bit up l = true ∧ st = 2 → Safety.portGoes s t p 3 v) ∧
        (bit up l = false ∨ st ≠ 2 → portState v p = st))) ∧
    (st = 2 ∧ p ≠ 16 → goes (.retrain t p) 3) ∧ (st ≠ 2 ∨ p = 16 → exec (.retrain t p) s = .next u) ∧
    (let base := flag s Reg.lkStatusEnabled = true ∧ flag s Reg.lkStatusIdValid = true
      let follows := fun (i : Instr) (may : Prop) (x : State → Prop) =>
        (may → st = 0 → mayTrain s p = false → Safety.answers i s fun v => Safety.portGoes s t p 1 v ∧ x v) ∧
        (may → st ≠ 0 ∨ mayTrain s p = true → Safety.answers i s fun v => portState v p = st ∧ getPort v p = q ∧ x v) ∧
        (¬ may → st ≠ 0 → Safety.answers i s fun v => Safety.portGoes s t p 0 v ∧ x v) ∧
        (¬ may → st = 0 → Safety.answers i s fun v => portState v p = 0 ∧ getPort v p = q ∧ x v)
      (∀ on : Bool, follows (.portEnable t p on) (base ∧ on = true ∧ (p = 16 → s.pins.pairPresent = false)) fun v =>
        fld v (if p = 16 then Reg.mrCtrlEnable else Reg.lkPortCtrlEnable p) = if on then 1 else 0) ∧
      (∀ high : Bool, p = 16 → follows (.pairPresentChange t high) (base ∧ flag s Reg.mrCtrlEnable = true ∧ high = false) fun v =>
        v.pins = { s.pins with pairPresent := high, alertN := v.pins.alertN })) ∧
    ∀ n < 16,
      (flag s (Reg.lkExpCtrlValid n) = false → exec (.exportValidClear t n) s = .next u) ∧
      (flag s (Reg.lkExpCtrlValid n) = true → Safety.answers (.exportValidClear t n) s fun v => fld v (Reg.lkExpCtrlValid n) = 0 ∧
        fld v (Reg.lkExpStatusBusy n) = (if exportInUse s n then 1 else 0) ∧
        fld v (Reg.lkExpCtrlIdLo n) = fld s (Reg.lkExpCtrlIdLo n) ∧ fld v (Reg.lkExpCtrlIdHi n) = fld s (Reg.lkExpCtrlIdHi n) ∧
        { v with regs := s.regs, tk := s.tk, hwSet := s.hwSet, hwSetAt := s.hwSetAt } = s ∧ v.tk = now) ∧
      (exportInUse s n = true → exec (.exportBusyEnd t n) s = .next u) ∧
      (exportInUse s n = false → Safety.answers (.exportBusyEnd t n) s fun v => fld v (Reg.lkExpStatusBusy n) = 0 ∧
        (∀ off, off ≠ (Reg.lkExpStatusBusy n).off → regGet v off = regGet s off) ∧
        { v with regs := s.regs, tk := s.tk, hwSet := s.hwSet, hwSetAt := s.hwSetAt } = s)

/-- On a running device. A frame at a port not UP changes nothing but the tick. One with over 30 symbols in error
counts UNCORRECTABLE, the sixteenth in a row retraining the port; one whose CRC fails counts; these and one out of
order are discarded, the first of a gap asking for a replay. An IDLE frame acknowledges, and with NAK brings a
replay. A frame in order is accepted: SEQ noted, acknowledged frames released, an acknowledgement sent. Delivered
slots: a one-line RPUT admitted by an export segment stores 256 bytes and adds 1 to its ARRIVE cell; a read admitted
is answered with its granules; either not admitted gets REFUSE. READ_RESP keeps its granule or, poisoned, fails the
operation with 0x12. COLL_DATA lands in SCRATCH; a digest is answered COLL_ACK or NOT_READY, or on a mismatch the
operation fails with 0x12 and COLL_FAIL goes to the peers; COLL_ACK, COLL_FAIL and REFUSE act on the pieces, the
operation or the read. A slot for another device is forwarded with HOP one higher, at HOP 3 or without a route
dropped. On port M a heartbeat, HELLO and DYING are noted; MACK releases frames; a sequenced frame counts in MSEQ
order alone: IMAGE takes a slot, later records are kept apart, MASK is written, STEP_END moves the consistent step.
REPLAY_TIMEOUT, PIECE_RESEND, NOT_READY_RETRY and ROUTE_RETRY send again what is due. An answer's port, gaps, early
and held pieces rest on log entry 139, words past 30 errors on 140, credits and turns on 78, admission on 79,
SCRATCH on 81, mirror frames on 84 to 86. [R315, R317, R322, R323, R324, R325, R329, R330, R336, R337, R340, R341]
-/
def Obligations.FramesAndRetries : Prop :=
  ∀ (s : State) (t p : Nat), alive s = true → p < 17 →
    let u := atTick s t
    let q := getPort s p
    let now := reach s.tk t
    let still := fun (v : State) => v.mem = s.mem ∧ v.cells = s.cells ∧ v.cores = s.cores ∧ v.dot = s.dot ∧ v.tk = now
    let counts := fun (v : State) (c : Fld) => fld v c = min 0xFFFFFFFF (fld s c + 1)
    (∀ f, portUp s p = false → exec (.linkFrame t p f) s = .next u) ∧
    (∀ f : LinkFrame, portUp s p = true →
      (codewordDecodes f.noise = false → Safety.answers (.linkFrame t p f) s fun v => still v ∧ counts v (Reg.lkPortUncorrectable p) ∧
        Safety.discards s p v ∧ (getPort v p).badRun = q.badRun + 1 ∧ portState v p = (if 16 ≤ q.badRun + 1 then 3 else 2)) ∧
      (codewordDecodes f.noise = true → frameCrcOk f = false → Safety.answers (.linkFrame t p f) s fun v => still v ∧
        counts v (Reg.lkPortCrcFail p) ∧ Safety.discards s p v ∧ (getPort v p).badRun = 0 ∧ portState v p = 2) ∧
      (codewordDecodes f.noise = true → frameCrcOk f = true → f.idle = false → f.seq ≠ (q.rxSeq + 1) % 4096 →
        Safety.answers (.linkFrame t p f) s fun v => still v ∧ Safety.discards s p v ∧ (getPort v p).badRun = 0 ∧ portState v p = 2) ∧
      (codewordDecodes f.noise = true → frameCrcOk f = true → f.idle = true → q.queued = [] → s.mirror.queued = [] →
        let rest := ackedRest f.ack q.unacked
        let n := if rest.length < q.unacked.length then 0 else q.replays
        Safety.answers (.linkFrame t p f) s fun v => v.mem = s.mem ∧ v.cells = s.cells ∧ v.dot = s.dot ∧ (getPort v p).rxSeq = q.rxSeq ∧
          if f.nak = true ∧ rest ≠ [] ∧ mState s ≠ 5 then
            (getPort v p).unacked = rest.map (fun g => { g with sentAt := now }) ∧ (getPort v p).replays = n + 1 ∧
              portState v p = (if 8 ≤ n + 1 then 3 else 2)
          else (getPort v p).unacked = rest ∧ (getPort v p).replays = n ∧ portState v p = 2)) ∧
    (∀ f : LinkFrame, Safety.acceptsFrame s p f →
      let gets := fun (x : State → Prop) => Safety.answers (.linkFrame t p f) s fun v => (getPort v p).rxSeq = f.seq ∧
        (getPort v p).gap = false ∧ v.tk = now ∧ x v
      (f.slots = [] → f.mslots = [] → q.queued = [] → s.mirror.queued = [] → gets fun v => still v ∧ (getPort v p).nakOut = false ∧
        (getPort v p).unacked = ackedRest f.ack q.unacked ∧ portState v p = 2 ∧
        (mState s ≠ 5 → ∃ g, (getPort v p).idleOut = some g ∧ g.nak = false ∧ g.ack = f.seq)) ∧
      (∀ x : Slot, p < 16 → f.slots = [x] → Safety.clean s →
        let d := x.src.toNat
        let at_ := servedAt s x.offset.toNat
        let ty := x.type.toNat
        let ch := slotChunk x
        let pc := slotPiece x
        let refuse := fun (why : Nat) => mkSlot s 8 d why 0 x.tag 0 0 [] false false
        let answer := fun (ty cell : Nat) => mkSlot s ty d cell x.offset.toNat x.tag 0 0 [] false false
        let fails := fun (m result : Nat) (v : State) => (getDot v m).state = .failed ∧ (getDot v m).result = result ∧
          ∀ j, j ≠ m → getDot v j = getDot s j
        ((ty = 0 ∨ 8 < ty) → gets fun v => still v ∧ counts v Reg.lkCountHopDrop) ∧
        (1 ≤ ty → ty ≤ 8 → x.dest.toNat % 1024 ≠ ownId s →
          let goal := x.dest.toNat % 1024
          let piece := if ty = 4 ∨ ty = 5 then x.offset.toNat / 65536 else 0
          let kind := if ty = 5 then 4 else ty
          let kept := (s.links.routed.find? fun r => decide (r.kind = kind ∧ r.src = d ∧ r.dest = goal ∧ r.tag = x.tag ∧ r.piece = piece)).filter
            fun r => portUp s r.port
          (slotHop x = 3 ∨ (kept = none ∧ sidePort s goal = none) → gets fun v => still v ∧ counts v Reg.lkCountHopDrop) ∧
          (∀ r, slotHop x ≠ 3 → (kept.map (·.port)).orElse (fun _ => sidePort s goal) = some r → gets fun v => still v ∧
            { x with flags := BitVec.ofNat 8 (setBits x.flags.toNat 3 2 (slotHop x + 1)) } ∈
              (getPort v r).unacked.flatMap (·.slots) ++ (getPort v r).queued)) ∧
        (x.dest.toNat % 1024 = ownId s →
          (ty = 1 → x.lines = 1 → x.line = 0 → (∀ r ∈ s.links.rputs, ¬ (r.src = d ∧ r.tag = x.tag)) →
            let n := x.cell.toNat % 32768
            let c := getCell s n
            let ok := exportOk s x.offset.toNat 256 d true
            (ok = false ∨ guarded s at_ 256 = true → gets fun v => still v ∧
              Safety.replies s d [refuse (if ok = true then 2 else 1)] v) ∧
            (ok = true → guarded s at_ 256 = false → c.kind = 2 → gets fun v =>
              v.mem = writeBytes s.mem at_ (padTo 256 x.data) ∧ (∀ j, j ≠ n → getCell v j = getCell s j) ∧
              getCell v n = { c with value := BitVec.ofNat 64 ((c.value.toNat + 1) % 2 ^ 48),
                                     cfg := if 2 ^ 48 ≤ c.value.toNat + 1 then c.cfg ||| 0x1000000#32 else c.cfg })) ∧
          (ty = 2 →
            let ok := exportOk s x.offset.toNat (256 * x.lines.toNat) d false
            (ok = false → gets fun v => still v ∧ Safety.replies s d [refuse 1] v) ∧
            (ok = true → guarded s at_ (256 * x.lines.toNat) = false → gets fun v => still v ∧
              Safety.replies s d ((List.range x.lines.toNat).map fun i => mkSlot s 3 d 0 0 x.tag i x.lines.toNat
                (physRead s (servedAt s (x.offset.toNat + 256 * i)) 256) (decide (i + 1 = x.lines.toNat)) false) v)) ∧
          (ty = 3 → (readOf s x.tag = none → gets still) ∧ ∀ m i, readOf s x.tag = some (m, i) →
            (x.flags.getLsbD 1 = true → gets (fails m 0x12)) ∧
            (x.flags.getLsbD 1 = false → gets fun v => v.mem = s.mem ∧ v.cells = s.cells ∧ (∀ j, j ≠ m → getDot v j = getDot s j) ∧
              getDot v m = { getDot s m with
                readGot := smIns (getDot s m).readGot (256 * i + x.line.toNat) (padTo 256 x.data) })) ∧
          (ty = 4 → (findColl s x.tag = none → gets still) ∧ ∀ m, findColl s x.tag = some m →
            let e := getDot s m
            let c := collOf e
            let known := (expected s e c).any fun y => decide (y.1 = d ∧ y.2.1 = ch ∧ pc < y.2.2)
            (known = false ∨ havePiece c d ch pc = true → gets still) ∧
            (known = true → havePiece c d ch pc = false → gets fun v =>
              v.mem = (physWrite s (c.scratch + (landing s e c d ch).1 + 65536 * pc + 256 * slotGranule x) x.data).mem ∧
              v.cells = s.cells ∧ ∀ j, j ≠ m → getDot v j = getDot s j)) ∧
          (ty = 5 → (findColl s x.tag = none → gets fun v => still v ∧
              Safety.replies s d [if s.links.held.contains x.tag then answer 6 0 else answer 8 3] v) ∧ ∀ m, findColl s x.tag = some m →
            let c := collOf (getDot s m)
            let early := s.links.early.contains (d, x.tag, ch, pc)
            let part := c.pieces.find? fun y => decide (y.sender = d ∧ y.chunk = ch ∧ y.piece = pc)
            let same := part.any fun y => decide (x.data.take 16 = pieceDigest c.seed.toNat c.tag.toNat y.phase d ch pc y.data)
            (havePiece c d ch pc = true → gets fun v => still v ∧ Safety.replies s d [answer 6 0] v) ∧
            (havePiece c d ch pc = false → early = true → gets fun v => still v ∧ Safety.replies s d [answer 8 3] v) ∧
            (havePiece c d ch pc = false → early = false → same = true → gets fun v => Safety.replies s d [answer 6 0] v) ∧
            (havePiece c d ch pc = false → early = false → same = false → gets fun v => fails m 0x12 v ∧ ∀ y ∈ peers s c,
              Safety.replies s y [mkSlot s 7 y d (2 ^ 32 * ch + 65536 * pc) c.tag 0 0 [] false false] v)) ∧
          (ty = 6 → ∀ m, findColl s x.tag = some m → gets fun v => getDot v m = { getDot s m with coll := some { collOf (getDot s m) with
            unacked := (collOf (getDot s m)).unacked.filter fun y => !sentIs d ch pc y } } ∧ v.mem = s.mem) ∧
          (ty = 7 → ∀ m, findColl s x.tag = some m → gets (fails m 0x12)) ∧
          ((ty = 6 ∨ ty = 7) → findColl s x.tag = none → gets still) ∧
          (ty = 8 → x.cell.toNat % 256 = 3 → ∀ m, findColl s x.tag = some m → gets fun v => v.mem = s.mem ∧
            getDot v m = { getDot s m with coll := some { collOf (getDot s m) with
              unacked := (collOf (getDot s m)).unacked.map fun y =>
                if sentIs d ch pc y then { y with refused := true, sentAt := now } else y } }) ∧
          (ty = 8 → x.cell.toNat % 256 ≠ 3 → ∀ m i, readOf s x.tag = some (m, i) → gets fun v => fails m 0x41 v ∧
            counts v Reg.lkCountRefusedOut) ∧
          (ty = 8 → x.cell.toNat % 256 ≠ 3 → readOf s x.tag = none → gets fun v => still v ∧ counts v Reg.lkCountRefusedOut))) ∧
      (∀ x : MFrame, p = 16 → f.mslots = [x] → s.mirror.gated = [] → s.mirror.queued = [] →
        let ty := x.type.toNat
        let y := { x with data := x.data.take x.len.toNat }
        let rc := x.rc.toNat
        let acks := fun (v : State) => fld v Reg.mrSeqAcked = x.mack.toNat ∧
          v.mirror.unacked = s.mirror.unacked.filter fun a => !seqUpTo a.1.mseq.toNat x.mack.toNat
        let next := decide (x.mseq.toNat = (s.mirror.accepted + 1) % 2 ^ 32)
        (mKnown ty = false → gets fun v => still v ∧ counts v Reg.mrCountDiscarded) ∧
        (ty = 1 → gets fun v => acks v ∧ v.mirror.lastBeat = now ∧ v.mem = s.mem) ∧
        (ty = 2 → mState s ≠ 1 → (mState s = 4 → s.mirror.prior ≠ 1) → gets fun v => acks v ∧ v.mirror.hello = some y.data ∧ v.mem = s.mem) ∧
        (ty = 3 → mState s ∈ [2, 3] → gets fun v => acks v ∧ mState v = 4 ∧ fld v Reg.mrStatusPartnerFatal = 1 ∧ v.mem = s.mem) ∧
        (mSequenced ty = true → ty ≠ 0x20 → next = false → gets fun v => acks v ∧ v.mirror.accepted = s.mirror.accepted ∧
          v.mirror.partner = s.mirror.partner ∧ v.mem = s.mem) ∧
        (mSequenced ty = true → ty ≠ 0x20 → next = true → gets fun v => acks v ∧ v.mirror.accepted = x.mseq.toNat ∧
          counts v Reg.mrCountFramesAccepted ∧ (ty = 0x21 → reg64 v Reg.mrPartnerStep.off = x.step.toNat) ∧
          (∀ m, mreq s rc = some m → ty ∈ [0x10, 0x11, 0x12] → reg64 s Reg.mrPartnerStep.off < x.step.toNat →
            mreq v rc = some { m with later := m.later ++ [y] } ∧ v.mem = s.mem) ∧
          (∀ m, mreq s rc = some m → ty = 0x13 →
            v.mem = (physWrite s (readNat s.mem (mimg s rc + 0x18) 8 + x.arg.toNat) y.data).mem) ∧
          (∀ i, mreq s rc = none → ty = 0x10 → fieldAt y.data 0 1 ≠ 0 → freeSlot s = some i →
            ∃ m, mreq v rc = some m ∧ m.slot = i ∧ m.later = [] ∧ m.mirroredAt = false)))) ∧
    (let due := portUp s p = true ∧ mState s ≠ 5 ∧ ∃ f fs, q.unacked = f :: fs ∧ f.sentAt + 200 ≤ now;
      (¬ due → exec (.replayTimeout t p) s = .next u) ∧
      (due → Safety.answers (.replayTimeout t p) s fun v => still v ∧ (getPort v p).replays = q.replays + 1 ∧
        (getPort v p).unacked = q.unacked.map (fun f => { f with sentAt := now }) ∧
        portState v p = if 8 ≤ q.replays + 1 then 3 else 2)) ∧
    ∀ m < 4096, ∀ dest chunk piece, let e := getDot s m
      let mine := fun (x : CollSent) => decide (x.dest = dest ∧ x.chunk = chunk ∧ x.piece = piece)
      (∀ i ∈ ([.pieceResend t m dest chunk piece, .notReadyRetry t m dest chunk piece, .routeRetry t m] : List Instr),
        e.state ≠ .active → exec i s = .next u) ∧
      (∀ x ∈ ([(.pieceResend t m dest chunk piece, fun x => mine x && decide (x.sentAt + 5000 ≤ now)),
          (.notReadyRetry t m dest chunk piece, fun x => mine x && x.refused && decide (x.sentAt + 200 ≤ now)),
          (.routeRetry t m, fun x => x.waiting && decide (x.sentAt + 1000 ≤ now))] : List (Instr × (CollSent → Bool))), ∀ c,
        e.state = .active → e.kind = 4 → e.coll = some c →
        Safety.answers x.1 s fun v => v.mem = s.mem ∧ v.cores = s.cores ∧ v.cells = s.cells ∧ v.tk = now ∧
          (let again := c.unacked.map fun o =>
              if x.2 o then { o with sentAt := now, waiting := decide (routePorts s o.dest = []), refused := false } else o
           getDot v m = { e with coll := some { c with unacked := again } }) ∧
          ∀ j, j ≠ m → getDot v j = getDot s j) ∧
      (e.state = .active → e.kind ≠ 4 →
        (e.waitRoute = false ∨ now < e.routeTried + 1000 → exec (.routeRetry t m) s = .next u) ∧
        (e.waitRoute = true → e.routeTried + 1000 ≤ now → e.kind ≠ 5 →
          let up := routePorts s ((e.src - peerBase) / peerBytes)
          (up = [] → 0 < e.len → exec (.routeRetry t m) s = .next (setDot u m { e with routeTried := now })) ∧
          (up ≠ [] → Safety.answers (.routeRetry t m) s fun v =>
            getDot v m = { e with waitRoute := false } ∧ (∀ j, j ≠ m → getDot v j = getDot s j) ∧ v.mem = s.mem ∧ v.tk = now)) ∧
        (e.waitRoute = true → e.routeTried + 1000 ≤ now → e.kind = 5 → exec (.routeRetry t m) s = .next (importSend u m e.readTag)))

/-- On a running device not in the recovery loader. SEAL of an OFF range with a valid layout makes it SEALING, with
an invalid one RESULT is 2; of another range RESULT is 5. SEALING_END of a SEALING range, no read waiting, makes it
SEALED with RESULT 1 and the digest of its CRC table, or OFF with the reason and the first failing block; of another
range it changes nothing but the tick. UNSEAL makes a SEALED range UNSEALING, else RESULT is 5. ZONE_INIT answers
RESULT 3 while busy and 2 on a bad layout, else zeroes the map and the bitmap, frees every sector and shows
INITIALISING until INIT_END. Writing CTRL with ENABLE 1 takes the zone's fields and makes it READY with RESULT 1 and
its free sectors counted, or gives RESULT 2; with ENABLE 0 it leaves service; a write that would take a busy zone
down gives RESULT 3 and changes nothing else. Sealing rests on log entry 38, zones on 41. [R155, R157, R166, R167,
R176, Table 7-4, Table 7-17, Table 7-19] -/
def Obligations.GuardedRangesAndZones : Prop :=
  ∀ (s : State) (t n : Nat), alive s = true → bootNow s ≠ 4 → n < 16 →
    let u := atTick s t
    let only := fun (v : State) => { v with regs := s.regs, hwSet := s.hwSet, hwSetAt := s.hwSetAt, tk := s.tk } = s ∧ v.tk = reach s.tk t
    let status := fun (i : Instr) (f : Fld) (x : Nat) => Safety.answers i s fun v => only v ∧ fld v f = x ∧
      ∀ off, off ≠ f.off → regGet v off = regGet s off
    let st := grState s n
    (st = 0 → sealLayoutOk s n = true → Safety.answers (.seal t n) s fun v => only v ∧ grState v n = 1 ∧
      (∀ off, off ≠ (Reg.mcGrState n).off → regGet v off = regGet s off)) ∧
    (st = 0 → sealLayoutOk s n = false → status (.seal t n) (Reg.mcGrResult n) 2) ∧
    (st ≠ 0 → status (.seal t n) (Reg.mcGrResult n) 5) ∧
    (st = 2 → status (.unseal t n) (Reg.mcGrState n) 3) ∧ (st ≠ 2 → status (.unseal t n) (Reg.mcGrResult n) 5) ∧
    (s.links.reads = [] → s.bar2Reads = [] → (∀ p ∈ s.dot, p.2.waitStart = false) →
      (st ≠ 1 → exec (.sealingEnd t n) s = .next u) ∧
      (st = 1 → let r := sealBlocks u n (grSize s n / 4096) 0
        (r.2 = none → Safety.answers (.sealingEnd t n) s fun v => grState v n = 2 ∧ fld v (Reg.mcGrResult n) = 1 ∧ v.mem = r.1.mem ∧
          regBytes v (0x31040 + 0x80 * n) 64 = shake256 (physRead r.1 (grCrcBase s n) (grSize s n / 512)) 64) ∧
        (∀ i why, r.2 = some (i, why) → Safety.answers (.sealingEnd t n) s fun v => grState v n = 0 ∧ fld v (Reg.mcGrResult n) = why ∧
          fld v (Reg.mcGrFailBlock n) = i % 2 ^ 32 ∧ v.mem = r.1.mem))) ∧
    (zoneBusy s n = true ∨ flag s (Reg.mcTzStatusInitialising n) = true → status (.zoneInit t n) (Reg.mcTzStatusResult n) 3) ∧
    (zoneBusy s n = false → flag s (Reg.mcTzStatusInitialising n) = false →
      (zoneLayoutOk s n = false → status (.zoneInit t n) (Reg.mcTzStatusResult n) 2) ∧
      (zoneLayoutOk s n = true → tzTier s n = 2 → Safety.answers (.zoneInit t n) s fun v =>
        fld v (Reg.mcTzStatusInitialising n) = 1 ∧ fld v (Reg.mcTzFreeSectors n) = tzSectors s n ∧
        (∀ a, readByte v.mem a = if (tzMap s n ≤ a ∧ a < tzMap s n + 16 * tzBlocks s n) ∨
          (tzBitmap s n ≤ a ∧ a < tzBitmap s n + (tzSectors s n + 7) / 8) then 0 else readByte s.mem a) ∧ v.hostMem = s.hostMem) ∧
      (zoneLayoutOk s n = true → tzTier s n ≠ 2 → Safety.answers (.zoneInit t n) s fun v =>
        fld v (Reg.mcTzStatusInitialising n) = 1 ∧ fld v (Reg.mcTzFreeSectors n) = tzSectors s n ∧ v.mem = s.mem ∧
        ∀ i < 16 * tzBlocks s n, readByte v.hostMem (busAddr s (tzMap s n) + i) = 0)) ∧
    status (.initEnd t n) (Reg.mcTzStatusInitialising n) 0 ∧
    ∀ x : Word32, let v0 := x.toNat
      let w := setFld (setFld (setFld u (Reg.mcTzCtrlAlt n) (bits v0 11 8)) (Reg.mcTzCtrlTier n) (bits v0 4 4)) (Reg.mcTzCtrlAltEn n)
        (bits v0 3 3)
      let taken := fun (v : State) => only v ∧ fld v (Reg.mcTzCtrlAlt n) = bits v0 11 8 ∧ fld v (Reg.mcTzCtrlTier n) = bits v0 4 4 ∧
        fld v (Reg.mcTzCtrlAltEn n) = bits v0 3 3
      ((x.getLsbD 1 = true ∨ x.getLsbD 0 = false) → zoneBusy s n = true → status (.tzEnable t n x) (Reg.mcTzStatusResult n) 3) ∧
      (x.getLsbD 1 = false → x.getLsbD 0 = false → zoneBusy s n = false → Safety.answers (.tzEnable t n x) s fun v => taken v ∧
        flag v (Reg.mcTzCtrlEnable n) = false ∧ tzReady v n = false) ∧
      (x.getLsbD 1 = false → x.getLsbD 0 = true → flag s (Reg.mcTzCtrlEnable n) = true → exec (.tzEnable t n x) s = .next w) ∧
      (x.getLsbD 1 = false → x.getLsbD 0 = true → flag s (Reg.mcTzCtrlEnable n) = false →
        (zoneLayoutOk w n = true → Safety.answers (.tzEnable t n x) s fun v => taken v ∧ flag v (Reg.mcTzCtrlEnable n) = true ∧
          tzReady v n = true ∧ fld v (Reg.mcTzStatusResult n) = 1 ∧ fld v (Reg.mcTzFreeSectors n) = countFree s n % 2 ^ 32) ∧
        (zoneLayoutOk w n = false → Safety.answers (.tzEnable t n x) s fun v => taken v ∧ flag v (Reg.mcTzCtrlEnable n) = false ∧
          fld v (Reg.mcTzStatusResult n) = 2))

/-- On a running device not in the recovery loader. Writing 1 to KV_CTRL.ENABLE while paging is off turns it on with
PAGE_FRAMES and RESULT 1 where the layout check passes, else RESULT is 2; while it is on nothing changes. Writing 0
with a live context gives RESULT 3, else paging is off. KV_INV drops the named context's entries, or all, from every
cluster's translation buffer, leaves the caches and staging pools, and is busy until KV_INV_END; while busy it
changes nothing. IN_CTRL takes its enables: CICADA_EN newly 1 makes core k due at the tick plus k periods over 544;
CHECK_EN 1 waits for the next formation, and 0 acts at once, SAMPLE reading 0. A profile request is noted and
PENDING set; a write of PW_MODE takes its writable bits and acts at the next boundary. Paging rests on log entry 62,
modes on 15 and 94. [R226, R240, R258, R353, R368, R381, R383, R386] -/
def Obligations.PagingChecksAndModes : Prop :=
  ∀ (s : State) (t : Nat), alive s = true → bootNow s ≠ 4 →
    let u := atTick s t
    let only := fun (v : State) => { v with regs := s.regs, hwSet := s.hwSet, hwSetAt := s.hwSetAt, tk := s.tk } = s ∧ v.tk = reach s.tk t
    (∀ x : Word32,
      (x.getLsbD 0 = true → flag s Reg.kvCtrlEnable = true → exec (.kvEnable t x) s = .next u) ∧
      (x.getLsbD 0 = true → flag s Reg.kvCtrlEnable = false → kvLayoutOk s = true → Safety.answers (.kvEnable t x) s fun v => only v ∧
        flag v Reg.kvCtrlEnable = true ∧ kvEnabled v = true ∧ fld v Reg.kvStatusPageFrames = kvPf s % 32 ∧ fld v Reg.kvStatusResult = 1) ∧
      (x.getLsbD 0 = true → flag s Reg.kvCtrlEnable = false → kvLayoutOk s = false → Safety.answers (.kvEnable t x) s fun v => only v ∧
        flag v Reg.kvCtrlEnable = false ∧ kvEnabled v = kvEnabled s ∧ fld v Reg.kvStatusResult = 2) ∧
      (x.getLsbD 0 = false → liveRcs s ≠ [] → Safety.answers (.kvEnable t x) s fun v => only v ∧
        flag v Reg.kvCtrlEnable = flag s Reg.kvCtrlEnable ∧ kvEnabled v = kvEnabled s ∧ fld v Reg.kvStatusResult = 3) ∧
      (x.getLsbD 0 = false → liveRcs s = [] → Safety.answers (.kvEnable t x) s fun v => only v ∧
        flag v Reg.kvCtrlEnable = false ∧ kvEnabled v = false ∧ fld v Reg.kvStatusPageFrames = 0)) ∧
    (∀ x : Word32,
      (flag s Reg.kvInvBusy = true → exec (.kvInv t x) s = .next u) ∧
      (flag s Reg.kvInvBusy = false → Safety.answers (.kvInv t x) s fun v => fld v Reg.kvInvBusy = 1 ∧ fld v Reg.kvStatusInvBusy = 1 ∧
        (∀ c, let a := getCluster s c
          getCluster v c = { a with tb := if x.getLsbD 31 then [] else a.tb.filter fun e => decide (e.rc ≠ x.toNat % 65536) }) ∧
        { v with regs := s.regs, hwSet := s.hwSet, hwSetAt := s.hwSetAt, clusters := s.clusters, tk := s.tk } = s)) ∧
    (Safety.answers (.kvInvEnd t) s fun v => only v ∧ fld v Reg.kvInvBusy = 0 ∧ fld v Reg.kvStatusInvBusy = 0 ∧
      (∀ off, off ≠ Reg.kvInvBusy.off → off ≠ Reg.kvStatusInvBusy.off → regGet v off = regGet s off)) ∧
    (∀ x : Word32, Safety.answers (.checkEn t x) s fun v =>
      fld v Reg.inCtrlLogIrqEn = (if x.getLsbD 3 then 1 else 0) ∧ fld v Reg.inCtrlRetractIrqEn = (if x.getLsbD 2 then 1 else 0) ∧
      fld v Reg.inCtrlCicadaEn = (if x.getLsbD 1 then 1 else 0) ∧
      v.integ.due = (if x.getLsbD 1 = true ∧ flag s Reg.inCtrlCicadaEn = false then
        (List.range 544).map fun k => (k, reach s.tk t + k * (max 60 (fld s Reg.inCicadaPeriod) * 100000000) / 544) else s.integ.due) ∧
      flag v Reg.inCtrlCheckEn = (flag s Reg.inCtrlCheckEn && x.getLsbD 0) ∧ (x.getLsbD 0 = false → fld v Reg.inStatusSample = 0) ∧
      v.integ.checkPending = (x.getLsbD 0 && (s.integ.checkPending || !flag s Reg.inCtrlCheckEn)) ∧
      v.power.modeDirty = (s.power.modeDirty || (flag s Reg.inCtrlCheckEn && !x.getLsbD 0)) ∧
      { v with regs := s.regs, hwSet := s.hwSet, hwSetAt := s.hwSetAt, integ := s.integ, power := s.power, tk := s.tk } = s) ∧
    (∀ x : Word32, Safety.answers (.pwProfileRequest t x) s fun v => v.power = { s.power with profileReq := some (bits x.toNat 3 2) } ∧
      fld v Reg.pwProfilePending = 1 ∧ fld v Reg.pwProfileActive = fld s Reg.pwProfileActive ∧
      { v with regs := s.regs, hwSet := s.hwSet, hwSetAt := s.hwSetAt, power := s.power, tk := s.tk } = s) ∧
    ∀ x : Word32, Safety.answers (.pwModeWrite t x) s fun v => v.power = { s.power with modeDirty := true } ∧
      regGet v 0xA000C = ((regGet s 0xA000C &&& ~~~(0x1FF3FFC#32)) ||| (x &&& 0x1FF3FFC#32)) ∧
      (∀ off, off ≠ 0xA000C → regGet v off = regGet s off) ∧ { v with regs := s.regs, hwSet := s.hwSet, hwSetAt := s.hwSetAt, power := s.power, tk := s.tk } = s

/-- On a running device. STEP_BOUNDARY before every core's part has ended, or with no step, changes nothing but the
tick; else it runs the orders of Table 12-13 as composed here. Commits raise a page's VALID_COUNT over the unbroken
confirmed run, and CONFIRMED_POS likewise. Of the rollback targets the least applies, at most eight steps back; the
steps after it are rerun, IN registers, counts and the record name it, a record that compares digests waits; a
request's held tokens, charges, tokens and notice follow. An end code that withdraws ends the request with no token
held or mirrored, else its tokens are held to their step plus the hold. A refill whose tick has come adds its
periods up to CAP. Due tokens are written while the ring has room; the mirror is handed a STEP_END. Formation reruns
the next recorded step, runs a check-only step, or takes a batch of candidates in order, within MAX_BATCH, with its
depths and chunks. Where nothing else is due the boundary leaves no step, RUNNING 0, SC32513 at the index, memory
and cores. IDLE_FORMATION likewise, not during a step. STEP_LAUNCH with none formed, one in progress, held back or
no core left does nothing; else STEP, RUNNING, SC32512, the watchdog and the snapshot follow, every core that takes
part issues at the kernel's entry with s1 to s7 of Table 4-1, all else zero, the accumulators at zero in the default
mode, keeping scratchpad and weights; every other core stands. Log entries: 29 and 22 for the entry, 61 to 68 for
ends, orders, chunks and work area, 74 and 145 for rollback, 76 for rings, 89 for checks. [R310, R59, R291, R362,
R244, R281, R304, R306, R360, R361, R363, Table 4-1] -/
def Obligations.StepsFormLaunchAndEnd : Prop :=
  (∀ (s : State) (t : Nat), alive s = true →
    let u := atTick s t
    let now := reach s.tk t
    let rest := fun (v : State) => v.mem = s.mem ∧ v.cores = s.cores ∧ v.tk = now ∧ v.sched.formed = Safety.formedNext s
    ((∀ p, s.sched.cur = some p → partsEnded s p = false) → exec (.stepBoundary t) s = .next u) ∧
    (∀ p, s.sched.cur = some p → partsEnded s p = true →
      let a := settleStep (openDue { u with timer2 := 0, timer2Left := none }) p
      let h := handOff a.1 p a.2.1 a.2.2
      let f := orderFive (freeAdapters (releaseFreed ((liveRcs h).foldl (fun st rc => applyVictims st p.idx rc) h))) p.idx
      let e := setFld { f with sched := { f.sched with cur := none } } Reg.sqStatusRunning 0
      let next := (e.sched.rerunQ.head?.map (·.idx)).getD (e.sched.nextStep + 1)
      let r := installWaiting (retireLosers (testBoundary (orderSix e p.idx) next) next)
      let w := journalAll (orderSeven r) p.idx
      exec (.stepBoundary t) s = .next (quiesce (form (publishOwed (setFld w Reg.inStatusRerunning (b2n (!w.sched.rerunQ.isEmpty))))))) ∧
    (∀ p, s.sched.cur = some p → partsEnded s p = true → Safety.quiet s → p.members = [] → p.dups = [] → p.faulted = false →
      p.ueHit = false → (∀ j, (getCore s j).wait = .none) → Safety.answers (.stepBoundary t) s fun v => v.sched.cur = none ∧ fld v Reg.sqStatusRunning = 0 ∧
        v.timer2 = 0 ∧ getCell v 32513 = { getCell s 32513 with value := BitVec.ofNat 64 p.idx } ∧
        (∀ j, j ≠ 32513 → getCell v j = getCell s j) ∧ rest v) ∧
    (s.sched.cur ≠ none ∨ fld s Reg.kwStatusBoot ≠ 3 → exec (.idleFormation t) s = .next u) ∧
    (s.sched.cur = none → fld s Reg.kwStatusBoot = 3 → exec (.idleFormation t) s =
      .next (quiesce (form (publishOwed (journalAll (orderSeven (orderSix (refills (openDue u)) (stepNow u))) (stepNow u)))))) ∧
    (s.sched.cur = none → fld s Reg.kwStatusBoot = 3 → Safety.quiet s → Safety.answers (.idleFormation t) s fun v =>
      v.sched.cur = none ∧ v.cells = s.cells ∧ rest v) ∧
    ((∀ p, s.sched.formed = some p → s.sched.cur ≠ none ∨ mayLaunch s p.idx = false ∨ (unfenced s p).cores = []) →
      exec (.stepLaunch t) s = .next u) ∧
    ∀ p0, s.sched.formed = some p0 → s.sched.cur = none → mayLaunch s p0.idx = true → p0.cores.Nodup →
      (∀ j, (getCore s j).wait = .none) →
      let p := unfenced s p0
      let due := now + 100 * max 100 (fld s Reg.sqLimitStepLimit)
      let plans := plansOf s p.segLog2 (p.members.map fun m => { m with tokens := inputOf s m })
      let lists := p.cores.map (itemList (itemsOf s p.cores plans))
      let off := fun (i : Nat) => (workLayout s p.cores plans).items + ((lists.take i).map List.length).sum
      p.cores ≠ [] → Safety.answers (.stepLaunch t) s fun v =>
        (∃ q, v.sched.cur = some q ∧ q.idx = p.idx ∧ q.cores = p.cores ∧ q.rates = p.rates ∧ q.launch = now) ∧ v.sched.formed = none ∧
        reg64 v Reg.sqStepStep.off = p.idx % 2 ^ 64 ∧ fld v Reg.sqStatusRunning = 1 ∧
        fld v Reg.inStatusRerunning = (if p.rerun then 1 else 0) ∧
        (s.repairs = [] → v.timer2 = due ∧ v.timer2Left = none) ∧
        (s.repairs ≠ [] → v.timer2 = 0 ∧ v.timer2Left = some (due - now)) ∧
        v.snapshot = s.table ∧ getCell v 32512 = { getCell s 32512 with value := BitVec.ofNat 64 p.idx } ∧
        (∀ j, j ≠ 32512 → getCell v j = getCell s j) ∧ v.tk = now ∧
        (∀ i < p.cores.length, Safety.entered s p (modeOf (accumDefault s)) (off i) i (p.cores.getD i 0) (getCore v (p.cores.getD i 0))) ∧
        ∀ j, j ∉ p.cores → getCore v j = getCore s j) ∧
  ∀ x : State,
    -- order 2: commits
    (∀ es k a p, findPte x k.1 k.2.1 k.2.2.1 k.2.2.2 = some (a, p) →
      let has := fun (o : Nat) => ∃ e ∈ es, (e.rc, e.layer, e.hg, e.pos / 16) = k ∧ e.pos % 16 = o
      ∃ c, p.count ≤ c ∧ (p.count ≤ 16 → c ≤ 16) ∧ (∀ o, p.count ≤ o → o < c → has o) ∧ (c < 16 → ¬ has c) ∧
        (commitPage x es k).1 = if c = p.count then x else putPte x k.1 k.2.1 k.2.2.1 k.2.2.2 a { p with count := c }) ∧
    (∀ m : Member, m.gone = false → rcLive x m.rc = true → ∃ n ≤ m.r, (∀ i < n, posConfirmed x m (m.c + i) = true) ∧
      (n < m.r → posConfirmed x m (m.c + n) = false) ∧
      advancePos x m = if m.c + n = rcPos x m.rc then x else rcPut x m.rc 0x30 4 (m.c + n)) ∧
    -- order 3: rollback
    (∀ p : Step, (∀ c, rollCause x p = some c → c.g < p.idx ∧ p.idx ≤ c.g + 8 ∧
        ∀ g, x.integ.target = some g ∨ ((p.faulted = true ∨ p.ueHit = true) ∧ g = p.idx - 1) → c.g ≤ max g (p.idx - 8)) ∧
      ((p.faulted = true ∨ p.ueHit = true) → 0 < p.idx → rollCause x p ≠ none) ∧
      ∀ c, x.kolwin.fatal = false →
        let r := rollBack x p c
        let v := r.1
        let logged := x.links.digests.any fun d => decide (c.g % 2 ^ 48 < d.1.toNat / 2 ^ 16 ∧ d.1.toNat / 2 ^ 16 ≤ p.idx % 2 ^ 48)
        let steps := stepsToRerun x c.g p.idx
        v.sched.rerunQ = steps ++ x.sched.rerunQ.filter (fun q => decide (p.idx < q.idx)) ∧
        v.sched.rolledTo = x.sched.rolledTo ++ [(c.g, p.idx)] ∧ reg64 v 0x90050 = c.g % 2 ^ 64 ∧ reg64 v 0x90058 = p.idx % 2 ^ 64 ∧
        fld v Reg.sqCountRollbacks = min 0xFFFFFFFF (fld x Reg.sqCountRollbacks + 1) ∧
        (c.short = true → fld v Reg.inStatusReachShort = 1) ∧ (logged = false → fld v ⟨0x900C0, 7, 0⟩ = 0x15) ∧
        (logged = true → ∃ o, v.sched.retraction = some o ∧ o.g = c.g ∧ o.last = p.idx) ∧
        r.2 = (liveRcs x).filter (fun rc => tookPart x steps rc || sharedAfter x c.g rc)) ∧
    (∀ g inStep rc k b, journalAt (getReq x rc) g = some (k, b) →
      let q := getReq x rc
      let gen := fieldAt b 0x38 4
      let v := getReq (rollReq x g inStep rc).1 rc
      v.held = q.held.filter (fun h => decide (h.step ≤ g)) ∧ v.charges = q.charges.filter (fun c => decide (c.1 ≤ g)) ∧
      v.tokens = [] ∧ v.verify = none ∧ v.victims = [] ∧ v.mayflies = [] ∧ v.verifies = fieldAt b 256 8 ∧
      v.codes = (if inStep then q.codes.filter (fun c => decide (c = 0x50)) else q.codes) ∧
      v.notices = (if reachedRing x rc g gen then q.notices ++ [(0x30, g + 1, gen)] else q.notices)) ∧
    (∀ (p : Step) r, x.sched.retraction = some r → r.last ≤ p.idx → x.kolwin.fatal = false →
      (settleRetraction x p).sched.retraction = none ∧ fld (settleRetraction x p) ⟨0x900C0, 7, 0⟩ = 0x15) ∧
    -- orders 3 and 4: ends, the hold, refills
    (∀ (p : Step) rc, rcLive x rc = true → rcState x rc ≠ 6 →
      let q := getReq x rc
      let code := endCode (q.codes ++ if q.guestFault then [0x40] else [])
      let v := settleReq x p rc
      (∀ c, code = some c → withdraws c = true → v.2 = none ∧ (getReq v.1 rc).endStep = p.idx ∧
        (getReq v.1 rc).held = (if c = 0x50 then [] else q.held)) ∧
      ((∀ c, code = some c → withdraws c = false) → v.2.isSome = !q.tokens.isEmpty ∧ (q.covered = 0 →
        (getReq v.1 rc).held.map (fun h => (h.token, h.step, h.due)) =
          q.held.map (fun h => (h.token, h.step, h.due)) ++ q.tokens.map fun w => (w, p.idx, p.idx + modeHold x))) ∧
      (getReq v.1 rc).tokens = [] ∧ (getReq v.1 rc).codes = [] ∧ (getReq v.1 rc).verify = none) ∧
    (∀ n, let period := 100 * tenGet x n 0x14 4
      let due := tenGet x n 0x18 8
      let k := (x.tk - due) / period + 1
      (period = 0 ∨ x.tk < due → refillTenant x n = x) ∧
      (period ≠ 0 → due ≤ x.tk → Safety.clean x → tenAddr x n + 64 ≤ hostBase →
        tenGet (refillTenant x n) n 0x18 8 = (due + k * period) % 2 ^ 64 ∧
        tenGet (refillTenant x n) n 0 8 = if tenUnmetered x n then tenGet x n 0 8
          else max (tenBudget x n) (min (bits (tenGet x n 8 8) 47 0) (tenBudget x n + k * tenGet x n 0x10 4)))) ∧
    -- orders 4 and 5: the hand-off and the rings
    (∀ p confirms new, mState x ∈ [2, 3, 4] → let v := handOff x p confirms new
      ∃ f ∈ v.mirror.queued ++ v.mirror.unacked.map (·.1), f.type = 0x21 ∧ f.step = BitVec.ofNat 64 p.idx) ∧
    (∀ rc n hs, let w := writeHeld x rc n hs
      ∃ taken, hs = taken ++ w.2.1 ∧ (∀ h ∈ taken, h.due ≤ n) ∧ (∀ h, w.2.1.head? = some h → n < h.due ∨ ringFree w.1 rc = 0) ∧
        w.2.2.map (fun e => fieldAt e 0 4) = taken.map fun h => h.token.toNat) ∧
    -- formation
    let x0 := setFld { x with sched := { x.sched with formed := none } } Reg.kvReservedCount 0
    let v := (form x).sched.formed
    let y := bringAll x0
    (formationOff x = true ∨ participants x = [] → v = none) ∧
    (formationOff x = false → participants x ≠ [] →
      (∀ q qs, x.sched.rerunQ = q :: qs → v = some (rerunOf x q)) ∧
      (x.sched.rerunQ = [] → checkOnlyDue x x.sched.nextStep = true →
        ∃ q, v = some q ∧ q.idx = x.sched.nextStep + 1 ∧ q.members = [] ∧ q.checkOnly = true ∧ q.cores = participants x) ∧
      (x.sched.rerunQ = [] → checkOnlyDue x x.sched.nextStep = false → candidates y = [] → v = none) ∧
      (x.sched.rerunQ = [] → checkOnlyDue x x.sched.nextStep = false → ∀ q, v = some q →
        q.idx = x.sched.nextStep + 1 ∧ q.checkOnly = false ∧ q.cores = participants x ∧ q.members ≠ [] ∧
        q.members.length ≤ maxBatch x ∧ (q.members.map (·.rc)).Sublist (candidates y) ∧
        (∀ m ∈ q.members, m.c = rcPos y m.rc ∧ m.prefill = isPrefill y m.rc ∧ m.d ≤ depthFor y m.rc q.idx ∧
          (m.prefill = false → m.r = m.d + 1) ∧ (m.prefill = true → m.d = 0 ∧ m.last = decide (m.c + m.r = rcGet y m.rc 0x24 4))) ∧
        ∀ rc, candidates y = [rc] → ∃ m, q.members = [markLast y m] ∧ batchFits y (participants x) (segNow y) [m] = true))

/-- The eviction pass takes of a layer and head group only pages it may take, as many as the pages not evicted pass
KEEP, or all beyond the window, none of a higher SCORE than one left; at order 5 they join the evicted with the
step's index. On a running device with no word of memory in error. SPILL of a page not being spilled, nor in the
mirror, changes nothing but the tick. Of a listed page: with the spill stack empty the page stays, its run no longer
MOVING and SPILL_EMPTY set; where the zone is full it stays, noted; else its entry has TIER set and names the spill
run taken from the stack, SPILLED counts, and its run returns to the free stack; the last page ends the request's
list, and a completion owed is posted. A page with a word in error stays, and leaves the list. RESTORE of a page not
being restored, or with no unreserved run free, changes nothing; a page read back is written to a run taken from the
free stack, its entry has TIER clear and names that run, its spill run returns, RESTORED counts; the last one ends
the restore; a tier failure ends the request with code 0x11. CLAILAEZ_PUBLICATION with none in progress changes
nothing; else the generation is one higher, UPDATING 0, VALID and CHANGED 1, the types published join CAUSE, vector
257 is sent where enabled, the digest covers the table, and the first publication after reset lets BOOT read
RUNNING. FOM_WINDOW_END before its window's end changes nothing; else the counts start anew, and a whole window with
energy counted gives its tokens and their quotient by the energy. Log entries: eviction 58, spills 59 and 120,
publications 77, windows 75. [R247, R248, R250, R251, R286, R340, R37, R38, R312, R396, Table 10-5] -/
def Obligations.PagesMoveAndTablesPublish : Prop :=
  (∀ (x : State) (rc layer hg : Nat) (pages : List (Nat × Nat × Nat × Nat × Pte)),
    let mine := pages.filter fun p => decide (p.1 = layer ∧ p.2.1 = hg)
    let cands := mine.filter fun p => evictable x (rcPos x rc) p.2.2.1 p.2.2.2.2
    let standing := (mine.filter fun p => !p.2.2.2.2.evicted).length
    let vs := pairVictims x rc layer hg pages
    (∀ v ∈ vs, ∃ p ∈ cands, v = (layer, hg, p.2.2.1)) ∧
    vs.length = (if modeWindowed x then cands.length else if evKeep x = 0 then 0 else min cands.length (standing - evKeep x)) ∧
    ((cands.map (·.2.2.1)).Nodup → ∀ p ∈ cands, ∀ q ∈ cands, (layer, hg, p.2.2.1) ∈ vs → (layer, hg, q.2.2.1) ∉ vs →
      p.2.2.2.2.score ≤ q.2.2.2.2.score) ∧
    ∀ n, let r := getReq x rc
      let v := getReq (applyVictims x n rc) rc
      v.victims = [] ∧ v.evicted = (r.evicted.map fun e => (e.1, e.2.1, e.2.2.1, e.2.2.2.1, e.2.2.2.2 || decide (e.1 + 8 ≤ n))) ++
        r.victims.map fun w => (n, w.1, w.2.1, w.2.2, false)) ∧
  ∀ (s : State) (t : Nat), alive s = true →
    let u := atTick s t
    let now := reach s.tk t
    let plus := fun (v : State) (f : Fld) => fld v f = min 0xFFFFFFFF (fld s f + 1)
    (∀ rc < 65536, ∀ layer hg page addr p, let r := getReq s rc
      let k := (layer, hg, page)
      let rest := r.pages.filter fun x => decide (x ≠ k)
      let n := fld s Reg.kvSpillFreeCount
      let e := ftAddr s p.frame
      (r.pages.contains k = false ∨ r.restoring = true → mirrored s rc = false → exec (.spill t rc layer hg page) s = .next u) ∧
      (r.pages.contains k = false ∨ r.restoring = false → s.mirror.adoptQueue = [] → mState s ≠ 6 →
        exec (.restore t rc layer hg page) s = .next u) ∧
      (r.pages.contains k = true → r.restoring = false → rest ≠ [] → findPte s rc layer hg page = some (addr, p) →
        badIn s (4096 * p.frame) (4096 * kvPf s) ≠ none → Safety.answers (.spill t rc layer hg page) s fun v => (getReq v rc).pages = rest) ∧
      (r.pages.contains k = true → findPte s rc layer hg page = some (addr, p) → addr + 8 ≤ hbmBytes → e + 4 ≤ hbmBytes →
        overlaps addr 8 e 4 = false → Safety.clean s →
        (r.restoring = false →
          (popSpill u = none → rest ≠ [] → Safety.answers (.spill t rc layer hg page) s fun v => (ftGet v p.frame).moving = false ∧
            fld v Reg.kvStatusSpillEmpty = 1 ∧ (getReq v rc).pages = rest ∧ readNat v.mem addr 8 = readNat s.mem addr 8) ∧
          (∀ j s1, popSpill u = some (j, s1) → (spillFrames s1 p.frame j (kvPf s) 0).2 = false → rest ≠ [] →
            Safety.answers (.spill t rc layer hg page) s fun v => (getReq v rc).pages = rest ∧ (getReq v rc).spillFull = true) ∧
          (∀ j s1, popSpill u = some (j, s1) →
            (spillFrames s1 p.frame j (kvPf s) 0).2 = true → hbmBytes ≤ tzMap s (spillZone s) → hbmBytes ≤ tzBitmap s (spillZone s) →
            hbmBytes ≤ tzPool s (spillZone s) → overlaps addr 8 (baseFld s Reg.kvFstackBase + 4 * fld s Reg.kvFreeCount) 4 = false →
            (ftGet s p.frame).refs = 1 → (ftGet s p.frame).poisoned = false →
            (rest ≠ [] → Safety.answers (.spill t rc layer hg page) s fun v =>
              readNat v.mem addr 8 = pteNat { p with tier := true, frame := j } % 2 ^ 64 ∧ (getReq v rc).pages = rest ∧
              plus v Reg.kvCountSpilled ∧ fld v Reg.kvSpillFreeCount = n - 1 ∧
              fld v Reg.kvFreeCount = (fld s Reg.kvFreeCount + 1) % 2 ^ 32) ∧
            (rest = [] → r.spillFull = false → Safety.answers (.spill t rc layer hg page) s fun v =>
              (getReq v rc).pages = [] ∧ (getReq v rc).owed = none ∧ plus v Reg.kvCountSpilled))) ∧
        (r.restoring = true → s.mirror.adoptQueue = [] → mState s ≠ 6 →
          let q := (restoreFrames u p.frame (kvPf s)).2
          (unreserved s = 0 → exec (.restore t rc layer hg page) s = .next u) ∧
          (∀ b, unreserved s ≠ 0 → q = .error b → Safety.answers (.restore t rc layer hg page) s fun v =>
            0x11 ∈ (getReq v rc).codes ∧ (getReq v rc).pages = [] ∧ v.mem = s.mem) ∧
          (∀ bs, let f := readNat s.mem (baseFld s Reg.kvFstackBase + 4 * (fld s Reg.kvFreeCount - 1)) 4
            let z := spillStack s + 4 * n
            unreserved s ≠ 0 → q = .ok bs →
            (rest ≠ [] → 4096 * f + bs.length ≤ hbmBytes → z + 4 ≤ hbmBytes →
              overlaps (4096 * f) bs.length addr 8 = false → overlaps (4096 * f) bs.length z 4 = false → overlaps addr 8 z 4 = false →
              Safety.answers (.restore t rc layer hg page) s fun v => readBytes v.mem (4096 * f) bs.length = bs ∧
                readNat v.mem addr 8 = pteNat { p with tier := false, frame := f } % 2 ^ 64 ∧ readNat v.mem z 4 = p.frame % 2 ^ 32 ∧
                (getReq v rc).pages = rest ∧ plus v Reg.kvCountRestored ∧ fld v Reg.kvSpillFreeCount = (n + 1) % 2 ^ 32 ∧
                fld v Reg.kvFreeCount = fld s Reg.kvFreeCount - 1) ∧
            (rest = [] → Safety.answers (.restore t rc layer hg page) s fun v => (getReq v rc).pages = [] ∧
              (getReq v rc).restoring = false ∧ (getReq v rc).owed = none ∧ (getReq v rc).limit = 0 ∧ plus v Reg.kvCountRestored))))) ∧
    (s.kolwin.publishing = false → exec (.clailaezPublication t) s = .next u) ∧
    (s.kolwin.publishing = true → s.pins.resetPin = true → fld s Reg.kwStatusBoot = 2 →
      Safety.answers (.clailaezPublication t) s fun v => fld v Reg.kwStatusBoot = 3) ∧
    (s.kolwin.publishing = true → s.pins.resetPin = true → (fld s Reg.kwStatusBoot = 2 → s.queues = []) →
      Safety.answers (.clailaezPublication t) s fun v =>
      generation v = (generation s + 1) % 2 ^ 64 ∧ v.kolwin.publishing = false ∧ fld v Reg.clStatusUpdating = 0 ∧
      fld v Reg.clStatusValid = 1 ∧ fld v Reg.clStatusChanged = 1 ∧
      fld v Reg.clCauseTypeChanged = (fld s Reg.clCauseTypeChanged ||| s.kolwin.publish / 2) % 2 ^ 11 ∧
      v.msix = (if flag s Reg.clCtrlChangeIrqEn = true ∧ mState s ≠ 5 then 257 :: s.msix else s.msix) ∧
      (128 ≤ s.table.length → fieldAt v.table 0x10 8 = generation v ∧ (v.table.drop 0x40).take 64 = tableDigest v.table) ∧
      fld v Reg.kwStatusBoot = (if fld s Reg.kwStatusBoot = 2 then 3 else fld s Reg.kwStatusBoot) ∧ v.mem = s.mem ∧ v.cores = s.cores) ∧
    let w := now / 2 ^ 27 * 2 ^ 27
    let energy := reg64 s Reg.pwEnergyUj.off
    let used := (energy + 2 ^ 64 - s.sched.fomEnergy) % 2 ^ 64
    (w ≤ s.sched.fomStart → exec (.fomWindowEnd t) s = .next u) ∧
    (s.sched.fomStart < w → Safety.answers (.fomWindowEnd t) s fun v =>
      v.sched.fomStart = w ∧ v.sched.fomTokens = 0 ∧ v.sched.fomEnergy = energy ∧
      (s.sched.fomStart % 2 ^ 27 = 0 → fld v Reg.sqFomCeilingTokens = s.sched.fomTokens % 2 ^ 32 ∧
        (used ≠ 0 → fld v Reg.sqFomMtpj = 1000000000 * s.sched.fomTokens / used % 2 ^ 32)) ∧
      (s.sched.fomStart % 2 ^ 27 ≠ 0 → v.regs = s.regs) ∧ v.mem = s.mem ∧ v.cores = s.cores ∧ v.tk = now)

/-- On a powered device out of reset. POWER_SAMPLE shows the reading's power and adds its energy over 10 µs, or over
the true length of a sample the forward step cut; a core rail whose current reaches 320 A is limited to 10 mV below
its setpoint; each rail's measured voltage slews by at most 100 mV towards its setpoint; above the cap, with no
emergency, one step is taken on the first lever with room (voltage by 10 mV, near-bank by 128 units, HBM rate); at
or below it the excursion ends, and the hundredth calm sample releases one step of the last lever in use, while a
setpoint above the nominal voltage falls by 10 mV a sample without headroom. THERMAL_SETPOINT_STEP lowers a rail's
thermal setpoint by 10 mV above the throttle temperature and raises it 3 degrees or more below. An emergency puts
every lever at its limit, counts, sets EMERG_SEEN, EMERGENCY and its alert and sends vector 264 where enabled;
EMERGENCY_END ends its source's hold. Shutdown abandons the step, makes the device FATAL, drops PWRGD and takes the
rails down; a second does nothing more. On a running device a lost quarter or stack, a failed self-check or a
Kolwin-detected fault makes it FATAL: FATAL shows in three registers, the Clailaez table is FROZEN, vector 267 goes
out unless the device is FENCED, and a record of type 0x20 names class 1 and the source; a self-check passed changes
nothing. The model's readings are log entries 92, 93, 109, 114, 115 and 118. [R370, R371, R372, R373, R374, R376,
R377, R378, R379, R387, R410, R163] -/
def Obligations.PowerEventsAndFatalState : Prop :=
  ∀ (s : State) (t : Nat), s.pins.powered = true → s.pins.resetN = true →
    let u := atTick s t
    let now := reach s.tk t
    let plus := fun (v : State) (f : Fld) => fld v f = min 0xFFFFFFFF (fld s f + 1)
    let shown := fun (v : State) => v.mem = s.mem ∧ v.cores = s.cores ∧ v.tk = now ∧
      (∀ r < 8, fld v (Reg.pwRailSetpoint r) = if v.power.railsUp then railSetpoint v r % 2 ^ 16 else 0) ∧
      fld v Reg.pwStatusEmergency = (if v.power.emergency = [] then 0 else 1)
    (∀ x : PowerReading, let p5 := x.millivolts * x.centiamps
      let ticks := (s.power.sampleCut.map (now - ·)).getD 1000
      let above := decide (100000 * capNow s < p5)
      let bad := decide (100000 * prof s 0x18 2 < p5) || decide (100 * prof s 0x1A 2 < s.power.excursion + 1)
      let calm := decide (100 * p5 ≤ 97 * 100000 * capNow s)
      Safety.answers (.powerSample t x) s fun v => shown v ∧ fld v Reg.pwInputSampleW = p5 / 100000 % 2 ^ 16 ∧
        reg64 v Reg.pwEnergyUj.off = (reg64 s Reg.pwEnergyUj.off + p5 * ticks / 10000000) % 2 ^ 64 ∧ v.power.sampleCut = none ∧
        (∀ r < 8, atLimit r (x.railAmps.getD r 0) = true → limitedOf v r = railSetpoint s r - 10) ∧
        ((∀ r < 8, atLimit r (x.railAmps.getD r 0) = false) → v.power.limited = s.power.limited) ∧
        v.power.samples = (p5 / 100000 :: s.power.samples).take 10000 ∧
        fld v Reg.pwInputMeanW = v.power.samples.sum / v.power.samples.length % 2 ^ 16 ∧
        fld v Reg.pwStatusExcursion = (if above then 1 else 0) ∧
        (∀ r < 9, let m := fld s (Reg.pwRailMeasured r)
          let goal := if s.power.railsUp ∨ r = 8 ∧ s.power.tier2Up then fld s (Reg.pwRailSetpoint r) else 0
          fld v (Reg.pwRailMeasured r) = if m < goal then min goal (m + 100) else max goal (m - 100)) ∧
        (above = true → v.power.excursion = s.power.excursion + 1 ∧ v.power.headroom = 0 ∧
          (s.power.excursion = 0 → plus v Reg.pwCountExcursions) ∧ (bad = true → s.power.raised = false → 2 ∈ v.power.emergency) ∧
          (s.power.emergency = [] → bad = false ∨ s.power.raised = true →
            (v.power.setpoint, v.power.nbLimit, v.power.hbmHalf) =
              if pFloor s < s.power.setpoint then (max (pFloor s) (s.power.setpoint - 10), s.power.nbLimit, s.power.hbmHalf)
              else if nearFloor s < s.power.nbLimit then (s.power.setpoint, max (nearFloor s) (s.power.nbLimit - 128), s.power.hbmHalf)
              else (s.power.setpoint, s.power.nbLimit, true))) ∧
        (above = false → v.power.excursion = 0 ∧ v.power.raised = false ∧ (calm = false → v.power.headroom = 0) ∧
          (calm = false → s.power.emergency = [] → pNominal s < s.power.setpoint →
            v.power.setpoint = max (pNominal s) (s.power.setpoint - 10)) ∧
          (calm = true → s.power.headroom < 99 → v.power.headroom = s.power.headroom + 1) ∧
          (calm = true → 99 ≤ s.power.headroom → s.power.emergency = [] → s.power.setpoint < pNominal s → v.power.headroom = 0 ∧
            (v.power.setpoint, v.power.nbLimit, v.power.hbmHalf) =
              if s.power.hbmHalf then (s.power.setpoint, s.power.nbLimit, false)
              else if s.power.nbLimit < 2048 then (s.power.setpoint, min 2048 (s.power.nbLimit + 128), false)
              else (min (pNominal s) (s.power.setpoint + 10), s.power.nbLimit, false)))) ∧
    (∀ r < 8, ∀ j, let th := thermalOf s r
      let down := throttle s < j ∧ pFloor s < th
      Safety.answers (.thermalSetpointStep t r j) s fun v => fld v (Reg.pwRailHottest r) = j % 2 ^ 8 ∧ v.mem = s.mem ∧ v.cores = s.cores ∧
        (∀ q < 8, q ≠ r → thermalOf v q = thermalOf s q) ∧ (down → thermalOf v r = max (pFloor s) (th - 10) ∧
          plus v Reg.pwCountThermalSteps ∧ shown v) ∧
        (¬ down → j + 3 ≤ throttle s → th < pCeiling s → thermalOf v r = min (pCeiling s) (th + 10) ∧ shown v) ∧
        (¬ down → ¬ (j + 3 ≤ throttle s ∧ th < pCeiling s) → v.power = s.power)) ∧
    (∀ x ∈ ([(.inputBelow44v t, 0), (.junctionLimit t, 3), (.coolantAlarm t, 5)] : List (Instr × Nat)),
      Safety.answers x.1 s fun v => shown v ∧ x.2 ∈ v.power.emergency ∧ v.power.setpoint = pFloor s ∧ v.power.nbLimit = nearFloor s ∧
        v.power.hbmHalf = true ∧ fld v Reg.pwStatusStage = 3 ∧ fld v Reg.pwStatusEmergSeen = 1 ∧ plus v Reg.pwCountEmergencies ∧
        bit (fld v Reg.kwAlertCause) 2 = true ∧ (flag s Reg.pwCtrlEmergIrqEn = true → s.kolwin.fatal = false → mState s ≠ 5 → 264 ∈ v.msix) ∧
        (x.2 = 5 → fld v Reg.pwStatusCoolantAlarm = 1 ∧ bit (fld v Reg.kwAlertCause) 3 = true)) ∧
    (∀ n < 6, Safety.answers (.emergencyEnd t n) s fun v => shown v ∧
      v.power = { s.power with emergency := s.power.emergency.filter fun x => decide (x ≠ n) }) ∧
    (∀ k < 12, ∀ i ∈ ([.inputLowPersists t, .inputBelow40v t, .inputAbove58v t, .junction110c t, .hbmAbove105c t k,
        .coolantAlarmPersists t] : List Instr),
      (s.power.shutdown = true → Safety.answers i s fun v => v.power = s.power ∧ v.cores = s.cores ∧ v.mem = s.mem ∧ v.sched = s.sched) ∧
      (s.power.shutdown = false → Safety.answers i s fun v => v.power.shutdown = true ∧ v.power.railsUp = false ∧
        v.power.tier2Up = false ∧ (∀ r < 9, fld v (Reg.pwRailSetpoint r) = 0 ∧ fld v (Reg.pwRailMeasured r) = 0) ∧ v.pins.pwrgd = false ∧ v.kolwin.fatal = true ∧ v.sched.cur = none ∧ v.sched.formed = none ∧
        (∀ j, (getCore v j).phase = .idle) ∧ v.mem = s.mem ∧ v.tk = now ∧ bit (fld v Reg.kwAlertCause) 1 = true ∧
        (s.kolwin.fatal = false → fld v Reg.kwStatusFatal = 1 ∧ (mState s ≠ 5 → v.msix.head? = some 267)))) ∧
    (s.kolwin.fatal = false → exec (.selfCheck t true) s = .next u ∧ (s.kolwin.resetting = false ∨ s.pins.resetPin = true →
      ∀ q < 4, ∀ k < 12, ∀ x ∈ ([(.quarterLoss t q, q), (.stackLost t k, 4 + k), (.kolwinDetectedFault t, 16), (.selfCheck t false, 16)] :
          List (Instr × Nat)),
        Safety.answers x.1 s fun v => v.kolwin.fatal = true ∧ fld v Reg.kwStatusFatal = 1 ∧ fld v Reg.hqStatusFatal = 1 ∧
          fld v Reg.mbStatusFatal = 1 ∧ fld v Reg.clStatusFrozen = 1 ∧ (mState s ≠ 5 → v.msix.head? = some 267) ∧ v.kolwin.resetting = false ∧
          bit (fld v Reg.kwAlertCause) 1 = true ∧
          (s.integ.raisedAt ≠ now ∨ s.integ.raised.contains (1, x.2) = false → fld v ⟨0x900C0, 7, 0⟩ = 0x20 ∧
            fld v ⟨0x900C0, 15, 8⟩ = 1 ∧ fld v ⟨0x900C0, 31, 16⟩ = x.2) ∧ (x.1 = .stackLost t k → fld v Reg.mcStatusStackLost = 1) ∧ v.mem = s.mem ∧
          v.cores = s.cores ∧ v.tk = now))

/-- On a running device. UNCORRECTABLE_WORD: the word reads as R149's code decides of its 18 symbols.
CORRECTED_WORD_WRITE_BACK clears a mark, or counts an on-die correction. REFRESH takes the stack's rate, or is owed
in a window. HBM_TEMPERATURE shows the reading and its rate. A retraining opens its window, counted; a periodic one
waits for the boundary under RETRAIN_DEFER, up to 1 ms. A window's end issues what is owed; a failed one loses the
stack. A test falls due in its period: an idle spare at once, a core in service at a boundary; its end counts, and
one that failed is drained or, a spare, retired. Duplicate-list entries: D at most, overdue ones first, on other
rails; outcomes follow Table 15-6: verified steps, mismatches, losing cores, the step to roll back to. A retired
core's ID passes to its spare, with an empty scratchpad. DISAGREE records, counts and fences; RECONCILED, for the
unit that comes first, ends it; a cluster or pseudo-channel that fails makes the device FATAL. A failing block waits
in quarantine, where stage commands do nothing, or starts stage 1; stage 1's end reads the golden copy: the right
data is written with its entry, the repair ends, the next in quarantine starts; else, or at a stage's or slot's
limit, REPAIR_FAILED, then the partner's stage (50,000 ticks), else the host's (10,000,000 ticks, KW_REPAIR slot,
vector 266), else FATAL. The partner answers only where its DIGEST is the same. Log 34 to 38, 89 to 91, 108, 135,
137. [R151, R158, R159, R160, R162, R163, R353, R354, R357, R359, R366, R411] -/
def Obligations.MemoryErrorsTestsAndRepairs : Prop :=
  ∀ (s : State) (t : Nat), alive s = true →
    let u := atTick s t
    let now := reach s.tk t
    let plus := fun (v : State) (f : Fld) => fld v f = min 0xFFFFFFFF (fld s f + 1)
    let dead := fun (v : State) => v.kolwin.fatal = true ∧ fld v Reg.kwStatusFatal = 1 ∧ (mState s ≠ 5 → v.msix.head? = some 267)
    let ends := s.kolwin.resetting = false ∨ s.pins.resetPin = true
    (∀ a < hbmBytes, let w := a / 16
      (∀ data m, let c := wordSymbols data m (w % 2)
        Safety.answers (.uncorrectableWord t ⟨a, data, m⟩) s fun v => v.tk = now ∧
          (wordOutcome c = .uncorrectable → smGet boolDefault v.badWords w = true ∧ v.mem = s.mem) ∧
          (wordOutcome c ≠ .uncorrectable → smGet boolDefault v.badWords w = false ∧ readBytes v.mem (16 * w) 16 = wordDelivered c) ∧
          (∀ i, wordOutcome c = .corrected i → smGet boolDefault v.softWords w = true) ∧
          (wordOutcome c = .asRead → smGet boolDefault v.softWords w = false) ∧
          (∀ x, x ≠ w → smGet boolDefault v.badWords x = smGet boolDefault s.badWords x ∧
            smGet boolDefault v.softWords x = smGet boolDefault s.softWords x) ∧
          (∀ y, y / 16 ≠ w → readByte v.mem y = readByte s.mem y) ∧
          { v with badWords := s.badWords, softWords := s.softWords, mem := s.mem, tk := s.tk } = s) ∧
      Safety.answers (.correctedWordWriteBack t ⟨a, false⟩) s (fun v => smGet boolDefault v.softWords w = false ∧
        (∀ x, x ≠ w → smGet boolDefault v.softWords x = smGet boolDefault s.softWords x) ∧
        { v with softWords := s.softWords, tk := s.tk } = s) ∧
      Safety.answers (.correctedWordWriteBack t ⟨a, true⟩) s fun v => plus v (Reg.mcStkOdeCount (interleave a).stack) ∧
        { v with regs := s.regs, hwSet := s.hwSet, hwSetAt := s.hwSetAt, tk := s.tk } = s) ∧
    (∀ pc < 384, Safety.answers (.refresh t pc) s fun v =>
      let held := smGet boolDefault s.retraining (pc / 2)
      smGet natDefault v.refreshRate pc = (if held then smGet natDefault s.refreshRate pc else stackRate s (pc / 32)) ∧
      smGet natDefault v.refreshOwed pc =
        (if held then min 3 (smGet natDefault s.refreshOwed pc + 1) else smGet natDefault s.refreshOwed pc) ∧
      v.regs = s.regs ∧ v.mem = s.mem) ∧
    (∀ k < 12, ∀ c, Safety.answers (.hbmTemperature t k c) s fun v =>
      fld v (Reg.mcStkTemp k) = rateAt (stackRate s k) c * 2 ^ 16 + c % 256 ∧ { v with regs := s.regs, hwSet := s.hwSet, hwSetAt := s.hwSetAt, tk := s.tk } = s ∧
      ∀ off, off ≠ (Reg.mcStkTemp k).off → regGet v off = regGet s off) ∧
    (∀ ch < 192, let open_ := smGet boolDefault s.retraining ch
      let opened := fun (v : State) => smGet boolDefault v.retraining ch = true ∧
        (open_ = false → plus v (Reg.mcStkRetrains (ch / 16))) ∧ v.mem = s.mem ∧ v.cores = s.cores ∧ v.tk = now
      let defer := flag s Reg.mcCtrlRetrainDefer = true ∧ s.sched.cur ≠ none
      Safety.answers (.errorTriggeredRetrain t ch) s opened ∧
      (s.retrainDue.find? (fun p => decide (p.1 = ch)) = none →
        (defer → exec (.periodicRetrain t ch) s = .next { u with retrainDue := s.retrainDue ++ [(ch, now)] }) ∧
        (¬ defer → Safety.answers (.periodicRetrain t ch) s opened)) ∧
      (∀ d, s.retrainDue.find? (fun p => decide (p.1 = ch)) = some d →
        (defer → now < d.2 + 100000 → exec (.periodicRetrain t ch) s = .next u) ∧
        (¬ (defer ∧ now < d.2 + 100000) → Safety.answers (.periodicRetrain t ch) s fun v => opened v ∧
          v.retrainDue = s.retrainDue.filter fun p => decide (p.1 ≠ ch))) ∧
      (∀ ok, open_ = false → exec (.retrainWindowEnd t ch ok) s = .next u) ∧
      (open_ = true → Safety.answers (.retrainWindowEnd t ch true) s fun v => smGet boolDefault v.retraining ch = false ∧
        v.regs = s.regs ∧ ∀ pc ∈ [2 * ch, 2 * ch + 1], smGet natDefault v.refreshOwed pc = 0 ∧
          smGet natDefault v.refreshRate pc =
            if smGet natDefault s.refreshOwed pc = 0 then smGet natDefault s.refreshRate pc else stackRate s (pc / 32)) ∧
      (open_ = true → ends → Safety.answers (.retrainWindowEnd t ch false) s fun v => dead v ∧ fld v Reg.mcStatusStackLost = 1)) ∧
    (∀ k < 544, let mine := s.integ.due.find? fun p => decide (p.1 = k)
      (∀ d, mine = some d → d.2 ≤ now → flag s Reg.inCtrlCicadaEn = true → retired s k = false →
        Safety.answers (.knownAnswerTestDue t k) s fun v =>
          v.integ.due = s.integ.due.map (fun p => if p.1 = k then (k, d.2 + testPeriod s) else p) ∧
          coreState v k = (if coreState s k = 5 then 2 else coreState s k) ∧
          v.integ.waiting = if coreState s k ≠ 5 ∧ serving s k = true ∧ s.integ.waiting.contains k = false
            then s.integ.waiting ++ [k] else s.integ.waiting) ∧
      ((∀ d, mine = some d → now < d.2 ∨ flag s Reg.inCtrlCicadaEn = false ∨ retired s k = true) →
        exec (.knownAnswerTestDue t k) s = .next u) ∧
      (∀ x, coreState s k ≠ 2 → exec (.knownAnswerTestEnd t k x) s = .next u) ∧
      (coreState s k = 2 → Safety.answers (.knownAnswerTestEnd t k none) s (fun v => plus v Reg.inCountCicadaRuns ∧
          coreState v k = (if serving s k then 1 else 5) ∧
          v.integ.passed = if serving s k then s.integ.passed ++ [k] else s.integ.passed) ∧
        ∀ x, Safety.answers (.knownAnswerTestEnd t k (some x)) s fun v => plus v Reg.inCountCicadaRuns ∧ plus v Reg.inCountCicadaFails ∧
          coreState v k = (if serving s k then 1 else 4) ∧
          (serving s k = true → v.integ.losing = s.integ.losing ++ [k] ∧
            (s.integ.raisedAt ≠ now ∨ s.integ.raised.contains (4, k / 17) = false → fld v ⟨0x900C0, 7, 0⟩ = 0x10)) ∧
          (serving s k = false → v.integ.spareLost = true ∧ plus v Reg.inCountRetirements ∧ fld v ⟨0x900C0, 7, 0⟩ = 0x14))) ∧
    (∀ kind i, i < treeUnits kind → let named := fun (d : Disagreement) => decide (d.kind = kind ∧ d.index = i)
      (∀ a b, (a = b ∨ s.integ.disagree.any named = true → exec (.disagree t kind i a b) s = .next u) ∧
        (a ≠ b → s.integ.disagree.any named = false → Safety.answers (.disagree t kind i a b) s fun v =>
          v.integ.disagree = s.integ.disagree ++ [{ kind := kind, index := i, dataSt := a, ctrlSt := b, since := now }] ∧
          fld v Reg.inStatusDisagree = 1 ∧ plus v Reg.inCountDisagreements ∧ (kind ≠ 3 → fld v ⟨0x900C0, 7, 0⟩ = 0x16) ∧
          (kind = 1 → retired s i = false → coreState v i = 3) ∧ (kind = 3 → portState s i = 2 → portState v i = 3) ∧
          (kind = 4 → smGet boolDefault v.retraining (i / 2) = true) ∧ v.mem = s.mem ∧ v.cores = s.cores)) ∧
      let found := s.integ.disagree.find? named
      (∀ ok, (∀ d, found = some d → isFirst s d = false) → exec (.reconciled t kind i ok) s = .next u) ∧
      ∀ d, found = some d → isFirst s d = true → ends → ∀ ok, Safety.answers (.reconciled t kind i ok) s fun v =>
        v.integ.disagree = s.integ.disagree.filter (fun e => !named e) ∧
        (kind = 1 → retired s i = false → plus v Reg.inCountCicadaRuns ∧
          coreState v i = if serving s i then 1 else if ok ∧ d.ctrlSt ≠ 4 then 5 else 4) ∧
        (kind ≠ 1 → smGet natDefault v.integ.units (unitKey kind i) =
          if d.ctrlSt = 4 then 4 else if kind = 3 ∨ ok = true then 0 else 3) ∧
        ((kind = 2 ∨ kind = 4) → ok = false → dead v) ∧ (kind = 1 ∨ kind = 3 ∨ ok = true → fld v ⟨0x900C0, 7, 0⟩ = 0x17) ∧
        (kind = 3 → (d.ctrlSt = 4 → portState v i = 0) ∧ (d.ctrlSt ≠ 4 → portState s i = 3 → ok = false → portState v i = 4))) ∧
    (∀ cores idx, let ds := placeChecks s cores idx
      let of := fun (d : Nat × Nat × Nat) => s.integ.checks[d.1]?
      ds.length ≤ checkDups s ∧
      (∀ d ∈ ds, ∃ c, of d = some c ∧ checkPending c = true ∧ d.2.2 ∈ cores ∧ railOf d.2.2 ≠ railOf c.core ∧
        d.2.1 = (if c.state = .arbitrating then 2 else 1) ∧ (c.state = .arbitrating → railOf d.2.2 ≠ railOf c.dup)) ∧
      ds.Pairwise fun d e => ∀ a b, of d = some a → of e = some b → b.step + 4 ≤ idx → a.step + 4 ≤ idx) ∧
    (∀ i c, s.integ.checks[i]? = some c → c.core < 544 → c.dup < 544 → c.arb < 544 → c.rolled = false →
      (∀ d st, let v := duplicateDone s i c d st
        (d = c.d0 → v.integ.checks[i]? = some { c with state := .matched } ∧ plus v Reg.inCountChecks ∧
          c.step % 2 ^ 48 ≤ verified v c.core ∧ st % 2 ^ 48 ≤ verified v c.dup ∧ v.integ.losing = s.integ.losing) ∧
        (d ≠ c.d0 → v.integ.checks[i]? = some { c with state := .arbitrating, d1 := d } ∧ plus v Reg.inCountMismatches ∧
          fld v ⟨0x900C0, 7, 0⟩ = 0x11)) ∧
      ∀ d, let v := arbiterDone s i c d
        let back := fun k => v.integ.target = some (match s.integ.target with | some x => min x (verified s k) | none => verified s k)
        fld v ⟨0x900C0, 7, 0⟩ = 0x12 ∧ plus v Reg.inCountChecks ∧
        (d = c.d1 → v.integ.checks[i]? = some { c with state := .originalWrong } ∧ v.integ.losing = s.integ.losing ++ [c.core] ∧ back c.core) ∧
        (d ≠ c.d1 → d = c.d0 → v.integ.checks[i]? = some { c with state := .duplicateWrong } ∧
          v.integ.losing = s.integ.losing ++ [c.dup] ∧ back c.dup) ∧
        (d ≠ c.d1 → d ≠ c.d0 → v.integ.checks[i]? = some { c with state := .unresolved } ∧ v.integ.losing = s.integ.losing ∧ back c.core ∧
          ∀ k ∈ [c.core, c.dup, c.arb], serving s k = true → retired s k = false → coreState v k = 2)) ∧
    (∀ k < 544, serving s k = true → retired s k = false → ∀ next, let v := retireCore s next k
      retired v k = true ∧ plus v Reg.inCountRetirements ∧ fld v ⟨0x900C0, 7, 0⟩ = 0x14 ∧ gidOf v k = 512 ∧
      ∀ j, spareOf s k = some j → gidOf v j = gidOf s k ∧ coreState v j = 0 ∧ (getCore v j).scratch = []) ∧
    ∀ n < 16, ∀ b < 2 ^ 32, s.links.reads = [] → s.bar2Reads = [] → (∀ p ∈ s.dot, p.2.waitStart = false) → ends →
      let failed := fun (r : Repair) (v : State) =>
        let partner := r.stage < 2 ∧ pairRole s = true ∧ flag s Reg.mcCtrlRepairPartnerEn = true
        let host := r.stage < 3 ∧ flag s Reg.mcCtrlRepairHostEn = true
        fld v Reg.mcStatusRepairFailed = 1 ∧
        (partner → ∃ q ∈ v.repairs, q.range = r.range ∧ q.block = r.block ∧ q.stage = 2 ∧ q.limit = now + 50000) ∧
        (¬ partner → host → ∃ q ∈ v.repairs, ∃ j < 16, q.range = r.range ∧ q.block = r.block ∧ q.stage = 3 ∧ q.limit = now + 10000000 ∧
          q.slot = some j ∧ fld v (Reg.kwRepairRequest j) = 1 ∧ fld v (Reg.kwRepairRange j) = r.range ∧
          fld v (Reg.kwRepairBlock j) = r.block ∧ fld v (Reg.kwRepairLimit j) = (now + 10000000) % 2 ^ 64 ∧
          bit (fld v Reg.kwAlertCause) 4 = true ∧ (flag s Reg.kwCtrlRepairIrqEn = true → mState s ≠ 5 → 266 ∈ v.msix)) ∧
        (¬ partner → ¬ host → dead v)
      let r? := findRepair s n b
      (∀ stage, (stage ≠ 1 ∨ ∀ r, r? = some r → r.stage ≠ 1) → exec (.repairStageEnd t n b stage) s = .next u) ∧
      (∀ r, r? = some r → r.stage = 1 →
        ((goldenOf s n b = none ∨ ∃ z j e, goldenOf s n b = some (z, j) ∧ (zoneRead s z j).2 = .error e) →
          Safety.answers (.repairStageEnd t n b 1) s (failed r)) ∧
        ∀ z j bs, goldenOf s n b = some (z, j) → (zoneRead s z j).2 = .ok bs → let crc := (crc64 (padTo 4096 bs)).toNat
          (expectedCrc s n b = some crc → Safety.repairable s r →
            Safety.answers (.repairStageEnd t n b 1) s (Safety.blockRepaired s r (padTo 4096 bs) crc)) ∧
          (expectedCrc s n b ≠ some crc → Safety.answers (.repairStageEnd t n b 1) s (failed r))) ∧
      ((∀ r, r? = some r → now < r.limit) → exec (.repairStageLimit t n b) s = .next u) ∧
      (∀ r, r? = some r → r.limit ≤ now → Safety.answers (.repairStageLimit t n b) s (failed r)) ∧
      (inRepair s n b = false → s.repairs.length < 16 → let v := beginRepair s n b
        findRepair v n b = some { range := n, block := b, stage := 1, slot := none, limit := s.tk + 10100, began := s.tk }) ∧
      (inRepair s n b = false → 16 ≤ s.repairs.length → let v := beginRepair s n b
        inRepair v n b = true ∧ findRepair v n b = none) ∧
      ∀ j < 16, let q? := s.repairs.find? fun r => decide (r.slot = some j)
        ((∀ r, q? = some r → now < r.limit) → exec (.repairSlotLimit t j) s = .next u) ∧
        ∀ r, q? = some r → 1 ≤ r.stage → r.range = n → r.block = b → r.limit ≤ now →
          Safety.answers (.repairSlotLimit t j) s (failed r)

/-- INPUT_APPLIED to a module without power, INPUT_REMOVED, and RESET_N asserted outside a device reset and a
shutdown make a power-on reset: the tick is 0, memories, cores, cells and tables are empty, every register but
KW_RESET_CAUSE and the fuse's copy reads its reset value; flash, profiles, fuses and host memory stand. PWRGD_HIGH
raises PWRGD of a powered module. RESET_N's deassertion, taken 1 ms after PWRGD or when it rises later, samples PROF
and SLOT_ID and selects the profile, or P0 with RESULT 2 where its record is invalid. PCIE_RESET makes a device
reset with cause 3. PCIE_LINK_TRAINED shows speed and width and ends the ROM stage. IMAGE_VERIFICATION_END starts a
valid firmware, its version shown and M0 extended, else the recovery loader with the core rails down. FIRMWARE_START
brings the rails up at the profile's nominal voltage and configures the held cells; HBM_TRAINING_END zeroes HBM;
TIER2_TRAINING_END follows it; START_UP_TESTS_END, once all are done, counts a run of every core tested, retires
those that failed, makes the other spares idle spares, loads the crossovers and begins the first publication. A
stage's command at any other time changes nothing but the tick. The readings rest on log entries 94 to 97 and 114.
[R44, R381, R394, R395, R396, R399, R401, R403, R420, R421, Table 17-6, Table 17-8] -/
def Obligations.ResetsAndBootStages : Prop :=
  ∀ (s : State) (t : Nat),
    let u := atTick s t
    let now := reach s.tk t
    let fresh := fun (cause : Nat) (v : State) => v.tk = 0 ∧ v.mem = [] ∧ v.imem = [] ∧ v.cores = [] ∧ v.clusters = [] ∧ v.cells = [] ∧
      v.gids = [] ∧ v.dot = [] ∧ v.reqs = [] ∧ v.queues = [] ∧ v.images = [] ∧ v.table = [] ∧ v.pcie = {} ∧ v.kolwin.fatal = false ∧
      fld v Reg.kwResetCause = cause ∧ fld v Reg.kwStatusBoot = 0 ∧
      (∀ off, off ≠ 0xC0008 → off ≠ 0xC0018 → regGet v off = regGet State.reset off) ∧ v.hostMem = s.hostMem ∧ v.msix = s.msix ∧
      v.kolwin.profiles = s.kolwin.profiles ∧ v.kolwin.svFuse = s.kolwin.svFuse ∧ (s.kolwin.writing = [] → v.kolwin.flash = s.kolwin.flash)
    let held := s.pins.powered = true ∧ s.pins.pwrgd = true ∧ s.pins.resetN = false ∧ s.power.shutdown = false
    let taken := fun (p slot : Nat) (v : State) => v.pins.resetN = true ∧ v.pins.resetPin = true ∧ v.pins.prof = p ∧ v.pins.slotId = slot ∧
      fld v Reg.pwProfilePins = p ∧ (recordOk (storedRecord s p) = true → fld v Reg.pwProfileActive = p) ∧
      (recordOk (storedRecord s p) = false → fld v Reg.pwProfileActive = 0 ∧ fld v Reg.pwProfileResult = 2) ∧ v.mem = s.mem ∧ v.tk = now
    (s.pins.powered = true → exec (.inputApplied t) s = .next u) ∧
    (s.pins.powered = false → Safety.answers (.inputApplied t) s fun v => fresh 1 v ∧ v.pins.powered = true ∧ v.pins.resetN = false) ∧
    Safety.answers (.inputRemoved t) s (fun v => fresh 1 v ∧ v.pins.powered = false ∧ v.pins.pwrgd = false ∧ v.pins.resetN = false) ∧
    (∀ h, let may := s.pins.powered = true ∧ s.pins.pwrgd = false ∧ s.power.shutdown = false
      (may → exec (.pwrgdHigh t h) s = .next { u with pins := { s.pins with pwrgd := true, resetPin := h, risenAt := now } }) ∧
      (¬ may → exec (.pwrgdHigh t h) s = .next u)) ∧
    (let off := s.kolwin.resetting = true ∨ s.power.shutdown = true ∨ s.pins.resetN = false;
      (off → exec (.resetNAsserted t) s = .next { u with pins := { s.pins with resetPin := false } }) ∧
      (¬ off → Safety.answers (.resetNAsserted t) s fun v => fresh 2 v ∧ v.pins.resetN = false ∧ v.pins.resetPin = false ∧
        v.pins.powered = s.pins.powered ∧ v.pins.pwrgd = s.pins.pwrgd)) ∧
    (∀ p < 4, ∀ slot < 32,
      (held → s.pins.resetPin = false → Safety.answers (.resetNDeasserted t p slot) s (taken p slot)) ∧
      (¬ held ∨ s.pins.resetPin = true → exec (.resetNDeasserted t p slot) s = .next { u with pins := { s.pins with resetPin := true } }) ∧
      (held → s.pins.resetPin = true → s.pins.risenAt + 100000 ≤ now →
        Safety.answers (.resetNDeassertionTaken t p slot) s (taken p slot)) ∧
      (¬ held ∨ s.pins.resetPin = false ∨ now < s.pins.risenAt + 100000 →
        exec (.resetNDeassertionTaken t p slot) s = .next u)) ∧
    (s.pins.powered = true → s.pins.resetN = true →
      (s.kolwin.resetting = true ∨ s.power.shutdown = true → exec (.pcieReset t) s = .next u) ∧
      (s.kolwin.resetting = false → s.power.shutdown = false → Safety.answers (.pcieReset t) s fun v => Safety.wasReset s 3 v ∧ v.tk = now) ∧
      ∀ g w, 1 ≤ g → g ≤ 6 → 1 ≤ w → w ≤ 16 → Safety.answers (.pcieLinkTrained t g w) s fun v =>
        fld v Reg.hqStatusSpeed = g ∧ fld v Reg.hqStatusWidth = w ∧ bootNow v = (if bootNow s = 0 then 1 else bootNow s) ∧
        { v with regs := s.regs, hwSet := s.hwSet, hwSetAt := s.hwSetAt, tk := s.tk } = s) ∧
    (alive s = true →
      (let img := s.kolwin.flash;
        (2 ≤ bootNow s → exec (.imageVerificationEnd t) s = .next u) ∧
        (bootNow s < 2 → verifyImage s img = 0 → Safety.answers (.imageVerificationEnd t) s fun v => bootNow v = 2 ∧
          fld v Reg.kwFwVersion = fieldAt img 8 4 ∧ fld v Reg.kwFwSecurity = fieldAt img 0x0C 4 ∧ v.kolwin.startedAt = now ∧
          measure v 0 = shake256 (measure s 0 ++ (img.drop 0x20).take 64) 64 ∧ v.mem = s.mem) ∧
        (bootNow s < 2 → verifyImage s img ≠ 0 → s.pins.resetPin = true → Safety.answers (.imageVerificationEnd t) s fun v =>
          bootNow v = 4 ∧ v.power.railsUp = false ∧ v.power.tier2Up = s.power.tier2Up ∧ bit (fld v Reg.kwAlertCause) 5 = true ∧
          v.kolwin.resetting = false ∧ v.mem = s.mem)) ∧
      (bootNow s ≠ 2 ∨ s.power.railsUp = true → exec (.firmwareStart t) s = .next u) ∧
      (bootNow s = 2 → s.power.railsUp = false → Safety.answers (.firmwareStart t) s fun v => v.power.railsUp = true ∧
        v.power.tier2Up = true ∧ v.power.setpoint = pNominal s ∧
        (∀ r < 10, fld v (Reg.pwRailMeasured r) = fld v (Reg.pwRailSetpoint r)) ∧
        (∀ n ∈ [32512, 32513], getCell v n = { value := 0, cfg := 0x2C000000#32, deadline := 0 }) ∧
        (∀ i < 128, getCell v (32640 + i) = { value := 0, cfg := 0x54000000#32, deadline := 0 }) ∧ v.mem = s.mem) ∧
      (bootNow s ≠ 2 ∨ s.power.railsUp = false → exec (.hbmTrainingEnd t) s = .next u) ∧
      (bootNow s = 2 → s.power.railsUp = true → Safety.answers (.hbmTrainingEnd t) s fun v => v.kolwin.hbmTrained = true ∧
        (∀ a, readByte v.mem a = if a < hbmBytes then 0 else readByte s.mem a) ∧
        (∀ a n, a + n ≤ hbmBytes → badIn v a n = none) ∧ v.regs = s.regs) ∧
      exec (.tier2TrainingEnd t) s = .next (if bootNow s = 2 ∧ s.kolwin.hbmTrained = true
        then { u with kolwin := { s.kolwin with tier2Trained := true } } else u) ∧
      (let ready := bootNow s = 2 ∧ s.kolwin.hbmTrained = true ∧ s.kolwin.tier2Trained = true ∧ s.table = [];
        (∀ l, ¬ ready → exec (.startUpTestsEnd t l) s = .next u) ∧
        ∀ l : List (Nat × Nat), (l = [] ∨ ∃ k x, l = [(k, x)] ∧ k < 544 ∧ retired s k = false) → ready →
          s.kolwin.publishing = false → Safety.answers (.startUpTestsEnd t l) s fun v => v.kolwin.publishing = true ∧
            fld v Reg.clStatusUpdating = 1 ∧ generation v = (generation s + 1) % 2 ^ 64 ∧
            fld v Reg.inCountCicadaRuns = min 0xFFFFFFFF (fld s Reg.inCountCicadaRuns +
              ((List.range 544).filter fun k => !retired s k).length) ∧
            (∀ p ∈ l, retired v p.1 = true ∧
              fld v Reg.inCountCicadaFails = min 0xFFFFFFFF (fld s Reg.inCountCicadaFails + 1)) ∧
            (∀ k < 544, serving s k = false → retired s k = false → (∀ p ∈ l, p.1 / 17 ≠ k / 17) → coreState v k = 5) ∧
            fld v Reg.nbCrossQkv = prof s 0x28 2 % 2 ^ 4 ∧ v.kolwin.publish &&& 0xFFE = 0xFFE ∧ v.mem = s.mem))

/-- On a running device, when the stage in progress of a block's repair reaches its limit and the host's stage is
the next that may be used (R158), Kolwin opens the lowest free slot: REQUEST is 1; RANGE and BLOCK name the block,
GOLDEN is its golden address, CRC the expected CRC, LIMIT 10,000,000 ticks on; the REPAIR alert is set, and vector
266 is sent last where its enable allows; the other slots stand. [R411] -/
def Obligations.RepairStageThreeOpensSlot : Prop :=
  ∀ (s : State) (t n b j : Nat) (r : Repair), alive s = true → n < 16 → b < 2 ^ 32 → findRepair s n b = some r →
    r.limit ≤ reach s.tk t → r.slot = none → r.stage < 3 → flag s Reg.mcCtrlRepairHostEn = true →
    1 ≤ r.stage → (2 ≤ r.stage ∨ pairRole s = false ∨ flag s Reg.mcCtrlRepairPartnerEn = false) →
    j < 16 → fld s (Reg.kwRepairRequest j) = 0 → (∀ i < j, fld s (Reg.kwRepairRequest i) ≠ 0) →
    let lim := reach s.tk t + 10000000
    Safety.answers (.repairStageLimit t n b) s fun v =>
      fld v (Reg.kwRepairRequest j) = 1 ∧ fld v (Reg.kwRepairRange j) = n ∧ fld v (Reg.kwRepairBlock j) = b ∧
      fld v (Reg.kwRepairGolden j) = (grGolden s n + 4096 * b) % 2 ^ 64 ∧ (∀ crc, expectedCrc s n b = some crc → fld v (Reg.kwRepairCrc j) = crc % 2 ^ 64) ∧
      fld v (Reg.kwRepairLimit j) = lim % 2 ^ 64 ∧ bit (fld v Reg.kwAlertCause) 4 = true ∧
      (flag s Reg.kwCtrlRepairIrqEn = true → mState s ≠ 5 → v.msix.head? = some 266) ∧
      (∃ q ∈ v.repairs, q.range = n ∧ q.block = b ∧ q.stage = 3 ∧ q.slot = some j ∧ q.limit = lim) ∧
      ∀ i < 16, i ≠ j → ∀ o ∈ [0, 8, 16, 24], reg64 v (0xC0100 + 0x20 * i + o) = reg64 s (0xC0100 + 0x20 * i + o)

/-- On a core ready to execute at operator privilege that names a cell from SC32512 to SC32767: SCSET, SCADD, SCCFG
and SCDL raise SYNC_HELD and do nothing else; SCRD writes the cell's value to sD and its WRAPPED flag to pC; an
untimed WAIT on a configured one goes on with pD set when its condition is met and else holds the core's issue on
the cell. [R80] -/
def Obligations.HeldCellsRefuseChanges : Prop :=
  ∀ (s : State) (k : Nat) (w : FmtT), Safety.operator s k w.pg w.pn →
    let c := getCore s k
    let n := (readS c w.a).toNat
    let e := getCell s n
    let cond := modBits w 26 25
    let met := waitMet cond e.kind e.value (readS c w.b)
    ∀ _ : 32512 ≤ n ∧ n ≤ 32767,
    (∀ p ∈ ([(.scset k w, infoScset.okT w), (.scadd k w, infoScadd.okT w), (.sccfg k w, infoSccfg.okT w),
      (.scdl k w, infoScdl.okT w)] : List (Instr × Bool)), p.2 = true → Safety.traps p.1 s k 0x08) ∧
    (infoScrd.okT w = true → Safety.runs (.scrd k w) s k (writeP (writeS c w.d e.value) w.c.toNat (e.cfg.getLsbD 24))) ∧
    (infoWait.okT w = true → e.kind ≠ 0 → modBits w 24 24 = 0 →
      (met = true → Safety.runs (.wait k w) s k (writeP c w.d.toNat true)) ∧
      (met = false → Safety.answers (.wait k w) s
        (Safety.onCore s k { c with wait := .cell n cond (readS c w.b) w.d.toNat false })))
end

