-- ==== Sys2Proof/Laws/SMap.lean ====
section
/-! SUPPORT. Sparse tables and byte memories: a read after a write, and the canonical form that every operation keeps. -/
namespace Sys2Proof.Machine
variable {α : Type}

/-! ## Reads after writes -/

@[simp] theorem smGet_smIns_same (d : Nat → α) (m : List (Nat × α)) (k : Nat) (v : α) :
    smGet d (smIns m k v) k = v := by
  induction m with
  | nil => simp [smIns, smGet]
  | cons e r ih =>
    obtain ⟨j, w⟩ := e
    simp only [smIns]
    split
    · rename_i h; simp [smGet, ih, Nat.ne_of_lt h]
    · split <;> simp [smGet]

theorem smGet_smIns_ne (d : Nat → α) (m : List (Nat × α)) {k j : Nat} (v : α) (h : j ≠ k) :
    smGet d (smIns m k v) j = smGet d m j := by
  induction m with
  | nil => simp [smIns, smGet, Ne.symm h]
  | cons e r ih =>
    obtain ⟨i, w⟩ := e
    simp only [smIns]
    split
    · simp [smGet, ih]
    · split
      · subst_vars; simp [smGet, Ne.symm h]
      · simp [smGet, Ne.symm h]

@[simp] theorem smGet_smDel_same (d : Nat → α) (m : List (Nat × α)) (k : Nat) : smGet d (smDel m k) k = d k := by
  induction m with
  | nil => simp [smDel, smGet]
  | cons e r ih =>
    obtain ⟨j, w⟩ := e
    by_cases h : j = k
    · simpa [smDel, h] using ih
    · simp only [smDel, List.filter_cons, ne_eq, h, not_false_eq_true, decide_true, if_true, smGet, if_false]
      exact ih

theorem smGet_smDel_ne (d : Nat → α) (m : List (Nat × α)) {k j : Nat} (h : j ≠ k) :
    smGet d (smDel m k) j = smGet d m j := by
  induction m with
  | nil => simp [smDel, smGet]
  | cons e r ih =>
    obtain ⟨i, w⟩ := e
    by_cases hi : i = k
    · subst hi; simp only [smDel, List.filter_cons, ne_eq, not_true_eq_false, decide_false, Bool.false_eq_true, if_false,
        smGet, Ne.symm h]
      exact ih
    · simp only [smDel, List.filter_cons, ne_eq, hi, not_false_eq_true, decide_true, if_true, smGet]
      split
      · rfl
      · exact ih

variable [DecidableEq α]

/-- A read of the index just written. -/
@[simp] theorem smGet_smSet_same (d : Nat → α) (m : List (Nat × α)) (k : Nat) (v : α) :
    smGet d (smSet d m k v) k = v := by
  unfold smSet
  split
  · rename_i h; simp [h]
  · simp

/-- A read of another index. -/
theorem smGet_smSet_ne (d : Nat → α) (m : List (Nat × α)) {k j : Nat} (v : α) (h : j ≠ k) :
    smGet d (smSet d m k v) j = smGet d m j := by
  unfold smSet
  split
  · exact smGet_smDel_ne d m h
  · exact smGet_smIns_ne d m v h

/-! ## The canonical form -/

theorem smWfFrom_weaken (d : Nat → α) {lo lo' : Nat} (h : lo' ≤ lo) :
    ∀ {m : List (Nat × α)}, smWfFrom d lo m = true → smWfFrom d lo' m = true
  | [], _ => rfl
  | (j, v) :: r, hm => by
    simp only [smWfFrom, Bool.and_eq_true, decide_eq_true_eq] at hm ⊢
    exact ⟨⟨Nat.le_trans h hm.1.1, hm.1.2⟩, hm.2⟩

theorem smWfFrom_filter (d : Nat → α) (p : Nat × α → Bool) :
    ∀ {m : List (Nat × α)} {lo : Nat}, smWfFrom d lo m = true → smWfFrom d lo (m.filter p) = true
  | [], _, _ => rfl
  | (j, v) :: r, lo, hm => by
    simp only [smWfFrom, Bool.and_eq_true, decide_eq_true_eq] at hm
    have ih := smWfFrom_filter d p hm.2
    rw [List.filter_cons]
    split
    · simp only [smWfFrom, Bool.and_eq_true, decide_eq_true_eq]
      exact ⟨hm.1, ih⟩
    · exact smWfFrom_weaken d (by omega) ih

theorem smWfFrom_smIns (d : Nat → α) {k : Nat} {v : α} (hv : v ≠ d k) :
    ∀ {m : List (Nat × α)} {lo : Nat}, lo ≤ k → smWfFrom d lo m = true → smWfFrom d lo (smIns m k v) = true
  | [], lo, hk, _ => by simp [smIns, smWfFrom, hk, hv]
  | (j, w) :: r, lo, hk, hm => by
    simp only [smWfFrom, Bool.and_eq_true, decide_eq_true_eq] at hm
    simp only [smIns]
    split
    · rename_i h
      simp only [smWfFrom, Bool.and_eq_true, decide_eq_true_eq]
      exact ⟨hm.1, smWfFrom_smIns d hv h hm.2⟩
    · split
      · rename_i h; subst h
        simp only [smWfFrom, Bool.and_eq_true, decide_eq_true_eq]
        exact ⟨⟨hk, hv⟩, hm.2⟩
      · simp only [smWfFrom, Bool.and_eq_true, decide_eq_true_eq]
        exact ⟨⟨hk, hv⟩, ⟨by omega, hm.1.2⟩, hm.2⟩

/-- A filtered table keeps the canonical form. -/
theorem smWf_filter (d : Nat → α) {m : List (Nat × α)} (p : Nat × α → Bool) (h : smWf d m = true) :
    smWf d (m.filter p) = true := smWfFrom_filter d p h

/-- A write keeps the canonical form. -/
theorem smWf_smSet (d : Nat → α) {m : List (Nat × α)} (k : Nat) (v : α) (h : smWf d m = true) :
    smWf d (smSet d m k v) = true := by
  unfold smSet
  split
  · exact smWf_filter d _ h
  · rename_i hv; exact smWfFrom_smIns d hv (Nat.zero_le k) h

/-- Entries changed in place keep the canonical form while none becomes its default. -/
theorem smWfFrom_map (d : Nat → α) {f : Nat × α → Nat × α} (h1 : ∀ p, (f p).1 = p.1)
    (h2 : ∀ p, p.2 ≠ d p.1 → (f p).2 ≠ d p.1) {m : List (Nat × α)} :
    ∀ {lo : Nat}, smWfFrom d lo m = true → smWfFrom d lo (m.map f) = true := by
  induction m with
  | nil => exact fun h => h
  | cons e r ih =>
    intro lo h
    simp only [smWfFrom, Bool.and_eq_true, decide_eq_true_eq] at h
    obtain ⟨⟨ha, hb⟩, hc⟩ := h
    simp only [List.map_cons, smWfFrom, Bool.and_eq_true, decide_eq_true_eq, h1]
    exact ⟨⟨ha, h2 e hb⟩, ih hc⟩

theorem smWf_map (d : Nat → α) {m : List (Nat × α)} {f : Nat × α → Nat × α} (h1 : ∀ p, (f p).1 = p.1)
    (h2 : ∀ p, p.2 ≠ d p.1 → (f p).2 ≠ d p.1) (h : smWf d m = true) : smWf d (m.map f) = true := smWfFrom_map d h1 h2 h

/-! ## Byte memories -/

@[simp] theorem readByte_writeByte_same (m : List Host.Cell) (a : Nat) (b : Byte) :
    readByte (writeByte m a b) a = b := by simp [readByte, writeByte]

theorem readByte_writeByte_ne (m : List Host.Cell) {a x : Nat} (b : Byte) (h : x ≠ a) :
    readByte (writeByte m a b) x = readByte m x := smGet_smSet_ne _ _ _ h

/-- Every byte outside the written range reads as before. -/
theorem readByte_writeBytes_out (bs : List Byte) :
    ∀ (m : List Host.Cell) (a x : Nat), (x < a ∨ a + bs.length ≤ x) → readByte (writeBytes m a bs) x = readByte m x := by
  induction bs with
  | nil => intros; rfl
  | cons b bs ih =>
    intro m a x h
    simp only [List.length_cons] at h
    rw [writeBytes, ih _ _ _ (by omega), readByte_writeByte_ne _ _ (by omega)]

/-- A byte of the written range reads as written. -/
theorem readByte_writeBytes_in (bs : List Byte) :
    ∀ (m : List Host.Cell) (a i : Nat) (h : i < bs.length), readByte (writeBytes m a bs) (a + i) = bs[i] := by
  induction bs with
  | nil => intro m a i h; simp at h
  | cons b bs ih =>
    intro m a i h
    rw [writeBytes]
    cases i with
    | zero => rw [readByte_writeBytes_out _ _ _ _ (by omega)]; simp
    | succ i =>
      have := ih (writeByte m a b) (a + 1) i (by simpa using h)
      rw [show a + (i + 1) = a + 1 + i by omega, this]; rfl

theorem Memory.wf_writeByte {m : List Host.Cell} (a : Nat) (b : Byte) (h : Memory.wf m = true) :
    Memory.wf (writeByte m a b) = true := smWf_smSet _ _ _ h

theorem Memory.wf_writeBytes (bs : List Byte) :
    ∀ {m : List Host.Cell} (a : Nat), Memory.wf m = true → Memory.wf (writeBytes m a bs) = true := by
  induction bs with
  | nil => intro _ _ h; exact h
  | cons b bs ih => intro m a h; exact ih (a + 1) (Memory.wf_writeByte a b h)

theorem Memory.wf_writeNat {m : List Host.Cell} (a n v : Nat) (h : Memory.wf m = true) :
    Memory.wf (writeNat m a n v) = true := Memory.wf_writeBytes _ _ h

theorem Memory.wf_clearRange {m : List Host.Cell} (a n : Nat) (h : Memory.wf m = true) :
    Memory.wf (clearRange m a n) = true := smWf_filter _ _ h

theorem Memory.wf_writeCells (cs : List Host.Cell) :
    ∀ {m : List Host.Cell}, Memory.wf m = true → Memory.wf (writeCells m cs) = true := by
  induction cs with
  | nil => intro _ h; exact h
  | cons c cs ih => intro m h; exact ih (Memory.wf_writeByte _ _ h)

theorem Memory.wf_copyRange {dm : List Host.Cell} (sm : List Host.Cell) (src dst n : Nat) (h : Memory.wf dm = true) :
    Memory.wf (copyRange sm src dm dst n) = true := Memory.wf_writeCells _ (Memory.wf_clearRange dst n h)

end Sys2Proof.Machine
end

