-- ==== Sys2Proof/Laws/State.lean ====
section
/-! SUPPORT. The fields of the state after each of the updates the model is built from, and the reads of what an update
has just written. -/
namespace Sys2Proof.Machine
variable (s : State)

/-! ## Fields an update leaves alone -/

@[simp] theorem atTick_pending (t : Nat) : (atTick s t).pending = s.pending := rfl
@[simp] theorem atTick_tkLatch (t : Nat) : (atTick s t).tkLatch = s.tkLatch := rfl
@[simp] theorem atTick_align (t : Nat) : (atTick s t).align = s.align := rfl
@[simp] theorem atTick_regs (t : Nat) : (atTick s t).regs = s.regs := rfl
@[simp] theorem atTick_hwSetAt (t : Nat) : (atTick s t).hwSetAt = s.hwSetAt := rfl
@[simp] theorem atTick_hwSet (t : Nat) : (atTick s t).hwSet = s.hwSet := rfl
@[simp] theorem atTick_table (t : Nat) : (atTick s t).table = s.table := rfl
@[simp] theorem atTick_snapshot (t : Nat) : (atTick s t).snapshot = s.snapshot := rfl
@[simp] theorem atTick_mem (t : Nat) : (atTick s t).mem = s.mem := rfl
@[simp] theorem atTick_hostMem (t : Nat) : (atTick s t).hostMem = s.hostMem := rfl
@[simp] theorem atTick_badWords (t : Nat) : (atTick s t).badWords = s.badWords := rfl
@[simp] theorem atTick_softWords (t : Nat) : (atTick s t).softWords = s.softWords := rfl
@[simp] theorem atTick_nbLatches (t : Nat) : (atTick s t).nbLatches = s.nbLatches := rfl
@[simp] theorem atTick_retraining (t : Nat) : (atTick s t).retraining = s.retraining := rfl
@[simp] theorem atTick_retrainDue (t : Nat) : (atTick s t).retrainDue = s.retrainDue := rfl
@[simp] theorem atTick_refreshRate (t : Nat) : (atTick s t).refreshRate = s.refreshRate := rfl
@[simp] theorem atTick_refreshOwed (t : Nat) : (atTick s t).refreshOwed = s.refreshOwed := rfl
@[simp] theorem atTick_cores (t : Nat) : (atTick s t).cores = s.cores := rfl
@[simp] theorem atTick_gids (t : Nat) : (atTick s t).gids = s.gids := rfl
@[simp] theorem atTick_clusters (t : Nat) : (atTick s t).clusters = s.clusters := rfl
@[simp] theorem atTick_cells (t : Nat) : (atTick s t).cells = s.cells := rfl
@[simp] theorem atTick_dot (t : Nat) : (atTick s t).dot = s.dot := rfl
@[simp] theorem atTick_timer0 (t : Nat) : (atTick s t).timer0 = s.timer0 := rfl
@[simp] theorem atTick_timer1 (t : Nat) : (atTick s t).timer1 = s.timer1 := rfl
@[simp] theorem atTick_timer2 (t : Nat) : (atTick s t).timer2 = s.timer2 := rfl
@[simp] theorem atTick_timer2Left (t : Nat) : (atTick s t).timer2Left = s.timer2Left := rfl
@[simp] theorem atTick_imem (t : Nat) : (atTick s t).imem = s.imem := rfl
@[simp] theorem atTick_images (t : Nat) : (atTick s t).images = s.images := rfl
@[simp] theorem atTick_loads (t : Nat) : (atTick s t).loads = s.loads := rfl
@[simp] theorem atTick_reqs (t : Nat) : (atTick s t).reqs = s.reqs := rfl
@[simp] theorem atTick_sched (t : Nat) : (atTick s t).sched = s.sched := rfl
@[simp] theorem atTick_repairs (t : Nat) : (atTick s t).repairs = s.repairs := rfl
@[simp] theorem atTick_integ (t : Nat) : (atTick s t).integ = s.integ := rfl
@[simp] theorem atTick_links (t : Nat) : (atTick s t).links = s.links := rfl
@[simp] theorem atTick_mirror (t : Nat) : (atTick s t).mirror = s.mirror := rfl
@[simp] theorem atTick_power (t : Nat) : (atTick s t).power = s.power := rfl
@[simp] theorem atTick_kolwin (t : Nat) : (atTick s t).kolwin = s.kolwin := rfl
@[simp] theorem atTick_pcie (t : Nat) : (atTick s t).pcie = s.pcie := rfl
@[simp] theorem atTick_queues (t : Nat) : (atTick s t).queues = s.queues := rfl
@[simp] theorem atTick_msix (t : Nat) : (atTick s t).msix = s.msix := rfl
@[simp] theorem atTick_readOut (t : Nat) : (atTick s t).readOut = s.readOut := rfl
@[simp] theorem atTick_bar2Reads (t : Nat) : (atTick s t).bar2Reads = s.bar2Reads := rfl
@[simp] theorem atTick_pins (t : Nat) : (atTick s t).pins = s.pins := rfl
@[simp] theorem atTick_free (t : Nat) : (atTick s t).free = s.free := rfl

@[simp] theorem tookFree_pending : (tookFree s).pending = s.pending := rfl
@[simp] theorem tookFree_tk : (tookFree s).tk = s.tk := rfl
@[simp] theorem tookFree_tkLatch : (tookFree s).tkLatch = s.tkLatch := rfl
@[simp] theorem tookFree_align : (tookFree s).align = s.align := rfl
@[simp] theorem tookFree_regs : (tookFree s).regs = s.regs := rfl
@[simp] theorem tookFree_hwSetAt : (tookFree s).hwSetAt = s.hwSetAt := rfl
@[simp] theorem tookFree_hwSet : (tookFree s).hwSet = s.hwSet := rfl
@[simp] theorem tookFree_table : (tookFree s).table = s.table := rfl
@[simp] theorem tookFree_snapshot : (tookFree s).snapshot = s.snapshot := rfl
@[simp] theorem tookFree_mem : (tookFree s).mem = s.mem := rfl
@[simp] theorem tookFree_hostMem : (tookFree s).hostMem = s.hostMem := rfl
@[simp] theorem tookFree_badWords : (tookFree s).badWords = s.badWords := rfl
@[simp] theorem tookFree_softWords : (tookFree s).softWords = s.softWords := rfl
@[simp] theorem tookFree_nbLatches : (tookFree s).nbLatches = s.nbLatches := rfl
@[simp] theorem tookFree_retraining : (tookFree s).retraining = s.retraining := rfl
@[simp] theorem tookFree_retrainDue : (tookFree s).retrainDue = s.retrainDue := rfl
@[simp] theorem tookFree_refreshRate : (tookFree s).refreshRate = s.refreshRate := rfl
@[simp] theorem tookFree_refreshOwed : (tookFree s).refreshOwed = s.refreshOwed := rfl
@[simp] theorem tookFree_cores : (tookFree s).cores = s.cores := rfl
@[simp] theorem tookFree_gids : (tookFree s).gids = s.gids := rfl
@[simp] theorem tookFree_clusters : (tookFree s).clusters = s.clusters := rfl
@[simp] theorem tookFree_cells : (tookFree s).cells = s.cells := rfl
@[simp] theorem tookFree_dot : (tookFree s).dot = s.dot := rfl
@[simp] theorem tookFree_timer0 : (tookFree s).timer0 = s.timer0 := rfl
@[simp] theorem tookFree_timer1 : (tookFree s).timer1 = s.timer1 := rfl
@[simp] theorem tookFree_timer2 : (tookFree s).timer2 = s.timer2 := rfl
@[simp] theorem tookFree_timer2Left : (tookFree s).timer2Left = s.timer2Left := rfl
@[simp] theorem tookFree_imem : (tookFree s).imem = s.imem := rfl
@[simp] theorem tookFree_images : (tookFree s).images = s.images := rfl
@[simp] theorem tookFree_loads : (tookFree s).loads = s.loads := rfl
@[simp] theorem tookFree_reqs : (tookFree s).reqs = s.reqs := rfl
@[simp] theorem tookFree_sched : (tookFree s).sched = s.sched := rfl
@[simp] theorem tookFree_repairs : (tookFree s).repairs = s.repairs := rfl
@[simp] theorem tookFree_integ : (tookFree s).integ = s.integ := rfl
@[simp] theorem tookFree_links : (tookFree s).links = s.links := rfl
@[simp] theorem tookFree_mirror : (tookFree s).mirror = s.mirror := rfl
@[simp] theorem tookFree_power : (tookFree s).power = s.power := rfl
@[simp] theorem tookFree_kolwin : (tookFree s).kolwin = s.kolwin := rfl
@[simp] theorem tookFree_pcie : (tookFree s).pcie = s.pcie := rfl
@[simp] theorem tookFree_queues : (tookFree s).queues = s.queues := rfl
@[simp] theorem tookFree_msix : (tookFree s).msix = s.msix := rfl
@[simp] theorem tookFree_readOut : (tookFree s).readOut = s.readOut := rfl
@[simp] theorem tookFree_bar2Reads : (tookFree s).bar2Reads = s.bar2Reads := rfl
@[simp] theorem tookFree_pins : (tookFree s).pins = s.pins := rfl

@[simp] theorem regPut_pending (o : Nat) (v : Word32) : (regPut s o v).pending = s.pending := rfl
@[simp] theorem regPut_tk (o : Nat) (v : Word32) : (regPut s o v).tk = s.tk := rfl
@[simp] theorem regPut_tkLatch (o : Nat) (v : Word32) : (regPut s o v).tkLatch = s.tkLatch := rfl
@[simp] theorem regPut_align (o : Nat) (v : Word32) : (regPut s o v).align = s.align := rfl
@[simp] theorem regPut_hwSetAt (o : Nat) (v : Word32) : (regPut s o v).hwSetAt = s.hwSetAt := rfl
@[simp] theorem regPut_hwSet (o : Nat) (v : Word32) : (regPut s o v).hwSet = s.hwSet := rfl
@[simp] theorem regPut_table (o : Nat) (v : Word32) : (regPut s o v).table = s.table := rfl
@[simp] theorem regPut_snapshot (o : Nat) (v : Word32) : (regPut s o v).snapshot = s.snapshot := rfl
@[simp] theorem regPut_mem (o : Nat) (v : Word32) : (regPut s o v).mem = s.mem := rfl
@[simp] theorem regPut_hostMem (o : Nat) (v : Word32) : (regPut s o v).hostMem = s.hostMem := rfl
@[simp] theorem regPut_badWords (o : Nat) (v : Word32) : (regPut s o v).badWords = s.badWords := rfl
@[simp] theorem regPut_softWords (o : Nat) (v : Word32) : (regPut s o v).softWords = s.softWords := rfl
@[simp] theorem regPut_nbLatches (o : Nat) (v : Word32) : (regPut s o v).nbLatches = s.nbLatches := rfl
@[simp] theorem regPut_retraining (o : Nat) (v : Word32) : (regPut s o v).retraining = s.retraining := rfl
@[simp] theorem regPut_retrainDue (o : Nat) (v : Word32) : (regPut s o v).retrainDue = s.retrainDue := rfl
@[simp] theorem regPut_refreshRate (o : Nat) (v : Word32) : (regPut s o v).refreshRate = s.refreshRate := rfl
@[simp] theorem regPut_refreshOwed (o : Nat) (v : Word32) : (regPut s o v).refreshOwed = s.refreshOwed := rfl
@[simp] theorem regPut_cores (o : Nat) (v : Word32) : (regPut s o v).cores = s.cores := rfl
@[simp] theorem regPut_gids (o : Nat) (v : Word32) : (regPut s o v).gids = s.gids := rfl
@[simp] theorem regPut_clusters (o : Nat) (v : Word32) : (regPut s o v).clusters = s.clusters := rfl
@[simp] theorem regPut_cells (o : Nat) (v : Word32) : (regPut s o v).cells = s.cells := rfl
@[simp] theorem regPut_dot (o : Nat) (v : Word32) : (regPut s o v).dot = s.dot := rfl
@[simp] theorem regPut_timer0 (o : Nat) (v : Word32) : (regPut s o v).timer0 = s.timer0 := rfl
@[simp] theorem regPut_timer1 (o : Nat) (v : Word32) : (regPut s o v).timer1 = s.timer1 := rfl
@[simp] theorem regPut_timer2 (o : Nat) (v : Word32) : (regPut s o v).timer2 = s.timer2 := rfl
@[simp] theorem regPut_timer2Left (o : Nat) (v : Word32) : (regPut s o v).timer2Left = s.timer2Left := rfl
@[simp] theorem regPut_imem (o : Nat) (v : Word32) : (regPut s o v).imem = s.imem := rfl
@[simp] theorem regPut_images (o : Nat) (v : Word32) : (regPut s o v).images = s.images := rfl
@[simp] theorem regPut_loads (o : Nat) (v : Word32) : (regPut s o v).loads = s.loads := rfl
@[simp] theorem regPut_reqs (o : Nat) (v : Word32) : (regPut s o v).reqs = s.reqs := rfl
@[simp] theorem regPut_sched (o : Nat) (v : Word32) : (regPut s o v).sched = s.sched := rfl
@[simp] theorem regPut_repairs (o : Nat) (v : Word32) : (regPut s o v).repairs = s.repairs := rfl
@[simp] theorem regPut_integ (o : Nat) (v : Word32) : (regPut s o v).integ = s.integ := rfl
@[simp] theorem regPut_links (o : Nat) (v : Word32) : (regPut s o v).links = s.links := rfl
@[simp] theorem regPut_mirror (o : Nat) (v : Word32) : (regPut s o v).mirror = s.mirror := rfl
@[simp] theorem regPut_power (o : Nat) (v : Word32) : (regPut s o v).power = s.power := rfl
@[simp] theorem regPut_kolwin (o : Nat) (v : Word32) : (regPut s o v).kolwin = s.kolwin := rfl
@[simp] theorem regPut_pcie (o : Nat) (v : Word32) : (regPut s o v).pcie = s.pcie := rfl
@[simp] theorem regPut_queues (o : Nat) (v : Word32) : (regPut s o v).queues = s.queues := rfl
@[simp] theorem regPut_msix (o : Nat) (v : Word32) : (regPut s o v).msix = s.msix := rfl
@[simp] theorem regPut_readOut (o : Nat) (v : Word32) : (regPut s o v).readOut = s.readOut := rfl
@[simp] theorem regPut_bar2Reads (o : Nat) (v : Word32) : (regPut s o v).bar2Reads = s.bar2Reads := rfl
@[simp] theorem regPut_pins (o : Nat) (v : Word32) : (regPut s o v).pins = s.pins := rfl
@[simp] theorem regPut_free (o : Nat) (v : Word32) : (regPut s o v).free = s.free := rfl

@[simp] theorem setGid_pending (k g : Nat) : (setGid s k g).pending = s.pending := rfl
@[simp] theorem setGid_tk (k g : Nat) : (setGid s k g).tk = s.tk := rfl
@[simp] theorem setGid_tkLatch (k g : Nat) : (setGid s k g).tkLatch = s.tkLatch := rfl
@[simp] theorem setGid_align (k g : Nat) : (setGid s k g).align = s.align := rfl
@[simp] theorem setGid_regs (k g : Nat) : (setGid s k g).regs = s.regs := rfl
@[simp] theorem setGid_hwSetAt (k g : Nat) : (setGid s k g).hwSetAt = s.hwSetAt := rfl
@[simp] theorem setGid_hwSet (k g : Nat) : (setGid s k g).hwSet = s.hwSet := rfl
@[simp] theorem setGid_table (k g : Nat) : (setGid s k g).table = s.table := rfl
@[simp] theorem setGid_snapshot (k g : Nat) : (setGid s k g).snapshot = s.snapshot := rfl
@[simp] theorem setGid_mem (k g : Nat) : (setGid s k g).mem = s.mem := rfl
@[simp] theorem setGid_hostMem (k g : Nat) : (setGid s k g).hostMem = s.hostMem := rfl
@[simp] theorem setGid_badWords (k g : Nat) : (setGid s k g).badWords = s.badWords := rfl
@[simp] theorem setGid_softWords (k g : Nat) : (setGid s k g).softWords = s.softWords := rfl
@[simp] theorem setGid_nbLatches (k g : Nat) : (setGid s k g).nbLatches = s.nbLatches := rfl
@[simp] theorem setGid_retraining (k g : Nat) : (setGid s k g).retraining = s.retraining := rfl
@[simp] theorem setGid_retrainDue (k g : Nat) : (setGid s k g).retrainDue = s.retrainDue := rfl
@[simp] theorem setGid_refreshRate (k g : Nat) : (setGid s k g).refreshRate = s.refreshRate := rfl
@[simp] theorem setGid_refreshOwed (k g : Nat) : (setGid s k g).refreshOwed = s.refreshOwed := rfl
@[simp] theorem setGid_cores (k g : Nat) : (setGid s k g).cores = s.cores := rfl
@[simp] theorem setGid_clusters (k g : Nat) : (setGid s k g).clusters = s.clusters := rfl
@[simp] theorem setGid_cells (k g : Nat) : (setGid s k g).cells = s.cells := rfl
@[simp] theorem setGid_dot (k g : Nat) : (setGid s k g).dot = s.dot := rfl
@[simp] theorem setGid_timer0 (k g : Nat) : (setGid s k g).timer0 = s.timer0 := rfl
@[simp] theorem setGid_timer1 (k g : Nat) : (setGid s k g).timer1 = s.timer1 := rfl
@[simp] theorem setGid_timer2 (k g : Nat) : (setGid s k g).timer2 = s.timer2 := rfl
@[simp] theorem setGid_timer2Left (k g : Nat) : (setGid s k g).timer2Left = s.timer2Left := rfl
@[simp] theorem setGid_imem (k g : Nat) : (setGid s k g).imem = s.imem := rfl
@[simp] theorem setGid_images (k g : Nat) : (setGid s k g).images = s.images := rfl
@[simp] theorem setGid_loads (k g : Nat) : (setGid s k g).loads = s.loads := rfl
@[simp] theorem setGid_reqs (k g : Nat) : (setGid s k g).reqs = s.reqs := rfl
@[simp] theorem setGid_sched (k g : Nat) : (setGid s k g).sched = s.sched := rfl
@[simp] theorem setGid_repairs (k g : Nat) : (setGid s k g).repairs = s.repairs := rfl
@[simp] theorem setGid_integ (k g : Nat) : (setGid s k g).integ = s.integ := rfl
@[simp] theorem setGid_links (k g : Nat) : (setGid s k g).links = s.links := rfl
@[simp] theorem setGid_mirror (k g : Nat) : (setGid s k g).mirror = s.mirror := rfl
@[simp] theorem setGid_power (k g : Nat) : (setGid s k g).power = s.power := rfl
@[simp] theorem setGid_kolwin (k g : Nat) : (setGid s k g).kolwin = s.kolwin := rfl
@[simp] theorem setGid_pcie (k g : Nat) : (setGid s k g).pcie = s.pcie := rfl
@[simp] theorem setGid_queues (k g : Nat) : (setGid s k g).queues = s.queues := rfl
@[simp] theorem setGid_msix (k g : Nat) : (setGid s k g).msix = s.msix := rfl
@[simp] theorem setGid_readOut (k g : Nat) : (setGid s k g).readOut = s.readOut := rfl
@[simp] theorem setGid_bar2Reads (k g : Nat) : (setGid s k g).bar2Reads = s.bar2Reads := rfl
@[simp] theorem setGid_pins (k g : Nat) : (setGid s k g).pins = s.pins := rfl
@[simp] theorem setGid_free (k g : Nat) : (setGid s k g).free = s.free := rfl

@[simp] theorem setCore_pending (k : Nat) (c : Core) : (setCore s k c).pending = s.pending := rfl
@[simp] theorem setCore_tk (k : Nat) (c : Core) : (setCore s k c).tk = s.tk := rfl
@[simp] theorem setCore_tkLatch (k : Nat) (c : Core) : (setCore s k c).tkLatch = s.tkLatch := rfl
@[simp] theorem setCore_align (k : Nat) (c : Core) : (setCore s k c).align = s.align := rfl
@[simp] theorem setCore_regs (k : Nat) (c : Core) : (setCore s k c).regs = s.regs := rfl
@[simp] theorem setCore_hwSetAt (k : Nat) (c : Core) : (setCore s k c).hwSetAt = s.hwSetAt := rfl
@[simp] theorem setCore_hwSet (k : Nat) (c : Core) : (setCore s k c).hwSet = s.hwSet := rfl
@[simp] theorem setCore_table (k : Nat) (c : Core) : (setCore s k c).table = s.table := rfl
@[simp] theorem setCore_snapshot (k : Nat) (c : Core) : (setCore s k c).snapshot = s.snapshot := rfl
@[simp] theorem setCore_mem (k : Nat) (c : Core) : (setCore s k c).mem = s.mem := rfl
@[simp] theorem setCore_hostMem (k : Nat) (c : Core) : (setCore s k c).hostMem = s.hostMem := rfl
@[simp] theorem setCore_badWords (k : Nat) (c : Core) : (setCore s k c).badWords = s.badWords := rfl
@[simp] theorem setCore_softWords (k : Nat) (c : Core) : (setCore s k c).softWords = s.softWords := rfl
@[simp] theorem setCore_nbLatches (k : Nat) (c : Core) : (setCore s k c).nbLatches = s.nbLatches := rfl
@[simp] theorem setCore_retraining (k : Nat) (c : Core) : (setCore s k c).retraining = s.retraining := rfl
@[simp] theorem setCore_retrainDue (k : Nat) (c : Core) : (setCore s k c).retrainDue = s.retrainDue := rfl
@[simp] theorem setCore_refreshRate (k : Nat) (c : Core) : (setCore s k c).refreshRate = s.refreshRate := rfl
@[simp] theorem setCore_refreshOwed (k : Nat) (c : Core) : (setCore s k c).refreshOwed = s.refreshOwed := rfl
@[simp] theorem setCore_gids (k : Nat) (c : Core) : (setCore s k c).gids = s.gids := rfl
@[simp] theorem setCore_clusters (k : Nat) (c : Core) : (setCore s k c).clusters = s.clusters := rfl
@[simp] theorem setCore_cells (k : Nat) (c : Core) : (setCore s k c).cells = s.cells := rfl
@[simp] theorem setCore_dot (k : Nat) (c : Core) : (setCore s k c).dot = s.dot := rfl
@[simp] theorem setCore_timer0 (k : Nat) (c : Core) : (setCore s k c).timer0 = s.timer0 := rfl
@[simp] theorem setCore_timer1 (k : Nat) (c : Core) : (setCore s k c).timer1 = s.timer1 := rfl
@[simp] theorem setCore_timer2 (k : Nat) (c : Core) : (setCore s k c).timer2 = s.timer2 := rfl
@[simp] theorem setCore_timer2Left (k : Nat) (c : Core) : (setCore s k c).timer2Left = s.timer2Left := rfl
@[simp] theorem setCore_imem (k : Nat) (c : Core) : (setCore s k c).imem = s.imem := rfl
@[simp] theorem setCore_images (k : Nat) (c : Core) : (setCore s k c).images = s.images := rfl
@[simp] theorem setCore_loads (k : Nat) (c : Core) : (setCore s k c).loads = s.loads := rfl
@[simp] theorem setCore_reqs (k : Nat) (c : Core) : (setCore s k c).reqs = s.reqs := rfl
@[simp] theorem setCore_sched (k : Nat) (c : Core) : (setCore s k c).sched = s.sched := rfl
@[simp] theorem setCore_repairs (k : Nat) (c : Core) : (setCore s k c).repairs = s.repairs := rfl
@[simp] theorem setCore_integ (k : Nat) (c : Core) : (setCore s k c).integ = s.integ := rfl
@[simp] theorem setCore_links (k : Nat) (c : Core) : (setCore s k c).links = s.links := rfl
@[simp] theorem setCore_mirror (k : Nat) (c : Core) : (setCore s k c).mirror = s.mirror := rfl
@[simp] theorem setCore_power (k : Nat) (c : Core) : (setCore s k c).power = s.power := rfl
@[simp] theorem setCore_kolwin (k : Nat) (c : Core) : (setCore s k c).kolwin = s.kolwin := rfl
@[simp] theorem setCore_pcie (k : Nat) (c : Core) : (setCore s k c).pcie = s.pcie := rfl
@[simp] theorem setCore_queues (k : Nat) (c : Core) : (setCore s k c).queues = s.queues := rfl
@[simp] theorem setCore_msix (k : Nat) (c : Core) : (setCore s k c).msix = s.msix := rfl
@[simp] theorem setCore_readOut (k : Nat) (c : Core) : (setCore s k c).readOut = s.readOut := rfl
@[simp] theorem setCore_bar2Reads (k : Nat) (c : Core) : (setCore s k c).bar2Reads = s.bar2Reads := rfl
@[simp] theorem setCore_pins (k : Nat) (c : Core) : (setCore s k c).pins = s.pins := rfl
@[simp] theorem setCore_free (k : Nat) (c : Core) : (setCore s k c).free = s.free := rfl

@[simp] theorem setCluster_pending (n : Nat) (c : Cluster) : (setCluster s n c).pending = s.pending := rfl
@[simp] theorem setCluster_tk (n : Nat) (c : Cluster) : (setCluster s n c).tk = s.tk := rfl
@[simp] theorem setCluster_tkLatch (n : Nat) (c : Cluster) : (setCluster s n c).tkLatch = s.tkLatch := rfl
@[simp] theorem setCluster_align (n : Nat) (c : Cluster) : (setCluster s n c).align = s.align := rfl
@[simp] theorem setCluster_regs (n : Nat) (c : Cluster) : (setCluster s n c).regs = s.regs := rfl
@[simp] theorem setCluster_hwSetAt (n : Nat) (c : Cluster) : (setCluster s n c).hwSetAt = s.hwSetAt := rfl
@[simp] theorem setCluster_hwSet (n : Nat) (c : Cluster) : (setCluster s n c).hwSet = s.hwSet := rfl
@[simp] theorem setCluster_table (n : Nat) (c : Cluster) : (setCluster s n c).table = s.table := rfl
@[simp] theorem setCluster_snapshot (n : Nat) (c : Cluster) : (setCluster s n c).snapshot = s.snapshot := rfl
@[simp] theorem setCluster_mem (n : Nat) (c : Cluster) : (setCluster s n c).mem = s.mem := rfl
@[simp] theorem setCluster_hostMem (n : Nat) (c : Cluster) : (setCluster s n c).hostMem = s.hostMem := rfl
@[simp] theorem setCluster_badWords (n : Nat) (c : Cluster) : (setCluster s n c).badWords = s.badWords := rfl
@[simp] theorem setCluster_softWords (n : Nat) (c : Cluster) : (setCluster s n c).softWords = s.softWords := rfl
@[simp] theorem setCluster_nbLatches (n : Nat) (c : Cluster) : (setCluster s n c).nbLatches = s.nbLatches := rfl
@[simp] theorem setCluster_retraining (n : Nat) (c : Cluster) : (setCluster s n c).retraining = s.retraining := rfl
@[simp] theorem setCluster_retrainDue (n : Nat) (c : Cluster) : (setCluster s n c).retrainDue = s.retrainDue := rfl
@[simp] theorem setCluster_refreshRate (n : Nat) (c : Cluster) : (setCluster s n c).refreshRate = s.refreshRate := rfl
@[simp] theorem setCluster_refreshOwed (n : Nat) (c : Cluster) : (setCluster s n c).refreshOwed = s.refreshOwed := rfl
@[simp] theorem setCluster_cores (n : Nat) (c : Cluster) : (setCluster s n c).cores = s.cores := rfl
@[simp] theorem setCluster_gids (n : Nat) (c : Cluster) : (setCluster s n c).gids = s.gids := rfl
@[simp] theorem setCluster_cells (n : Nat) (c : Cluster) : (setCluster s n c).cells = s.cells := rfl
@[simp] theorem setCluster_dot (n : Nat) (c : Cluster) : (setCluster s n c).dot = s.dot := rfl
@[simp] theorem setCluster_timer0 (n : Nat) (c : Cluster) : (setCluster s n c).timer0 = s.timer0 := rfl
@[simp] theorem setCluster_timer1 (n : Nat) (c : Cluster) : (setCluster s n c).timer1 = s.timer1 := rfl
@[simp] theorem setCluster_timer2 (n : Nat) (c : Cluster) : (setCluster s n c).timer2 = s.timer2 := rfl
@[simp] theorem setCluster_timer2Left (n : Nat) (c : Cluster) : (setCluster s n c).timer2Left = s.timer2Left := rfl
@[simp] theorem setCluster_imem (n : Nat) (c : Cluster) : (setCluster s n c).imem = s.imem := rfl
@[simp] theorem setCluster_images (n : Nat) (c : Cluster) : (setCluster s n c).images = s.images := rfl
@[simp] theorem setCluster_loads (n : Nat) (c : Cluster) : (setCluster s n c).loads = s.loads := rfl
@[simp] theorem setCluster_reqs (n : Nat) (c : Cluster) : (setCluster s n c).reqs = s.reqs := rfl
@[simp] theorem setCluster_sched (n : Nat) (c : Cluster) : (setCluster s n c).sched = s.sched := rfl
@[simp] theorem setCluster_repairs (n : Nat) (c : Cluster) : (setCluster s n c).repairs = s.repairs := rfl
@[simp] theorem setCluster_integ (n : Nat) (c : Cluster) : (setCluster s n c).integ = s.integ := rfl
@[simp] theorem setCluster_links (n : Nat) (c : Cluster) : (setCluster s n c).links = s.links := rfl
@[simp] theorem setCluster_mirror (n : Nat) (c : Cluster) : (setCluster s n c).mirror = s.mirror := rfl
@[simp] theorem setCluster_power (n : Nat) (c : Cluster) : (setCluster s n c).power = s.power := rfl
@[simp] theorem setCluster_kolwin (n : Nat) (c : Cluster) : (setCluster s n c).kolwin = s.kolwin := rfl
@[simp] theorem setCluster_pcie (n : Nat) (c : Cluster) : (setCluster s n c).pcie = s.pcie := rfl
@[simp] theorem setCluster_queues (n : Nat) (c : Cluster) : (setCluster s n c).queues = s.queues := rfl
@[simp] theorem setCluster_msix (n : Nat) (c : Cluster) : (setCluster s n c).msix = s.msix := rfl
@[simp] theorem setCluster_readOut (n : Nat) (c : Cluster) : (setCluster s n c).readOut = s.readOut := rfl
@[simp] theorem setCluster_bar2Reads (n : Nat) (c : Cluster) : (setCluster s n c).bar2Reads = s.bar2Reads := rfl
@[simp] theorem setCluster_pins (n : Nat) (c : Cluster) : (setCluster s n c).pins = s.pins := rfl
@[simp] theorem setCluster_free (n : Nat) (c : Cluster) : (setCluster s n c).free = s.free := rfl

@[simp] theorem setCell_pending (n : Nat) (c : SyncCell) : (setCell s n c).pending = s.pending := rfl
@[simp] theorem setCell_tk (n : Nat) (c : SyncCell) : (setCell s n c).tk = s.tk := rfl
@[simp] theorem setCell_tkLatch (n : Nat) (c : SyncCell) : (setCell s n c).tkLatch = s.tkLatch := rfl
@[simp] theorem setCell_align (n : Nat) (c : SyncCell) : (setCell s n c).align = s.align := rfl
@[simp] theorem setCell_regs (n : Nat) (c : SyncCell) : (setCell s n c).regs = s.regs := rfl
@[simp] theorem setCell_hwSetAt (n : Nat) (c : SyncCell) : (setCell s n c).hwSetAt = s.hwSetAt := rfl
@[simp] theorem setCell_hwSet (n : Nat) (c : SyncCell) : (setCell s n c).hwSet = s.hwSet := rfl
@[simp] theorem setCell_table (n : Nat) (c : SyncCell) : (setCell s n c).table = s.table := rfl
@[simp] theorem setCell_snapshot (n : Nat) (c : SyncCell) : (setCell s n c).snapshot = s.snapshot := rfl
@[simp] theorem setCell_mem (n : Nat) (c : SyncCell) : (setCell s n c).mem = s.mem := rfl
@[simp] theorem setCell_hostMem (n : Nat) (c : SyncCell) : (setCell s n c).hostMem = s.hostMem := rfl
@[simp] theorem setCell_badWords (n : Nat) (c : SyncCell) : (setCell s n c).badWords = s.badWords := rfl
@[simp] theorem setCell_softWords (n : Nat) (c : SyncCell) : (setCell s n c).softWords = s.softWords := rfl
@[simp] theorem setCell_nbLatches (n : Nat) (c : SyncCell) : (setCell s n c).nbLatches = s.nbLatches := rfl
@[simp] theorem setCell_retraining (n : Nat) (c : SyncCell) : (setCell s n c).retraining = s.retraining := rfl
@[simp] theorem setCell_retrainDue (n : Nat) (c : SyncCell) : (setCell s n c).retrainDue = s.retrainDue := rfl
@[simp] theorem setCell_refreshRate (n : Nat) (c : SyncCell) : (setCell s n c).refreshRate = s.refreshRate := rfl
@[simp] theorem setCell_refreshOwed (n : Nat) (c : SyncCell) : (setCell s n c).refreshOwed = s.refreshOwed := rfl
@[simp] theorem setCell_cores (n : Nat) (c : SyncCell) : (setCell s n c).cores = s.cores := rfl
@[simp] theorem setCell_gids (n : Nat) (c : SyncCell) : (setCell s n c).gids = s.gids := rfl
@[simp] theorem setCell_clusters (n : Nat) (c : SyncCell) : (setCell s n c).clusters = s.clusters := rfl
@[simp] theorem setCell_dot (n : Nat) (c : SyncCell) : (setCell s n c).dot = s.dot := rfl
@[simp] theorem setCell_timer0 (n : Nat) (c : SyncCell) : (setCell s n c).timer0 = s.timer0 := rfl
@[simp] theorem setCell_timer1 (n : Nat) (c : SyncCell) : (setCell s n c).timer1 = s.timer1 := rfl
@[simp] theorem setCell_timer2 (n : Nat) (c : SyncCell) : (setCell s n c).timer2 = s.timer2 := rfl
@[simp] theorem setCell_timer2Left (n : Nat) (c : SyncCell) : (setCell s n c).timer2Left = s.timer2Left := rfl
@[simp] theorem setCell_imem (n : Nat) (c : SyncCell) : (setCell s n c).imem = s.imem := rfl
@[simp] theorem setCell_images (n : Nat) (c : SyncCell) : (setCell s n c).images = s.images := rfl
@[simp] theorem setCell_loads (n : Nat) (c : SyncCell) : (setCell s n c).loads = s.loads := rfl
@[simp] theorem setCell_reqs (n : Nat) (c : SyncCell) : (setCell s n c).reqs = s.reqs := rfl
@[simp] theorem setCell_sched (n : Nat) (c : SyncCell) : (setCell s n c).sched = s.sched := rfl
@[simp] theorem setCell_repairs (n : Nat) (c : SyncCell) : (setCell s n c).repairs = s.repairs := rfl
@[simp] theorem setCell_integ (n : Nat) (c : SyncCell) : (setCell s n c).integ = s.integ := rfl
@[simp] theorem setCell_links (n : Nat) (c : SyncCell) : (setCell s n c).links = s.links := rfl
@[simp] theorem setCell_mirror (n : Nat) (c : SyncCell) : (setCell s n c).mirror = s.mirror := rfl
@[simp] theorem setCell_power (n : Nat) (c : SyncCell) : (setCell s n c).power = s.power := rfl
@[simp] theorem setCell_kolwin (n : Nat) (c : SyncCell) : (setCell s n c).kolwin = s.kolwin := rfl
@[simp] theorem setCell_pcie (n : Nat) (c : SyncCell) : (setCell s n c).pcie = s.pcie := rfl
@[simp] theorem setCell_queues (n : Nat) (c : SyncCell) : (setCell s n c).queues = s.queues := rfl
@[simp] theorem setCell_msix (n : Nat) (c : SyncCell) : (setCell s n c).msix = s.msix := rfl
@[simp] theorem setCell_readOut (n : Nat) (c : SyncCell) : (setCell s n c).readOut = s.readOut := rfl
@[simp] theorem setCell_bar2Reads (n : Nat) (c : SyncCell) : (setCell s n c).bar2Reads = s.bar2Reads := rfl
@[simp] theorem setCell_pins (n : Nat) (c : SyncCell) : (setCell s n c).pins = s.pins := rfl
@[simp] theorem setCell_free (n : Nat) (c : SyncCell) : (setCell s n c).free = s.free := rfl

@[simp] theorem setDot_pending (m : Nat) (e : DotEntry) : (setDot s m e).pending = s.pending := rfl
@[simp] theorem setDot_tk (m : Nat) (e : DotEntry) : (setDot s m e).tk = s.tk := rfl
@[simp] theorem setDot_tkLatch (m : Nat) (e : DotEntry) : (setDot s m e).tkLatch = s.tkLatch := rfl
@[simp] theorem setDot_align (m : Nat) (e : DotEntry) : (setDot s m e).align = s.align := rfl
@[simp] theorem setDot_regs (m : Nat) (e : DotEntry) : (setDot s m e).regs = s.regs := rfl
@[simp] theorem setDot_hwSetAt (m : Nat) (e : DotEntry) : (setDot s m e).hwSetAt = s.hwSetAt := rfl
@[simp] theorem setDot_hwSet (m : Nat) (e : DotEntry) : (setDot s m e).hwSet = s.hwSet := rfl
@[simp] theorem setDot_table (m : Nat) (e : DotEntry) : (setDot s m e).table = s.table := rfl
@[simp] theorem setDot_snapshot (m : Nat) (e : DotEntry) : (setDot s m e).snapshot = s.snapshot := rfl
@[simp] theorem setDot_mem (m : Nat) (e : DotEntry) : (setDot s m e).mem = s.mem := rfl
@[simp] theorem setDot_hostMem (m : Nat) (e : DotEntry) : (setDot s m e).hostMem = s.hostMem := rfl
@[simp] theorem setDot_badWords (m : Nat) (e : DotEntry) : (setDot s m e).badWords = s.badWords := rfl
@[simp] theorem setDot_softWords (m : Nat) (e : DotEntry) : (setDot s m e).softWords = s.softWords := rfl
@[simp] theorem setDot_nbLatches (m : Nat) (e : DotEntry) : (setDot s m e).nbLatches = s.nbLatches := rfl
@[simp] theorem setDot_retraining (m : Nat) (e : DotEntry) : (setDot s m e).retraining = s.retraining := rfl
@[simp] theorem setDot_retrainDue (m : Nat) (e : DotEntry) : (setDot s m e).retrainDue = s.retrainDue := rfl
@[simp] theorem setDot_refreshRate (m : Nat) (e : DotEntry) : (setDot s m e).refreshRate = s.refreshRate := rfl
@[simp] theorem setDot_refreshOwed (m : Nat) (e : DotEntry) : (setDot s m e).refreshOwed = s.refreshOwed := rfl
@[simp] theorem setDot_cores (m : Nat) (e : DotEntry) : (setDot s m e).cores = s.cores := rfl
@[simp] theorem setDot_gids (m : Nat) (e : DotEntry) : (setDot s m e).gids = s.gids := rfl
@[simp] theorem setDot_clusters (m : Nat) (e : DotEntry) : (setDot s m e).clusters = s.clusters := rfl
@[simp] theorem setDot_cells (m : Nat) (e : DotEntry) : (setDot s m e).cells = s.cells := rfl
@[simp] theorem setDot_timer0 (m : Nat) (e : DotEntry) : (setDot s m e).timer0 = s.timer0 := rfl
@[simp] theorem setDot_timer1 (m : Nat) (e : DotEntry) : (setDot s m e).timer1 = s.timer1 := rfl
@[simp] theorem setDot_timer2 (m : Nat) (e : DotEntry) : (setDot s m e).timer2 = s.timer2 := rfl
@[simp] theorem setDot_timer2Left (m : Nat) (e : DotEntry) : (setDot s m e).timer2Left = s.timer2Left := rfl
@[simp] theorem setDot_imem (m : Nat) (e : DotEntry) : (setDot s m e).imem = s.imem := rfl
@[simp] theorem setDot_images (m : Nat) (e : DotEntry) : (setDot s m e).images = s.images := rfl
@[simp] theorem setDot_loads (m : Nat) (e : DotEntry) : (setDot s m e).loads = s.loads := rfl
@[simp] theorem setDot_reqs (m : Nat) (e : DotEntry) : (setDot s m e).reqs = s.reqs := rfl
@[simp] theorem setDot_sched (m : Nat) (e : DotEntry) : (setDot s m e).sched = s.sched := rfl
@[simp] theorem setDot_repairs (m : Nat) (e : DotEntry) : (setDot s m e).repairs = s.repairs := rfl
@[simp] theorem setDot_integ (m : Nat) (e : DotEntry) : (setDot s m e).integ = s.integ := rfl
@[simp] theorem setDot_links (m : Nat) (e : DotEntry) : (setDot s m e).links = s.links := rfl
@[simp] theorem setDot_mirror (m : Nat) (e : DotEntry) : (setDot s m e).mirror = s.mirror := rfl
@[simp] theorem setDot_power (m : Nat) (e : DotEntry) : (setDot s m e).power = s.power := rfl
@[simp] theorem setDot_kolwin (m : Nat) (e : DotEntry) : (setDot s m e).kolwin = s.kolwin := rfl
@[simp] theorem setDot_pcie (m : Nat) (e : DotEntry) : (setDot s m e).pcie = s.pcie := rfl
@[simp] theorem setDot_queues (m : Nat) (e : DotEntry) : (setDot s m e).queues = s.queues := rfl
@[simp] theorem setDot_msix (m : Nat) (e : DotEntry) : (setDot s m e).msix = s.msix := rfl
@[simp] theorem setDot_readOut (m : Nat) (e : DotEntry) : (setDot s m e).readOut = s.readOut := rfl
@[simp] theorem setDot_bar2Reads (m : Nat) (e : DotEntry) : (setDot s m e).bar2Reads = s.bar2Reads := rfl
@[simp] theorem setDot_pins (m : Nat) (e : DotEntry) : (setDot s m e).pins = s.pins := rfl
@[simp] theorem setDot_free (m : Nat) (e : DotEntry) : (setDot s m e).free = s.free := rfl

@[simp] theorem setReq_pending (n : Nat) (r : Req) : (setReq s n r).pending = s.pending := rfl
@[simp] theorem setReq_tk (n : Nat) (r : Req) : (setReq s n r).tk = s.tk := rfl
@[simp] theorem setReq_tkLatch (n : Nat) (r : Req) : (setReq s n r).tkLatch = s.tkLatch := rfl
@[simp] theorem setReq_align (n : Nat) (r : Req) : (setReq s n r).align = s.align := rfl
@[simp] theorem setReq_regs (n : Nat) (r : Req) : (setReq s n r).regs = s.regs := rfl
@[simp] theorem setReq_hwSetAt (n : Nat) (r : Req) : (setReq s n r).hwSetAt = s.hwSetAt := rfl
@[simp] theorem setReq_hwSet (n : Nat) (r : Req) : (setReq s n r).hwSet = s.hwSet := rfl
@[simp] theorem setReq_table (n : Nat) (r : Req) : (setReq s n r).table = s.table := rfl
@[simp] theorem setReq_snapshot (n : Nat) (r : Req) : (setReq s n r).snapshot = s.snapshot := rfl
@[simp] theorem setReq_mem (n : Nat) (r : Req) : (setReq s n r).mem = s.mem := rfl
@[simp] theorem setReq_hostMem (n : Nat) (r : Req) : (setReq s n r).hostMem = s.hostMem := rfl
@[simp] theorem setReq_badWords (n : Nat) (r : Req) : (setReq s n r).badWords = s.badWords := rfl
@[simp] theorem setReq_softWords (n : Nat) (r : Req) : (setReq s n r).softWords = s.softWords := rfl
@[simp] theorem setReq_nbLatches (n : Nat) (r : Req) : (setReq s n r).nbLatches = s.nbLatches := rfl
@[simp] theorem setReq_retraining (n : Nat) (r : Req) : (setReq s n r).retraining = s.retraining := rfl
@[simp] theorem setReq_retrainDue (n : Nat) (r : Req) : (setReq s n r).retrainDue = s.retrainDue := rfl
@[simp] theorem setReq_refreshRate (n : Nat) (r : Req) : (setReq s n r).refreshRate = s.refreshRate := rfl
@[simp] theorem setReq_refreshOwed (n : Nat) (r : Req) : (setReq s n r).refreshOwed = s.refreshOwed := rfl
@[simp] theorem setReq_cores (n : Nat) (r : Req) : (setReq s n r).cores = s.cores := rfl
@[simp] theorem setReq_gids (n : Nat) (r : Req) : (setReq s n r).gids = s.gids := rfl
@[simp] theorem setReq_clusters (n : Nat) (r : Req) : (setReq s n r).clusters = s.clusters := rfl
@[simp] theorem setReq_cells (n : Nat) (r : Req) : (setReq s n r).cells = s.cells := rfl
@[simp] theorem setReq_dot (n : Nat) (r : Req) : (setReq s n r).dot = s.dot := rfl
@[simp] theorem setReq_timer0 (n : Nat) (r : Req) : (setReq s n r).timer0 = s.timer0 := rfl
@[simp] theorem setReq_timer1 (n : Nat) (r : Req) : (setReq s n r).timer1 = s.timer1 := rfl
@[simp] theorem setReq_timer2 (n : Nat) (r : Req) : (setReq s n r).timer2 = s.timer2 := rfl
@[simp] theorem setReq_timer2Left (n : Nat) (r : Req) : (setReq s n r).timer2Left = s.timer2Left := rfl
@[simp] theorem setReq_imem (n : Nat) (r : Req) : (setReq s n r).imem = s.imem := rfl
@[simp] theorem setReq_images (n : Nat) (r : Req) : (setReq s n r).images = s.images := rfl
@[simp] theorem setReq_loads (n : Nat) (r : Req) : (setReq s n r).loads = s.loads := rfl
@[simp] theorem setReq_sched (n : Nat) (r : Req) : (setReq s n r).sched = s.sched := rfl
@[simp] theorem setReq_repairs (n : Nat) (r : Req) : (setReq s n r).repairs = s.repairs := rfl
@[simp] theorem setReq_integ (n : Nat) (r : Req) : (setReq s n r).integ = s.integ := rfl
@[simp] theorem setReq_links (n : Nat) (r : Req) : (setReq s n r).links = s.links := rfl
@[simp] theorem setReq_mirror (n : Nat) (r : Req) : (setReq s n r).mirror = s.mirror := rfl
@[simp] theorem setReq_power (n : Nat) (r : Req) : (setReq s n r).power = s.power := rfl
@[simp] theorem setReq_kolwin (n : Nat) (r : Req) : (setReq s n r).kolwin = s.kolwin := rfl
@[simp] theorem setReq_pcie (n : Nat) (r : Req) : (setReq s n r).pcie = s.pcie := rfl
@[simp] theorem setReq_queues (n : Nat) (r : Req) : (setReq s n r).queues = s.queues := rfl
@[simp] theorem setReq_msix (n : Nat) (r : Req) : (setReq s n r).msix = s.msix := rfl
@[simp] theorem setReq_readOut (n : Nat) (r : Req) : (setReq s n r).readOut = s.readOut := rfl
@[simp] theorem setReq_bar2Reads (n : Nat) (r : Req) : (setReq s n r).bar2Reads = s.bar2Reads := rfl
@[simp] theorem setReq_pins (n : Nat) (r : Req) : (setReq s n r).pins = s.pins := rfl
@[simp] theorem setReq_free (n : Nat) (r : Req) : (setReq s n r).free = s.free := rfl

@[simp] theorem setQueue_pending (n : Nat) (q : Queue) : (setQueue s n q).pending = s.pending := rfl
@[simp] theorem setQueue_tk (n : Nat) (q : Queue) : (setQueue s n q).tk = s.tk := rfl
@[simp] theorem setQueue_tkLatch (n : Nat) (q : Queue) : (setQueue s n q).tkLatch = s.tkLatch := rfl
@[simp] theorem setQueue_align (n : Nat) (q : Queue) : (setQueue s n q).align = s.align := rfl
@[simp] theorem setQueue_regs (n : Nat) (q : Queue) : (setQueue s n q).regs = s.regs := rfl
@[simp] theorem setQueue_hwSetAt (n : Nat) (q : Queue) : (setQueue s n q).hwSetAt = s.hwSetAt := rfl
@[simp] theorem setQueue_hwSet (n : Nat) (q : Queue) : (setQueue s n q).hwSet = s.hwSet := rfl
@[simp] theorem setQueue_table (n : Nat) (q : Queue) : (setQueue s n q).table = s.table := rfl
@[simp] theorem setQueue_snapshot (n : Nat) (q : Queue) : (setQueue s n q).snapshot = s.snapshot := rfl
@[simp] theorem setQueue_mem (n : Nat) (q : Queue) : (setQueue s n q).mem = s.mem := rfl
@[simp] theorem setQueue_hostMem (n : Nat) (q : Queue) : (setQueue s n q).hostMem = s.hostMem := rfl
@[simp] theorem setQueue_badWords (n : Nat) (q : Queue) : (setQueue s n q).badWords = s.badWords := rfl
@[simp] theorem setQueue_softWords (n : Nat) (q : Queue) : (setQueue s n q).softWords = s.softWords := rfl
@[simp] theorem setQueue_nbLatches (n : Nat) (q : Queue) : (setQueue s n q).nbLatches = s.nbLatches := rfl
@[simp] theorem setQueue_retraining (n : Nat) (q : Queue) : (setQueue s n q).retraining = s.retraining := rfl
@[simp] theorem setQueue_retrainDue (n : Nat) (q : Queue) : (setQueue s n q).retrainDue = s.retrainDue := rfl
@[simp] theorem setQueue_refreshRate (n : Nat) (q : Queue) : (setQueue s n q).refreshRate = s.refreshRate := rfl
@[simp] theorem setQueue_refreshOwed (n : Nat) (q : Queue) : (setQueue s n q).refreshOwed = s.refreshOwed := rfl
@[simp] theorem setQueue_cores (n : Nat) (q : Queue) : (setQueue s n q).cores = s.cores := rfl
@[simp] theorem setQueue_gids (n : Nat) (q : Queue) : (setQueue s n q).gids = s.gids := rfl
@[simp] theorem setQueue_clusters (n : Nat) (q : Queue) : (setQueue s n q).clusters = s.clusters := rfl
@[simp] theorem setQueue_cells (n : Nat) (q : Queue) : (setQueue s n q).cells = s.cells := rfl
@[simp] theorem setQueue_dot (n : Nat) (q : Queue) : (setQueue s n q).dot = s.dot := rfl
@[simp] theorem setQueue_timer0 (n : Nat) (q : Queue) : (setQueue s n q).timer0 = s.timer0 := rfl
@[simp] theorem setQueue_timer1 (n : Nat) (q : Queue) : (setQueue s n q).timer1 = s.timer1 := rfl
@[simp] theorem setQueue_timer2 (n : Nat) (q : Queue) : (setQueue s n q).timer2 = s.timer2 := rfl
@[simp] theorem setQueue_timer2Left (n : Nat) (q : Queue) : (setQueue s n q).timer2Left = s.timer2Left := rfl
@[simp] theorem setQueue_imem (n : Nat) (q : Queue) : (setQueue s n q).imem = s.imem := rfl
@[simp] theorem setQueue_images (n : Nat) (q : Queue) : (setQueue s n q).images = s.images := rfl
@[simp] theorem setQueue_loads (n : Nat) (q : Queue) : (setQueue s n q).loads = s.loads := rfl
@[simp] theorem setQueue_reqs (n : Nat) (q : Queue) : (setQueue s n q).reqs = s.reqs := rfl
@[simp] theorem setQueue_sched (n : Nat) (q : Queue) : (setQueue s n q).sched = s.sched := rfl
@[simp] theorem setQueue_repairs (n : Nat) (q : Queue) : (setQueue s n q).repairs = s.repairs := rfl
@[simp] theorem setQueue_integ (n : Nat) (q : Queue) : (setQueue s n q).integ = s.integ := rfl
@[simp] theorem setQueue_links (n : Nat) (q : Queue) : (setQueue s n q).links = s.links := rfl
@[simp] theorem setQueue_mirror (n : Nat) (q : Queue) : (setQueue s n q).mirror = s.mirror := rfl
@[simp] theorem setQueue_power (n : Nat) (q : Queue) : (setQueue s n q).power = s.power := rfl
@[simp] theorem setQueue_kolwin (n : Nat) (q : Queue) : (setQueue s n q).kolwin = s.kolwin := rfl
@[simp] theorem setQueue_pcie (n : Nat) (q : Queue) : (setQueue s n q).pcie = s.pcie := rfl
@[simp] theorem setQueue_msix (n : Nat) (q : Queue) : (setQueue s n q).msix = s.msix := rfl
@[simp] theorem setQueue_readOut (n : Nat) (q : Queue) : (setQueue s n q).readOut = s.readOut := rfl
@[simp] theorem setQueue_bar2Reads (n : Nat) (q : Queue) : (setQueue s n q).bar2Reads = s.bar2Reads := rfl
@[simp] theorem setQueue_pins (n : Nat) (q : Queue) : (setQueue s n q).pins = s.pins := rfl
@[simp] theorem setQueue_free (n : Nat) (q : Queue) : (setQueue s n q).free = s.free := rfl

@[simp] theorem setPort_pending (n : Nat) (p : Port) : (setPort s n p).pending = s.pending := rfl
@[simp] theorem setPort_tk (n : Nat) (p : Port) : (setPort s n p).tk = s.tk := rfl
@[simp] theorem setPort_tkLatch (n : Nat) (p : Port) : (setPort s n p).tkLatch = s.tkLatch := rfl
@[simp] theorem setPort_align (n : Nat) (p : Port) : (setPort s n p).align = s.align := rfl
@[simp] theorem setPort_regs (n : Nat) (p : Port) : (setPort s n p).regs = s.regs := rfl
@[simp] theorem setPort_hwSetAt (n : Nat) (p : Port) : (setPort s n p).hwSetAt = s.hwSetAt := rfl
@[simp] theorem setPort_hwSet (n : Nat) (p : Port) : (setPort s n p).hwSet = s.hwSet := rfl
@[simp] theorem setPort_table (n : Nat) (p : Port) : (setPort s n p).table = s.table := rfl
@[simp] theorem setPort_snapshot (n : Nat) (p : Port) : (setPort s n p).snapshot = s.snapshot := rfl
@[simp] theorem setPort_mem (n : Nat) (p : Port) : (setPort s n p).mem = s.mem := rfl
@[simp] theorem setPort_hostMem (n : Nat) (p : Port) : (setPort s n p).hostMem = s.hostMem := rfl
@[simp] theorem setPort_badWords (n : Nat) (p : Port) : (setPort s n p).badWords = s.badWords := rfl
@[simp] theorem setPort_softWords (n : Nat) (p : Port) : (setPort s n p).softWords = s.softWords := rfl
@[simp] theorem setPort_nbLatches (n : Nat) (p : Port) : (setPort s n p).nbLatches = s.nbLatches := rfl
@[simp] theorem setPort_retraining (n : Nat) (p : Port) : (setPort s n p).retraining = s.retraining := rfl
@[simp] theorem setPort_retrainDue (n : Nat) (p : Port) : (setPort s n p).retrainDue = s.retrainDue := rfl
@[simp] theorem setPort_refreshRate (n : Nat) (p : Port) : (setPort s n p).refreshRate = s.refreshRate := rfl
@[simp] theorem setPort_refreshOwed (n : Nat) (p : Port) : (setPort s n p).refreshOwed = s.refreshOwed := rfl
@[simp] theorem setPort_cores (n : Nat) (p : Port) : (setPort s n p).cores = s.cores := rfl
@[simp] theorem setPort_gids (n : Nat) (p : Port) : (setPort s n p).gids = s.gids := rfl
@[simp] theorem setPort_clusters (n : Nat) (p : Port) : (setPort s n p).clusters = s.clusters := rfl
@[simp] theorem setPort_cells (n : Nat) (p : Port) : (setPort s n p).cells = s.cells := rfl
@[simp] theorem setPort_dot (n : Nat) (p : Port) : (setPort s n p).dot = s.dot := rfl
@[simp] theorem setPort_timer0 (n : Nat) (p : Port) : (setPort s n p).timer0 = s.timer0 := rfl
@[simp] theorem setPort_timer1 (n : Nat) (p : Port) : (setPort s n p).timer1 = s.timer1 := rfl
@[simp] theorem setPort_timer2 (n : Nat) (p : Port) : (setPort s n p).timer2 = s.timer2 := rfl
@[simp] theorem setPort_timer2Left (n : Nat) (p : Port) : (setPort s n p).timer2Left = s.timer2Left := rfl
@[simp] theorem setPort_imem (n : Nat) (p : Port) : (setPort s n p).imem = s.imem := rfl
@[simp] theorem setPort_images (n : Nat) (p : Port) : (setPort s n p).images = s.images := rfl
@[simp] theorem setPort_loads (n : Nat) (p : Port) : (setPort s n p).loads = s.loads := rfl
@[simp] theorem setPort_reqs (n : Nat) (p : Port) : (setPort s n p).reqs = s.reqs := rfl
@[simp] theorem setPort_sched (n : Nat) (p : Port) : (setPort s n p).sched = s.sched := rfl
@[simp] theorem setPort_repairs (n : Nat) (p : Port) : (setPort s n p).repairs = s.repairs := rfl
@[simp] theorem setPort_integ (n : Nat) (p : Port) : (setPort s n p).integ = s.integ := rfl
@[simp] theorem setPort_mirror (n : Nat) (p : Port) : (setPort s n p).mirror = s.mirror := rfl
@[simp] theorem setPort_power (n : Nat) (p : Port) : (setPort s n p).power = s.power := rfl
@[simp] theorem setPort_kolwin (n : Nat) (p : Port) : (setPort s n p).kolwin = s.kolwin := rfl
@[simp] theorem setPort_pcie (n : Nat) (p : Port) : (setPort s n p).pcie = s.pcie := rfl
@[simp] theorem setPort_queues (n : Nat) (p : Port) : (setPort s n p).queues = s.queues := rfl
@[simp] theorem setPort_msix (n : Nat) (p : Port) : (setPort s n p).msix = s.msix := rfl
@[simp] theorem setPort_readOut (n : Nat) (p : Port) : (setPort s n p).readOut = s.readOut := rfl
@[simp] theorem setPort_bar2Reads (n : Nat) (p : Port) : (setPort s n p).bar2Reads = s.bar2Reads := rfl
@[simp] theorem setPort_pins (n : Nat) (p : Port) : (setPort s n p).pins = s.pins := rfl
@[simp] theorem setPort_free (n : Nat) (p : Port) : (setPort s n p).free = s.free := rfl

@[simp] theorem atTick_tk (t : Nat) : (atTick s t).tk = reach s.tk t := rfl
@[simp] theorem tookFree_free : (tookFree s).free = s.free + 1 := rfl

@[simp] theorem setReg64_pending (o v : Nat) : (setReg64 s o v).pending = s.pending := rfl
@[simp] theorem setReg64_tk (o v : Nat) : (setReg64 s o v).tk = s.tk := rfl
@[simp] theorem setReg64_tkLatch (o v : Nat) : (setReg64 s o v).tkLatch = s.tkLatch := rfl
@[simp] theorem setReg64_align (o v : Nat) : (setReg64 s o v).align = s.align := rfl
@[simp] theorem setReg64_hwSetAt (o v : Nat) : (setReg64 s o v).hwSetAt = s.hwSetAt := rfl
@[simp] theorem setReg64_hwSet (o v : Nat) : (setReg64 s o v).hwSet = s.hwSet := rfl
@[simp] theorem setReg64_table (o v : Nat) : (setReg64 s o v).table = s.table := rfl
@[simp] theorem setReg64_snapshot (o v : Nat) : (setReg64 s o v).snapshot = s.snapshot := rfl
@[simp] theorem setReg64_mem (o v : Nat) : (setReg64 s o v).mem = s.mem := rfl
@[simp] theorem setReg64_hostMem (o v : Nat) : (setReg64 s o v).hostMem = s.hostMem := rfl
@[simp] theorem setReg64_badWords (o v : Nat) : (setReg64 s o v).badWords = s.badWords := rfl
@[simp] theorem setReg64_softWords (o v : Nat) : (setReg64 s o v).softWords = s.softWords := rfl
@[simp] theorem setReg64_nbLatches (o v : Nat) : (setReg64 s o v).nbLatches = s.nbLatches := rfl
@[simp] theorem setReg64_retraining (o v : Nat) : (setReg64 s o v).retraining = s.retraining := rfl
@[simp] theorem setReg64_retrainDue (o v : Nat) : (setReg64 s o v).retrainDue = s.retrainDue := rfl
@[simp] theorem setReg64_refreshRate (o v : Nat) : (setReg64 s o v).refreshRate = s.refreshRate := rfl
@[simp] theorem setReg64_refreshOwed (o v : Nat) : (setReg64 s o v).refreshOwed = s.refreshOwed := rfl
@[simp] theorem setReg64_cores (o v : Nat) : (setReg64 s o v).cores = s.cores := rfl
@[simp] theorem setReg64_gids (o v : Nat) : (setReg64 s o v).gids = s.gids := rfl
@[simp] theorem setReg64_clusters (o v : Nat) : (setReg64 s o v).clusters = s.clusters := rfl
@[simp] theorem setReg64_cells (o v : Nat) : (setReg64 s o v).cells = s.cells := rfl
@[simp] theorem setReg64_dot (o v : Nat) : (setReg64 s o v).dot = s.dot := rfl
@[simp] theorem setReg64_timer0 (o v : Nat) : (setReg64 s o v).timer0 = s.timer0 := rfl
@[simp] theorem setReg64_timer1 (o v : Nat) : (setReg64 s o v).timer1 = s.timer1 := rfl
@[simp] theorem setReg64_timer2 (o v : Nat) : (setReg64 s o v).timer2 = s.timer2 := rfl
@[simp] theorem setReg64_timer2Left (o v : Nat) : (setReg64 s o v).timer2Left = s.timer2Left := rfl
@[simp] theorem setReg64_imem (o v : Nat) : (setReg64 s o v).imem = s.imem := rfl
@[simp] theorem setReg64_images (o v : Nat) : (setReg64 s o v).images = s.images := rfl
@[simp] theorem setReg64_loads (o v : Nat) : (setReg64 s o v).loads = s.loads := rfl
@[simp] theorem setReg64_reqs (o v : Nat) : (setReg64 s o v).reqs = s.reqs := rfl
@[simp] theorem setReg64_sched (o v : Nat) : (setReg64 s o v).sched = s.sched := rfl
@[simp] theorem setReg64_repairs (o v : Nat) : (setReg64 s o v).repairs = s.repairs := rfl
@[simp] theorem setReg64_integ (o v : Nat) : (setReg64 s o v).integ = s.integ := rfl
@[simp] theorem setReg64_links (o v : Nat) : (setReg64 s o v).links = s.links := rfl
@[simp] theorem setReg64_mirror (o v : Nat) : (setReg64 s o v).mirror = s.mirror := rfl
@[simp] theorem setReg64_power (o v : Nat) : (setReg64 s o v).power = s.power := rfl
@[simp] theorem setReg64_kolwin (o v : Nat) : (setReg64 s o v).kolwin = s.kolwin := rfl
@[simp] theorem setReg64_pcie (o v : Nat) : (setReg64 s o v).pcie = s.pcie := rfl
@[simp] theorem setReg64_queues (o v : Nat) : (setReg64 s o v).queues = s.queues := rfl
@[simp] theorem setReg64_msix (o v : Nat) : (setReg64 s o v).msix = s.msix := rfl
@[simp] theorem setReg64_readOut (o v : Nat) : (setReg64 s o v).readOut = s.readOut := rfl
@[simp] theorem setReg64_bar2Reads (o v : Nat) : (setReg64 s o v).bar2Reads = s.bar2Reads := rfl
@[simp] theorem setReg64_pins (o v : Nat) : (setReg64 s o v).pins = s.pins := rfl
@[simp] theorem setReg64_free (o v : Nat) : (setReg64 s o v).free = s.free := rfl

@[simp] theorem noteSet_pending (d : Fld) (x : Nat) : (noteSet s d x).pending = s.pending := (apply_ite State.pending _ _ _).trans (ite_self _)
@[simp] theorem noteSet_tk (d : Fld) (x : Nat) : (noteSet s d x).tk = s.tk := (apply_ite State.tk _ _ _).trans (ite_self _)
@[simp] theorem noteSet_tkLatch (d : Fld) (x : Nat) : (noteSet s d x).tkLatch = s.tkLatch := (apply_ite State.tkLatch _ _ _).trans (ite_self _)
@[simp] theorem noteSet_align (d : Fld) (x : Nat) : (noteSet s d x).align = s.align := (apply_ite State.align _ _ _).trans (ite_self _)
@[simp] theorem noteSet_regs (d : Fld) (x : Nat) : (noteSet s d x).regs = s.regs := (apply_ite State.regs _ _ _).trans (ite_self _)
@[simp] theorem noteSet_table (d : Fld) (x : Nat) : (noteSet s d x).table = s.table := (apply_ite State.table _ _ _).trans (ite_self _)
@[simp] theorem noteSet_snapshot (d : Fld) (x : Nat) : (noteSet s d x).snapshot = s.snapshot := (apply_ite State.snapshot _ _ _).trans (ite_self _)
@[simp] theorem noteSet_mem (d : Fld) (x : Nat) : (noteSet s d x).mem = s.mem := (apply_ite State.mem _ _ _).trans (ite_self _)
@[simp] theorem noteSet_hostMem (d : Fld) (x : Nat) : (noteSet s d x).hostMem = s.hostMem := (apply_ite State.hostMem _ _ _).trans (ite_self _)
@[simp] theorem noteSet_badWords (d : Fld) (x : Nat) : (noteSet s d x).badWords = s.badWords := (apply_ite State.badWords _ _ _).trans (ite_self _)
@[simp] theorem noteSet_softWords (d : Fld) (x : Nat) : (noteSet s d x).softWords = s.softWords := (apply_ite State.softWords _ _ _).trans (ite_self _)
@[simp] theorem noteSet_nbLatches (d : Fld) (x : Nat) : (noteSet s d x).nbLatches = s.nbLatches := (apply_ite State.nbLatches _ _ _).trans (ite_self _)
@[simp] theorem noteSet_retraining (d : Fld) (x : Nat) : (noteSet s d x).retraining = s.retraining := (apply_ite State.retraining _ _ _).trans (ite_self _)
@[simp] theorem noteSet_retrainDue (d : Fld) (x : Nat) : (noteSet s d x).retrainDue = s.retrainDue := (apply_ite State.retrainDue _ _ _).trans (ite_self _)
@[simp] theorem noteSet_refreshRate (d : Fld) (x : Nat) : (noteSet s d x).refreshRate = s.refreshRate := (apply_ite State.refreshRate _ _ _).trans (ite_self _)
@[simp] theorem noteSet_refreshOwed (d : Fld) (x : Nat) : (noteSet s d x).refreshOwed = s.refreshOwed := (apply_ite State.refreshOwed _ _ _).trans (ite_self _)
@[simp] theorem noteSet_cores (d : Fld) (x : Nat) : (noteSet s d x).cores = s.cores := (apply_ite State.cores _ _ _).trans (ite_self _)
@[simp] theorem noteSet_gids (d : Fld) (x : Nat) : (noteSet s d x).gids = s.gids := (apply_ite State.gids _ _ _).trans (ite_self _)
@[simp] theorem noteSet_clusters (d : Fld) (x : Nat) : (noteSet s d x).clusters = s.clusters := (apply_ite State.clusters _ _ _).trans (ite_self _)
@[simp] theorem noteSet_cells (d : Fld) (x : Nat) : (noteSet s d x).cells = s.cells := (apply_ite State.cells _ _ _).trans (ite_self _)
@[simp] theorem noteSet_dot (d : Fld) (x : Nat) : (noteSet s d x).dot = s.dot := (apply_ite State.dot _ _ _).trans (ite_self _)
@[simp] theorem noteSet_timer0 (d : Fld) (x : Nat) : (noteSet s d x).timer0 = s.timer0 := (apply_ite State.timer0 _ _ _).trans (ite_self _)
@[simp] theorem noteSet_timer1 (d : Fld) (x : Nat) : (noteSet s d x).timer1 = s.timer1 := (apply_ite State.timer1 _ _ _).trans (ite_self _)
@[simp] theorem noteSet_timer2 (d : Fld) (x : Nat) : (noteSet s d x).timer2 = s.timer2 := (apply_ite State.timer2 _ _ _).trans (ite_self _)
@[simp] theorem noteSet_timer2Left (d : Fld) (x : Nat) : (noteSet s d x).timer2Left = s.timer2Left := (apply_ite State.timer2Left _ _ _).trans (ite_self _)
@[simp] theorem noteSet_imem (d : Fld) (x : Nat) : (noteSet s d x).imem = s.imem := (apply_ite State.imem _ _ _).trans (ite_self _)
@[simp] theorem noteSet_images (d : Fld) (x : Nat) : (noteSet s d x).images = s.images := (apply_ite State.images _ _ _).trans (ite_self _)
@[simp] theorem noteSet_loads (d : Fld) (x : Nat) : (noteSet s d x).loads = s.loads := (apply_ite State.loads _ _ _).trans (ite_self _)
@[simp] theorem noteSet_reqs (d : Fld) (x : Nat) : (noteSet s d x).reqs = s.reqs := (apply_ite State.reqs _ _ _).trans (ite_self _)
@[simp] theorem noteSet_sched (d : Fld) (x : Nat) : (noteSet s d x).sched = s.sched := (apply_ite State.sched _ _ _).trans (ite_self _)
@[simp] theorem noteSet_repairs (d : Fld) (x : Nat) : (noteSet s d x).repairs = s.repairs := (apply_ite State.repairs _ _ _).trans (ite_self _)
@[simp] theorem noteSet_integ (d : Fld) (x : Nat) : (noteSet s d x).integ = s.integ := (apply_ite State.integ _ _ _).trans (ite_self _)
@[simp] theorem noteSet_links (d : Fld) (x : Nat) : (noteSet s d x).links = s.links := (apply_ite State.links _ _ _).trans (ite_self _)
@[simp] theorem noteSet_mirror (d : Fld) (x : Nat) : (noteSet s d x).mirror = s.mirror := (apply_ite State.mirror _ _ _).trans (ite_self _)
@[simp] theorem noteSet_power (d : Fld) (x : Nat) : (noteSet s d x).power = s.power := (apply_ite State.power _ _ _).trans (ite_self _)
@[simp] theorem noteSet_kolwin (d : Fld) (x : Nat) : (noteSet s d x).kolwin = s.kolwin := (apply_ite State.kolwin _ _ _).trans (ite_self _)
@[simp] theorem noteSet_pcie (d : Fld) (x : Nat) : (noteSet s d x).pcie = s.pcie := (apply_ite State.pcie _ _ _).trans (ite_self _)
@[simp] theorem noteSet_queues (d : Fld) (x : Nat) : (noteSet s d x).queues = s.queues := (apply_ite State.queues _ _ _).trans (ite_self _)
@[simp] theorem noteSet_msix (d : Fld) (x : Nat) : (noteSet s d x).msix = s.msix := (apply_ite State.msix _ _ _).trans (ite_self _)
@[simp] theorem noteSet_readOut (d : Fld) (x : Nat) : (noteSet s d x).readOut = s.readOut := (apply_ite State.readOut _ _ _).trans (ite_self _)
@[simp] theorem noteSet_bar2Reads (d : Fld) (x : Nat) : (noteSet s d x).bar2Reads = s.bar2Reads := (apply_ite State.bar2Reads _ _ _).trans (ite_self _)
@[simp] theorem noteSet_pins (d : Fld) (x : Nat) : (noteSet s d x).pins = s.pins := (apply_ite State.pins _ _ _).trans (ite_self _)
@[simp] theorem noteSet_free (d : Fld) (x : Nat) : (noteSet s d x).free = s.free := (apply_ite State.free _ _ _).trans (ite_self _)

@[simp] theorem setFld_pending (d : Fld) (x : Nat) : (setFld s d x).pending = s.pending := by
  unfold setFld; split
  · exact noteSet_pending s d x
  · rfl
@[simp] theorem setFld_tk (d : Fld) (x : Nat) : (setFld s d x).tk = s.tk := by
  unfold setFld; split
  · exact noteSet_tk s d x
  · rfl
@[simp] theorem setFld_tkLatch (d : Fld) (x : Nat) : (setFld s d x).tkLatch = s.tkLatch := by
  unfold setFld; split
  · exact noteSet_tkLatch s d x
  · rfl
@[simp] theorem setFld_align (d : Fld) (x : Nat) : (setFld s d x).align = s.align := by
  unfold setFld; split
  · exact noteSet_align s d x
  · rfl
@[simp] theorem setFld_table (d : Fld) (x : Nat) : (setFld s d x).table = s.table := by
  unfold setFld; split
  · exact noteSet_table s d x
  · rfl
@[simp] theorem setFld_snapshot (d : Fld) (x : Nat) : (setFld s d x).snapshot = s.snapshot := by
  unfold setFld; split
  · exact noteSet_snapshot s d x
  · rfl
@[simp] theorem setFld_mem (d : Fld) (x : Nat) : (setFld s d x).mem = s.mem := by
  unfold setFld; split
  · exact noteSet_mem s d x
  · rfl
@[simp] theorem setFld_hostMem (d : Fld) (x : Nat) : (setFld s d x).hostMem = s.hostMem := by
  unfold setFld; split
  · exact noteSet_hostMem s d x
  · rfl
@[simp] theorem setFld_badWords (d : Fld) (x : Nat) : (setFld s d x).badWords = s.badWords := by
  unfold setFld; split
  · exact noteSet_badWords s d x
  · rfl
@[simp] theorem setFld_softWords (d : Fld) (x : Nat) : (setFld s d x).softWords = s.softWords := by
  unfold setFld; split
  · exact noteSet_softWords s d x
  · rfl
@[simp] theorem setFld_nbLatches (d : Fld) (x : Nat) : (setFld s d x).nbLatches = s.nbLatches := by
  unfold setFld; split
  · exact noteSet_nbLatches s d x
  · rfl
@[simp] theorem setFld_retraining (d : Fld) (x : Nat) : (setFld s d x).retraining = s.retraining := by
  unfold setFld; split
  · exact noteSet_retraining s d x
  · rfl
@[simp] theorem setFld_retrainDue (d : Fld) (x : Nat) : (setFld s d x).retrainDue = s.retrainDue := by
  unfold setFld; split
  · exact noteSet_retrainDue s d x
  · rfl
@[simp] theorem setFld_refreshRate (d : Fld) (x : Nat) : (setFld s d x).refreshRate = s.refreshRate := by
  unfold setFld; split
  · exact noteSet_refreshRate s d x
  · rfl
@[simp] theorem setFld_refreshOwed (d : Fld) (x : Nat) : (setFld s d x).refreshOwed = s.refreshOwed := by
  unfold setFld; split
  · exact noteSet_refreshOwed s d x
  · rfl
@[simp] theorem setFld_cores (d : Fld) (x : Nat) : (setFld s d x).cores = s.cores := by
  unfold setFld; split
  · exact noteSet_cores s d x
  · rfl
@[simp] theorem setFld_gids (d : Fld) (x : Nat) : (setFld s d x).gids = s.gids := by
  unfold setFld; split
  · exact noteSet_gids s d x
  · rfl
@[simp] theorem setFld_clusters (d : Fld) (x : Nat) : (setFld s d x).clusters = s.clusters := by
  unfold setFld; split
  · exact noteSet_clusters s d x
  · rfl
@[simp] theorem setFld_cells (d : Fld) (x : Nat) : (setFld s d x).cells = s.cells := by
  unfold setFld; split
  · exact noteSet_cells s d x
  · rfl
@[simp] theorem setFld_dot (d : Fld) (x : Nat) : (setFld s d x).dot = s.dot := by
  unfold setFld; split
  · exact noteSet_dot s d x
  · rfl
@[simp] theorem setFld_timer0 (d : Fld) (x : Nat) : (setFld s d x).timer0 = s.timer0 := by
  unfold setFld; split
  · exact noteSet_timer0 s d x
  · rfl
@[simp] theorem setFld_timer1 (d : Fld) (x : Nat) : (setFld s d x).timer1 = s.timer1 := by
  unfold setFld; split
  · exact noteSet_timer1 s d x
  · rfl
@[simp] theorem setFld_timer2 (d : Fld) (x : Nat) : (setFld s d x).timer2 = s.timer2 := by
  unfold setFld; split
  · exact noteSet_timer2 s d x
  · rfl
@[simp] theorem setFld_timer2Left (d : Fld) (x : Nat) : (setFld s d x).timer2Left = s.timer2Left := by
  unfold setFld; split
  · exact noteSet_timer2Left s d x
  · rfl
@[simp] theorem setFld_imem (d : Fld) (x : Nat) : (setFld s d x).imem = s.imem := by
  unfold setFld; split
  · exact noteSet_imem s d x
  · rfl
@[simp] theorem setFld_images (d : Fld) (x : Nat) : (setFld s d x).images = s.images := by
  unfold setFld; split
  · exact noteSet_images s d x
  · rfl
@[simp] theorem setFld_loads (d : Fld) (x : Nat) : (setFld s d x).loads = s.loads := by
  unfold setFld; split
  · exact noteSet_loads s d x
  · rfl
@[simp] theorem setFld_reqs (d : Fld) (x : Nat) : (setFld s d x).reqs = s.reqs := by
  unfold setFld; split
  · exact noteSet_reqs s d x
  · rfl
@[simp] theorem setFld_sched (d : Fld) (x : Nat) : (setFld s d x).sched = s.sched := by
  unfold setFld; split
  · exact noteSet_sched s d x
  · rfl
@[simp] theorem setFld_repairs (d : Fld) (x : Nat) : (setFld s d x).repairs = s.repairs := by
  unfold setFld; split
  · exact noteSet_repairs s d x
  · rfl
@[simp] theorem setFld_integ (d : Fld) (x : Nat) : (setFld s d x).integ = s.integ := by
  unfold setFld; split
  · exact noteSet_integ s d x
  · rfl
@[simp] theorem setFld_links (d : Fld) (x : Nat) : (setFld s d x).links = s.links := by
  unfold setFld; split
  · exact noteSet_links s d x
  · rfl
@[simp] theorem setFld_mirror (d : Fld) (x : Nat) : (setFld s d x).mirror = s.mirror := by
  unfold setFld; split
  · exact noteSet_mirror s d x
  · rfl
@[simp] theorem setFld_power (d : Fld) (x : Nat) : (setFld s d x).power = s.power := by
  unfold setFld; split
  · exact noteSet_power s d x
  · rfl
@[simp] theorem setFld_kolwin (d : Fld) (x : Nat) : (setFld s d x).kolwin = s.kolwin := by
  unfold setFld; split
  · exact noteSet_kolwin s d x
  · rfl
@[simp] theorem setFld_pcie (d : Fld) (x : Nat) : (setFld s d x).pcie = s.pcie := by
  unfold setFld; split
  · exact noteSet_pcie s d x
  · rfl
@[simp] theorem setFld_queues (d : Fld) (x : Nat) : (setFld s d x).queues = s.queues := by
  unfold setFld; split
  · exact noteSet_queues s d x
  · rfl
@[simp] theorem setFld_msix (d : Fld) (x : Nat) : (setFld s d x).msix = s.msix := by
  unfold setFld; split
  · exact noteSet_msix s d x
  · rfl
@[simp] theorem setFld_readOut (d : Fld) (x : Nat) : (setFld s d x).readOut = s.readOut := by
  unfold setFld; split
  · exact noteSet_readOut s d x
  · rfl
@[simp] theorem setFld_bar2Reads (d : Fld) (x : Nat) : (setFld s d x).bar2Reads = s.bar2Reads := by
  unfold setFld; split
  · exact noteSet_bar2Reads s d x
  · rfl
@[simp] theorem setFld_pins (d : Fld) (x : Nat) : (setFld s d x).pins = s.pins := by
  unfold setFld; split
  · exact noteSet_pins s d x
  · rfl
@[simp] theorem setFld_free (d : Fld) (x : Nat) : (setFld s d x).free = s.free := by
  unfold setFld; split
  · exact noteSet_free s d x
  · rfl

/-! ## Reads of what was written -/

@[simp] theorem regGet_regPut_same (o : Nat) (v : Word32) : regGet (regPut s o v) o = v := smGet_smSet_same _ _ _ _
theorem regGet_regPut_ne {o p : Nat} (v : Word32) (h : p ≠ o) : regGet (regPut s o v) p = regGet s p :=
  smGet_smSet_ne _ _ _ h
@[simp] theorem getCore_setCore_same (k : Nat) (c : Core) : getCore (setCore s k c) k = c := smGet_smSet_same _ _ _ _
theorem getCore_setCore_ne {k j : Nat} (c : Core) (h : j ≠ k) : getCore (setCore s k c) j = getCore s j := smGet_smSet_ne _ _ _ h
@[simp] theorem getCluster_setCluster_same (k : Nat) (c : Cluster) : getCluster (setCluster s k c) k = c := smGet_smSet_same _ _ _ _
theorem getCluster_setCluster_ne {k j : Nat} (c : Cluster) (h : j ≠ k) : getCluster (setCluster s k c) j = getCluster s j := smGet_smSet_ne _ _ _ h
@[simp] theorem getCell_setCell_same (k : Nat) (c : SyncCell) : getCell (setCell s k c) k = c := smGet_smSet_same _ _ _ _
theorem getCell_setCell_ne {k j : Nat} (c : SyncCell) (h : j ≠ k) : getCell (setCell s k c) j = getCell s j := smGet_smSet_ne _ _ _ h
@[simp] theorem getDot_setDot_same (k : Nat) (c : DotEntry) : getDot (setDot s k c) k = c := smGet_smSet_same _ _ _ _
theorem getDot_setDot_ne {k j : Nat} (c : DotEntry) (h : j ≠ k) : getDot (setDot s k c) j = getDot s j := smGet_smSet_ne _ _ _ h
@[simp] theorem getReq_setReq_same (k : Nat) (c : Req) : getReq (setReq s k c) k = c := smGet_smSet_same _ _ _ _
theorem getReq_setReq_ne {k j : Nat} (c : Req) (h : j ≠ k) : getReq (setReq s k c) j = getReq s j := smGet_smSet_ne _ _ _ h
@[simp] theorem getQueue_setQueue_same (k : Nat) (c : Queue) : getQueue (setQueue s k c) k = c := smGet_smSet_same _ _ _ _
theorem getQueue_setQueue_ne {k j : Nat} (c : Queue) (h : j ≠ k) : getQueue (setQueue s k c) j = getQueue s j := smGet_smSet_ne _ _ _ h
@[simp] theorem getPort_setPort_same (k : Nat) (c : Port) : getPort (setPort s k c) k = c := smGet_smSet_same _ _ _ _
theorem getPort_setPort_ne {k j : Nat} (c : Port) (h : j ≠ k) : getPort (setPort s k c) j = getPort s j := smGet_smSet_ne _ _ _ h
@[simp] theorem gidOf_setGid_same (k : Nat) (c : Nat) : gidOf (setGid s k c) k = c := smGet_smSet_same _ _ _ _
theorem gidOf_setGid_ne {k j : Nat} (c : Nat) (h : j ≠ k) : gidOf (setGid s k c) j = gidOf s j := smGet_smSet_ne _ _ _ h

/-! ## Reads of another table -/

@[simp] theorem getCore_atTick (t : Nat) (j : Nat) : getCore (atTick s t) j = getCore s j := rfl
@[simp] theorem getCore_tookFree (j : Nat) : getCore (tookFree s) j = getCore s j := rfl
@[simp] theorem getCore_regPut (o : Nat) (v : Word32) (j : Nat) : getCore (regPut s o v) j = getCore s j := rfl
@[simp] theorem getCore_setGid (k g : Nat) (j : Nat) : getCore (setGid s k g) j = getCore s j := rfl
@[simp] theorem getCore_setCluster (n : Nat) (c : Cluster) (j : Nat) : getCore (setCluster s n c) j = getCore s j := rfl
@[simp] theorem getCore_setCell (n : Nat) (c : SyncCell) (j : Nat) : getCore (setCell s n c) j = getCore s j := rfl
@[simp] theorem getCore_setDot (m : Nat) (e : DotEntry) (j : Nat) : getCore (setDot s m e) j = getCore s j := rfl
@[simp] theorem getCore_setReq (n : Nat) (r : Req) (j : Nat) : getCore (setReq s n r) j = getCore s j := rfl
@[simp] theorem getCore_setQueue (n : Nat) (q : Queue) (j : Nat) : getCore (setQueue s n q) j = getCore s j := rfl
@[simp] theorem getCore_setPort (n : Nat) (p : Port) (j : Nat) : getCore (setPort s n p) j = getCore s j := rfl
@[simp] theorem getCore_setFld (d : Fld) (x j : Nat) : getCore (setFld s d x) j = getCore s j := by unfold getCore; rw [setFld_cores]
@[simp] theorem getCluster_atTick (t : Nat) (j : Nat) : getCluster (atTick s t) j = getCluster s j := rfl
@[simp] theorem getCluster_tookFree (j : Nat) : getCluster (tookFree s) j = getCluster s j := rfl
@[simp] theorem getCluster_regPut (o : Nat) (v : Word32) (j : Nat) : getCluster (regPut s o v) j = getCluster s j := rfl
@[simp] theorem getCluster_setGid (k g : Nat) (j : Nat) : getCluster (setGid s k g) j = getCluster s j := rfl
@[simp] theorem getCluster_setCore (k : Nat) (c : Core) (j : Nat) : getCluster (setCore s k c) j = getCluster s j := rfl
@[simp] theorem getCluster_setCell (n : Nat) (c : SyncCell) (j : Nat) : getCluster (setCell s n c) j = getCluster s j := rfl
@[simp] theorem getCluster_setDot (m : Nat) (e : DotEntry) (j : Nat) : getCluster (setDot s m e) j = getCluster s j := rfl
@[simp] theorem getCluster_setReq (n : Nat) (r : Req) (j : Nat) : getCluster (setReq s n r) j = getCluster s j := rfl
@[simp] theorem getCluster_setQueue (n : Nat) (q : Queue) (j : Nat) : getCluster (setQueue s n q) j = getCluster s j := rfl
@[simp] theorem getCluster_setPort (n : Nat) (p : Port) (j : Nat) : getCluster (setPort s n p) j = getCluster s j := rfl
@[simp] theorem getCluster_setFld (d : Fld) (x j : Nat) : getCluster (setFld s d x) j = getCluster s j := by unfold getCluster; rw [setFld_clusters]
@[simp] theorem getCell_atTick (t : Nat) (j : Nat) : getCell (atTick s t) j = getCell s j := rfl
@[simp] theorem getCell_tookFree (j : Nat) : getCell (tookFree s) j = getCell s j := rfl
@[simp] theorem getCell_regPut (o : Nat) (v : Word32) (j : Nat) : getCell (regPut s o v) j = getCell s j := rfl
@[simp] theorem getCell_setGid (k g : Nat) (j : Nat) : getCell (setGid s k g) j = getCell s j := rfl
@[simp] theorem getCell_setCore (k : Nat) (c : Core) (j : Nat) : getCell (setCore s k c) j = getCell s j := rfl
@[simp] theorem getCell_setCluster (n : Nat) (c : Cluster) (j : Nat) : getCell (setCluster s n c) j = getCell s j := rfl
@[simp] theorem getCell_setDot (m : Nat) (e : DotEntry) (j : Nat) : getCell (setDot s m e) j = getCell s j := rfl
@[simp] theorem getCell_setReq (n : Nat) (r : Req) (j : Nat) : getCell (setReq s n r) j = getCell s j := rfl
@[simp] theorem getCell_setQueue (n : Nat) (q : Queue) (j : Nat) : getCell (setQueue s n q) j = getCell s j := rfl
@[simp] theorem getCell_setPort (n : Nat) (p : Port) (j : Nat) : getCell (setPort s n p) j = getCell s j := rfl
@[simp] theorem getCell_setFld (d : Fld) (x j : Nat) : getCell (setFld s d x) j = getCell s j := by unfold getCell; rw [setFld_cells]
@[simp] theorem getDot_atTick (t : Nat) (j : Nat) : getDot (atTick s t) j = getDot s j := rfl
@[simp] theorem getDot_tookFree (j : Nat) : getDot (tookFree s) j = getDot s j := rfl
@[simp] theorem getDot_regPut (o : Nat) (v : Word32) (j : Nat) : getDot (regPut s o v) j = getDot s j := rfl
@[simp] theorem getDot_setGid (k g : Nat) (j : Nat) : getDot (setGid s k g) j = getDot s j := rfl
@[simp] theorem getDot_setCore (k : Nat) (c : Core) (j : Nat) : getDot (setCore s k c) j = getDot s j := rfl
@[simp] theorem getDot_setCluster (n : Nat) (c : Cluster) (j : Nat) : getDot (setCluster s n c) j = getDot s j := rfl
@[simp] theorem getDot_setCell (n : Nat) (c : SyncCell) (j : Nat) : getDot (setCell s n c) j = getDot s j := rfl
@[simp] theorem getDot_setReq (n : Nat) (r : Req) (j : Nat) : getDot (setReq s n r) j = getDot s j := rfl
@[simp] theorem getDot_setQueue (n : Nat) (q : Queue) (j : Nat) : getDot (setQueue s n q) j = getDot s j := rfl
@[simp] theorem getDot_setPort (n : Nat) (p : Port) (j : Nat) : getDot (setPort s n p) j = getDot s j := rfl
@[simp] theorem getDot_setFld (d : Fld) (x j : Nat) : getDot (setFld s d x) j = getDot s j := by unfold getDot; rw [setFld_dot]
@[simp] theorem getReq_atTick (t : Nat) (j : Nat) : getReq (atTick s t) j = getReq s j := rfl
@[simp] theorem getReq_tookFree (j : Nat) : getReq (tookFree s) j = getReq s j := rfl
@[simp] theorem getReq_regPut (o : Nat) (v : Word32) (j : Nat) : getReq (regPut s o v) j = getReq s j := rfl
@[simp] theorem getReq_setGid (k g : Nat) (j : Nat) : getReq (setGid s k g) j = getReq s j := rfl
@[simp] theorem getReq_setCore (k : Nat) (c : Core) (j : Nat) : getReq (setCore s k c) j = getReq s j := rfl
@[simp] theorem getReq_setCluster (n : Nat) (c : Cluster) (j : Nat) : getReq (setCluster s n c) j = getReq s j := rfl
@[simp] theorem getReq_setCell (n : Nat) (c : SyncCell) (j : Nat) : getReq (setCell s n c) j = getReq s j := rfl
@[simp] theorem getReq_setDot (m : Nat) (e : DotEntry) (j : Nat) : getReq (setDot s m e) j = getReq s j := rfl
@[simp] theorem getReq_setQueue (n : Nat) (q : Queue) (j : Nat) : getReq (setQueue s n q) j = getReq s j := rfl
@[simp] theorem getReq_setPort (n : Nat) (p : Port) (j : Nat) : getReq (setPort s n p) j = getReq s j := rfl
@[simp] theorem getReq_setFld (d : Fld) (x j : Nat) : getReq (setFld s d x) j = getReq s j := by unfold getReq; rw [setFld_reqs]
@[simp] theorem getQueue_atTick (t : Nat) (j : Nat) : getQueue (atTick s t) j = getQueue s j := rfl
@[simp] theorem getQueue_tookFree (j : Nat) : getQueue (tookFree s) j = getQueue s j := rfl
@[simp] theorem getQueue_regPut (o : Nat) (v : Word32) (j : Nat) : getQueue (regPut s o v) j = getQueue s j := rfl
@[simp] theorem getQueue_setGid (k g : Nat) (j : Nat) : getQueue (setGid s k g) j = getQueue s j := rfl
@[simp] theorem getQueue_setCore (k : Nat) (c : Core) (j : Nat) : getQueue (setCore s k c) j = getQueue s j := rfl
@[simp] theorem getQueue_setCluster (n : Nat) (c : Cluster) (j : Nat) : getQueue (setCluster s n c) j = getQueue s j := rfl
@[simp] theorem getQueue_setCell (n : Nat) (c : SyncCell) (j : Nat) : getQueue (setCell s n c) j = getQueue s j := rfl
@[simp] theorem getQueue_setDot (m : Nat) (e : DotEntry) (j : Nat) : getQueue (setDot s m e) j = getQueue s j := rfl
@[simp] theorem getQueue_setReq (n : Nat) (r : Req) (j : Nat) : getQueue (setReq s n r) j = getQueue s j := rfl
@[simp] theorem getQueue_setPort (n : Nat) (p : Port) (j : Nat) : getQueue (setPort s n p) j = getQueue s j := rfl
@[simp] theorem getQueue_setFld (d : Fld) (x j : Nat) : getQueue (setFld s d x) j = getQueue s j := by unfold getQueue; rw [setFld_queues]
@[simp] theorem gidOf_atTick (t : Nat) (j : Nat) : gidOf (atTick s t) j = gidOf s j := rfl
@[simp] theorem gidOf_tookFree (j : Nat) : gidOf (tookFree s) j = gidOf s j := rfl
@[simp] theorem gidOf_regPut (o : Nat) (v : Word32) (j : Nat) : gidOf (regPut s o v) j = gidOf s j := rfl
@[simp] theorem gidOf_setCore (k : Nat) (c : Core) (j : Nat) : gidOf (setCore s k c) j = gidOf s j := rfl
@[simp] theorem gidOf_setCluster (n : Nat) (c : Cluster) (j : Nat) : gidOf (setCluster s n c) j = gidOf s j := rfl
@[simp] theorem gidOf_setCell (n : Nat) (c : SyncCell) (j : Nat) : gidOf (setCell s n c) j = gidOf s j := rfl
@[simp] theorem gidOf_setDot (m : Nat) (e : DotEntry) (j : Nat) : gidOf (setDot s m e) j = gidOf s j := rfl
@[simp] theorem gidOf_setReq (n : Nat) (r : Req) (j : Nat) : gidOf (setReq s n r) j = gidOf s j := rfl
@[simp] theorem gidOf_setQueue (n : Nat) (q : Queue) (j : Nat) : gidOf (setQueue s n q) j = gidOf s j := rfl
@[simp] theorem gidOf_setPort (n : Nat) (p : Port) (j : Nat) : gidOf (setPort s n p) j = gidOf s j := rfl
@[simp] theorem gidOf_setFld (d : Fld) (x j : Nat) : gidOf (setFld s d x) j = gidOf s j := by unfold gidOf; rw [setFld_gids]
@[simp] theorem regGet_atTick (t : Nat) (j : Nat) : regGet (atTick s t) j = regGet s j := rfl
@[simp] theorem regGet_tookFree (j : Nat) : regGet (tookFree s) j = regGet s j := rfl
@[simp] theorem regGet_setGid (k g : Nat) (j : Nat) : regGet (setGid s k g) j = regGet s j := rfl
@[simp] theorem regGet_setCore (k : Nat) (c : Core) (j : Nat) : regGet (setCore s k c) j = regGet s j := rfl
@[simp] theorem regGet_setCluster (n : Nat) (c : Cluster) (j : Nat) : regGet (setCluster s n c) j = regGet s j := rfl
@[simp] theorem regGet_setCell (n : Nat) (c : SyncCell) (j : Nat) : regGet (setCell s n c) j = regGet s j := rfl
@[simp] theorem regGet_setDot (m : Nat) (e : DotEntry) (j : Nat) : regGet (setDot s m e) j = regGet s j := rfl
@[simp] theorem regGet_setReq (n : Nat) (r : Req) (j : Nat) : regGet (setReq s n r) j = regGet s j := rfl
@[simp] theorem regGet_setQueue (n : Nat) (q : Queue) (j : Nat) : regGet (setQueue s n q) j = regGet s j := rfl
@[simp] theorem regGet_setPort (n : Nat) (p : Port) (j : Nat) : regGet (setPort s n p) j = regGet s j := rfl

@[simp] theorem setCore_cores (k : Nat) (c : Core) : (setCore s k c).cores = smSet coreDefault s.cores k c := rfl
@[simp] theorem alive_setCore (k : Nat) (c : Core) : alive (setCore s k c) = alive s := rfl
@[simp] theorem alive_regPut (o : Nat) (v : Word32) : alive (regPut s o v) = alive s := rfl
@[simp] theorem alive_atTick (t : Nat) : alive (atTick s t) = alive s := rfl

/-! ## Registers of a core -/

variable (c : Core)

@[simp] theorem readS_zero : readS c 0 = 0 := rfl
@[simp] theorem writeS_zero (v : Word) : writeS c 0 v = c := rfl
theorem readS_writeS_same {i : BitVec 5} (v : Word) (h : i ≠ 0) : readS (writeS c i v) i = v := by
  unfold readS writeS
  rw [if_neg h, if_neg h]
  exact smGet_smSet_same _ _ _ _
theorem readS_writeS_ne {i j : BitVec 5} (v : Word) (h : j ≠ i) : readS (writeS c i v) j = readS c j := by
  unfold readS writeS
  by_cases hi : i = 0
  · simp [hi]
  · have hn : j.toNat ≠ i.toNat := fun e => h (BitVec.eq_of_toNat_eq e)
    simp only [hi, if_false]
    rw [smGet_smSet_ne _ _ _ hn]
@[simp] theorem readV_writeV_same (i : BitVec 5) (v : VecReg) : readV (writeV c i v) i = v := smGet_smSet_same _ _ _ _
theorem readV_writeV_ne {i j : BitVec 5} (v : VecReg) (h : j ≠ i) : readV (writeV c i v) j = readV c j :=
  smGet_smSet_ne _ _ _ fun e => h (BitVec.eq_of_toNat_eq e)
@[simp] theorem readP_zero : readP c 0 = true := rfl

end Sys2Proof.Machine
end

