-- ==== Sys2Proof/Laws/Issue.lean ====
section
/-! SUPPORT. What the shared operations of an instruction's issue and of an event's presentation answer. -/
namespace Sys2Proof.Machine
open Sys2Proof
variable {s t : State} {k : Nat}

/-! ## Cores -/

@[simp] theorem getCore_modCore_same (s : State) (k : Nat) (f : Core → Core) :
    getCore (modCore s k f) k = f (getCore s k) := smGet_smSet_same _ _ _ _

theorem getCore_modCore_ne (s : State) {j k : Nat} (f : Core → Core) (h : j ≠ k) :
    getCore (modCore s k f) j = getCore s j := smGet_smSet_ne _ _ _ h

@[simp] theorem writeS_guest (c : Core) (i : BitVec 5) (v : Word) : (writeS c i v).guest = c.guest := by
  unfold writeS; split <;> rfl
@[simp] theorem writeS_pc (c : Core) (i : BitVec 5) (v : Word) : (writeS c i v).pc = c.pc := by
  unfold writeS; split <;> rfl
@[simp] theorem writeP_guest (c : Core) (i : Nat) (b : Bool) : (writeP c i b).guest = c.guest := by
  unfold writeP; split <;> rfl
@[simp] theorem writeP_pc (c : Core) (i : Nat) (b : Bool) : (writeP c i b).pc = c.pc := by
  unfold writeP; split <;> rfl
@[simp] theorem writeV_guest (c : Core) (i : BitVec 5) (v : VecReg) : (writeV c i v).guest = c.guest := rfl
@[simp] theorem writeV_pc (c : Core) (i : BitVec 5) (v : VecReg) : (writeV c i v).pc = c.pc := rfl

/-- A state differs from another in one core as the core operations leave it. -/
theorem onCore_setCore (s : State) (k : Nat) (c : Core) : Safety.onCore s k c (setCore s k c) where
  this := getCore_setCore_same s k c
  others := fun _ h => getCore_setCore_ne s c h
  rest := rfl

theorem onCore_trans {c d : Core} {u : State} (h : Safety.onCore s k c t) (g : Safety.onCore t k d u) :
    Safety.onCore s k d u where
  this := g.this
  others := fun j hj => (g.others j hj).trans (h.others j hj)
  rest := by
    have e := g.rest
    have := h.rest
    rw [← this, ← e]

/-! ## Code -/

/-- Reach depends on the images and on where the guest's image lies, which retiring an instruction leaves. -/
theorem inCode_congr {s t : State} {k pc : Nat} (hi : t.images = s.images)
    (hg : (getCore t k).guest = ((getCore s k).guest.map fun g => { g with left := g.left - 1 }) ∨
      (getCore t k).guest = (getCore s k).guest) : inCode t k pc = inCode s k pc := by
  unfold inCode
  rw [hi]
  rcases hg with hg | hg
  · rw [hg]; cases (getCore s k).guest <;> rfl
  · rw [hg]

/-- Issue goes on inside code: only the PC and a guest's budget change. -/
theorem flowTo_in {pc : Nat} (h : inCode s k pc = true) :
    flowTo s k pc = modCore s k fun c => { retire c with pc := pc } := by
  unfold flowTo
  dsimp only
  rw [if_pos]
  rw [← h]
  refine inCode_congr rfl (.inl ?_)
  rw [getCore_modCore_same]; rfl

/-- Issue goes on at PC + 8. -/
theorem advance_onCore (h : inCode s k ((getCore s k).pc + 8) = true) :
    Safety.onCore s k (Safety.past (getCore s k)) (advance s k) := by
  unfold advance
  rw [flowTo_in h]
  exact onCore_setCore _ _ _

/-! ## Issue -/

/-- An instruction whose guard, privilege and encoding hold has its own effect. -/
theorem issueOn_ready {pg : BitVec 3} {pn : BitVec 1} {guestOk enc : Bool} {eff : Core → Res}
    (h : Safety.ready s k pg pn) (he : enc = true) (hp : guestOk = true ∨ (getCore s k).guest = none) :
    issueOn s k guestOk enc pg pn eff = finish s k (eff (getCore s k)) := by
  have hb : (((getCore s k).guest.map fun g => decide (g.left = 0)) = some true) = False := by
    cases hg : (getCore s k).guest with
    | none => simp
    | some g => simp [h.budget g hg]
  have hq : ((getCore s k).guest.isSome && !guestOk) = false := by
    rcases hp with hp | hp
    · simp [hp]
    · simp [hp]
  unfold issueOn
  simp [h.issues, h.inside, he, h.guard, hb, hq]

/-- A false guard: nothing happens but the advance (R94). -/
theorem issueOn_guard {pg : BitVec 3} {pn : BitVec 1} {guestOk enc : Bool} {eff : Core → Res}
    (hi : issuing s k = true) (hin : inCode s k (getCore s k).pc = true) (he : enc = true)
    (hb : ∀ g, (getCore s k).guest = some g → g.left ≠ 0) (hg : guardOn (getCore s k) pg pn = false) :
    issueOn s k guestOk enc pg pn eff = advance s k := by
  have hb' : (((getCore s k).guest.map fun g => decide (g.left = 0)) = some true) = False := by
    cases hc : (getCore s k).guest with
    | none => simp
    | some g => simp [hb g hc]
  unfold issueOn
  simp [hi, hin, he, hg, hb']

/-- A word that is no encoding raises ENCODING before every other check but the fetch (R93). -/
theorem issueOn_encoding {pg : BitVec 3} {pn : BitVec 1} {guestOk enc : Bool} {eff : Core → Res}
    (hi : issuing s k = true) (hin : inCode s k (getCore s k).pc = true) (he : enc = false) :
    issueOn s k guestOk enc pg pn eff = takeFault s k fEncoding (getCore s k).pc := by
  unfold issueOn
  simp [hi, hin, he]

/-- A core that does not issue ignores the command. -/
theorem issueOn_idle {pg : BitVec 3} {pn : BitVec 1} {guestOk enc : Bool} {eff : Core → Res}
    (hi : issuing s k = false) : issueOn s k guestOk enc pg pn eff = s := by
  unfold issueOn
  simp [hi]

/-- Nothing waits at the head of the core's memory queue. -/
theorem heldBehind_free {c : Core} {i : OpInfo} {rs : List (BitVec 5)} (h : c.memHold = .none) : heldBehind c i rs = false := by
  unfold heldBehind
  rw [h]

theorem issueT_ready {w : FmtT} {i : OpInfo} {eff : Core → Res} (h : Safety.ready s k w.pg w.pn) (he : i.okT w = true)
    (hp : i.guest = true ∨ (getCore s k).guest = none) :
    issueT k w s i eff = .next (finish s k (eff (getCore s k))) := by
  unfold issueT
  rw [if_pos h.core, heldBehind_free h.free, issueOn_ready h (by rw [he, h.word]; rfl) hp]
  rfl

theorem issueL_ready {w : FmtL} {i : OpInfo} {eff : Core → Res} (h : Safety.ready s k w.pg w.pn) (he : i.okL w = true)
    (hp : i.guest = true ∨ (getCore s k).guest = none) :
    issueL k w s i eff = .next (finish s k (eff (getCore s k))) := by
  unfold issueL
  rw [if_pos h.core, heldBehind_free h.free, issueOn_ready h (by rw [he, h.word]; rfl) hp]
  rfl

/-- An effect that changes another part of the state and leaves the core's PC and guest call. -/
theorem finish_done {u : State} (hi : u.images = s.images) (hc : (getCore u k).guest = (getCore s k).guest)
    (hpc : (getCore u k).pc = (getCore s k).pc) (h : inCode s k ((getCore s k).pc + 8) = true) :
    Safety.onCore u k (Safety.past (getCore u k)) (finish s k (.done u)) := by
  have : inCode u k ((getCore u k).pc + 8) = true := by
    rw [hpc, inCode_congr hi (.inr hc)]; exact h
  exact advance_onCore this

/-- An effect on the core's registers alone. -/
theorem finish_regOp {f : Core → Core} (hg : (f (getCore s k)).guest = (getCore s k).guest)
    (hpc : (f (getCore s k)).pc = (getCore s k).pc) (h : inCode s k ((getCore s k).pc + 8) = true) :
    Safety.onCore s k (Safety.past (f (getCore s k))) (finish s k (regOp s k f)) := by
  have e : getCore (modCore s k f) k = f (getCore s k) := getCore_modCore_same _ _ _
  have := finish_done (s := s) (k := k) (u := modCore s k f) rfl (by rw [e, hg]) (by rw [e, hpc]) h
  rw [e] at this
  exact onCore_trans (onCore_setCore s k _) this

/-! ## Presentation -/

theorem present_alive {n : Nat} {f : State → State} (h : alive s = true) : present s n f = .next (f (atTick s n)) := by
  unfold present
  have : alive (atTick s n) = true := (alive_atTick s n).trans h
  simp [this]

theorem present_dead {n : Nat} {f : State → State} (h : alive s = false) : present s n f = .next (atTick s n) := by
  unfold present
  have : alive (atTick s n) = false := (alive_atTick s n).trans h
  simp [this]

theorem presentUnit_alive {n m count : Nat} {f : State → State} (h : alive s = true) (hm : m < count) :
    presentUnit s n m count f = .next (f (atTick s n)) := by
  unfold presentUnit
  rw [if_pos hm, present_alive h]

theorem presentAlways_powered {n : Nat} {f : State → State} (hp : s.pins.powered = true) (hr : s.pins.resetN = true) :
    presentAlways s n f = .next (f (atTick s n)) := by
  unfold presentAlways
  simp [hp, hr]

end Sys2Proof.Machine
end

