-- ==== Sys2Proof/Laws/Keeps.lean ====
section
/-! SUPPORT. What every operation keeps: the queue of commands, and the canonical form of memories and tables. Each lemma
`f_keeps` carries `Keeps` from the state an operation starts in to the state it answers. -/
namespace Sys2Proof.Machine
open Sys2Proof

/-- `t` has the queue of `s`, and its memories and tables are canonical when those of `s` are. -/
structure Keeps (s t : State) : Prop where
  pending : t.pending = s.pending
  canon   : Safety.canonical s → Safety.canonical t

/-- An outcome's next state keeps what `Keeps` says. -/
def OutKeeps (s : State) (o : Host.Outcome State Fault Refusal) : Prop := ∀ t, o = .next t → Keeps s t

/-- An instruction's answer keeps what `Keeps` says. -/
def ResKeeps (s : State) : Res → Prop
  | .done t => Keeps s t
  | .jump t _ => Keeps s t
  | .hold t => Keeps s t
  | .flt _ => True

/-- The state of an optional answer keeps what `Keeps` says. -/
def OptKeeps (s : State) (o : Option State) : Prop := ∀ t, o = some t → Keeps s t

/-- The state of an optional pair keeps what `Keeps` says. -/
def OptKeeps2 {α : Type} (s : State) (o : Option (α × State)) : Prop := ∀ a t, o = some (a, t) → Keeps s t

/-- The state of an optional pair that begins with it keeps what `Keeps` says. -/
def OptKeeps1 {α : Type} (s : State) (o : Option (State × α)) : Prop := ∀ t a, o = some (t, a) → Keeps s t

variable {s0 s t : State}

theorem Keeps.refl (s : State) : Keeps s s := ⟨rfl, id⟩

theorem Keeps.trans {u : State} (h : Keeps s t) (g : Keeps t u) : Keeps s u :=
  ⟨g.pending.trans h.pending, fun c => g.canon (h.canon c)⟩

/-- A change to none of the tables named. -/
theorem Keeps.other (hp : t.pending = s.pending) (h1 : t.mem = s.mem) (h2 : t.hostMem = s.hostMem)
    (h3 : t.imem = s.imem) (h4 : t.regs = s.regs) (h5 : t.cores = s.cores) (h6 : t.gids = s.gids)
    (h7 : t.clusters = s.clusters) (h8 : t.cells = s.cells) (h9 : t.dot = s.dot) (h10 : t.reqs = s.reqs)
    (h11 : t.queues = s.queues) : Keeps s t := by
  refine ⟨hp, fun c => ?_⟩
  unfold Safety.canonical Safety.memoriesCanonical Safety.tablesCanonical at c ⊢
  rw [h1, h2, h3, h4, h5, h6, h7, h8, h9, h10, h11]; exact c

/-- A change of fields outside the tables named. -/
theorem Keeps.mk' {x : State} {f_tk : Nat} {f_tkLatch : Option Word32} {f_align : Align} {f_hwSetAt : Nat} {f_hwSet : List
    (Nat × Word32)} {f_table : List Byte}
    {f_snapshot : List Byte} {f_badWords : List (Nat × Bool)} {f_softWords : List (Nat × Bool)} {f_nbLatches : List (Nat × NbLatch)} {f_retraining : List
    (Nat × Bool)} {f_retrainDue : List (Nat × Nat)} {f_refreshRate : List (Nat × Nat)} {f_refreshOwed : List (Nat ×
    Nat)} {f_timer0 : Nat} {f_timer1 : Nat} {f_timer2 : Nat} {f_timer2Left : Option Nat} {f_images : List Image} {f_loads : List
    ImageLoad} {f_sched : Sched} {f_repairs : List Repair} {f_integ : Integ} {f_links : Links} {f_mirror : Mirror}
    {f_power : Power} {f_kolwin : Kolwin} {f_pcie : Pcie} {f_msix : List Nat} {f_readOut : Option (List Byte)} {f_bar2Reads : List
    (Nat × Nat)} {f_pins : Pins} {f_free : Nat} (h : Keeps s0 x) :
    Keeps s0 (State.mk x.pending f_tk f_tkLatch f_align x.regs f_hwSetAt f_hwSet f_table f_snapshot x.mem x.hostMem f_badWords
    f_softWords f_nbLatches f_retraining f_retrainDue f_refreshRate f_refreshOwed x.cores x.gids x.clusters x.cells x.dot f_timer0 f_timer1
    f_timer2 f_timer2Left x.imem f_images f_loads x.reqs f_sched f_repairs f_integ f_links f_mirror f_power f_kolwin f_pcie
    x.queues f_msix f_readOut f_bar2Reads f_pins f_free) :=
  h.trans <| Keeps.other rfl rfl rfl rfl rfl rfl rfl rfl rfl rfl rfl rfl

theorem Keeps.mem {m : List Host.Cell} {b f : List (Nat × Bool)} (h : Memory.wf s.mem = true → Memory.wf m = true) :
    Keeps s { s with mem := m, badWords := b, softWords := f } :=
  ⟨rfl, fun c => ⟨⟨h c.1.1, c.1.2⟩, c.2⟩⟩

theorem Keeps.hostMem {m : List Host.Cell} (h : Memory.wf s.hostMem = true → Memory.wf m = true) :
    Keeps s { s with hostMem := m } := ⟨rfl, fun c => ⟨⟨c.1.1, h c.1.2.1, c.1.2.2⟩, c.2⟩⟩

theorem Keeps.imem {m : List Host.Cell} {l : List Image} (h : Memory.wf s.imem = true → Memory.wf m = true) :
    Keeps s { s with imem := m, images := l } := ⟨rfl, fun c => ⟨⟨c.1.1, c.1.2.1, h c.1.2.2⟩, c.2⟩⟩

/-! ## Conditions, matches and folds -/

theorem Keeps.ite {a b : State} {p : Prop} [Decidable p] (ha : Keeps s a) (hb : Keeps s b) :
    Keeps s (if p then a else b) := by split <;> assumption

/-- The state of a pair chosen by a condition. -/
theorem Keeps.ite1 {α : Type} {a b : State × α} {p : Prop} [Decidable p] (ha : Keeps s a.1) (hb : Keeps s b.1) :
    Keeps s (if p then a else b).1 := by split <;> assumption

theorem Keeps.foldl {α : Type} {f : State → α → State} {l : List α} (h : ∀ u x, Keeps s u → Keeps s (f u x))
    (k : Keeps s t) : Keeps s (l.foldl f t) := by
  induction l generalizing t with
  | nil => exact k
  | cons x l ih => exact ih (h t x k)

theorem Keeps.foldl1 {α β : Type} {f : State × β → α → State × β} {p : State × β} {l : List α}
    (h : ∀ q x, Keeps s q.1 → Keeps s (f q x).1) (k : Keeps s p.1) : Keeps s (l.foldl f p).1 := by
  induction l generalizing p with
  | nil => exact k
  | cons x l ih => exact ih (h p x k)

theorem Keeps.ofPair {α : Type} {p : State × α} {x : α} (h : Keeps s p.1) (e : p = (t, x)) : Keeps s t := by
  subst e; exact h

theorem OutKeeps.next (h : Keeps s t) : OutKeeps s (.next t) := by
  intro u e; cases e; exact h
theorem OutKeeps.fault {r : Fault} : OutKeeps s (.fault r) := by intro u e; cases e
theorem OutKeeps.ite {a b : Host.Outcome State Fault Refusal} {p : Prop} [Decidable p] (ha : OutKeeps s a)
    (hb : OutKeeps s b) : OutKeeps s (if p then a else b) := by split <;> assumption

theorem ResKeeps.done (h : Keeps s t) : ResKeeps s (.done t) := h
theorem ResKeeps.jump {i : Int} (h : Keeps s t) : ResKeeps s (.jump t i) := h
theorem ResKeeps.hold (h : Keeps s t) : ResKeeps s (.hold t) := h
theorem ResKeeps.flt {code : Nat} : ResKeeps s (.flt code) := trivial
theorem ResKeeps.ite {a b : Res} {p : Prop} [Decidable p] (ha : ResKeeps s a) (hb : ResKeeps s b) :
    ResKeeps s (if p then a else b) := by split <;> assumption

theorem OptKeeps.none : OptKeeps s none := by intro t e; cases e
theorem OptKeeps.some (h : Keeps s t) : OptKeeps s (some t) := by intro u e; cases e; exact h
theorem OptKeeps.ite {a b : Option State} {p : Prop} [Decidable p] (ha : OptKeeps s a) (hb : OptKeeps s b) :
    OptKeeps s (if p then a else b) := by split <;> assumption
theorem OptKeeps.get {o : Option State} (h : OptKeeps s o) (e : o = .some t) : Keeps s t := h t e
theorem OptKeeps.getD {o : Option State} (h : OptKeeps s o) (k : Keeps s t) : Keeps s (o.getD t) := by
  cases o with
  | none => exact k
  | some u => exact h u rfl
theorem OptKeeps.map {α : Type} {o : Option α} {f : α → State} (h : ∀ x, Keeps s (f x)) : OptKeeps s (o.map f) := by
  cases o with
  | none => exact OptKeeps.none
  | some x => exact OptKeeps.some (h x)
theorem OptKeeps2.none {α : Type} : OptKeeps2 (α := α) s none := by intro a t e; cases e
theorem OptKeeps2.some {α : Type} {a : α} (h : Keeps s t) : OptKeeps2 s (some (a, t)) := by
  intro b u e; cases e; exact h
theorem OptKeeps2.ite {α : Type} {a b : Option (α × State)} {p : Prop} [Decidable p] (ha : OptKeeps2 s a)
    (hb : OptKeeps2 s b) : OptKeeps2 s (if p then a else b) := by split <;> assumption
theorem OptKeeps2.get {α : Type} {a : α} {o : Option (α × State)} (h : OptKeeps2 s o)
    (e : o = .some (a, t)) : Keeps s t := h a t e
theorem OptKeeps1.get {α : Type} {a : α} {o : Option (State × α)} (h : OptKeeps1 s o)
    (e : o = .some (t, a)) : Keeps s t := h t a e
theorem OptKeeps2.map {α : Type} {o : Option (α × State)} {f : α × State → State} (h : OptKeeps2 s o)
    (g : ∀ a t, Keeps s t → Keeps s (f (a, t))) : OptKeeps s (o.map f) := by
  intro u e
  cases o with
  | none => cases e
  | some p => cases e; exact g p.1 p.2 (h p.1 p.2 rfl)
theorem OptKeeps2.map2 {α : Type} {o : Option (α × State)} {f : α × State → α × State} (h : OptKeeps2 s o)
    (g : ∀ a t, Keeps s t → Keeps s (f (a, t)).2) : OptKeeps2 s (o.map f) := by
  intro b u e
  cases o with
  | none => cases e
  | some p =>
    have k := g p.1 p.2 (h p.1 p.2 rfl)
    simp only [Option.map_some, Option.some.injEq] at e
    rw [e] at k; exact k

/-! ## The tables -/

theorem regPut_keeps (s : State) (off : Nat) (v : Word32) (h : Keeps s0 s) : Keeps s0 (regPut s off v) :=
  h.trans ⟨rfl, fun c => ⟨c.1, smWf_smSet _ _ _ c.2.1, c.2.2⟩⟩

theorem setCore_keeps (s : State) (k : Nat) (c : Core) (h : Keeps s0 s) : Keeps s0 (setCore s k c) :=
  h.trans ⟨rfl, fun h => ⟨h.1, h.2.1, smWf_smSet _ _ _ h.2.2.1, h.2.2.2⟩⟩

theorem setGid_keeps (s : State) (k g : Nat) (h : Keeps s0 s) : Keeps s0 (setGid s k g) :=
  h.trans ⟨rfl, fun h => ⟨h.1, h.2.1, h.2.2.1, smWf_smSet _ _ _ h.2.2.2.1, h.2.2.2.2⟩⟩

theorem setCluster_keeps (s : State) (n : Nat) (c : Cluster) (h : Keeps s0 s) : Keeps s0 (setCluster s n c) :=
  h.trans ⟨rfl, fun h => ⟨h.1, h.2.1, h.2.2.1, h.2.2.2.1, smWf_smSet _ _ _ h.2.2.2.2.1, h.2.2.2.2.2⟩⟩

theorem setCell_keeps (s : State) (n : Nat) (c : SyncCell) (h : Keeps s0 s) : Keeps s0 (setCell s n c) :=
  h.trans ⟨rfl, fun h => ⟨h.1, h.2.1, h.2.2.1, h.2.2.2.1, h.2.2.2.2.1, smWf_smSet _ _ _ h.2.2.2.2.2.1,
    h.2.2.2.2.2.2⟩⟩

theorem setDot_keeps (s : State) (m : Nat) (e : DotEntry) (h : Keeps s0 s) : Keeps s0 (setDot s m e) :=
  h.trans ⟨rfl, fun h => ⟨h.1, h.2.1, h.2.2.1, h.2.2.2.1, h.2.2.2.2.1, h.2.2.2.2.2.1,
    smWf_smSet _ _ _ h.2.2.2.2.2.2.1, h.2.2.2.2.2.2.2⟩⟩

theorem setReq_keeps (s : State) (n : Nat) (r : Req) (h : Keeps s0 s) : Keeps s0 (setReq s n r) :=
  h.trans ⟨rfl, fun h => ⟨h.1, h.2.1, h.2.2.1, h.2.2.2.1, h.2.2.2.2.1, h.2.2.2.2.2.1, h.2.2.2.2.2.2.1,
    smWf_smSet _ _ _ h.2.2.2.2.2.2.2.1, h.2.2.2.2.2.2.2.2⟩⟩

theorem setQueue_keeps (s : State) (n : Nat) (q : Queue) (h : Keeps s0 s) : Keeps s0 (setQueue s n q) :=
  h.trans ⟨rfl, fun h => ⟨h.1, h.2.1, h.2.2.1, h.2.2.2.1, h.2.2.2.2.1, h.2.2.2.2.2.1, h.2.2.2.2.2.2.1,
    h.2.2.2.2.2.2.2.1, smWf_smSet _ _ _ h.2.2.2.2.2.2.2.2⟩⟩

theorem store_keeps (s : State) (a : Nat) (bs : List Byte) (h : Keeps s0 s) : Keeps s0 (store s a bs) :=
  h.trans (Keeps.mem (Memory.wf_writeBytes _ _))

theorem hostStore_keeps (s : State) (a : Nat) (bs : List Byte) (h : Keeps s0 s) : Keeps s0 (hostStore s a bs) :=
  h.trans (Keeps.hostMem (Memory.wf_writeBytes _ _))

theorem physClear_keeps (s : State) (a n : Nat) (h : Keeps s0 s) : Keeps s0 (physClear s a n) :=
  h.trans (Keeps.mem (Memory.wf_clearRange _ _))

theorem physCopy_keeps (s : State) (src dst n : Nat) (h : Keeps s0 s) : Keeps s0 (physCopy s src dst n) := by
  unfold physCopy
  exact h.trans (Keeps.ite (Keeps.hostMem (Memory.wf_copyRange _ _ _ _)) (Keeps.mem (Memory.wf_copyRange _ _ _ _)))

/-! ## Presentation -/

theorem atTick_keeps (s : State) (t : Nat) (h : Keeps s0 s) : Keeps s0 (atTick s t) := by
  unfold atTick
  exact h.trans (Keeps.other rfl rfl rfl rfl rfl rfl rfl rfl rfl rfl rfl rfl)

theorem present_keeps {t : Nat} {f : State → State} (h : ∀ x, Keeps s0 x → Keeps s0 (f x)) (h0 : Keeps s0 s) :
    OutKeeps s0 (present s t f) := by
  unfold present
  exact OutKeeps.ite (.next (h _ (atTick_keeps s t h0))) (.next (atTick_keeps s t h0))

theorem presentAlways_keeps {t : Nat} {f : State → State} (h : ∀ x, Keeps s0 x → Keeps s0 (f x)) (h0 : Keeps s0 s) :
    OutKeeps s0 (presentAlways s t f) := by
  unfold presentAlways
  exact OutKeeps.ite (.next (h _ (atTick_keeps s t h0))) (.next (atTick_keeps s t h0))

theorem presentUnit_keeps {t n count : Nat} {f : State → State} (h : ∀ x, Keeps s0 x → Keeps s0 (f x))
    (h0 : Keeps s0 s) : OutKeeps s0 (presentUnit s t n count f) := by
  unfold presentUnit
  exact OutKeeps.ite (present_keeps h h0) .fault

end Sys2Proof.Machine
end

