-- ==== Sys2Proof/Laws/KeepsCore.lean ====
section
/-! SUPPORT. Each operation keeps the command queue and the canonical form of memories and tables (`Keeps`): registers, units, core instructions, cluster caches, sync cells and the device operation table. -/
namespace Sys2Proof.Machine
open Sys2Proof
variable {s0 : State}

/-! ## Ops.lean -/

theorem tookFree_keeps (s : State) (h0 : Keeps s0 s) :
    Keeps s0 (tookFree s) := by
  unfold tookFree
  try dsimp only
  repeat' first
    | with_reducible assumption
    | split
    | with_reducible apply Keeps.mk'

theorem setReg64_keeps (s : State) (off : Nat) (v : Nat) (h0 : Keeps s0 s) :
    Keeps s0 (setReg64 s off v) := by
  unfold setReg64
  try dsimp only
  repeat' first
    | with_reducible assumption
    | with_reducible apply regPut_keeps
    | split

theorem noteSet_keeps (s : State) (f : Fld) (x : Nat) (h0 : Keeps s0 s) :
    Keeps s0 (noteSet s f x) := by
  unfold noteSet
  try dsimp only
  repeat' first
    | with_reducible assumption
    | with_reducible apply Keeps.ite
    | split
    | with_reducible apply Keeps.mk'

theorem setFld_keeps (s : State) (f : Fld) (x : Nat) (h0 : Keeps s0 s) :
    Keeps s0 (setFld s f x) := by
  unfold setFld
  try dsimp only
  repeat' first
    | with_reducible assumption
    | with_reducible apply Keeps.ite
    | with_reducible apply regPut_keeps
    | with_reducible apply noteSet_keeps
    | with_reducible apply setReg64_keeps
    | split

theorem setBit_keeps (s : State) (f : Fld) (i : Nat) (h0 : Keeps s0 s) :
    Keeps s0 (setBit s f i) := by
  unfold setBit
  try dsimp only
  repeat' first
    | with_reducible assumption
    | with_reducible apply setFld_keeps
    | split

theorem countUp_keeps (s : State) (ctr : Fld) (ovf : Fld) (ovfBit : Nat) (n : Nat) (h0 : Keeps s0 s) :
    Keeps s0 (countUp s ctr ovf ovfBit n) := by
  unfold countUp
  try dsimp only
  repeat' first
    | with_reducible assumption
    | with_reducible apply Keeps.ite
    | with_reducible apply setBit_keeps
    | with_reducible apply setFld_keeps
    | split

theorem addTotal_keeps (s : State) (f : Fld) (n : Nat) (h0 : Keeps s0 s) :
    Keeps s0 (addTotal s f n) := by
  unfold addTotal
  try dsimp only
  repeat' first
    | with_reducible assumption
    | with_reducible apply setReg64_keeps
    | split

theorem regPutBytes_keeps (s : State) (off : Nat) (bs : List Byte) (h0 : Keeps s0 s) :
    Keeps s0 (regPutBytes s off bs) := by
  unfold regPutBytes
  try dsimp only
  repeat' first
    | with_reducible assumption
    | with_reducible intro _
    | with_reducible apply Keeps.foldl
    | with_reducible apply regPut_keeps
    | split

theorem formDigest_keeps (s : State) (h0 : Keeps s0 s) :
    Keeps s0 (formDigest s) := by
  unfold formDigest
  try dsimp only
  repeat' first
    | with_reducible assumption
    | split
    | with_reducible apply Keeps.mk'

theorem plainWrite_keeps (s : State) (off : Nat) (v : Word32) (h0 : Keeps s0 s) :
    Keeps s0 (plainWrite s off v) := by
  unfold plainWrite
  try dsimp only
  repeat' first
    | with_reducible assumption
    | with_reducible apply Keeps.ite
    | with_reducible apply regPut_keeps
    | with_reducible apply formDigest_keeps
    | split

theorem setPort_keeps (s : State) (n : Nat) (p : Port) (h0 : Keeps s0 s) :
    Keeps s0 (setPort s n p) := by
  unfold setPort
  try dsimp only
  repeat' first
    | with_reducible assumption
    | split
    | with_reducible apply Keeps.mk'

theorem sendVector_keeps (s : State) (v : Nat) (h0 : Keeps s0 s) :
    Keeps s0 (sendVector s v) := by
  unfold sendVector
  try dsimp only
  repeat' first
    | with_reducible assumption
    | with_reducible apply Keeps.ite
    | split
    | with_reducible apply Keeps.mk'

theorem sendIf_keeps (s : State) (en : Fld) (v : Nat) (h0 : Keeps s0 s) :
    Keeps s0 (sendIf s en v) := by
  unfold sendIf
  try dsimp only
  repeat' first
    | with_reducible assumption
    | with_reducible apply Keeps.ite
    | with_reducible apply sendVector_keeps
    | split

theorem driveAlert_keeps (s : State) (h0 : Keeps s0 s) :
    Keeps s0 (driveAlert s) := by
  unfold driveAlert
  try dsimp only
  repeat' first
    | with_reducible assumption
    | split
    | with_reducible apply Keeps.mk'

theorem setAlert_keeps (s : State) (i : Nat) (h0 : Keeps s0 s) :
    Keeps s0 (setAlert s i) := by
  unfold setAlert
  try dsimp only
  repeat' first
    | with_reducible assumption
    | with_reducible apply Keeps.ite
    | with_reducible apply setBit_keeps
    | with_reducible apply driveAlert_keeps
    | split
    | with_reducible apply Keeps.mk'

theorem logPut_keeps (s : State) (entries : Nat) (l : List (List Byte)) (h0 : Keeps s0 s) :
    Keeps s0 (logPut s entries l) := by
  induction l generalizing s with
  | nil => unfold logPut; exact h0
  | cons r rs ih =>
  unfold logPut
  try dsimp only
  repeat' first
    | with_reducible assumption
    | with_reducible apply ih
    | with_reducible apply hostStore_keeps
    | with_reducible apply setFld_keeps
    | split

theorem noteRaised_keeps (s : State) (r : ErrRec) (h0 : Keeps s0 s) :
    Keeps s0 (noteRaised s r) := by
  unfold noteRaised
  try dsimp only
  repeat' first
    | with_reducible assumption
    | with_reducible apply Keeps.ite
    | split
    | with_reducible apply Keeps.mk'

theorem errorRecord_keeps (x0 : State) (r : ErrRec) (h0 : Keeps s0 x0) :
    Keeps s0 (errorRecord x0 r) := by
  unfold errorRecord
  try dsimp only
  repeat' first
    | with_reducible assumption
    | with_reducible apply Keeps.ite
    | with_reducible apply noteRaised_keeps
    | with_reducible apply regPutBytes_keeps
    | with_reducible apply logPut_keeps
    | with_reducible apply setFld_keeps
    | with_reducible apply countUp_keeps
    | with_reducible apply sendIf_keeps
    | split
    | with_reducible apply Keeps.mk'

theorem hostPut_keeps (s : State) (a : Nat) (bs : List Byte) (h0 : Keeps s0 s) :
    Keeps s0 (hostPut s a bs) := by
  unfold hostPut
  try dsimp only
  repeat' first
    | with_reducible assumption
    | with_reducible apply Keeps.ite
    | with_reducible apply hostStore_keeps
    | with_reducible apply errorRecord_keeps
    | split

theorem countWord_keeps (s : State) (w : Nat) (h0 : Keeps s0 s) :
    Keeps s0 (countWord s w) := by
  unfold countWord
  try dsimp only
  repeat' first
    | with_reducible assumption
    | with_reducible apply countUp_keeps
    | split

theorem countSoft_keeps (s : State) (a : Nat) (n : Nat) (h0 : Keeps s0 s) :
    Keeps s0 (countSoft s a n) := by
  unfold countSoft
  try dsimp only
  repeat' first
    | with_reducible assumption
    | with_reducible intro _
    | with_reducible apply Keeps.foldl
    | with_reducible apply countWord_keeps
    | split

theorem ueEvent_keeps (s : State) (addr : Nat) (kind : Nat) (rc : Nat) (h0 : Keeps s0 s) :
    Keeps s0 (ueEvent s addr kind rc) := by
  unfold ueEvent
  try dsimp only
  repeat' first
    | with_reducible assumption
    | with_reducible apply countUp_keeps
    | with_reducible apply setReg64_keeps
    | with_reducible apply setFld_keeps
    | with_reducible apply errorRecord_keeps
    | with_reducible apply sendIf_keeps
    | split

theorem dropWrite_keeps (s : State) (a : Nat) (h0 : Keeps s0 s) :
    Keeps s0 (dropWrite s a) := by
  unfold dropWrite
  try dsimp only
  repeat' first
    | with_reducible assumption
    | with_reducible apply errorRecord_keeps
    | split

theorem mergeRead_keeps (s : State) (a : Nat) (w : Nat) (h0 : Keeps s0 s) :
    Keeps s0 (mergeRead s a w) := by
  unfold mergeRead
  try dsimp only
  repeat' first
    | with_reducible assumption
    | with_reducible apply Keeps.ite
    | with_reducible apply dropWrite_keeps
    | with_reducible apply ueEvent_keeps
    | with_reducible apply countSoft_keeps
    | split

theorem physWrite_keeps (s : State) (a : Nat) (bs : List Byte) (h0 : Keeps s0 s) :
    Keeps s0 (physWrite s a bs) := by
  unfold physWrite
  try dsimp only
  repeat' first
    | with_reducible assumption
    | with_reducible intro _
    | with_reducible apply Keeps.ite
    | with_reducible apply Keeps.foldl
    | with_reducible apply Keeps.foldl1
    | with_reducible apply hostStore_keeps
    | with_reducible apply store_keeps
    | with_reducible apply mergeRead_keeps
    | split
    | with_reducible dsimp only
    | with_reducible apply Keeps.mk'

theorem physPut_keeps (s : State) (a : Nat) (n : Nat) (v : Nat) (h0 : Keeps s0 s) :
    Keeps s0 (physPut s a n v) := by
  unfold physPut
  try dsimp only
  repeat' first
    | with_reducible assumption
    | with_reducible apply physWrite_keeps
    | split

/-! ## Issue.lean -/

theorem modCore_keeps (s : State) (k : Nat) (f : Core → Core) (h0 : Keeps s0 s) :
    Keeps s0 (modCore s k f) := by
  unfold modCore
  try dsimp only
  repeat' first
    | with_reducible assumption
    | with_reducible apply setCore_keeps
    | split

theorem stepFaulted_keeps (s : State) (h0 : Keeps s0 s) :
    Keeps s0 (stepFaulted s) := by
  unfold stepFaulted
  try dsimp only
  repeat' first
    | with_reducible assumption
    | split
    | with_reducible apply Keeps.mk'

theorem operatorFault_keeps (s : State) (k : Nat) (code : Nat) (pc : Nat) (h0 : Keeps s0 s) :
    Keeps s0 (operatorFault s k code pc) := by
  unfold operatorFault
  try dsimp only
  repeat' first
    | with_reducible assumption
    | with_reducible apply errorRecord_keeps
    | with_reducible apply stepFaulted_keeps
    | with_reducible apply modCore_keeps
    | split
    | with_reducible apply Keeps.mk'

theorem operatorAt_keeps (s : State) (k : Nat) (pc : Nat) (h0 : Keeps s0 s) :
    Keeps s0 (operatorAt s k pc) := by
  unfold operatorAt
  try dsimp only
  repeat' first
    | with_reducible assumption
    | with_reducible apply Keeps.ite
    | with_reducible apply modCore_keeps
    | with_reducible apply operatorFault_keeps
    | split
    | with_reducible apply Keeps.mk'

theorem guestReturn_keeps (s : State) (k : Nat) (g : GuestCall) (sd : Word) (se : Word) (h0 : Keeps s0 s) :
    Keeps s0 (guestReturn s k g sd se) := by
  unfold guestReturn
  try dsimp only
  repeat' first
    | with_reducible assumption
    | with_reducible apply modCore_keeps
    | with_reducible apply operatorAt_keeps
    | split
    | with_reducible apply Keeps.mk'

theorem takeFault_keeps (s : State) (k : Nat) (code : Nat) (pc : Nat) (h0 : Keeps s0 s) :
    Keeps s0 (takeFault s k code pc) := by
  unfold takeFault
  try dsimp only
  repeat' first
    | with_reducible assumption
    | with_reducible apply setReq_keeps
    | with_reducible apply guestReturn_keeps
    | with_reducible apply operatorFault_keeps
    | split
    | with_reducible apply Keeps.mk'

theorem flowTo_keeps (s : State) (k : Nat) (pc : Nat) (h0 : Keeps s0 s) :
    Keeps s0 (flowTo s k pc) := by
  unfold flowTo
  try dsimp only
  repeat' first
    | with_reducible assumption
    | with_reducible apply Keeps.ite
    | with_reducible apply modCore_keeps
    | with_reducible apply takeFault_keeps
    | split
    | with_reducible apply Keeps.mk'

theorem advance_keeps (s : State) (k : Nat) (h0 : Keeps s0 s) :
    Keeps s0 (advance s k) := by
  unfold advance
  try dsimp only
  repeat' first
    | with_reducible assumption
    | with_reducible apply flowTo_keeps
    | split

theorem jumpTo_keeps (s : State) (k : Nat) (s1 : State) (target : Int) (h0 : Keeps s0 s) (h : Keeps s0 s1) :
    Keeps s0 (jumpTo s k s1 target) := by
  unfold jumpTo
  try dsimp only
  repeat' first
    | with_reducible assumption
    | with_reducible apply Keeps.ite
    | with_reducible apply takeFault_keeps
    | with_reducible apply modCore_keeps
    | split
    | with_reducible apply Keeps.mk'

theorem finish_keeps (s : State) (k : Nat) (r : Res) (h : ResKeeps s0 r) (h0 : Keeps s0 s) :
    Keeps s0 (finish s k r) := by
  unfold finish
  cases r with
  | done t => exact advance_keeps _ _ h
  | jump t i => exact jumpTo_keeps _ _ _ _ h0 h
  | hold t => exact h
  | flt c => exact takeFault_keeps _ _ _ _ h0

theorem issueOn_keeps (s : State) (k : Nat) (guestOk enc : Bool) (pg : BitVec 3) (pn : BitVec 1) (eff : Core → Res)
    (h : ∀ c, ResKeeps s0 (eff c)) (h0 : Keeps s0 s) : Keeps s0 (issueOn s k guestOk enc pg pn eff) := by
  unfold issueOn
  try dsimp only
  repeat' first
    | with_reducible assumption
    | with_reducible apply Keeps.ite
    | with_reducible exact finish_keeps _ _ _ (h _) h0
    | with_reducible apply takeFault_keeps
    | with_reducible apply advance_keeps
    | with_reducible apply finish_keeps
    | split

theorem issueT_keeps (k : Nat) (w : FmtT) (s : State) (i : OpInfo) (eff : Core → Res) (h : ∀ c, ResKeeps s0 (eff c)) (h0 : Keeps s0 s) :
    OutKeeps s0 (issueT k w s i eff) := by
  unfold issueT
  exact OutKeeps.ite (.next (Keeps.ite h0 (issueOn_keeps _ _ _ _ _ _ _ h h0))) .fault

theorem issueL_keeps (k : Nat) (w : FmtL) (s : State) (i : OpInfo) (eff : Core → Res) (h : ∀ c, ResKeeps s0 (eff c)) (h0 : Keeps s0 s) :
    OutKeeps s0 (issueL k w s i eff) := by
  unfold issueL
  exact OutKeeps.ite (.next (Keeps.ite h0 (issueOn_keeps _ _ _ _ _ _ _ h h0))) .fault

theorem regOp_keeps (s : State) (k : Nat) (f : Core → Core) (h0 : Keeps s0 s) :
    ResKeeps s0 (regOp s k f) := by
  unfold regOp
  try dsimp only
  repeat' first
    | with_reducible assumption
    | with_reducible apply ResKeeps.flt
    | with_reducible apply ResKeeps.ite
    | with_reducible apply ResKeeps.done
    | with_reducible apply ResKeeps.jump
    | with_reducible apply ResKeeps.hold
    | with_reducible apply modCore_keeps
    | split

/-! ## Control.lean -/

theorem gcallRefuse_keeps (s : State) (k : Nat) (w : FmtT) (code : Word) (h0 : Keeps s0 s) :
    ResKeeps s0 (gcallRefuse s k w code) := by
  unfold gcallRefuse
  try dsimp only
  repeat' first
    | with_reducible assumption
    | with_reducible apply ResKeeps.flt
    | with_reducible apply ResKeeps.ite
    | with_reducible apply ResKeeps.done
    | with_reducible apply ResKeeps.jump
    | with_reducible apply ResKeeps.hold
    | with_reducible apply regOp_keeps
    | split

theorem gcallEff_keeps (s : State) (k : Nat) (w : FmtT) (c : Core) (h0 : Keeps s0 s) :
    ResKeeps s0 (gcallEff s k w c) := by
  unfold gcallEff
  try dsimp only
  repeat' first
    | with_reducible assumption
    | with_reducible apply ResKeeps.flt
    | with_reducible apply ResKeeps.ite
    | with_reducible apply ResKeeps.done
    | with_reducible apply ResKeeps.jump
    | with_reducible apply ResKeeps.hold
    | with_reducible apply Keeps.ite
    | with_reducible apply gcallRefuse_keeps
    | with_reducible apply modCore_keeps
    | split

theorem gretEff_keeps (s : State) (k : Nat) (c : Core) (h0 : Keeps s0 s) :
    ResKeeps s0 (gretEff s k c) := by
  unfold gretEff
  try dsimp only
  repeat' first
    | with_reducible assumption
    | with_reducible apply ResKeeps.flt
    | with_reducible apply ResKeeps.ite
    | with_reducible apply ResKeeps.done
    | with_reducible apply ResKeeps.jump
    | with_reducible apply ResKeeps.hold
    | with_reducible apply guestReturn_keeps
    | split

theorem execNop_keeps (k : Nat) (w : FmtT) (s : State) (h0 : Keeps s0 s) :
    OutKeeps s0 (execNop k w s) := by
  unfold execNop
  try dsimp only
  repeat' first
    | with_reducible assumption
    | with_reducible intro _
    | with_reducible apply ResKeeps.flt
    | with_reducible apply ResKeeps.ite
    | with_reducible apply ResKeeps.done
    | with_reducible apply ResKeeps.jump
    | with_reducible apply ResKeeps.hold
    | with_reducible apply OutKeeps.next
    | with_reducible apply OutKeeps.fault
    | with_reducible apply OutKeeps.ite
    | with_reducible apply issueT_keeps
    | split

theorem execBr_keeps (k : Nat) (w : FmtL) (s : State) (h0 : Keeps s0 s) :
    OutKeeps s0 (execBr k w s) := by
  unfold execBr
  try dsimp only
  repeat' first
    | with_reducible assumption
    | with_reducible intro _
    | with_reducible apply ResKeeps.flt
    | with_reducible apply ResKeeps.ite
    | with_reducible apply ResKeeps.done
    | with_reducible apply ResKeeps.jump
    | with_reducible apply ResKeeps.hold
    | with_reducible apply OutKeeps.next
    | with_reducible apply OutKeeps.fault
    | with_reducible apply OutKeeps.ite
    | with_reducible apply issueL_keeps
    | split

theorem execBrz_keeps (k : Nat) (w : FmtL) (s : State) (h0 : Keeps s0 s) :
    OutKeeps s0 (execBrz k w s) := by
  unfold execBrz
  try dsimp only
  repeat' first
    | with_reducible assumption
    | with_reducible intro _
    | with_reducible apply ResKeeps.flt
    | with_reducible apply ResKeeps.ite
    | with_reducible apply ResKeeps.done
    | with_reducible apply ResKeeps.jump
    | with_reducible apply ResKeeps.hold
    | with_reducible apply OutKeeps.next
    | with_reducible apply OutKeeps.fault
    | with_reducible apply OutKeeps.ite
    | with_reducible apply Keeps.ite
    | with_reducible apply issueL_keeps
    | split

theorem execBrnz_keeps (k : Nat) (w : FmtL) (s : State) (h0 : Keeps s0 s) :
    OutKeeps s0 (execBrnz k w s) := by
  unfold execBrnz
  try dsimp only
  repeat' first
    | with_reducible assumption
    | with_reducible intro _
    | with_reducible apply ResKeeps.flt
    | with_reducible apply ResKeeps.ite
    | with_reducible apply ResKeeps.done
    | with_reducible apply ResKeeps.jump
    | with_reducible apply ResKeeps.hold
    | with_reducible apply OutKeeps.next
    | with_reducible apply OutKeeps.fault
    | with_reducible apply OutKeeps.ite
    | with_reducible apply Keeps.ite
    | with_reducible apply issueL_keeps
    | split

theorem execCall_keeps (k : Nat) (w : FmtL) (s : State) (h0 : Keeps s0 s) :
    OutKeeps s0 (execCall k w s) := by
  unfold execCall
  try dsimp only
  repeat' first
    | with_reducible assumption
    | with_reducible intro _
    | with_reducible apply ResKeeps.flt
    | with_reducible apply ResKeeps.ite
    | with_reducible apply ResKeeps.done
    | with_reducible apply ResKeeps.jump
    | with_reducible apply ResKeeps.hold
    | with_reducible apply OutKeeps.next
    | with_reducible apply OutKeeps.fault
    | with_reducible apply OutKeeps.ite
    | with_reducible apply issueL_keeps
    | with_reducible apply modCore_keeps
    | split

theorem execCallr_keeps (k : Nat) (w : FmtT) (s : State) (h0 : Keeps s0 s) :
    OutKeeps s0 (execCallr k w s) := by
  unfold execCallr
  try dsimp only
  repeat' first
    | with_reducible assumption
    | with_reducible intro _
    | with_reducible apply ResKeeps.flt
    | with_reducible apply ResKeeps.ite
    | with_reducible apply ResKeeps.done
    | with_reducible apply ResKeeps.jump
    | with_reducible apply ResKeeps.hold
    | with_reducible apply OutKeeps.next
    | with_reducible apply OutKeeps.fault
    | with_reducible apply OutKeeps.ite
    | with_reducible apply issueT_keeps
    | with_reducible apply modCore_keeps
    | split

theorem execRet_keeps (k : Nat) (w : FmtT) (s : State) (h0 : Keeps s0 s) :
    OutKeeps s0 (execRet k w s) := by
  unfold execRet
  try dsimp only
  repeat' first
    | with_reducible assumption
    | with_reducible intro _
    | with_reducible apply ResKeeps.flt
    | with_reducible apply ResKeeps.ite
    | with_reducible apply ResKeeps.done
    | with_reducible apply ResKeeps.jump
    | with_reducible apply ResKeeps.hold
    | with_reducible apply OutKeeps.next
    | with_reducible apply OutKeeps.fault
    | with_reducible apply OutKeeps.ite
    | with_reducible apply issueT_keeps
    | split

theorem execYield_keeps (k : Nat) (w : FmtT) (s : State) (h0 : Keeps s0 s) :
    OutKeeps s0 (execYield k w s) := by
  unfold execYield
  try dsimp only
  repeat' first
    | with_reducible assumption
    | with_reducible intro _
    | with_reducible apply ResKeeps.flt
    | with_reducible apply ResKeeps.ite
    | with_reducible apply ResKeeps.done
    | with_reducible apply ResKeeps.jump
    | with_reducible apply ResKeeps.hold
    | with_reducible apply OutKeeps.next
    | with_reducible apply OutKeeps.fault
    | with_reducible apply OutKeeps.ite
    | with_reducible apply issueT_keeps
    | with_reducible apply modCore_keeps
    | split
    | with_reducible apply Keeps.mk'

theorem execGcall_keeps (k : Nat) (w : FmtT) (s : State) (h0 : Keeps s0 s) :
    OutKeeps s0 (execGcall k w s) := by
  unfold execGcall
  try dsimp only
  repeat' first
    | with_reducible assumption
    | with_reducible intro _
    | with_reducible apply ResKeeps.flt
    | with_reducible apply ResKeeps.ite
    | with_reducible apply ResKeeps.done
    | with_reducible apply ResKeeps.jump
    | with_reducible apply ResKeeps.hold
    | with_reducible apply OutKeeps.next
    | with_reducible apply OutKeeps.fault
    | with_reducible apply OutKeeps.ite
    | with_reducible apply issueT_keeps
    | with_reducible apply gcallEff_keeps
    | split

theorem execGret_keeps (k : Nat) (w : FmtT) (s : State) (h0 : Keeps s0 s) :
    OutKeeps s0 (execGret k w s) := by
  unfold execGret
  try dsimp only
  repeat' first
    | with_reducible assumption
    | with_reducible intro _
    | with_reducible apply ResKeeps.flt
    | with_reducible apply ResKeeps.ite
    | with_reducible apply ResKeeps.done
    | with_reducible apply ResKeeps.jump
    | with_reducible apply ResKeeps.hold
    | with_reducible apply OutKeeps.next
    | with_reducible apply OutKeeps.fault
    | with_reducible apply OutKeeps.ite
    | with_reducible apply issueT_keeps
    | with_reducible apply gretEff_keeps
    | split

/-! ## Scalar.lean -/

theorem aluEff_keeps (s : State) (k : Nat) (w : FmtT) (f : Word → Word → Word) (h0 : Keeps s0 s) :
    ResKeeps s0 (aluEff s k w f) := by
  unfold aluEff
  try dsimp only
  repeat' first
    | with_reducible assumption
    | with_reducible apply ResKeeps.flt
    | with_reducible apply ResKeeps.ite
    | with_reducible apply ResKeeps.done
    | with_reducible apply ResKeeps.jump
    | with_reducible apply ResKeeps.hold
    | with_reducible apply regOp_keeps
    | split

theorem predEff_keeps (s : State) (k : Nat) (w : FmtT) (f : Bool → Bool → Bool) (h0 : Keeps s0 s) :
    ResKeeps s0 (predEff s k w f) := by
  unfold predEff
  try dsimp only
  repeat' first
    | with_reducible assumption
    | with_reducible apply ResKeeps.flt
    | with_reducible apply ResKeeps.ite
    | with_reducible apply ResKeeps.done
    | with_reducible apply ResKeeps.jump
    | with_reducible apply ResKeeps.hold
    | with_reducible apply regOp_keeps
    | split

theorem execAdd_keeps (k : Nat) (w : FmtT) (s : State) (h0 : Keeps s0 s) :
    OutKeeps s0 (execAdd k w s) := by
  unfold execAdd
  try dsimp only
  repeat' first
    | with_reducible assumption
    | with_reducible intro _
    | with_reducible apply ResKeeps.flt
    | with_reducible apply ResKeeps.ite
    | with_reducible apply ResKeeps.done
    | with_reducible apply ResKeeps.jump
    | with_reducible apply ResKeeps.hold
    | with_reducible apply OutKeeps.next
    | with_reducible apply OutKeeps.fault
    | with_reducible apply OutKeeps.ite
    | with_reducible apply issueT_keeps
    | with_reducible apply aluEff_keeps
    | split

theorem execSub_keeps (k : Nat) (w : FmtT) (s : State) (h0 : Keeps s0 s) :
    OutKeeps s0 (execSub k w s) := by
  unfold execSub
  try dsimp only
  repeat' first
    | with_reducible assumption
    | with_reducible intro _
    | with_reducible apply ResKeeps.flt
    | with_reducible apply ResKeeps.ite
    | with_reducible apply ResKeeps.done
    | with_reducible apply ResKeeps.jump
    | with_reducible apply ResKeeps.hold
    | with_reducible apply OutKeeps.next
    | with_reducible apply OutKeeps.fault
    | with_reducible apply OutKeeps.ite
    | with_reducible apply issueT_keeps
    | with_reducible apply aluEff_keeps
    | split

theorem execMul_keeps (k : Nat) (w : FmtT) (s : State) (h0 : Keeps s0 s) :
    OutKeeps s0 (execMul k w s) := by
  unfold execMul
  try dsimp only
  repeat' first
    | with_reducible assumption
    | with_reducible intro _
    | with_reducible apply ResKeeps.flt
    | with_reducible apply ResKeeps.ite
    | with_reducible apply ResKeeps.done
    | with_reducible apply ResKeeps.jump
    | with_reducible apply ResKeeps.hold
    | with_reducible apply OutKeeps.next
    | with_reducible apply OutKeeps.fault
    | with_reducible apply OutKeeps.ite
    | with_reducible apply issueT_keeps
    | with_reducible apply aluEff_keeps
    | split

theorem execMulhu_keeps (k : Nat) (w : FmtT) (s : State) (h0 : Keeps s0 s) :
    OutKeeps s0 (execMulhu k w s) := by
  unfold execMulhu
  try dsimp only
  repeat' first
    | with_reducible assumption
    | with_reducible intro _
    | with_reducible apply ResKeeps.flt
    | with_reducible apply ResKeeps.ite
    | with_reducible apply ResKeeps.done
    | with_reducible apply ResKeeps.jump
    | with_reducible apply ResKeeps.hold
    | with_reducible apply OutKeeps.next
    | with_reducible apply OutKeeps.fault
    | with_reducible apply OutKeeps.ite
    | with_reducible apply issueT_keeps
    | with_reducible apply aluEff_keeps
    | split

theorem execMulhs_keeps (k : Nat) (w : FmtT) (s : State) (h0 : Keeps s0 s) :
    OutKeeps s0 (execMulhs k w s) := by
  unfold execMulhs
  try dsimp only
  repeat' first
    | with_reducible assumption
    | with_reducible intro _
    | with_reducible apply ResKeeps.flt
    | with_reducible apply ResKeeps.ite
    | with_reducible apply ResKeeps.done
    | with_reducible apply ResKeeps.jump
    | with_reducible apply ResKeeps.hold
    | with_reducible apply OutKeeps.next
    | with_reducible apply OutKeeps.fault
    | with_reducible apply OutKeeps.ite
    | with_reducible apply issueT_keeps
    | with_reducible apply aluEff_keeps
    | split

theorem execDivu_keeps (k : Nat) (w : FmtT) (s : State) (h0 : Keeps s0 s) :
    OutKeeps s0 (execDivu k w s) := by
  unfold execDivu
  try dsimp only
  repeat' first
    | with_reducible assumption
    | with_reducible intro _
    | with_reducible apply ResKeeps.flt
    | with_reducible apply ResKeeps.ite
    | with_reducible apply ResKeeps.done
    | with_reducible apply ResKeeps.jump
    | with_reducible apply ResKeeps.hold
    | with_reducible apply OutKeeps.next
    | with_reducible apply OutKeeps.fault
    | with_reducible apply OutKeeps.ite
    | with_reducible apply issueT_keeps
    | with_reducible apply aluEff_keeps
    | split

theorem execRemu_keeps (k : Nat) (w : FmtT) (s : State) (h0 : Keeps s0 s) :
    OutKeeps s0 (execRemu k w s) := by
  unfold execRemu
  try dsimp only
  repeat' first
    | with_reducible assumption
    | with_reducible intro _
    | with_reducible apply ResKeeps.flt
    | with_reducible apply ResKeeps.ite
    | with_reducible apply ResKeeps.done
    | with_reducible apply ResKeeps.jump
    | with_reducible apply ResKeeps.hold
    | with_reducible apply OutKeeps.next
    | with_reducible apply OutKeeps.fault
    | with_reducible apply OutKeeps.ite
    | with_reducible apply issueT_keeps
    | with_reducible apply aluEff_keeps
    | split

theorem execAnd_keeps (k : Nat) (w : FmtT) (s : State) (h0 : Keeps s0 s) :
    OutKeeps s0 (execAnd k w s) := by
  unfold execAnd
  try dsimp only
  repeat' first
    | with_reducible assumption
    | with_reducible intro _
    | with_reducible apply ResKeeps.flt
    | with_reducible apply ResKeeps.ite
    | with_reducible apply ResKeeps.done
    | with_reducible apply ResKeeps.jump
    | with_reducible apply ResKeeps.hold
    | with_reducible apply OutKeeps.next
    | with_reducible apply OutKeeps.fault
    | with_reducible apply OutKeeps.ite
    | with_reducible apply issueT_keeps
    | with_reducible apply aluEff_keeps
    | split

theorem execOr_keeps (k : Nat) (w : FmtT) (s : State) (h0 : Keeps s0 s) :
    OutKeeps s0 (execOr k w s) := by
  unfold execOr
  try dsimp only
  repeat' first
    | with_reducible assumption
    | with_reducible intro _
    | with_reducible apply ResKeeps.flt
    | with_reducible apply ResKeeps.ite
    | with_reducible apply ResKeeps.done
    | with_reducible apply ResKeeps.jump
    | with_reducible apply ResKeeps.hold
    | with_reducible apply OutKeeps.next
    | with_reducible apply OutKeeps.fault
    | with_reducible apply OutKeeps.ite
    | with_reducible apply issueT_keeps
    | with_reducible apply aluEff_keeps
    | split

theorem execXor_keeps (k : Nat) (w : FmtT) (s : State) (h0 : Keeps s0 s) :
    OutKeeps s0 (execXor k w s) := by
  unfold execXor
  try dsimp only
  repeat' first
    | with_reducible assumption
    | with_reducible intro _
    | with_reducible apply ResKeeps.flt
    | with_reducible apply ResKeeps.ite
    | with_reducible apply ResKeeps.done
    | with_reducible apply ResKeeps.jump
    | with_reducible apply ResKeeps.hold
    | with_reducible apply OutKeeps.next
    | with_reducible apply OutKeeps.fault
    | with_reducible apply OutKeeps.ite
    | with_reducible apply issueT_keeps
    | with_reducible apply aluEff_keeps
    | split

theorem execShl_keeps (k : Nat) (w : FmtT) (s : State) (h0 : Keeps s0 s) :
    OutKeeps s0 (execShl k w s) := by
  unfold execShl
  try dsimp only
  repeat' first
    | with_reducible assumption
    | with_reducible intro _
    | with_reducible apply ResKeeps.flt
    | with_reducible apply ResKeeps.ite
    | with_reducible apply ResKeeps.done
    | with_reducible apply ResKeeps.jump
    | with_reducible apply ResKeeps.hold
    | with_reducible apply OutKeeps.next
    | with_reducible apply OutKeeps.fault
    | with_reducible apply OutKeeps.ite
    | with_reducible apply issueT_keeps
    | with_reducible apply aluEff_keeps
    | split

theorem execShr_keeps (k : Nat) (w : FmtT) (s : State) (h0 : Keeps s0 s) :
    OutKeeps s0 (execShr k w s) := by
  unfold execShr
  try dsimp only
  repeat' first
    | with_reducible assumption
    | with_reducible intro _
    | with_reducible apply ResKeeps.flt
    | with_reducible apply ResKeeps.ite
    | with_reducible apply ResKeeps.done
    | with_reducible apply ResKeeps.jump
    | with_reducible apply ResKeeps.hold
    | with_reducible apply OutKeeps.next
    | with_reducible apply OutKeeps.fault
    | with_reducible apply OutKeeps.ite
    | with_reducible apply issueT_keeps
    | with_reducible apply aluEff_keeps
    | split

theorem execSar_keeps (k : Nat) (w : FmtT) (s : State) (h0 : Keeps s0 s) :
    OutKeeps s0 (execSar k w s) := by
  unfold execSar
  try dsimp only
  repeat' first
    | with_reducible assumption
    | with_reducible intro _
    | with_reducible apply ResKeeps.flt
    | with_reducible apply ResKeeps.ite
    | with_reducible apply ResKeeps.done
    | with_reducible apply ResKeeps.jump
    | with_reducible apply ResKeeps.hold
    | with_reducible apply OutKeeps.next
    | with_reducible apply OutKeeps.fault
    | with_reducible apply OutKeeps.ite
    | with_reducible apply issueT_keeps
    | with_reducible apply aluEff_keeps
    | split

theorem execMin_keeps (k : Nat) (w : FmtT) (s : State) (h0 : Keeps s0 s) :
    OutKeeps s0 (execMin k w s) := by
  unfold execMin
  try dsimp only
  repeat' first
    | with_reducible assumption
    | with_reducible intro _
    | with_reducible apply ResKeeps.flt
    | with_reducible apply ResKeeps.ite
    | with_reducible apply ResKeeps.done
    | with_reducible apply ResKeeps.jump
    | with_reducible apply ResKeeps.hold
    | with_reducible apply OutKeeps.next
    | with_reducible apply OutKeeps.fault
    | with_reducible apply OutKeeps.ite
    | with_reducible apply Keeps.ite
    | with_reducible apply issueT_keeps
    | with_reducible apply aluEff_keeps
    | split

theorem execMax_keeps (k : Nat) (w : FmtT) (s : State) (h0 : Keeps s0 s) :
    OutKeeps s0 (execMax k w s) := by
  unfold execMax
  try dsimp only
  repeat' first
    | with_reducible assumption
    | with_reducible intro _
    | with_reducible apply ResKeeps.flt
    | with_reducible apply ResKeeps.ite
    | with_reducible apply ResKeeps.done
    | with_reducible apply ResKeeps.jump
    | with_reducible apply ResKeeps.hold
    | with_reducible apply OutKeeps.next
    | with_reducible apply OutKeeps.fault
    | with_reducible apply OutKeeps.ite
    | with_reducible apply Keeps.ite
    | with_reducible apply issueT_keeps
    | with_reducible apply aluEff_keeps
    | split

theorem execMinu_keeps (k : Nat) (w : FmtT) (s : State) (h0 : Keeps s0 s) :
    OutKeeps s0 (execMinu k w s) := by
  unfold execMinu
  try dsimp only
  repeat' first
    | with_reducible assumption
    | with_reducible intro _
    | with_reducible apply ResKeeps.flt
    | with_reducible apply ResKeeps.ite
    | with_reducible apply ResKeeps.done
    | with_reducible apply ResKeeps.jump
    | with_reducible apply ResKeeps.hold
    | with_reducible apply OutKeeps.next
    | with_reducible apply OutKeeps.fault
    | with_reducible apply OutKeeps.ite
    | with_reducible apply Keeps.ite
    | with_reducible apply issueT_keeps
    | with_reducible apply aluEff_keeps
    | split

theorem execMaxu_keeps (k : Nat) (w : FmtT) (s : State) (h0 : Keeps s0 s) :
    OutKeeps s0 (execMaxu k w s) := by
  unfold execMaxu
  try dsimp only
  repeat' first
    | with_reducible assumption
    | with_reducible intro _
    | with_reducible apply ResKeeps.flt
    | with_reducible apply ResKeeps.ite
    | with_reducible apply ResKeeps.done
    | with_reducible apply ResKeeps.jump
    | with_reducible apply ResKeeps.hold
    | with_reducible apply OutKeeps.next
    | with_reducible apply OutKeeps.fault
    | with_reducible apply OutKeeps.ite
    | with_reducible apply Keeps.ite
    | with_reducible apply issueT_keeps
    | with_reducible apply aluEff_keeps
    | split

theorem execSel_keeps (k : Nat) (w : FmtT) (s : State) (h0 : Keeps s0 s) :
    OutKeeps s0 (execSel k w s) := by
  unfold execSel
  try dsimp only
  repeat' first
    | with_reducible assumption
    | with_reducible intro _
    | with_reducible apply ResKeeps.flt
    | with_reducible apply ResKeeps.ite
    | with_reducible apply ResKeeps.done
    | with_reducible apply ResKeeps.jump
    | with_reducible apply ResKeeps.hold
    | with_reducible apply OutKeeps.next
    | with_reducible apply OutKeeps.fault
    | with_reducible apply OutKeeps.ite
    | with_reducible apply Keeps.ite
    | with_reducible apply issueT_keeps
    | with_reducible apply aluEff_keeps
    | split

theorem execCmp_keeps (k : Nat) (w : FmtT) (s : State) (h0 : Keeps s0 s) :
    OutKeeps s0 (execCmp k w s) := by
  unfold execCmp
  try dsimp only
  repeat' first
    | with_reducible assumption
    | with_reducible intro _
    | with_reducible apply ResKeeps.flt
    | with_reducible apply ResKeeps.ite
    | with_reducible apply ResKeeps.done
    | with_reducible apply ResKeeps.jump
    | with_reducible apply ResKeeps.hold
    | with_reducible apply OutKeeps.next
    | with_reducible apply OutKeeps.fault
    | with_reducible apply OutKeeps.ite
    | with_reducible apply issueT_keeps
    | with_reducible apply regOp_keeps
    | split

theorem execMovi_keeps (k : Nat) (w : FmtL) (s : State) (h0 : Keeps s0 s) :
    OutKeeps s0 (execMovi k w s) := by
  unfold execMovi
  try dsimp only
  repeat' first
    | with_reducible assumption
    | with_reducible intro _
    | with_reducible apply ResKeeps.flt
    | with_reducible apply ResKeeps.ite
    | with_reducible apply ResKeeps.done
    | with_reducible apply ResKeeps.jump
    | with_reducible apply ResKeeps.hold
    | with_reducible apply OutKeeps.next
    | with_reducible apply OutKeeps.fault
    | with_reducible apply OutKeeps.ite
    | with_reducible apply issueL_keeps
    | with_reducible apply regOp_keeps
    | split

theorem execMovhi_keeps (k : Nat) (w : FmtL) (s : State) (h0 : Keeps s0 s) :
    OutKeeps s0 (execMovhi k w s) := by
  unfold execMovhi
  try dsimp only
  repeat' first
    | with_reducible assumption
    | with_reducible intro _
    | with_reducible apply ResKeeps.flt
    | with_reducible apply ResKeeps.ite
    | with_reducible apply ResKeeps.done
    | with_reducible apply ResKeeps.jump
    | with_reducible apply ResKeeps.hold
    | with_reducible apply OutKeeps.next
    | with_reducible apply OutKeeps.fault
    | with_reducible apply OutKeeps.ite
    | with_reducible apply issueL_keeps
    | with_reducible apply regOp_keeps
    | split

theorem execPand_keeps (k : Nat) (w : FmtT) (s : State) (h0 : Keeps s0 s) :
    OutKeeps s0 (execPand k w s) := by
  unfold execPand
  try dsimp only
  repeat' first
    | with_reducible assumption
    | with_reducible intro _
    | with_reducible apply ResKeeps.flt
    | with_reducible apply ResKeeps.ite
    | with_reducible apply ResKeeps.done
    | with_reducible apply ResKeeps.jump
    | with_reducible apply ResKeeps.hold
    | with_reducible apply OutKeeps.next
    | with_reducible apply OutKeeps.fault
    | with_reducible apply OutKeeps.ite
    | with_reducible apply issueT_keeps
    | with_reducible apply predEff_keeps
    | split

theorem execPor_keeps (k : Nat) (w : FmtT) (s : State) (h0 : Keeps s0 s) :
    OutKeeps s0 (execPor k w s) := by
  unfold execPor
  try dsimp only
  repeat' first
    | with_reducible assumption
    | with_reducible intro _
    | with_reducible apply ResKeeps.flt
    | with_reducible apply ResKeeps.ite
    | with_reducible apply ResKeeps.done
    | with_reducible apply ResKeeps.jump
    | with_reducible apply ResKeeps.hold
    | with_reducible apply OutKeeps.next
    | with_reducible apply OutKeeps.fault
    | with_reducible apply OutKeeps.ite
    | with_reducible apply issueT_keeps
    | with_reducible apply predEff_keeps
    | split

theorem execPxor_keeps (k : Nat) (w : FmtT) (s : State) (h0 : Keeps s0 s) :
    OutKeeps s0 (execPxor k w s) := by
  unfold execPxor
  try dsimp only
  repeat' first
    | with_reducible assumption
    | with_reducible intro _
    | with_reducible apply ResKeeps.flt
    | with_reducible apply ResKeeps.ite
    | with_reducible apply ResKeeps.done
    | with_reducible apply ResKeeps.jump
    | with_reducible apply ResKeeps.hold
    | with_reducible apply OutKeeps.next
    | with_reducible apply OutKeeps.fault
    | with_reducible apply OutKeeps.ite
    | with_reducible apply issueT_keeps
    | with_reducible apply predEff_keeps
    | split

/-! ## Vector.lean -/

theorem vtopkEff_keeps (s : State) (k : Nat) (w : FmtT) (c : Core) (h0 : Keeps s0 s) :
    ResKeeps s0 (vtopkEff s k w c) := by
  unfold vtopkEff
  try dsimp only
  repeat' first
    | with_reducible assumption
    | with_reducible apply ResKeeps.flt
    | with_reducible apply ResKeeps.ite
    | with_reducible apply ResKeeps.done
    | with_reducible apply ResKeeps.jump
    | with_reducible apply ResKeeps.hold
    | with_reducible apply Keeps.ite
    | with_reducible apply regOp_keeps
    | split
    | with_reducible dsimp only

theorem vec2Eff_keeps (s : State) (k : Nat) (w : FmtT) (g : Nat → Nat → Nat) (h0 : Keeps s0 s) :
    ResKeeps s0 (vec2Eff s k w g) := by
  unfold vec2Eff
  try dsimp only
  repeat' first
    | with_reducible assumption
    | with_reducible apply ResKeeps.flt
    | with_reducible apply ResKeeps.ite
    | with_reducible apply ResKeeps.done
    | with_reducible apply ResKeeps.jump
    | with_reducible apply ResKeeps.hold
    | with_reducible apply regOp_keeps
    | split

theorem execVadd_keeps (k : Nat) (w : FmtT) (s : State) (h0 : Keeps s0 s) :
    OutKeeps s0 (execVadd k w s) := by
  unfold execVadd
  try dsimp only
  repeat' first
    | with_reducible assumption
    | with_reducible intro _
    | with_reducible apply ResKeeps.flt
    | with_reducible apply ResKeeps.ite
    | with_reducible apply ResKeeps.done
    | with_reducible apply ResKeeps.jump
    | with_reducible apply ResKeeps.hold
    | with_reducible apply OutKeeps.next
    | with_reducible apply OutKeeps.fault
    | with_reducible apply OutKeeps.ite
    | with_reducible apply issueT_keeps
    | with_reducible apply vec2Eff_keeps
    | split

theorem execVsub_keeps (k : Nat) (w : FmtT) (s : State) (h0 : Keeps s0 s) :
    OutKeeps s0 (execVsub k w s) := by
  unfold execVsub
  try dsimp only
  repeat' first
    | with_reducible assumption
    | with_reducible intro _
    | with_reducible apply ResKeeps.flt
    | with_reducible apply ResKeeps.ite
    | with_reducible apply ResKeeps.done
    | with_reducible apply ResKeeps.jump
    | with_reducible apply ResKeeps.hold
    | with_reducible apply OutKeeps.next
    | with_reducible apply OutKeeps.fault
    | with_reducible apply OutKeeps.ite
    | with_reducible apply issueT_keeps
    | with_reducible apply vec2Eff_keeps
    | split

theorem execVmul_keeps (k : Nat) (w : FmtT) (s : State) (h0 : Keeps s0 s) :
    OutKeeps s0 (execVmul k w s) := by
  unfold execVmul
  try dsimp only
  repeat' first
    | with_reducible assumption
    | with_reducible intro _
    | with_reducible apply ResKeeps.flt
    | with_reducible apply ResKeeps.ite
    | with_reducible apply ResKeeps.done
    | with_reducible apply ResKeeps.jump
    | with_reducible apply ResKeeps.hold
    | with_reducible apply OutKeeps.next
    | with_reducible apply OutKeeps.fault
    | with_reducible apply OutKeeps.ite
    | with_reducible apply issueT_keeps
    | with_reducible apply vec2Eff_keeps
    | split

theorem execVfma_keeps (k : Nat) (w : FmtT) (s : State) (h0 : Keeps s0 s) :
    OutKeeps s0 (execVfma k w s) := by
  unfold execVfma
  try dsimp only
  repeat' first
    | with_reducible assumption
    | with_reducible intro _
    | with_reducible apply ResKeeps.flt
    | with_reducible apply ResKeeps.ite
    | with_reducible apply ResKeeps.done
    | with_reducible apply ResKeeps.jump
    | with_reducible apply ResKeeps.hold
    | with_reducible apply OutKeeps.next
    | with_reducible apply OutKeeps.fault
    | with_reducible apply OutKeeps.ite
    | with_reducible apply issueT_keeps
    | with_reducible apply regOp_keeps
    | split

theorem execVmax_keeps (k : Nat) (w : FmtT) (s : State) (h0 : Keeps s0 s) :
    OutKeeps s0 (execVmax k w s) := by
  unfold execVmax
  try dsimp only
  repeat' first
    | with_reducible assumption
    | with_reducible intro _
    | with_reducible apply ResKeeps.flt
    | with_reducible apply ResKeeps.ite
    | with_reducible apply ResKeeps.done
    | with_reducible apply ResKeeps.jump
    | with_reducible apply ResKeeps.hold
    | with_reducible apply OutKeeps.next
    | with_reducible apply OutKeeps.fault
    | with_reducible apply OutKeeps.ite
    | with_reducible apply issueT_keeps
    | with_reducible apply vec2Eff_keeps
    | split

theorem execVmin_keeps (k : Nat) (w : FmtT) (s : State) (h0 : Keeps s0 s) :
    OutKeeps s0 (execVmin k w s) := by
  unfold execVmin
  try dsimp only
  repeat' first
    | with_reducible assumption
    | with_reducible intro _
    | with_reducible apply ResKeeps.flt
    | with_reducible apply ResKeeps.ite
    | with_reducible apply ResKeeps.done
    | with_reducible apply ResKeeps.jump
    | with_reducible apply ResKeeps.hold
    | with_reducible apply OutKeeps.next
    | with_reducible apply OutKeeps.fault
    | with_reducible apply OutKeeps.ite
    | with_reducible apply issueT_keeps
    | with_reducible apply vec2Eff_keeps
    | split

theorem execVcmp_keeps (k : Nat) (w : FmtT) (s : State) (h0 : Keeps s0 s) :
    OutKeeps s0 (execVcmp k w s) := by
  unfold execVcmp
  try dsimp only
  repeat' first
    | with_reducible assumption
    | with_reducible intro _
    | with_reducible apply ResKeeps.flt
    | with_reducible apply ResKeeps.ite
    | with_reducible apply ResKeeps.done
    | with_reducible apply ResKeeps.jump
    | with_reducible apply ResKeeps.hold
    | with_reducible apply OutKeeps.next
    | with_reducible apply OutKeeps.fault
    | with_reducible apply OutKeeps.ite
    | with_reducible apply Keeps.ite
    | with_reducible apply issueT_keeps
    | with_reducible apply vec2Eff_keeps
    | split

theorem execVexp_keeps (k : Nat) (w : FmtT) (s : State) (h0 : Keeps s0 s) :
    OutKeeps s0 (execVexp k w s) := by
  unfold execVexp
  try dsimp only
  repeat' first
    | with_reducible assumption
    | with_reducible intro _
    | with_reducible apply ResKeeps.flt
    | with_reducible apply ResKeeps.ite
    | with_reducible apply ResKeeps.done
    | with_reducible apply ResKeeps.jump
    | with_reducible apply ResKeeps.hold
    | with_reducible apply OutKeeps.next
    | with_reducible apply OutKeeps.fault
    | with_reducible apply OutKeeps.ite
    | with_reducible apply issueT_keeps
    | with_reducible apply regOp_keeps
    | split

theorem execVrcp_keeps (k : Nat) (w : FmtT) (s : State) (h0 : Keeps s0 s) :
    OutKeeps s0 (execVrcp k w s) := by
  unfold execVrcp
  try dsimp only
  repeat' first
    | with_reducible assumption
    | with_reducible intro _
    | with_reducible apply ResKeeps.flt
    | with_reducible apply ResKeeps.ite
    | with_reducible apply ResKeeps.done
    | with_reducible apply ResKeeps.jump
    | with_reducible apply ResKeeps.hold
    | with_reducible apply OutKeeps.next
    | with_reducible apply OutKeeps.fault
    | with_reducible apply OutKeeps.ite
    | with_reducible apply issueT_keeps
    | with_reducible apply regOp_keeps
    | split

theorem execVrsq_keeps (k : Nat) (w : FmtT) (s : State) (h0 : Keeps s0 s) :
    OutKeeps s0 (execVrsq k w s) := by
  unfold execVrsq
  try dsimp only
  repeat' first
    | with_reducible assumption
    | with_reducible intro _
    | with_reducible apply ResKeeps.flt
    | with_reducible apply ResKeeps.ite
    | with_reducible apply ResKeeps.done
    | with_reducible apply ResKeeps.jump
    | with_reducible apply ResKeeps.hold
    | with_reducible apply OutKeeps.next
    | with_reducible apply OutKeeps.fault
    | with_reducible apply OutKeeps.ite
    | with_reducible apply issueT_keeps
    | with_reducible apply regOp_keeps
    | split

theorem execVred_keeps (k : Nat) (w : FmtT) (s : State) (h0 : Keeps s0 s) :
    OutKeeps s0 (execVred k w s) := by
  unfold execVred
  try dsimp only
  repeat' first
    | with_reducible assumption
    | with_reducible intro _
    | with_reducible apply ResKeeps.flt
    | with_reducible apply ResKeeps.ite
    | with_reducible apply ResKeeps.done
    | with_reducible apply ResKeeps.jump
    | with_reducible apply ResKeeps.hold
    | with_reducible apply OutKeeps.next
    | with_reducible apply OutKeeps.fault
    | with_reducible apply OutKeeps.ite
    | with_reducible apply issueT_keeps
    | with_reducible apply regOp_keeps
    | split

theorem execVcvt_keeps (k : Nat) (w : FmtT) (s : State) (h0 : Keeps s0 s) :
    OutKeeps s0 (execVcvt k w s) := by
  unfold execVcvt
  try dsimp only
  repeat' first
    | with_reducible assumption
    | with_reducible intro _
    | with_reducible apply ResKeeps.flt
    | with_reducible apply ResKeeps.ite
    | with_reducible apply ResKeeps.done
    | with_reducible apply ResKeeps.jump
    | with_reducible apply ResKeeps.hold
    | with_reducible apply OutKeeps.next
    | with_reducible apply OutKeeps.fault
    | with_reducible apply OutKeeps.ite
    | with_reducible apply issueT_keeps
    | with_reducible apply regOp_keeps
    | split

theorem execVcvtsr_keeps (k : Nat) (w : FmtT) (s : State) (h0 : Keeps s0 s) :
    OutKeeps s0 (execVcvtsr k w s) := by
  unfold execVcvtsr
  try dsimp only
  repeat' first
    | with_reducible assumption
    | with_reducible intro _
    | with_reducible apply ResKeeps.flt
    | with_reducible apply ResKeeps.ite
    | with_reducible apply ResKeeps.done
    | with_reducible apply ResKeeps.jump
    | with_reducible apply ResKeeps.hold
    | with_reducible apply OutKeeps.next
    | with_reducible apply OutKeeps.fault
    | with_reducible apply OutKeeps.ite
    | with_reducible apply issueT_keeps
    | with_reducible apply regOp_keeps
    | split

theorem execVtopk_keeps (k : Nat) (w : FmtT) (s : State) (h0 : Keeps s0 s) :
    OutKeeps s0 (execVtopk k w s) := by
  unfold execVtopk
  try dsimp only
  repeat' first
    | with_reducible assumption
    | with_reducible intro _
    | with_reducible apply ResKeeps.flt
    | with_reducible apply ResKeeps.ite
    | with_reducible apply ResKeeps.done
    | with_reducible apply ResKeeps.jump
    | with_reducible apply ResKeeps.hold
    | with_reducible apply OutKeeps.next
    | with_reducible apply OutKeeps.fault
    | with_reducible apply OutKeeps.ite
    | with_reducible apply issueT_keeps
    | with_reducible apply vtopkEff_keeps
    | split

theorem execVrand_keeps (k : Nat) (w : FmtT) (s : State) (h0 : Keeps s0 s) :
    OutKeeps s0 (execVrand k w s) := by
  unfold execVrand
  try dsimp only
  repeat' first
    | with_reducible assumption
    | with_reducible intro _
    | with_reducible apply ResKeeps.flt
    | with_reducible apply ResKeeps.ite
    | with_reducible apply ResKeeps.done
    | with_reducible apply ResKeeps.jump
    | with_reducible apply ResKeeps.hold
    | with_reducible apply OutKeeps.next
    | with_reducible apply OutKeeps.fault
    | with_reducible apply OutKeeps.ite
    | with_reducible apply Keeps.ite
    | with_reducible apply issueT_keeps
    | with_reducible apply regOp_keeps
    | split

theorem execVbcast_keeps (k : Nat) (w : FmtT) (s : State) (h0 : Keeps s0 s) :
    OutKeeps s0 (execVbcast k w s) := by
  unfold execVbcast
  try dsimp only
  repeat' first
    | with_reducible assumption
    | with_reducible intro _
    | with_reducible apply ResKeeps.flt
    | with_reducible apply ResKeeps.ite
    | with_reducible apply ResKeeps.done
    | with_reducible apply ResKeeps.jump
    | with_reducible apply ResKeeps.hold
    | with_reducible apply OutKeeps.next
    | with_reducible apply OutKeeps.fault
    | with_reducible apply OutKeeps.ite
    | with_reducible apply issueT_keeps
    | with_reducible apply regOp_keeps
    | split

theorem execVext_keeps (k : Nat) (w : FmtT) (s : State) (h0 : Keeps s0 s) :
    OutKeeps s0 (execVext k w s) := by
  unfold execVext
  try dsimp only
  repeat' first
    | with_reducible assumption
    | with_reducible intro _
    | with_reducible apply ResKeeps.flt
    | with_reducible apply ResKeeps.ite
    | with_reducible apply ResKeeps.done
    | with_reducible apply ResKeeps.jump
    | with_reducible apply ResKeeps.hold
    | with_reducible apply OutKeeps.next
    | with_reducible apply OutKeeps.fault
    | with_reducible apply OutKeeps.ite
    | with_reducible apply issueT_keeps
    | with_reducible apply regOp_keeps
    | split

theorem execVsel_keeps (k : Nat) (w : FmtT) (s : State) (h0 : Keeps s0 s) :
    OutKeeps s0 (execVsel k w s) := by
  unfold execVsel
  try dsimp only
  repeat' first
    | with_reducible assumption
    | with_reducible intro _
    | with_reducible apply ResKeeps.flt
    | with_reducible apply ResKeeps.ite
    | with_reducible apply ResKeeps.done
    | with_reducible apply ResKeeps.jump
    | with_reducible apply ResKeeps.hold
    | with_reducible apply OutKeeps.next
    | with_reducible apply OutKeeps.fault
    | with_reducible apply OutKeeps.ite
    | with_reducible apply Keeps.ite
    | with_reducible apply issueT_keeps
    | with_reducible apply regOp_keeps
    | split

/-! ## Attn.lean -/

theorem execAmrg_keeps (k : Nat) (w : FmtT) (s : State) (h0 : Keeps s0 s) :
    OutKeeps s0 (execAmrg k w s) := by
  unfold execAmrg
  try dsimp only
  repeat' first
    | with_reducible assumption
    | with_reducible intro _
    | with_reducible apply ResKeeps.flt
    | with_reducible apply ResKeeps.ite
    | with_reducible apply ResKeeps.done
    | with_reducible apply ResKeeps.jump
    | with_reducible apply ResKeeps.hold
    | with_reducible apply OutKeeps.next
    | with_reducible apply OutKeeps.fault
    | with_reducible apply OutKeeps.ite
    | with_reducible apply issueT_keeps
    | with_reducible apply regOp_keeps
    | split

/-! ## Matrix.lean -/

theorem wldEff_keeps (s : State) (k : Nat) (w : FmtT) (c : Core) (h0 : Keeps s0 s) :
    ResKeeps s0 (wldEff s k w c) := by
  unfold wldEff
  try dsimp only
  repeat' first
    | with_reducible assumption
    | with_reducible apply ResKeeps.flt
    | with_reducible apply ResKeeps.ite
    | with_reducible apply ResKeeps.done
    | with_reducible apply ResKeeps.jump
    | with_reducible apply ResKeeps.hold
    | with_reducible apply Keeps.ite
    | with_reducible apply regOp_keeps
    | split
    | with_reducible apply Keeps.mk'

theorem mmaEff_keeps (s : State) (k : Nat) (w : FmtT) (c : Core) (h0 : Keeps s0 s) :
    ResKeeps s0 (mmaEff s k w c) := by
  unfold mmaEff
  try dsimp only
  repeat' first
    | with_reducible assumption
    | with_reducible apply ResKeeps.flt
    | with_reducible apply ResKeeps.ite
    | with_reducible apply ResKeeps.done
    | with_reducible apply ResKeeps.jump
    | with_reducible apply ResKeeps.hold
    | with_reducible apply regOp_keeps
    | split
    | with_reducible apply Keeps.mk'

theorem apreEff_keeps (s : State) (k : Nat) (w : FmtT) (c : Core) (h0 : Keeps s0 s) :
    ResKeeps s0 (apreEff s k w c) := by
  unfold apreEff
  try dsimp only
  repeat' first
    | with_reducible assumption
    | with_reducible intro _
    | with_reducible apply ResKeeps.flt
    | with_reducible apply ResKeeps.ite
    | with_reducible apply ResKeeps.done
    | with_reducible apply ResKeeps.jump
    | with_reducible apply ResKeeps.hold
    | with_reducible apply Keeps.ite
    | with_reducible apply Keeps.foldl
    | with_reducible apply regOp_keeps
    | split
    | with_reducible apply Keeps.mk'

theorem acfgEff_keeps (s : State) (k : Nat) (w : FmtT) (c : Core) (h0 : Keeps s0 s) :
    ResKeeps s0 (acfgEff s k w c) := by
  unfold acfgEff
  try dsimp only
  repeat' first
    | with_reducible assumption
    | with_reducible apply ResKeeps.flt
    | with_reducible apply ResKeeps.ite
    | with_reducible apply ResKeeps.done
    | with_reducible apply ResKeeps.jump
    | with_reducible apply ResKeeps.hold
    | with_reducible apply Keeps.ite
    | with_reducible apply regOp_keeps
    | split
    | with_reducible apply Keeps.mk'

theorem astEff_keeps (s : State) (k : Nat) (w : FmtT) (c : Core) (h0 : Keeps s0 s) :
    ResKeeps s0 (astEff s k w c) := by
  unfold astEff
  try dsimp only
  repeat' first
    | with_reducible assumption
    | with_reducible intro _
    | with_reducible apply ResKeeps.flt
    | with_reducible apply ResKeeps.ite
    | with_reducible apply ResKeeps.done
    | with_reducible apply ResKeeps.jump
    | with_reducible apply ResKeeps.hold
    | with_reducible apply Keeps.ite
    | with_reducible apply Keeps.foldl
    | with_reducible apply regOp_keeps
    | split
    | with_reducible apply Keeps.mk'

theorem ardEff_keeps (s : State) (k : Nat) (w : FmtT) (c : Core) (h0 : Keeps s0 s) :
    ResKeeps s0 (ardEff s k w c) := by
  unfold ardEff
  try dsimp only
  repeat' first
    | with_reducible assumption
    | with_reducible apply ResKeeps.flt
    | with_reducible apply ResKeeps.ite
    | with_reducible apply ResKeeps.done
    | with_reducible apply ResKeeps.jump
    | with_reducible apply ResKeeps.hold
    | with_reducible apply regOp_keeps
    | split

theorem execWld_keeps (k : Nat) (w : FmtT) (s : State) (h0 : Keeps s0 s) :
    OutKeeps s0 (execWld k w s) := by
  unfold execWld
  try dsimp only
  repeat' first
    | with_reducible assumption
    | with_reducible intro _
    | with_reducible apply ResKeeps.flt
    | with_reducible apply ResKeeps.ite
    | with_reducible apply ResKeeps.done
    | with_reducible apply ResKeeps.jump
    | with_reducible apply ResKeeps.hold
    | with_reducible apply OutKeeps.next
    | with_reducible apply OutKeeps.fault
    | with_reducible apply OutKeeps.ite
    | with_reducible apply issueT_keeps
    | with_reducible apply wldEff_keeps
    | split

theorem execMma_keeps (k : Nat) (w : FmtT) (s : State) (h0 : Keeps s0 s) :
    OutKeeps s0 (execMma k w s) := by
  unfold execMma
  try dsimp only
  repeat' first
    | with_reducible assumption
    | with_reducible intro _
    | with_reducible apply ResKeeps.flt
    | with_reducible apply ResKeeps.ite
    | with_reducible apply ResKeeps.done
    | with_reducible apply ResKeeps.jump
    | with_reducible apply ResKeeps.hold
    | with_reducible apply OutKeeps.next
    | with_reducible apply OutKeeps.fault
    | with_reducible apply OutKeeps.ite
    | with_reducible apply issueT_keeps
    | with_reducible apply mmaEff_keeps
    | split

theorem execApre_keeps (k : Nat) (w : FmtT) (s : State) (h0 : Keeps s0 s) :
    OutKeeps s0 (execApre k w s) := by
  unfold execApre
  try dsimp only
  repeat' first
    | with_reducible assumption
    | with_reducible intro _
    | with_reducible apply ResKeeps.flt
    | with_reducible apply ResKeeps.ite
    | with_reducible apply ResKeeps.done
    | with_reducible apply ResKeeps.jump
    | with_reducible apply ResKeeps.hold
    | with_reducible apply OutKeeps.next
    | with_reducible apply OutKeeps.fault
    | with_reducible apply OutKeeps.ite
    | with_reducible apply issueT_keeps
    | with_reducible apply apreEff_keeps
    | split

theorem execAcfg_keeps (k : Nat) (w : FmtT) (s : State) (h0 : Keeps s0 s) :
    OutKeeps s0 (execAcfg k w s) := by
  unfold execAcfg
  try dsimp only
  repeat' first
    | with_reducible assumption
    | with_reducible intro _
    | with_reducible apply ResKeeps.flt
    | with_reducible apply ResKeeps.ite
    | with_reducible apply ResKeeps.done
    | with_reducible apply ResKeeps.jump
    | with_reducible apply ResKeeps.hold
    | with_reducible apply OutKeeps.next
    | with_reducible apply OutKeeps.fault
    | with_reducible apply OutKeeps.ite
    | with_reducible apply issueT_keeps
    | with_reducible apply acfgEff_keeps
    | split

theorem execAst_keeps (k : Nat) (w : FmtT) (s : State) (h0 : Keeps s0 s) :
    OutKeeps s0 (execAst k w s) := by
  unfold execAst
  try dsimp only
  repeat' first
    | with_reducible assumption
    | with_reducible intro _
    | with_reducible apply ResKeeps.flt
    | with_reducible apply ResKeeps.ite
    | with_reducible apply ResKeeps.done
    | with_reducible apply ResKeeps.jump
    | with_reducible apply ResKeeps.hold
    | with_reducible apply OutKeeps.next
    | with_reducible apply OutKeeps.fault
    | with_reducible apply OutKeeps.ite
    | with_reducible apply issueT_keeps
    | with_reducible apply astEff_keeps
    | split

theorem execAclr_keeps (k : Nat) (w : FmtT) (s : State) (h0 : Keeps s0 s) :
    OutKeeps s0 (execAclr k w s) := by
  unfold execAclr
  try dsimp only
  repeat' first
    | with_reducible assumption
    | with_reducible intro _
    | with_reducible apply ResKeeps.flt
    | with_reducible apply ResKeeps.ite
    | with_reducible apply ResKeeps.done
    | with_reducible apply ResKeeps.jump
    | with_reducible apply ResKeeps.hold
    | with_reducible apply OutKeeps.next
    | with_reducible apply OutKeeps.fault
    | with_reducible apply OutKeeps.ite
    | with_reducible apply issueT_keeps
    | with_reducible apply regOp_keeps
    | split

theorem execArd_keeps (k : Nat) (w : FmtT) (s : State) (h0 : Keeps s0 s) :
    OutKeeps s0 (execArd k w s) := by
  unfold execArd
  try dsimp only
  repeat' first
    | with_reducible assumption
    | with_reducible intro _
    | with_reducible apply ResKeeps.flt
    | with_reducible apply ResKeeps.ite
    | with_reducible apply ResKeeps.done
    | with_reducible apply ResKeeps.jump
    | with_reducible apply ResKeeps.hold
    | with_reducible apply OutKeeps.next
    | with_reducible apply OutKeeps.fault
    | with_reducible apply OutKeeps.ite
    | with_reducible apply issueT_keeps
    | with_reducible apply ardEff_keeps
    | split

/-! ## Hbm.lean -/

theorem readSoft_keeps (s : State) (a : Nat) (n : Nat) (h0 : Keeps s0 s) :
    Keeps s0 (readSoft s a n) := by
  unfold readSoft
  try dsimp only
  repeat' first
    | with_reducible assumption
    | with_reducible intro _
    | with_reducible apply Keeps.foldl
    | with_reducible apply countWord_keeps
    | split

theorem pocReadEvents_keeps (s : State) (a : Nat) (n : Nat) (kind : Nat) (rc : Nat) (h0 : Keeps s0 s) :
    Keeps s0 (pocReadEvents s a n kind rc).1 := by
  unfold pocReadEvents
  try dsimp only
  repeat' first
    | with_reducible assumption
    | with_reducible intro _
    | with_reducible apply Keeps.foldl
    | with_reducible apply Keeps.foldl1
    | with_reducible apply readSoft_keeps
    | with_reducible apply ueEvent_keeps
    | split

theorem issueRefresh_keeps (s : State) (pc : Nat) (h0 : Keeps s0 s) :
    Keeps s0 (issueRefresh s pc) := by
  unfold issueRefresh
  try dsimp only
  repeat' first
    | with_reducible assumption
    | split
    | with_reducible apply Keeps.mk'

theorem openWindow_keeps (s : State) (ch : Nat) (h0 : Keeps s0 s) :
    Keeps s0 (openWindow s ch) := by
  unfold openWindow
  try dsimp only
  repeat' first
    | with_reducible assumption
    | with_reducible apply Keeps.ite
    | with_reducible apply countUp_keeps
    | split
    | with_reducible apply Keeps.mk'

theorem openDue_keeps (s : State) (h0 : Keeps s0 s) :
    Keeps s0 (openDue s) := by
  unfold openDue
  try dsimp only
  repeat' first
    | with_reducible assumption
    | with_reducible intro _
    | with_reducible apply Keeps.foldl
    | with_reducible apply Keeps.foldl1
    | with_reducible apply openWindow_keeps
    | split
    | with_reducible dsimp only
    | with_reducible apply Keeps.mk'

theorem showRepairs_keeps (s : State) (h0 : Keeps s0 s) :
    Keeps s0 (showRepairs s) := by
  unfold showRepairs
  try dsimp only
  repeat' first
    | with_reducible assumption
    | with_reducible apply setFld_keeps
    | split

theorem holdWatchdog_keeps (s : State) (h0 : Keeps s0 s) :
    Keeps s0 (holdWatchdog s) := by
  unfold holdWatchdog
  try dsimp only
  repeat' first
    | with_reducible assumption
    | with_reducible apply Keeps.ite
    | split
    | with_reducible apply Keeps.mk'

theorem startRepairs_keeps (s : State) (h0 : Keeps s0 s) :
    Keeps s0 (startRepairs s) := by
  unfold startRepairs
  try dsimp only
  repeat' first
    | with_reducible assumption
    | with_reducible apply Keeps.ite
    | with_reducible apply holdWatchdog_keeps
    | with_reducible apply showRepairs_keeps
    | split
    | with_reducible dsimp only
    | with_reducible apply Keeps.mk'

theorem beginRepair_keeps (s : State) (i : Nat) (b : Nat) (h0 : Keeps s0 s) :
    Keeps s0 (beginRepair s i b) := by
  unfold beginRepair
  try dsimp only
  repeat' first
    | with_reducible assumption
    | with_reducible apply Keeps.ite
    | with_reducible apply startRepairs_keeps
    | split
    | with_reducible apply Keeps.mk'

theorem blockSoft_keeps (s : State) (p : Nat × Nat) (h0 : Keeps s0 s) :
    Keeps s0 (blockSoft s p) := by
  unfold blockSoft
  try dsimp only
  repeat' first
    | with_reducible assumption
    | with_reducible apply countSoft_keeps
    | split
    | with_reducible dsimp only

theorem checkBlock_keeps (s : State) (p : Nat × Nat) (h0 : Keeps s0 s) :
    Keeps s0 (checkBlock s p).1 := by
  unfold checkBlock
  try dsimp only
  repeat' first
    | with_reducible assumption
    | with_reducible apply Keeps.ite1
    | with_reducible apply Keeps.ite
    | with_reducible apply beginRepair_keeps
    | with_reducible apply blockSoft_keeps
    | split
    | with_reducible dsimp only

theorem checkBlocks_keeps (s : State) (l : List (Nat × Nat)) (h0 : Keeps s0 s) :
    Keeps s0 (checkBlocks s l).1 := by
  induction l generalizing s with
  | nil => unfold checkBlocks; exact h0
  | cons p ps ih =>
  unfold checkBlocks
  try dsimp only
  repeat' first
    | with_reducible assumption
    | with_reducible apply ih
    | with_reducible apply checkBlock_keeps
    | split
    | with_reducible dsimp only

theorem readReady_keeps (s : State) (a : Nat) (n : Nat) (h0 : Keeps s0 s) :
    Keeps s0 (readReady s a n).1 := by
  unfold readReady
  try dsimp only
  repeat' first
    | with_reducible assumption
    | with_reducible apply checkBlocks_keeps
    | split

theorem areaReady_keeps (s : State) (a : Nat) (n : Nat) (h0 : Keeps s0 s) :
    Keeps s0 (areaReady s a n).1 := by
  unfold areaReady
  try dsimp only
  repeat' first
    | with_reducible assumption
    | with_reducible apply Keeps.ite1
    | with_reducible apply Keeps.ite
    | with_reducible apply readReady_keeps
    | split

theorem cachePut_keeps (s : State) (n : Nat) (g : Nat) (l : CacheLine) (h0 : Keeps s0 s) :
    Keeps s0 (cachePut s n g l) := by
  unfold cachePut
  try dsimp only
  repeat' first
    | with_reducible assumption
    | with_reducible apply setCluster_keeps
    | split
    | with_reducible apply Keeps.mk'

theorem cacheDrop_keeps (s : State) (n : Nat) (g : Nat) (h0 : Keeps s0 s) :
    Keeps s0 (cacheDrop s n g) := by
  unfold cacheDrop
  try dsimp only
  repeat' first
    | with_reducible assumption
    | with_reducible apply setCluster_keeps
    | split
    | with_reducible apply Keeps.mk'

theorem writeBack_keeps (s : State) (n : Nat) (g : Nat) (h0 : Keeps s0 s) :
    Keeps s0 (writeBack s n g) := by
  unfold writeBack
  try dsimp only
  repeat' first
    | with_reducible assumption
    | with_reducible apply Keeps.ite
    | with_reducible apply physWrite_keeps
    | with_reducible apply cachePut_keeps
    | split
    | with_reducible apply Keeps.mk'

theorem cacheRoom_keeps (s : State) (n : Nat) (g : Nat) (h0 : Keeps s0 s) :
    Keeps s0 (cacheRoom s n g) := by
  unfold cacheRoom
  try dsimp only
  repeat' first
    | with_reducible assumption
    | with_reducible apply Keeps.ite
    | with_reducible apply cacheDrop_keeps
    | with_reducible apply writeBack_keeps
    | with_reducible apply tookFree_keeps
    | split
    | with_reducible dsimp only

theorem cacheInstall_keeps (s : State) (n : Nat) (g : Nat) (dirty : Bool) (data : List Byte) (h0 : Keeps s0 s) :
    Keeps s0 (cacheInstall s n g dirty data) := by
  unfold cacheInstall
  try dsimp only
  repeat' first
    | with_reducible assumption
    | with_reducible apply cachePut_keeps
    | with_reducible apply cacheRoom_keeps
    | split

theorem installBlocks_keeps (s : State) (n : Nat) (ps : List (Nat × Nat)) (h0 : Keeps s0 s) :
    Keeps s0 (installBlocks s n ps) := by
  unfold installBlocks
  try dsimp only
  repeat' first
    | with_reducible assumption
    | with_reducible intro _
    | with_reducible apply Keeps.ite
    | with_reducible apply Keeps.foldl
    | with_reducible apply Keeps.foldl1
    | with_reducible apply cacheInstall_keeps
    | split
    | with_reducible dsimp only

theorem stepUe_keeps (s : State) (addr : Nat) (h0 : Keeps s0 s) :
    Keeps s0 (stepUe s addr) := by
  unfold stepUe
  try dsimp only
  repeat' first
    | with_reducible assumption
    | with_reducible apply Keeps.ite
    | split
    | with_reducible apply Keeps.mk'

theorem coreLoadUe_keeps (s : State) (k : Nat) (addr : Nat) (h0 : Keeps s0 s) :
    Keeps s0 (coreLoadUe s k addr) := by
  unfold coreLoadUe
  try dsimp only
  repeat' first
    | with_reducible assumption
    | with_reducible apply setReq_keeps
    | with_reducible apply modCore_keeps
    | with_reducible apply stepUe_keeps
    | split
    | with_reducible apply Keeps.mk'

theorem pocLine_keeps (s : State) (k : Nat) (a : Nat) (h0 : Keeps s0 s) :
    Keeps s0 (pocLine s k a).1 := by
  unfold pocLine
  try dsimp only
  repeat' first
    | with_reducible assumption
    | with_reducible apply Keeps.ite1
    | with_reducible apply Keeps.ite
    | with_reducible apply pocReadEvents_keeps
    | with_reducible apply coreLoadUe_keeps
    | with_reducible apply checkBlocks_keeps
    | with_reducible refine Keeps.ofPair ?_ (by assumption)
    | split
    | with_reducible dsimp only

theorem ldcLine_keeps (s : State) (k : Nat) (a : Nat) (h0 : Keeps s0 s) :
    Keeps s0 (ldcLine s k a).1 := by
  unfold ldcLine
  try dsimp only
  repeat' first
    | with_reducible assumption
    | with_reducible apply Keeps.ite1
    | with_reducible apply Keeps.ite
    | with_reducible apply pocLine_keeps
    | with_reducible apply cacheInstall_keeps
    | with_reducible apply installBlocks_keeps
    | with_reducible refine Keeps.ofPair ?_ (by assumption)
    | split
    | with_reducible dsimp only

theorem ldvLine_keeps (s : State) (k : Nat) (a : Nat) (h0 : Keeps s0 s) :
    Keeps s0 (ldvLine s k a).1 := by
  unfold ldvLine
  try dsimp only
  repeat' first
    | with_reducible assumption
    | with_reducible apply writeBack_keeps
    | with_reducible apply pocLine_keeps
    | split

theorem stcLine_keeps (s : State) (k : Nat) (a : Nat) (bs : List Byte) (h0 : Keeps s0 s) :
    Keeps s0 (stcLine s k a bs) := by
  unfold stcLine
  try dsimp only
  repeat' first
    | with_reducible assumption
    | with_reducible apply cacheInstall_keeps
    | split

theorem stvLine_keeps (s : State) (k : Nat) (a : Nat) (bs : List Byte) (h0 : Keeps s0 s) :
    Keeps s0 (stvLine s k a bs) := by
  unfold stvLine
  try dsimp only
  repeat' first
    | with_reducible assumption
    | with_reducible apply Keeps.ite
    | with_reducible apply physWrite_keeps
    | with_reducible apply writeBack_keeps
    | with_reducible apply cachePut_keeps
    | split

/-! ## Cells.lean -/

theorem endWait_keeps (s : State) (k : Nat) (pd : Nat) (v : Bool) (h0 : Keeps s0 s) :
    Keeps s0 (endWait s k pd v) := by
  unfold endWait
  try dsimp only
  repeat' first
    | with_reducible assumption
    | with_reducible apply advance_keeps
    | with_reducible apply modCore_keeps
    | split
    | with_reducible apply Keeps.mk'

theorem endIf_keeps (s : State) (n : Nat) (k : Nat) (f : Nat → Word → Bool → Option Bool) (h0 : Keeps s0 s) :
    Keeps s0 (endIf s n k f) := by
  unfold endIf
  try dsimp only
  repeat' first
    | with_reducible assumption
    | with_reducible apply Keeps.ite
    | with_reducible apply endWait_keeps
    | split

theorem overCores_keeps (s : State) (f : State → Nat → State) (h : ∀ t k, Keeps s0 t → Keeps s0 (f t k)) (h0 : Keeps s0 s) :
    Keeps s0 (overCores s f) := by
  unfold overCores
  exact Keeps.foldl h h0

theorem wakeCell_keeps (s : State) (n : Nat) (h0 : Keeps s0 s) :
    Keeps s0 (wakeCell s n) := by
  unfold wakeCell
  try dsimp only
  repeat' first
    | with_reducible assumption
    | with_reducible intro _
    | with_reducible apply Keeps.ite
    | with_reducible apply overCores_keeps
    | with_reducible apply endIf_keeps
    | split

theorem putCell_keeps (s : State) (n : Nat) (c : SyncCell) (h0 : Keeps s0 s) :
    Keeps s0 (putCell s n c) := by
  unfold putCell
  try dsimp only
  repeat' first
    | with_reducible assumption
    | with_reducible apply wakeCell_keeps
    | with_reducible apply setCell_keeps
    | split

theorem configureCell_keeps (s : State) (n : Nat) (cfg : Word32) (value : Word) (deadline : Word) (h0 : Keeps s0 s) :
    Keeps s0 (configureCell s n cfg value deadline) := by
  unfold configureCell
  try dsimp only
  repeat' first
    | with_reducible assumption
    | with_reducible intro _
    | with_reducible apply setCell_keeps
    | with_reducible apply overCores_keeps
    | with_reducible apply endIf_keeps
    | split

theorem cellDeadline_keeps (s : State) (n : Nat) (h0 : Keeps s0 s) :
    Keeps s0 (cellDeadline s n) := by
  unfold cellDeadline
  try dsimp only
  repeat' first
    | with_reducible assumption
    | with_reducible intro _
    | with_reducible apply Keeps.ite
    | with_reducible apply setCell_keeps
    | with_reducible apply overCores_keeps
    | with_reducible apply endIf_keeps
    | split
    | with_reducible apply Keeps.mk'

theorem addCode_keeps (s : State) (rc : Nat) (code : Nat) (h0 : Keeps s0 s) :
    Keeps s0 (addCode s rc code) := by
  unfold addCode
  try dsimp only
  repeat' first
    | with_reducible assumption
    | with_reducible apply setReq_keeps
    | split
    | with_reducible apply Keeps.mk'

theorem signalCell_keeps (s : State) (m : Nat) (e : DotEntry) (h0 : Keeps s0 s) :
    Keeps s0 (signalCell s m e) := by
  unfold signalCell
  try dsimp only
  repeat' first
    | with_reducible assumption
    | with_reducible apply Keeps.ite
    | with_reducible apply errorRecord_keeps
    | with_reducible apply putCell_keeps
    | split

theorem endNbrd_keeps (s : State) (k : Nat) (m : Nat) (d : Nat) (lines : Nat) (off : Nat) (h0 : Keeps s0 s) :
    Keeps s0 (endNbrd s k m d lines off) := by
  unfold endNbrd
  try dsimp only
  repeat' first
    | with_reducible assumption
    | with_reducible apply Keeps.ite
    | with_reducible apply modCore_keeps
    | with_reducible apply OptKeeps.getD
    | split
    | with_reducible apply Keeps.mk'

theorem releaseNb_keeps (s : State) (m k : Nat) (h0 : Keeps s0 s) :
    Keeps s0 (releaseNb s m k) := by
  unfold releaseNb
  split
  · exact Keeps.ite (endNbrd_keeps _ _ _ _ _ _ h0) h0
  · exact Keeps.ite (modCore_keeps _ _ _ h0) h0
  · exact h0

theorem leaveActive_keeps (s : State) (m : Nat) (st : DotState) (result : Nat) (h0 : Keeps s0 s) :
    Keeps s0 (leaveActive s m st result) := by
  unfold leaveActive
  try dsimp only
  repeat' first
    | with_reducible assumption
    | with_reducible intro _
    | with_reducible apply Keeps.ite
    | with_reducible apply signalCell_keeps
    | with_reducible apply setDot_keeps
    | with_reducible apply addCode_keeps
    | with_reducible apply overCores_keeps
    | with_reducible apply releaseNb_keeps
    | with_reducible apply OptKeeps.getD
    | split
    | with_reducible apply Keeps.mk'

theorem startNear_keeps (s : State) (h0 : Keeps s0 s) :
    Keeps s0 (startNear s) := by
  unfold startNear
  refine Keeps.ite h0 (h0.trans ⟨rfl, fun c => ⟨c.1, c.2.1, c.2.2.1, c.2.2.2.1, c.2.2.2.2.1, c.2.2.2.2.2.1, ?_, c.2.2.2.2.2.2.2⟩⟩)
  refine smWf_map _ (fun p => ?_) (fun p hp => ?_) c.2.2.2.2.2.2.1
  · split <;> rfl
  · split
    · rename_i h; intro e; have := congrArg DotEntry.state e; exact nomatch h.1.symm.trans this
    · exact hp

theorem armTierTimer_keeps (s : State) (h0 : Keeps s0 s) :
    Keeps s0 (armTierTimer s) := by
  unfold armTierTimer
  try dsimp only
  repeat' first
    | with_reducible assumption
    | with_reducible intro _
    | with_reducible apply Keeps.ite
    | with_reducible apply Keeps.foldl
    | split
    | with_reducible apply Keeps.mk'

/-! ## Sync.lean -/

theorem withCell_keeps (s : State) (c : Core) (w : FmtT) (held conf : Bool) (f : Nat → SyncCell → Res)
    (h : ∀ n c, ResKeeps s0 (f n c)) : ResKeeps s0 (withCell s c w held conf f) := by
  unfold withCell
  try dsimp only
  repeat' first
    | with_reducible assumption
    | with_reducible apply ResKeeps.flt
    | with_reducible apply ResKeeps.ite
    | with_reducible apply ResKeeps.done
    | with_reducible apply ResKeeps.jump
    | with_reducible apply ResKeeps.hold
    | with_reducible apply Keeps.ite
    | with_reducible apply h
    | split

theorem sccfgEff_keeps (s : State) (w : FmtT) (c : Core) (h0 : Keeps s0 s) :
    ResKeeps s0 (sccfgEff s w c) := by
  unfold sccfgEff
  try dsimp only
  repeat' first
    | with_reducible assumption
    | with_reducible intro _
    | with_reducible apply ResKeeps.flt
    | with_reducible apply ResKeeps.ite
    | with_reducible apply ResKeeps.done
    | with_reducible apply ResKeeps.jump
    | with_reducible apply ResKeeps.hold
    | with_reducible apply Keeps.ite
    | with_reducible apply withCell_keeps
    | with_reducible apply configureCell_keeps
    | split

theorem scrdEff_keeps (s : State) (k : Nat) (w : FmtT) (c : Core) (h0 : Keeps s0 s) :
    ResKeeps s0 (scrdEff s k w c) := by
  unfold scrdEff
  try dsimp only
  repeat' first
    | with_reducible assumption
    | with_reducible intro _
    | with_reducible apply ResKeeps.flt
    | with_reducible apply ResKeeps.ite
    | with_reducible apply ResKeeps.done
    | with_reducible apply ResKeeps.jump
    | with_reducible apply ResKeeps.hold
    | with_reducible apply withCell_keeps
    | with_reducible apply regOp_keeps
    | split

theorem scsetEff_keeps (s : State) (w : FmtT) (c : Core) (h0 : Keeps s0 s) :
    ResKeeps s0 (scsetEff s w c) := by
  unfold scsetEff
  try dsimp only
  repeat' first
    | with_reducible assumption
    | with_reducible intro _
    | with_reducible apply ResKeeps.flt
    | with_reducible apply ResKeeps.ite
    | with_reducible apply ResKeeps.done
    | with_reducible apply ResKeeps.jump
    | with_reducible apply ResKeeps.hold
    | with_reducible apply withCell_keeps
    | with_reducible apply putCell_keeps
    | split
    | with_reducible apply Keeps.mk'

theorem scaddEff_keeps (s : State) (k : Nat) (w : FmtT) (c : Core) (h0 : Keeps s0 s) :
    ResKeeps s0 (scaddEff s k w c) := by
  unfold scaddEff
  try dsimp only
  repeat' first
    | with_reducible assumption
    | with_reducible intro _
    | with_reducible apply ResKeeps.flt
    | with_reducible apply ResKeeps.ite
    | with_reducible apply ResKeeps.done
    | with_reducible apply ResKeeps.jump
    | with_reducible apply ResKeeps.hold
    | with_reducible apply withCell_keeps
    | with_reducible apply putCell_keeps
    | with_reducible apply modCore_keeps
    | split

theorem scdlEff_keeps (s : State) (w : FmtT) (c : Core) (h0 : Keeps s0 s) :
    ResKeeps s0 (scdlEff s w c) := by
  unfold scdlEff
  try dsimp only
  repeat' first
    | with_reducible assumption
    | with_reducible intro _
    | with_reducible apply ResKeeps.flt
    | with_reducible apply ResKeeps.ite
    | with_reducible apply ResKeeps.done
    | with_reducible apply ResKeeps.jump
    | with_reducible apply ResKeeps.hold
    | with_reducible apply Keeps.ite
    | with_reducible apply withCell_keeps
    | with_reducible apply setCell_keeps
    | split
    | with_reducible apply Keeps.mk'

theorem waitEff_keeps (s : State) (k : Nat) (w : FmtT) (c : Core) (h0 : Keeps s0 s) :
    ResKeeps s0 (waitEff s k w c) := by
  unfold waitEff
  try dsimp only
  repeat' first
    | with_reducible assumption
    | with_reducible intro _
    | with_reducible apply ResKeeps.flt
    | with_reducible apply ResKeeps.ite
    | with_reducible apply ResKeeps.done
    | with_reducible apply ResKeeps.jump
    | with_reducible apply ResKeeps.hold
    | with_reducible apply Keeps.ite
    | with_reducible apply withCell_keeps
    | with_reducible apply regOp_keeps
    | with_reducible apply modCore_keeps
    | split
    | with_reducible apply Keeps.mk'

theorem withEntry_keeps (s : State) (c : Core) (w : FmtT) (f : Nat → Res) (h : ∀ n, ResKeeps s0 (f n)) :
    ResKeeps s0 (withEntry c w f) := by
  unfold withEntry
  try dsimp only
  repeat' first
    | with_reducible assumption
    | with_reducible apply ResKeeps.flt
    | with_reducible apply ResKeeps.ite
    | with_reducible apply ResKeeps.done
    | with_reducible apply ResKeeps.jump
    | with_reducible apply ResKeeps.hold
    | with_reducible apply Keeps.ite
    | with_reducible apply h
    | split

theorem dotrelEff_keeps (s : State) (k : Nat) (w : FmtT) (c : Core) (h0 : Keeps s0 s) :
    ResKeeps s0 (dotrelEff s k w c) := by
  unfold dotrelEff
  try dsimp only
  repeat' first
    | with_reducible assumption
    | with_reducible intro _
    | with_reducible apply ResKeeps.flt
    | with_reducible apply ResKeeps.ite
    | with_reducible apply ResKeeps.done
    | with_reducible apply ResKeeps.jump
    | with_reducible apply ResKeeps.hold
    | with_reducible apply withEntry_keeps
    | with_reducible apply regOp_keeps
    | with_reducible apply setDot_keeps
    | with_reducible apply OptKeeps.getD
    | split

theorem tbrdEff_keeps (s : State) (k : Nat) (w : FmtT) (c : Core) (h0 : Keeps s0 s) :
    ResKeeps s0 (tbrdEff s k w c) := by
  unfold tbrdEff
  try dsimp only
  repeat' first
    | with_reducible assumption
    | with_reducible apply ResKeeps.flt
    | with_reducible apply ResKeeps.ite
    | with_reducible apply ResKeeps.done
    | with_reducible apply ResKeeps.jump
    | with_reducible apply ResKeeps.hold
    | with_reducible apply Keeps.ite
    | with_reducible apply regOp_keeps
    | split

theorem execSccfg_keeps (k : Nat) (w : FmtT) (s : State) (h0 : Keeps s0 s) :
    OutKeeps s0 (execSccfg k w s) := by
  unfold execSccfg
  try dsimp only
  repeat' first
    | with_reducible assumption
    | with_reducible intro _
    | with_reducible apply ResKeeps.flt
    | with_reducible apply ResKeeps.ite
    | with_reducible apply ResKeeps.done
    | with_reducible apply ResKeeps.jump
    | with_reducible apply ResKeeps.hold
    | with_reducible apply OutKeeps.next
    | with_reducible apply OutKeeps.fault
    | with_reducible apply OutKeeps.ite
    | with_reducible apply issueT_keeps
    | with_reducible apply sccfgEff_keeps
    | split

theorem execScrd_keeps (k : Nat) (w : FmtT) (s : State) (h0 : Keeps s0 s) :
    OutKeeps s0 (execScrd k w s) := by
  unfold execScrd
  try dsimp only
  repeat' first
    | with_reducible assumption
    | with_reducible intro _
    | with_reducible apply ResKeeps.flt
    | with_reducible apply ResKeeps.ite
    | with_reducible apply ResKeeps.done
    | with_reducible apply ResKeeps.jump
    | with_reducible apply ResKeeps.hold
    | with_reducible apply OutKeeps.next
    | with_reducible apply OutKeeps.fault
    | with_reducible apply OutKeeps.ite
    | with_reducible apply issueT_keeps
    | with_reducible apply scrdEff_keeps
    | split

theorem execScset_keeps (k : Nat) (w : FmtT) (s : State) (h0 : Keeps s0 s) :
    OutKeeps s0 (execScset k w s) := by
  unfold execScset
  try dsimp only
  repeat' first
    | with_reducible assumption
    | with_reducible intro _
    | with_reducible apply ResKeeps.flt
    | with_reducible apply ResKeeps.ite
    | with_reducible apply ResKeeps.done
    | with_reducible apply ResKeeps.jump
    | with_reducible apply ResKeeps.hold
    | with_reducible apply OutKeeps.next
    | with_reducible apply OutKeeps.fault
    | with_reducible apply OutKeeps.ite
    | with_reducible apply issueT_keeps
    | with_reducible apply scsetEff_keeps
    | split

theorem execScadd_keeps (k : Nat) (w : FmtT) (s : State) (h0 : Keeps s0 s) :
    OutKeeps s0 (execScadd k w s) := by
  unfold execScadd
  try dsimp only
  repeat' first
    | with_reducible assumption
    | with_reducible intro _
    | with_reducible apply ResKeeps.flt
    | with_reducible apply ResKeeps.ite
    | with_reducible apply ResKeeps.done
    | with_reducible apply ResKeeps.jump
    | with_reducible apply ResKeeps.hold
    | with_reducible apply OutKeeps.next
    | with_reducible apply OutKeeps.fault
    | with_reducible apply OutKeeps.ite
    | with_reducible apply issueT_keeps
    | with_reducible apply scaddEff_keeps
    | split

theorem execScdl_keeps (k : Nat) (w : FmtT) (s : State) (h0 : Keeps s0 s) :
    OutKeeps s0 (execScdl k w s) := by
  unfold execScdl
  try dsimp only
  repeat' first
    | with_reducible assumption
    | with_reducible intro _
    | with_reducible apply ResKeeps.flt
    | with_reducible apply ResKeeps.ite
    | with_reducible apply ResKeeps.done
    | with_reducible apply ResKeeps.jump
    | with_reducible apply ResKeeps.hold
    | with_reducible apply OutKeeps.next
    | with_reducible apply OutKeeps.fault
    | with_reducible apply OutKeeps.ite
    | with_reducible apply issueT_keeps
    | with_reducible apply scdlEff_keeps
    | split

theorem execWait_keeps (k : Nat) (w : FmtT) (s : State) (h0 : Keeps s0 s) :
    OutKeeps s0 (execWait k w s) := by
  unfold execWait
  try dsimp only
  repeat' first
    | with_reducible assumption
    | with_reducible intro _
    | with_reducible apply ResKeeps.flt
    | with_reducible apply ResKeeps.ite
    | with_reducible apply ResKeeps.done
    | with_reducible apply ResKeeps.jump
    | with_reducible apply ResKeeps.hold
    | with_reducible apply OutKeeps.next
    | with_reducible apply OutKeeps.fault
    | with_reducible apply OutKeeps.ite
    | with_reducible apply issueT_keeps
    | with_reducible apply waitEff_keeps
    | split

theorem execDotrd_keeps (k : Nat) (w : FmtT) (s : State) (h0 : Keeps s0 s) :
    OutKeeps s0 (execDotrd k w s) := by
  unfold execDotrd
  try dsimp only
  repeat' first
    | with_reducible assumption
    | with_reducible intro _
    | with_reducible apply ResKeeps.flt
    | with_reducible apply ResKeeps.ite
    | with_reducible apply ResKeeps.done
    | with_reducible apply ResKeeps.jump
    | with_reducible apply ResKeeps.hold
    | with_reducible apply OutKeeps.next
    | with_reducible apply OutKeeps.fault
    | with_reducible apply OutKeeps.ite
    | with_reducible apply issueT_keeps
    | with_reducible apply withEntry_keeps
    | with_reducible apply regOp_keeps
    | with_reducible apply OptKeeps.getD
    | split

theorem execDotrel_keeps (k : Nat) (w : FmtT) (s : State) (h0 : Keeps s0 s) :
    OutKeeps s0 (execDotrel k w s) := by
  unfold execDotrel
  try dsimp only
  repeat' first
    | with_reducible assumption
    | with_reducible intro _
    | with_reducible apply ResKeeps.flt
    | with_reducible apply ResKeeps.ite
    | with_reducible apply ResKeeps.done
    | with_reducible apply ResKeeps.jump
    | with_reducible apply ResKeeps.hold
    | with_reducible apply OutKeeps.next
    | with_reducible apply OutKeeps.fault
    | with_reducible apply OutKeeps.ite
    | with_reducible apply issueT_keeps
    | with_reducible apply dotrelEff_keeps
    | split

theorem execSysrd_keeps (k : Nat) (w : FmtT) (s : State) (h0 : Keeps s0 s) :
    OutKeeps s0 (execSysrd k w s) := by
  unfold execSysrd
  try dsimp only
  repeat' first
    | with_reducible assumption
    | with_reducible intro _
    | with_reducible apply ResKeeps.flt
    | with_reducible apply ResKeeps.ite
    | with_reducible apply ResKeeps.done
    | with_reducible apply ResKeeps.jump
    | with_reducible apply ResKeeps.hold
    | with_reducible apply OutKeeps.next
    | with_reducible apply OutKeeps.fault
    | with_reducible apply OutKeeps.ite
    | with_reducible apply issueT_keeps
    | with_reducible apply regOp_keeps
    | split

theorem execTbrd_keeps (k : Nat) (w : FmtT) (s : State) (h0 : Keeps s0 s) :
    OutKeeps s0 (execTbrd k w s) := by
  unfold execTbrd
  try dsimp only
  repeat' first
    | with_reducible assumption
    | with_reducible intro _
    | with_reducible apply ResKeeps.flt
    | with_reducible apply ResKeeps.ite
    | with_reducible apply ResKeeps.done
    | with_reducible apply ResKeeps.jump
    | with_reducible apply ResKeeps.hold
    | with_reducible apply OutKeeps.next
    | with_reducible apply OutKeeps.fault
    | with_reducible apply OutKeeps.ite
    | with_reducible apply issueT_keeps
    | with_reducible apply tbrdEff_keeps
    | split

theorem execSyncCellDeadline_keeps (t : Nat) (n : Nat) (s : State) (h0 : Keeps s0 s) :
    OutKeeps s0 (execSyncCellDeadline t n s) := by
  unfold execSyncCellDeadline
  try dsimp only
  repeat' first
    | with_reducible assumption
    | with_reducible intro _
    | with_reducible apply ResKeeps.flt
    | with_reducible apply ResKeeps.ite
    | with_reducible apply ResKeeps.done
    | with_reducible apply ResKeeps.jump
    | with_reducible apply ResKeeps.hold
    | with_reducible apply OutKeeps.next
    | with_reducible apply OutKeeps.fault
    | with_reducible apply OutKeeps.ite
    | with_reducible apply Keeps.ite
    | with_reducible apply presentUnit_keeps
    | with_reducible apply cellDeadline_keeps
    | split

end Sys2Proof.Machine
end

