-- ==== Sys2Proof/Laws/KeepsMemory.lean ====
section
/-! SUPPORT. Each operation keeps the command queue and the canonical form of memories and tables (`Keeps`): zones, links, frames, long operations, key-value and near-bank instructions, collectives and tokens. -/
namespace Sys2Proof.Machine
open Sys2Proof
variable {s0 : State}

/-! ## Zones.lean -/

theorem tookBlock_keeps (s : State) (z : Nat) (h0 : Keeps s0 s) :
    Keeps s0 (tookBlock s z) := by
  unfold tookBlock
  try dsimp only
  repeat' first
    | with_reducible assumption
    | with_reducible apply Keeps.ite
    | with_reducible apply tookFree_keeps
    | split

theorem zoneRead_keeps (s : State) (z : Nat) (j : Nat) (h0 : Keeps s0 s) :
    Keeps s0 (zoneRead s z j).1 := by
  unfold zoneRead
  try dsimp only
  repeat' first
    | with_reducible assumption
    | with_reducible apply tookBlock_keeps
    | split

theorem markSectors_keeps (s : State) (z : Nat) (first : Nat) (n : Nat) (used : Bool) (h0 : Keeps s0 s) :
    Keeps s0 (markSectors s z first n used) := by
  unfold markSectors
  try dsimp only
  repeat' first
    | with_reducible assumption
    | with_reducible intro _
    | with_reducible apply Keeps.foldl
    | with_reducible apply physPut_keeps
    | split

theorem zoneWrite_keeps (s : State) (z : Nat) (j : Nat) (block : List Byte) (h0 : Keeps s0 s) :
    Keeps s0 (zoneWrite s z j block).1 := by
  unfold zoneWrite
  try dsimp only
  repeat' first
    | with_reducible assumption
    | with_reducible apply Keeps.ite1
    | with_reducible apply Keeps.ite
    | with_reducible apply finish_keeps
    | with_reducible apply physWrite_keeps
    | with_reducible apply setFld_keeps
    | with_reducible apply markSectors_keeps
    | split
    | with_reducible dsimp only

/-! ## Links.lean -/

theorem sendIdle_keeps (s : State) (p : Nat) (h0 : Keeps s0 s) :
    Keeps s0 (sendIdle s p) := by
  unfold sendIdle
  try dsimp only
  repeat' first
    | with_reducible assumption
    | with_reducible apply Keeps.ite
    | with_reducible apply setPort_keeps
    | split
    | with_reducible apply Keeps.mk'

theorem flushPort_keeps (s : State) (p : Nat) (h0 : Keeps s0 s) :
    Keeps s0 (flushPort s p) := by
  unfold flushPort
  try dsimp only
  repeat' first
    | with_reducible assumption
    | with_reducible apply Keeps.ite
    | with_reducible apply setPort_keeps
    | split
    | with_reducible dsimp only
    | with_reducible apply Keeps.mk'

theorem queueSlots_keeps (s : State) (p : Nat) (xs : List Slot) (h0 : Keeps s0 s) :
    Keeps s0 (queueSlots s p xs) := by
  unfold queueSlots
  try dsimp only
  repeat' first
    | with_reducible assumption
    | with_reducible apply flushPort_keeps
    | with_reducible apply setPort_keeps
    | split
    | with_reducible apply Keeps.mk'

theorem takeRoute_keeps (s : State) (d : Nat) (h0 : Keeps s0 s) :
    OptKeeps2 s0 (takeRoute s d) := by
  unfold takeRoute
  try dsimp only
  repeat' first
    | with_reducible assumption
    | with_reducible apply OptKeeps2.none
    | with_reducible apply OptKeeps2.some
    | with_reducible apply OptKeeps2.ite
    | split
    | with_reducible apply Keeps.mk'

theorem sendSide_keeps (s : State) (d : Nat) (xs : List Slot) (h0 : Keeps s0 s) :
    OptKeeps s0 (sendSide s d xs) := by
  unfold sendSide
  try dsimp only
  repeat' first
    | with_reducible assumption
    | with_reducible apply OptKeeps.none
    | with_reducible apply OptKeeps.some
    | with_reducible apply OptKeeps.ite
    | with_reducible apply queueSlots_keeps
    | with_reducible apply OptKeeps.map
    | with_reducible intro _
    | split

theorem sendItem_keeps (s : State) (d : Nat) (xs : List Slot) (h0 : Keeps s0 s) :
    OptKeeps s0 (sendItem s d xs) := by
  unfold sendItem
  try dsimp only
  repeat' first
    | with_reducible assumption
    | with_reducible intro _
    | with_reducible apply OptKeeps2.none
    | with_reducible apply OptKeeps2.ite
    | with_reducible apply OptKeeps2.some
    | with_reducible apply OptKeeps.none
    | with_reducible apply OptKeeps.some
    | with_reducible apply OptKeeps.ite
    | with_reducible apply takeRoute_keeps
    | with_reducible apply OptKeeps2.map
    | with_reducible apply OptKeeps2.map2
    | with_reducible apply queueSlots_keeps
    | with_reducible refine OptKeeps2.get ?_ (by assumption)
    | with_reducible apply OptKeeps.map
    | with_reducible intro _
    | split
    | with_reducible dsimp only

theorem linkLost_keeps (s : State) (n : Nat) (h0 : Keeps s0 s) :
    Keeps s0 (linkLost s n) := by
  unfold linkLost
  try dsimp only
  repeat' first
    | with_reducible assumption
    | with_reducible apply countUp_keeps
    | split

theorem tookTags_keeps (s : State) (n : Nat) (h0 : Keeps s0 s) :
    Keeps s0 (tookTags s n) := by
  unfold tookTags
  try dsimp only
  repeat' first
    | with_reducible assumption
    | split
    | with_reducible apply Keeps.mk'

theorem sendRput_keeps (s : State) (d : Nat) (off : Nat) (cell : Nat) (lines : List (List Byte)) (h0 : Keeps s0 s) :
    Keeps s0 (sendRput s d off cell lines) := by
  unfold sendRput
  try dsimp only
  repeat' first
    | with_reducible assumption
    | with_reducible apply sendItem_keeps
    | with_reducible apply tookTags_keeps
    | with_reducible apply countUp_keeps
    | with_reducible apply linkLost_keeps
    | with_reducible refine OptKeeps.get ?_ (by assumption)
    | split
    | with_reducible dsimp only

theorem sendReads_keeps (s : State) (d off len : Nat) (tag : Word) (i : Nat) (h0 : Keeps s0 s) :
    OptKeeps s0 (sendReads s d off len tag i) := by
  induction i with
  | zero => unfold sendReads; exact OptKeeps.some h0
  | succ i ih =>
  unfold sendReads
  try dsimp only
  repeat' first
    | with_reducible assumption
    | with_reducible apply OptKeeps.none
    | with_reducible apply OptKeeps.some
    | with_reducible apply OptKeeps.ite
    | with_reducible apply sendItem_keeps
    | with_reducible refine OptKeeps.get ?_ (by assumption)
    | split

theorem startRead_keeps (s : State) (m : Nat) (addr : Nat) (len : Nat) (h0 : Keeps s0 s) :
    Keeps s0 (startRead s m addr len) := by
  unfold startRead
  try dsimp only
  repeat' first
    | with_reducible assumption
    | with_reducible apply tookTags_keeps
    | with_reducible apply sendReads_keeps
    | with_reducible apply setDot_keeps
    | with_reducible apply OptKeeps.getD
    | with_reducible refine OptKeeps.get ?_ (by assumption)
    | split
    | with_reducible apply Keeps.mk'

theorem lostRecords_keeps (s : State) (p : Nat) (l : List (Byte × Nat × Word)) (xs : List Slot) (h0 : Keeps s0 s) :
    Keeps s0 (lostRecords s p l xs) := by
  induction l generalizing s with
  | nil => unfold lostRecords; exact h0
  | cons e es ih =>
  unfold lostRecords
  try dsimp only
  repeat' first
    | with_reducible assumption
    | with_reducible apply ih
    | with_reducible apply errorRecord_keeps
    | split

theorem discardPort_keeps (s : State) (p : Nat) (h0 : Keeps s0 s) :
    Keeps s0 (discardPort s p) := by
  unfold discardPort
  try dsimp only
  repeat' first
    | with_reducible assumption
    | with_reducible apply Keeps.ite
    | with_reducible apply setPort_keeps
    | with_reducible apply countUp_keeps
    | with_reducible apply lostRecords_keeps
    | split
    | with_reducible apply Keeps.mk'

/-! ## Frames.lean -/

theorem rcPut_keeps (s : State) (n : Nat) (off : Nat) (w : Nat) (v : Nat) (h0 : Keeps s0 s) :
    Keeps s0 (rcPut s n off w v) := by
  unfold rcPut
  try dsimp only
  repeat' first
    | with_reducible assumption
    | with_reducible apply physPut_keeps
    | split

theorem setRcState_keeps (s : State) (n : Nat) (st : Nat) (h0 : Keeps s0 s) :
    Keeps s0 (setRcState s n st) := by
  unfold setRcState
  try dsimp only
  repeat' first
    | with_reducible assumption
    | with_reducible apply rcPut_keeps
    | split

theorem setRcFlag_keeps (s : State) (n : Nat) (b : Nat) (v : Bool) (h0 : Keeps s0 s) :
    Keeps s0 (setRcFlag s n b v) := by
  unfold setRcFlag
  try dsimp only
  repeat' first
    | with_reducible assumption
    | with_reducible apply rcPut_keeps
    | split

theorem tenPut_keeps (s : State) (t : Nat) (off : Nat) (w : Nat) (v : Nat) (h0 : Keeps s0 s) :
    Keeps s0 (tenPut s t off w v) := by
  unfold tenPut
  try dsimp only
  repeat' first
    | with_reducible assumption
    | with_reducible apply physPut_keeps
    | split

theorem adPut_keeps (s : State) (v : Nat) (off : Nat) (w : Nat) (x : Nat) (h0 : Keeps s0 s) :
    Keeps s0 (adPut s v off w x) := by
  unfold adPut
  try dsimp only
  repeat' first
    | with_reducible assumption
    | with_reducible apply physPut_keeps
    | split

theorem ftPut_keeps (s : State) (f : Nat) (e : Fte) (h0 : Keeps s0 s) :
    Keeps s0 (ftPut s f e) := by
  unfold ftPut
  try dsimp only
  repeat' first
    | with_reducible assumption
    | with_reducible apply physPut_keeps
    | split

theorem popRun_keeps (s : State) (own : Bool) (h0 : Keeps s0 s) :
    OptKeeps2 s0 (popRun s own) := by
  unfold popRun
  try dsimp only
  repeat' first
    | with_reducible assumption
    | with_reducible apply OptKeeps2.none
    | with_reducible apply OptKeeps2.some
    | with_reducible apply OptKeeps2.ite
    | with_reducible apply Keeps.ite
    | with_reducible apply setFld_keeps
    | split

theorem pushRun_keeps (s : State) (f : Nat) (h0 : Keeps s0 s) :
    Keeps s0 (pushRun s f) := by
  unfold pushRun
  try dsimp only
  repeat' first
    | with_reducible assumption
    | with_reducible apply setFld_keeps
    | with_reducible apply physPut_keeps
    | split

theorem allocRun_keeps (s : State) (tenant : Nat) (table : Bool) (own : Bool) (h0 : Keeps s0 s) :
    OptKeeps2 s0 (allocRun s tenant table own) := by
  unfold allocRun
  try dsimp only
  repeat' first
    | with_reducible assumption
    | with_reducible intro _
    | with_reducible apply OptKeeps2.none
    | with_reducible apply OptKeeps2.ite
    | with_reducible apply OptKeeps2.some
    | with_reducible apply OptKeeps2.none
    | with_reducible apply OptKeeps2.some
    | with_reducible apply OptKeeps2.ite
    | with_reducible apply popRun_keeps
    | with_reducible apply OptKeeps2.map
    | with_reducible apply OptKeeps2.map2
    | with_reducible apply ftPut_keeps
    | with_reducible refine OptKeeps2.get ?_ (by assumption)
    | split
    | with_reducible dsimp only

theorem dropRef_keeps (s : State) (f : Nat) (h0 : Keeps s0 s) :
    Keeps s0 (dropRef s f) := by
  unfold dropRef
  try dsimp only
  repeat' first
    | with_reducible assumption
    | with_reducible apply Keeps.ite
    | with_reducible apply ftPut_keeps
    | with_reducible apply pushRun_keeps
    | with_reducible apply physPut_keeps
    | split
    | with_reducible apply Keeps.mk'

theorem poisonRun_keeps (s : State) (f : Nat) (h0 : Keeps s0 s) :
    Keeps s0 (poisonRun s f) := by
  unfold poisonRun
  try dsimp only
  repeat' first
    | with_reducible assumption
    | with_reducible apply Keeps.ite
    | with_reducible apply countUp_keeps
    | with_reducible apply ftPut_keeps
    | split
    | with_reducible apply Keeps.mk'

/-! ## LongOp.lean -/

theorem startNone_keeps (s : State) (k : Nat) (w : FmtT) (v : Word) (h0 : Keeps s0 s) :
    ResKeeps s0 (startNone s k w v) := by
  unfold startNone
  try dsimp only
  repeat' first
    | with_reducible assumption
    | with_reducible apply ResKeeps.flt
    | with_reducible apply ResKeeps.ite
    | with_reducible apply ResKeeps.done
    | with_reducible apply ResKeeps.jump
    | with_reducible apply ResKeeps.hold
    | with_reducible apply regOp_keeps
    | split

theorem longStart_keeps (s : State) (k : Nat) (w : FmtT) (c : Core) (kindOf : Desc → Nat) (zeroFields : Desc → Bool)
    (check : Desc → Option Nat) (zeroDone : Bool) (go : State → Nat → State) (h : ∀ t m, Keeps s0 t → Keeps s0 (go t m)) (h0 : Keeps s0 s) :
    ResKeeps s0 (longStart s k w c kindOf zeroFields check zeroDone go) := by
  unfold longStart
  generalize freeEntry s = fe
  dsimp only
  repeat' first
    | with_reducible assumption
    | with_reducible apply ResKeeps.flt
    | with_reducible apply ResKeeps.ite
    | with_reducible apply ResKeeps.done
    | with_reducible apply ResKeeps.jump
    | with_reducible apply ResKeeps.hold
    | with_reducible apply Keeps.ite
    | with_reducible apply h
    | with_reducible apply startNone_keeps
    | with_reducible apply setDot_keeps
    | with_reducible apply modCore_keeps
    | with_reducible apply leaveActive_keeps
    | split

theorem failOp_keeps (s : State) (m : Nat) (why : OpFailure) (h0 : Keeps s0 s) :
    Keeps s0 (failOp s m why) := by
  unfold failOp
  try dsimp only
  repeat' first
    | with_reducible assumption
    | with_reducible apply leaveActive_keeps
    | with_reducible apply ueEvent_keeps
    | with_reducible apply errorRecord_keeps
    | with_reducible apply OptKeeps.getD
    | split

theorem dstPiece_keeps (s : State) (e : DotEntry) (off : Nat) (bs : List Byte) (h0 : Keeps s0 s) :
    Keeps s0 (dstPiece s e off bs).1 := by
  unfold dstPiece
  try dsimp only
  repeat' first
    | with_reducible assumption
    | with_reducible apply Keeps.ite1
    | with_reducible apply Keeps.ite
    | with_reducible apply modCore_keeps
    | with_reducible apply zoneWrite_keeps
    | with_reducible apply physWrite_keeps
    | with_reducible refine Keeps.ofPair ?_ (by assumption)
    | split
    | with_reducible dsimp only
    | with_reducible apply Keeps.mk'

theorem pieceRead_keeps (s : State) (e : DotEntry) (off : Nat) (n : Nat) (h0 : Keeps s0 s) :
    Keeps s0 (pieceRead s e off n) := by
  unfold pieceRead
  try dsimp only
  repeat' first
    | with_reducible assumption
    | with_reducible apply Keeps.ite
    | with_reducible apply tookBlock_keeps
    | with_reducible apply readSoft_keeps
    | split

theorem moveUnits_keeps (e : DotEntry) (pick : Nat → Bool) (n off : Nat) (s : State) (h0 : Keeps s0 s) :
    Keeps s0 (moveUnits e pick n off s).1 := by
  induction n generalizing off s with
  | zero => unfold moveUnits; exact h0
  | succ n ih =>
  unfold moveUnits
  try dsimp only
  repeat' first
    | with_reducible assumption
    | with_reducible apply Keeps.ite1
    | with_reducible apply Keeps.ite
    | with_reducible apply ih
    | with_reducible apply dstPiece_keeps
    | with_reducible apply pieceRead_keeps
    | with_reducible refine Keeps.ofPair ?_ (by assumption)
    | split
    | with_reducible dsimp only

theorem transferDone_keeps (s : State) (m : Nat) (kind : Nat) (h0 : Keeps s0 s) :
    Keeps s0 (transferDone s m kind) := by
  unfold transferDone
  try dsimp only
  repeat' first
    | with_reducible assumption
    | with_reducible apply Keeps.ite
    | with_reducible apply readReady_keeps
    | with_reducible apply moveUnits_keeps
    | with_reducible apply setDot_keeps
    | with_reducible apply armTierTimer_keeps
    | with_reducible apply leaveActive_keeps
    | with_reducible apply failOp_keeps
    | with_reducible apply OptKeeps.getD
    | with_reducible refine Keeps.ofPair ?_ (by assumption)
    | split
    | with_reducible dsimp only
    | with_reducible apply Keeps.mk'

theorem armLimit_keeps (s : State) (m : Nat) (h0 : Keeps s0 s) :
    Keeps s0 (armLimit s m) := by
  unfold armLimit
  try dsimp only
  repeat' first
    | with_reducible assumption
    | with_reducible apply Keeps.ite
    | with_reducible apply armTierTimer_keeps
    | with_reducible apply setDot_keeps
    | with_reducible apply OptKeeps.getD
    | split
    | with_reducible apply Keeps.mk'

theorem transferStart_keeps (s : State) (m : Nat) (h0 : Keeps s0 s) :
    Keeps s0 (transferStart s m) := by
  unfold transferStart
  try dsimp only
  repeat' first
    | with_reducible assumption
    | with_reducible apply Keeps.ite
    | with_reducible apply setDot_keeps
    | with_reducible apply leaveActive_keeps
    | with_reducible apply armLimit_keeps
    | with_reducible apply startRead_keeps
    | with_reducible apply OptKeeps.getD
    | split
    | with_reducible apply Keeps.mk'

theorem execDma_keeps (k : Nat) (w : FmtT) (s : State) (h0 : Keeps s0 s) :
    OutKeeps s0 (execDma k w s) := by
  unfold execDma
  try dsimp only
  repeat' first
    | with_reducible assumption
    | with_reducible intro _
    | with_reducible apply ResKeeps.flt
    | with_reducible apply ResKeeps.ite
    | with_reducible apply ResKeeps.done
    | with_reducible apply ResKeeps.jump
    | with_reducible apply ResKeeps.hold
    | with_reducible apply OutKeeps.next
    | with_reducible apply OutKeeps.fault
    | with_reducible apply OutKeeps.ite
    | with_reducible apply issueT_keeps
    | with_reducible apply longStart_keeps
    | with_reducible apply transferStart_keeps
    | split

theorem rangeStart_keeps (dirty : Bool) (s : State) (m : Nat) (h0 : Keeps s0 s) :
    Keeps s0 (rangeStart dirty s m) := by
  unfold rangeStart
  try dsimp only
  repeat' first
    | with_reducible assumption
    | with_reducible apply setDot_keeps
    | with_reducible apply OptKeeps.getD
    | split
    | with_reducible apply Keeps.mk'

theorem actLines_keeps (s : State) (n : Nat) (drop : Bool) (ls : List Nat) (h0 : Keeps s0 s) :
    Keeps s0 (actLines s n drop ls) := by
  unfold actLines
  try dsimp only
  repeat' first
    | with_reducible assumption
    | with_reducible intro _
    | with_reducible apply Keeps.ite
    | with_reducible apply Keeps.foldl
    | with_reducible apply cacheDrop_keeps
    | with_reducible apply writeBack_keeps
    | split

theorem rangeDone_keeps (s : State) (m : Nat) (kind : Nat) (h0 : Keeps s0 s) :
    Keeps s0 (rangeDone s m kind) := by
  unfold rangeDone
  try dsimp only
  repeat' first
    | with_reducible assumption
    | with_reducible apply Keeps.ite
    | with_reducible apply leaveActive_keeps
    | with_reducible apply actLines_keeps
    | with_reducible apply OptKeeps.getD
    | split

theorem execFlushr_keeps (k : Nat) (w : FmtT) (s : State) (h0 : Keeps s0 s) :
    OutKeeps s0 (execFlushr k w s) := by
  unfold execFlushr
  try dsimp only
  repeat' first
    | with_reducible assumption
    | with_reducible intro _
    | with_reducible apply ResKeeps.flt
    | with_reducible apply ResKeeps.ite
    | with_reducible apply ResKeeps.done
    | with_reducible apply ResKeeps.jump
    | with_reducible apply ResKeeps.hold
    | with_reducible apply OutKeeps.next
    | with_reducible apply OutKeeps.fault
    | with_reducible apply OutKeeps.ite
    | with_reducible apply issueT_keeps
    | with_reducible apply longStart_keeps
    | with_reducible apply rangeStart_keeps
    | split

theorem execInvr_keeps (k : Nat) (w : FmtT) (s : State) (h0 : Keeps s0 s) :
    OutKeeps s0 (execInvr k w s) := by
  unfold execInvr
  try dsimp only
  repeat' first
    | with_reducible assumption
    | with_reducible intro _
    | with_reducible apply ResKeeps.flt
    | with_reducible apply ResKeeps.ite
    | with_reducible apply ResKeeps.done
    | with_reducible apply ResKeeps.jump
    | with_reducible apply ResKeeps.hold
    | with_reducible apply OutKeeps.next
    | with_reducible apply OutKeeps.fault
    | with_reducible apply OutKeeps.ite
    | with_reducible apply issueT_keeps
    | with_reducible apply longStart_keeps
    | with_reducible apply rangeStart_keeps
    | split

theorem execDmaDone_keeps (t : Nat) (m : Nat) (s : State) (h0 : Keeps s0 s) :
    OutKeeps s0 (execDmaDone t m s) := by
  unfold execDmaDone
  try dsimp only
  repeat' first
    | with_reducible assumption
    | with_reducible intro _
    | with_reducible apply ResKeeps.flt
    | with_reducible apply ResKeeps.ite
    | with_reducible apply ResKeeps.done
    | with_reducible apply ResKeeps.jump
    | with_reducible apply ResKeeps.hold
    | with_reducible apply OutKeeps.next
    | with_reducible apply OutKeeps.fault
    | with_reducible apply OutKeeps.ite
    | with_reducible apply presentUnit_keeps
    | with_reducible apply transferDone_keeps
    | split

theorem execTierDone_keeps (t : Nat) (m : Nat) (s : State) (h0 : Keeps s0 s) :
    OutKeeps s0 (execTierDone t m s) := by
  unfold execTierDone
  try dsimp only
  repeat' first
    | with_reducible assumption
    | with_reducible intro _
    | with_reducible apply ResKeeps.flt
    | with_reducible apply ResKeeps.ite
    | with_reducible apply ResKeeps.done
    | with_reducible apply ResKeeps.jump
    | with_reducible apply ResKeeps.hold
    | with_reducible apply OutKeeps.next
    | with_reducible apply OutKeeps.fault
    | with_reducible apply OutKeeps.ite
    | with_reducible apply presentUnit_keeps
    | with_reducible apply transferDone_keeps
    | split

theorem execFlushDone_keeps (t : Nat) (m : Nat) (s : State) (h0 : Keeps s0 s) :
    OutKeeps s0 (execFlushDone t m s) := by
  unfold execFlushDone
  try dsimp only
  repeat' first
    | with_reducible assumption
    | with_reducible intro _
    | with_reducible apply ResKeeps.flt
    | with_reducible apply ResKeeps.ite
    | with_reducible apply ResKeeps.done
    | with_reducible apply ResKeeps.jump
    | with_reducible apply ResKeeps.hold
    | with_reducible apply OutKeeps.next
    | with_reducible apply OutKeeps.fault
    | with_reducible apply OutKeeps.ite
    | with_reducible apply presentUnit_keeps
    | with_reducible apply rangeDone_keeps
    | split

theorem execInvalidateDone_keeps (t : Nat) (m : Nat) (s : State) (h0 : Keeps s0 s) :
    OutKeeps s0 (execInvalidateDone t m s) := by
  unfold execInvalidateDone
  try dsimp only
  repeat' first
    | with_reducible assumption
    | with_reducible intro _
    | with_reducible apply ResKeeps.flt
    | with_reducible apply ResKeeps.ite
    | with_reducible apply ResKeeps.done
    | with_reducible apply ResKeeps.jump
    | with_reducible apply ResKeeps.hold
    | with_reducible apply OutKeeps.next
    | with_reducible apply OutKeeps.fault
    | with_reducible apply OutKeeps.ite
    | with_reducible apply presentUnit_keeps
    | with_reducible apply rangeDone_keeps
    | split

/-! ## MemOps.lean -/

theorem spAccess_keeps (s : State) (c : Core) (w : FmtT) (store : Bool) (n : Nat) (f : Nat → Res) (h : ∀ o, ResKeeps s0 (f o)) :
    ResKeeps s0 (spAccess c w store n f) := by
  unfold spAccess
  try dsimp only
  repeat' first
    | with_reducible assumption
    | with_reducible apply ResKeeps.flt
    | with_reducible apply ResKeeps.ite
    | with_reducible apply ResKeeps.done
    | with_reducible apply ResKeeps.jump
    | with_reducible apply ResKeeps.hold
    | with_reducible apply Keeps.ite
    | with_reducible apply h
    | with_reducible apply store_keeps
    | split

theorem ldsEff_keeps (s : State) (k : Nat) (w : FmtT) (c : Core) (h0 : Keeps s0 s) :
    ResKeeps s0 (ldsEff s k w c) := by
  unfold ldsEff
  try dsimp only
  repeat' first
    | with_reducible assumption
    | with_reducible intro _
    | with_reducible apply ResKeeps.flt
    | with_reducible apply ResKeeps.ite
    | with_reducible apply ResKeeps.done
    | with_reducible apply ResKeeps.jump
    | with_reducible apply ResKeeps.hold
    | with_reducible apply spAccess_keeps
    | with_reducible apply regOp_keeps
    | split

theorem stsEff_keeps (s : State) (k : Nat) (w : FmtT) (c : Core) (h0 : Keeps s0 s) :
    ResKeeps s0 (stsEff s k w c) := by
  unfold stsEff
  try dsimp only
  repeat' first
    | with_reducible assumption
    | with_reducible intro _
    | with_reducible apply ResKeeps.flt
    | with_reducible apply ResKeeps.ite
    | with_reducible apply ResKeeps.done
    | with_reducible apply ResKeeps.jump
    | with_reducible apply ResKeeps.hold
    | with_reducible apply spAccess_keeps
    | with_reducible apply regOp_keeps
    | split
    | with_reducible apply Keeps.mk'

theorem vldEff_keeps (s : State) (k : Nat) (w : FmtT) (c : Core) (h0 : Keeps s0 s) :
    ResKeeps s0 (vldEff s k w c) := by
  unfold vldEff
  try dsimp only
  repeat' first
    | with_reducible assumption
    | with_reducible intro _
    | with_reducible apply ResKeeps.flt
    | with_reducible apply ResKeeps.ite
    | with_reducible apply ResKeeps.done
    | with_reducible apply ResKeeps.jump
    | with_reducible apply ResKeeps.hold
    | with_reducible apply spAccess_keeps
    | with_reducible apply regOp_keeps
    | split

theorem vstEff_keeps (s : State) (k : Nat) (w : FmtT) (c : Core) (h0 : Keeps s0 s) :
    ResKeeps s0 (vstEff s k w c) := by
  unfold vstEff
  try dsimp only
  repeat' first
    | with_reducible assumption
    | with_reducible intro _
    | with_reducible apply ResKeeps.flt
    | with_reducible apply ResKeeps.ite
    | with_reducible apply ResKeeps.done
    | with_reducible apply ResKeeps.jump
    | with_reducible apply ResKeeps.hold
    | with_reducible apply spAccess_keeps
    | with_reducible apply regOp_keeps
    | split
    | with_reducible apply Keeps.mk'

theorem loadLines_keeps (one : State → Nat → State × Option (List Byte)) (h : ∀ t a, Keeps s0 t → Keeps s0 (one t a).1) (n a : Nat) (s : State) (h0 : Keeps s0 s) :
    Keeps s0 (loadLines one n a s).1 := by
  induction n generalizing a s with
  | zero => unfold loadLines; exact h0
  | succ n ih =>
  unfold loadLines
  try dsimp only
  repeat' first
    | with_reducible assumption
    | with_reducible apply ih
    | with_reducible apply h
    | with_reducible apply OptKeeps.getD
    | split
    | with_reducible dsimp only

theorem storeLines_keeps (one : State → Nat → List Byte → State) (h : ∀ t a b, Keeps s0 t → Keeps s0 (one t a b)) (n a : Nat) (bs : List Byte)
    (s : State) (h0 : Keeps s0 s) : Keeps s0 (storeLines one n a bs s) := by
  induction n generalizing a bs s with
  | zero => unfold storeLines; exact h0
  | succ n ih =>
  unfold storeLines
  try dsimp only
  repeat' first
    | with_reducible assumption
    | with_reducible apply ih
    | with_reducible apply h
    | split

theorem loadEff_keeps (s : State) (k : Nat) (w : FmtT) (c : Core) (cached : Bool) (h0 : Keeps s0 s) :
    ResKeeps s0 (loadEff s k w c cached) := by
  unfold loadEff
  try dsimp only
  repeat' first
    | with_reducible assumption
    | with_reducible intro _
    | with_reducible apply ResKeeps.flt
    | with_reducible apply ResKeeps.ite
    | with_reducible apply ResKeeps.done
    | with_reducible apply ResKeeps.jump
    | with_reducible apply ResKeeps.hold
    | with_reducible apply Keeps.ite
    | with_reducible apply checkBlocks_keeps
    | with_reducible apply loadLines_keeps
    | with_reducible apply ldcLine_keeps
    | with_reducible apply ldvLine_keeps
    | with_reducible apply modCore_keeps
    | with_reducible refine Keeps.ofPair ?_ (by assumption)
    | split
    | with_reducible dsimp only
    | with_reducible apply Keeps.mk'

theorem storeEff_keeps (s : State) (k : Nat) (w : FmtT) (c : Core) (cached : Bool) (h0 : Keeps s0 s) :
    ResKeeps s0 (storeEff s k w c cached) := by
  unfold storeEff
  try dsimp only
  repeat' first
    | with_reducible assumption
    | with_reducible intro _
    | with_reducible apply ResKeeps.flt
    | with_reducible apply ResKeeps.ite
    | with_reducible apply ResKeeps.done
    | with_reducible apply ResKeeps.jump
    | with_reducible apply ResKeeps.hold
    | with_reducible apply Keeps.ite
    | with_reducible apply storeLines_keeps
    | with_reducible apply stcLine_keeps
    | with_reducible apply stvLine_keeps
    | split

theorem execLds_keeps (k : Nat) (w : FmtT) (s : State) (h0 : Keeps s0 s) :
    OutKeeps s0 (execLds k w s) := by
  unfold execLds
  try dsimp only
  repeat' first
    | with_reducible assumption
    | with_reducible intro _
    | with_reducible apply ResKeeps.flt
    | with_reducible apply ResKeeps.ite
    | with_reducible apply ResKeeps.done
    | with_reducible apply ResKeeps.jump
    | with_reducible apply ResKeeps.hold
    | with_reducible apply OutKeeps.next
    | with_reducible apply OutKeeps.fault
    | with_reducible apply OutKeeps.ite
    | with_reducible apply issueT_keeps
    | with_reducible apply ldsEff_keeps
    | split

theorem execSts_keeps (k : Nat) (w : FmtT) (s : State) (h0 : Keeps s0 s) :
    OutKeeps s0 (execSts k w s) := by
  unfold execSts
  try dsimp only
  repeat' first
    | with_reducible assumption
    | with_reducible intro _
    | with_reducible apply ResKeeps.flt
    | with_reducible apply ResKeeps.ite
    | with_reducible apply ResKeeps.done
    | with_reducible apply ResKeeps.jump
    | with_reducible apply ResKeeps.hold
    | with_reducible apply OutKeeps.next
    | with_reducible apply OutKeeps.fault
    | with_reducible apply OutKeeps.ite
    | with_reducible apply issueT_keeps
    | with_reducible apply stsEff_keeps
    | split

theorem execVld_keeps (k : Nat) (w : FmtT) (s : State) (h0 : Keeps s0 s) :
    OutKeeps s0 (execVld k w s) := by
  unfold execVld
  try dsimp only
  repeat' first
    | with_reducible assumption
    | with_reducible intro _
    | with_reducible apply ResKeeps.flt
    | with_reducible apply ResKeeps.ite
    | with_reducible apply ResKeeps.done
    | with_reducible apply ResKeeps.jump
    | with_reducible apply ResKeeps.hold
    | with_reducible apply OutKeeps.next
    | with_reducible apply OutKeeps.fault
    | with_reducible apply OutKeeps.ite
    | with_reducible apply issueT_keeps
    | with_reducible apply vldEff_keeps
    | split

theorem execVst_keeps (k : Nat) (w : FmtT) (s : State) (h0 : Keeps s0 s) :
    OutKeeps s0 (execVst k w s) := by
  unfold execVst
  try dsimp only
  repeat' first
    | with_reducible assumption
    | with_reducible intro _
    | with_reducible apply ResKeeps.flt
    | with_reducible apply ResKeeps.ite
    | with_reducible apply ResKeeps.done
    | with_reducible apply ResKeeps.jump
    | with_reducible apply ResKeeps.hold
    | with_reducible apply OutKeeps.next
    | with_reducible apply OutKeeps.fault
    | with_reducible apply OutKeeps.ite
    | with_reducible apply issueT_keeps
    | with_reducible apply vstEff_keeps
    | split

theorem execLdc_keeps (k : Nat) (w : FmtT) (s : State) (h0 : Keeps s0 s) :
    OutKeeps s0 (execLdc k w s) := by
  unfold execLdc
  try dsimp only
  repeat' first
    | with_reducible assumption
    | with_reducible intro _
    | with_reducible apply ResKeeps.flt
    | with_reducible apply ResKeeps.ite
    | with_reducible apply ResKeeps.done
    | with_reducible apply ResKeeps.jump
    | with_reducible apply ResKeeps.hold
    | with_reducible apply OutKeeps.next
    | with_reducible apply OutKeeps.fault
    | with_reducible apply OutKeeps.ite
    | with_reducible apply issueT_keeps
    | with_reducible apply loadEff_keeps
    | split

theorem execStc_keeps (k : Nat) (w : FmtT) (s : State) (h0 : Keeps s0 s) :
    OutKeeps s0 (execStc k w s) := by
  unfold execStc
  try dsimp only
  repeat' first
    | with_reducible assumption
    | with_reducible intro _
    | with_reducible apply ResKeeps.flt
    | with_reducible apply ResKeeps.ite
    | with_reducible apply ResKeeps.done
    | with_reducible apply ResKeeps.jump
    | with_reducible apply ResKeeps.hold
    | with_reducible apply OutKeeps.next
    | with_reducible apply OutKeeps.fault
    | with_reducible apply OutKeeps.ite
    | with_reducible apply issueT_keeps
    | with_reducible apply storeEff_keeps
    | split

theorem execLdv_keeps (k : Nat) (w : FmtT) (s : State) (h0 : Keeps s0 s) :
    OutKeeps s0 (execLdv k w s) := by
  unfold execLdv
  try dsimp only
  repeat' first
    | with_reducible assumption
    | with_reducible intro _
    | with_reducible apply ResKeeps.flt
    | with_reducible apply ResKeeps.ite
    | with_reducible apply ResKeeps.done
    | with_reducible apply ResKeeps.jump
    | with_reducible apply ResKeeps.hold
    | with_reducible apply OutKeeps.next
    | with_reducible apply OutKeeps.fault
    | with_reducible apply OutKeeps.ite
    | with_reducible apply issueT_keeps
    | with_reducible apply loadEff_keeps
    | split

theorem execStv_keeps (k : Nat) (w : FmtT) (s : State) (h0 : Keeps s0 s) :
    OutKeeps s0 (execStv k w s) := by
  unfold execStv
  try dsimp only
  repeat' first
    | with_reducible assumption
    | with_reducible intro _
    | with_reducible apply ResKeeps.flt
    | with_reducible apply ResKeeps.ite
    | with_reducible apply ResKeeps.done
    | with_reducible apply ResKeeps.jump
    | with_reducible apply ResKeeps.hold
    | with_reducible apply OutKeeps.next
    | with_reducible apply OutKeeps.fault
    | with_reducible apply OutKeeps.ite
    | with_reducible apply issueT_keeps
    | with_reducible apply storeEff_keeps
    | split

/-! ## Walker.lean -/

/-- The state of a claim's answer keeps what `Keeps` says. -/
def ClaimKeeps (s : State) : Claim → Prop
  | .run t _ => Keeps s t
  | .bad t => Keeps s t
  | .full => True

theorem ClaimKeeps.run {s t : State} {f : Nat} (h : Keeps s t) : ClaimKeeps s (.run t f) := h
theorem ClaimKeeps.bad {s t : State} (h : Keeps s t) : ClaimKeeps s (.bad t) := h
theorem ClaimKeeps.full {s : State} : ClaimKeeps s .full := trivial
theorem ClaimKeeps.getRun {s t : State} {c : Claim} {f : Nat} (h : ClaimKeeps s c) (e : c = .run t f) : Keeps s t := by
  subst e; exact h
theorem ClaimKeeps.getBad {s t : State} {c : Claim} (h : ClaimKeeps s c) (e : c = .bad t) : Keeps s t := by
  subst e; exact h

theorem dropTb_keeps (s : State) (p : TbEntry → Bool) (h0 : Keeps s0 s) :
    Keeps s0 (dropTb s p) := by
  unfold dropTb
  try dsimp only
  repeat' first
    | with_reducible assumption
    | with_reducible intro _
    | with_reducible apply Keeps.ite
    | with_reducible apply Keeps.foldl
    | with_reducible apply setCluster_keeps
    | split
    | with_reducible apply Keeps.mk'

theorem putPte_keeps (s : State) (rc : Nat) (layer : Nat) (hg : Nat) (page : Nat) (addr : Nat) (p : Pte) (h0 : Keeps s0 s) :
    Keeps s0 (putPte s rc layer hg page addr p) := by
  unfold putPte
  try dsimp only
  repeat' first
    | with_reducible assumption
    | with_reducible apply physPut_keeps
    | with_reducible apply dropTb_keeps
    | split

theorem frameReads_keeps (s : State) (rc : Nat) (es : List TbEntry) (h0 : Keeps s0 s) :
    Keeps s0 (frameReads s rc es) := by
  unfold frameReads
  try dsimp only
  repeat' first
    | with_reducible assumption
    | with_reducible intro _
    | with_reducible apply Keeps.ite
    | with_reducible apply Keeps.foldl
    | with_reducible apply Keeps.foldl1
    | with_reducible apply pocReadEvents_keeps
    | split
    | with_reducible dsimp only

theorem tbInstall_keeps (s : State) (n : Nat) (es : List TbEntry) (first : TbEntry → Bool) (h0 : Keeps s0 s) :
    Keeps s0 (tbInstall s n es first) := by
  unfold tbInstall
  try dsimp only
  repeat' first
    | with_reducible assumption
    | with_reducible apply setCluster_keeps
    | split
    | with_reducible apply Keeps.mk'

theorem tableRead_keeps (s : State) (a : Nat) (n : Nat) (kind : Nat) (rc : Nat) (h0 : Keeps s0 s) :
    Keeps s0 (tableRead s a n kind rc).1 := by
  unfold tableRead
  try dsimp only
  repeat' first
    | with_reducible assumption
    | with_reducible apply Keeps.ite1
    | with_reducible apply Keeps.ite
    | with_reducible apply pocReadEvents_keeps
    | split
    | with_reducible dsimp only

theorem walkMiss_keeps (s : State) (n : Nat) (rc : Nat) (layer : Nat) (hg : Nat) (page : Nat) (h0 : Keeps s0 s) :
    Keeps s0 (walkMiss s n rc layer hg page).1 := by
  unfold walkMiss
  try dsimp only
  repeat' first
    | with_reducible assumption
    | with_reducible apply Keeps.ite1
    | with_reducible apply Keeps.ite
    | with_reducible apply countUp_keeps
    | with_reducible apply tableRead_keeps
    | with_reducible apply poisonRun_keeps
    | with_reducible apply tbInstall_keeps
    | with_reducible apply frameReads_keeps
    | with_reducible refine Keeps.ofPair ?_ (by assumption)
    | split
    | with_reducible dsimp only

theorem translate_keeps (s : State) (n : Nat) (rc : Nat) (layer : Nat) (hg : Nat) (page : Nat) (h0 : Keeps s0 s) :
    Keeps s0 (translate s n rc layer hg page).1 := by
  unfold translate
  try dsimp only
  repeat' first
    | with_reducible assumption
    | with_reducible apply Keeps.ite1
    | with_reducible apply Keeps.ite
    | with_reducible apply tbInstall_keeps
    | with_reducible apply walkMiss_keeps
    | with_reducible refine Keeps.ofPair ?_ (by assumption)
    | split

theorem ensureLeaf_keeps (s : State) (rc : Nat) (layer : Nat) (hg : Nat) (page : Nat) (own : Bool) (h0 : Keeps s0 s) :
    OptKeeps s0 (ensureLeaf s rc layer hg page own) := by
  unfold ensureLeaf
  try dsimp only
  repeat' first
    | with_reducible assumption
    | with_reducible intro _
    | with_reducible apply OptKeeps2.none
    | with_reducible apply OptKeeps2.ite
    | with_reducible apply OptKeeps2.some
    | with_reducible apply OptKeeps.none
    | with_reducible apply OptKeeps.some
    | with_reducible apply OptKeeps.ite
    | with_reducible apply allocRun_keeps
    | with_reducible apply OptKeeps2.map
    | with_reducible apply OptKeeps2.map2
    | with_reducible apply physPut_keeps
    | with_reducible apply physClear_keeps
    | with_reducible refine OptKeeps2.get ?_ (by assumption)
    | with_reducible apply OptKeeps.map
    | with_reducible intro _
    | split
    | with_reducible dsimp only

theorem ensurePage_keeps (s : State) (rc : Nat) (layer : Nat) (hg : Nat) (page : Nat) (h0 : Keeps s0 s) :
    OptKeeps s0 (ensurePage s rc layer hg page) := by
  unfold ensurePage
  try dsimp only
  repeat' first
    | with_reducible assumption
    | with_reducible intro _
    | with_reducible apply OptKeeps2.none
    | with_reducible apply OptKeeps2.ite
    | with_reducible apply OptKeeps2.some
    | with_reducible apply OptKeeps.none
    | with_reducible apply OptKeeps.some
    | with_reducible apply OptKeeps.ite
    | with_reducible apply ensureLeaf_keeps
    | with_reducible apply allocRun_keeps
    | with_reducible apply OptKeeps2.map
    | with_reducible apply OptKeeps2.map2
    | with_reducible apply putPte_keeps
    | with_reducible refine OptKeeps.get ?_ (by assumption)
    | with_reducible refine OptKeeps2.get ?_ (by assumption)
    | with_reducible apply OptKeeps.map
    | with_reducible intro _
    | split
    | with_reducible dsimp only

theorem claim_keeps (s : State) (rc : Nat) (layer : Nat) (hg : Nat) (page : Nat) (addr : Nat) (p : Pte) (h0 : Keeps s0 s) :
    ClaimKeeps s0 (claim s rc layer hg page addr p) := by
  unfold claim
  try dsimp only
  repeat' first
    | with_reducible assumption
    | with_reducible intro _
    | with_reducible apply ClaimKeeps.run
    | with_reducible apply ClaimKeeps.bad
    | with_reducible apply ClaimKeeps.full
    | with_reducible apply OptKeeps2.none
    | with_reducible apply OptKeeps2.ite
    | with_reducible apply OptKeeps2.some
    | with_reducible apply Keeps.ite
    | with_reducible apply putPte_keeps
    | with_reducible apply pocReadEvents_keeps
    | with_reducible apply addCode_keeps
    | with_reducible apply poisonRun_keeps
    | with_reducible apply allocRun_keeps
    | with_reducible apply OptKeeps2.map
    | with_reducible apply OptKeeps2.map2
    | with_reducible apply dropRef_keeps
    | with_reducible apply countUp_keeps
    | with_reducible apply physCopy_keeps
    | with_reducible refine OptKeeps2.get ?_ (by assumption)
    | with_reducible refine Keeps.ofPair ?_ (by assumption)
    | split
    | with_reducible dsimp only
    | with_reducible apply Keeps.mk'

theorem scatter_keeps (s : State) (base : Nat) (l : List Nat) (bs : List Byte) (h0 : Keeps s0 s) :
    Keeps s0 (scatter s base l bs) := by
  induction l generalizing s bs with
  | nil => unfold scatter; exact h0
  | cons o os ih =>
  cases bs <;> unfold scatter
  repeat' first
    | with_reducible assumption
    | with_reducible apply ih
    | with_reducible apply store_keeps
    | split

theorem mendSpans_keeps (s : State) (base : Nat) (sp : List (Nat × Nat)) (h0 : Keeps s0 s) :
    Keeps s0 (mendSpans s base sp) := by
  unfold mendSpans
  try dsimp only
  repeat' first
    | with_reducible assumption
    | with_reducible intro _
    | with_reducible apply Keeps.foldl
    | with_reducible apply Keeps.foldl1
    | split
    | with_reducible dsimp only
    | with_reducible apply Keeps.mk'

theorem readSpans_keeps (s : State) (base : Nat) (kind : Nat) (rc : Nat) (sp : List (Nat × Nat)) (h0 : Keeps s0 s) :
    Keeps s0 (readSpans s base kind rc sp).1 := by
  unfold readSpans
  try dsimp only
  repeat' first
    | with_reducible assumption
    | with_reducible intro _
    | with_reducible apply Keeps.foldl
    | with_reducible apply Keeps.foldl1
    | with_reducible apply pocReadEvents_keeps
    | split
    | with_reducible dsimp only

theorem writeHalves_keeps (s : State) (rc : Nat) (layer : Nat) (hg : Nat) (pos : Nat) (key : Option (List Byte)) (val : Option (List Byte)) (h0 : Keeps s0 s) :
    Keeps s0 (writeHalves s rc layer hg pos key val) := by
  unfold writeHalves
  try dsimp only
  repeat' first
    | with_reducible assumption
    | with_reducible apply Keeps.ite
    | with_reducible apply claim_keeps
    | with_reducible apply readSpans_keeps
    | with_reducible apply mendSpans_keeps
    | with_reducible apply scatter_keeps
    | with_reducible apply addCode_keeps
    | with_reducible apply poisonRun_keeps
    | with_reducible refine ClaimKeeps.getRun ?_ (by assumption)
    | with_reducible refine ClaimKeeps.getBad ?_ (by assumption)
    | with_reducible refine Keeps.ofPair ?_ (by assumption)
    | split
    | with_reducible dsimp only

theorem showUsed_keeps (s : State) (n : Nat) (h0 : Keeps s0 s) :
    Keeps s0 (showUsed s n) := by
  unfold showUsed
  try dsimp only
  repeat' first
    | with_reducible assumption
    | with_reducible apply setFld_keeps
    | split

theorem modStg_keeps (s : State) (n : Nat) (f : List StgEntry → List StgEntry) (h0 : Keeps s0 s) :
    Keeps s0 (modStg s n f) := by
  unfold modStg
  try dsimp only
  repeat' first
    | with_reducible assumption
    | with_reducible apply showUsed_keeps
    | with_reducible apply setCluster_keeps
    | split
    | with_reducible apply Keeps.mk'

theorem modAllStg_keeps (s : State) (f : List StgEntry → List StgEntry) (h0 : Keeps s0 s) :
    Keeps s0 (modAllStg s f) := by
  unfold modAllStg
  try dsimp only
  repeat' first
    | with_reducible assumption
    | with_reducible intro _
    | with_reducible apply Keeps.ite
    | with_reducible apply Keeps.foldl
    | with_reducible apply modStg_keeps
    | split

theorem flushStg_keeps (s : State) (n : Nat) (p : StgEntry → Bool) (h0 : Keeps s0 s) :
    Keeps s0 (flushStg s n p) := by
  unfold flushStg
  try dsimp only
  repeat' first
    | with_reducible assumption
    | with_reducible intro _
    | with_reducible apply Keeps.ite
    | with_reducible apply Keeps.foldl
    | with_reducible apply writeHalves_keeps
    | with_reducible apply modStg_keeps
    | split
    | with_reducible apply Keeps.mk'

theorem settleSpec_keeps (s : State) (rc : Nat) (layer : Nat) (hg : Nat) (page : Nat) (h0 : Keeps s0 s) :
    Keeps s0 (settleSpec s rc layer hg page) := by
  unfold settleSpec
  try dsimp only
  repeat' first
    | with_reducible assumption
    | with_reducible apply Keeps.ite
    | with_reducible apply putPte_keeps
    | split
    | with_reducible apply Keeps.mk'

theorem removeStg_keeps (s : State) (p : StgEntry → Bool) (h0 : Keeps s0 s) :
    Keeps s0 (removeStg s p) := by
  unfold removeStg
  try dsimp only
  repeat' first
    | with_reducible assumption
    | with_reducible intro _
    | with_reducible apply Keeps.ite
    | with_reducible apply Keeps.foldl
    | with_reducible apply modAllStg_keeps
    | with_reducible apply settleSpec_keeps
    | split

/-! ## KvOps.lean -/

/-- The state of a key-value instruction's answer keeps what `Keeps` says. -/
def KvKeeps (s : State) : KvRes → Prop
  | .status t _ => Keeps s t
  | .wait t => Keeps s t

theorem KvKeeps.status {s t : State} {n : Nat} (h : Keeps s t) : KvKeeps s (.status t n) := h
theorem KvKeeps.wait {s t : State} (h : Keeps s t) : KvKeeps s (.wait t) := h
theorem KvKeeps.ite {s : State} {a b : KvRes} {p : Prop} [Decidable p] (ha : KvKeeps s a) (hb : KvKeeps s b) :
    KvKeeps s (if p then a else b) := by split <;> assumption
theorem KvKeeps.getStatus {s t : State} {c : KvRes} {n : Nat} (h : KvKeeps s c) (e : c = .status t n) : Keeps s t := by
  subst e; exact h
theorem KvKeeps.getWait {s t : State} {c : KvRes} (h : KvKeeps s c) (e : c = .wait t) : Keeps s t := by
  subst e; exact h

theorem kvRun_keeps (s : State) (k : Nat) (w : FmtT) (c : Core) (f : KvDesc → KvRes) (h : ∀ d, KvKeeps s0 (f d)) (h0 : Keeps s0 s) :
    ResKeeps s0 (kvRun s k w c f) := by
  unfold kvRun
  dsimp only
  apply ResKeeps.ite .flt
  apply ResKeeps.ite .flt
  generalize kvDescOf (readBytes c.scratch (readS c w.a).toNat 32) = d
  have put : ∀ t v, Keeps s0 t → Keeps s0 (modCore (if endsRequest v then addCode t d.rc v else t) k
      fun c => writeS c w.d (BitVec.ofNat 64 v)) :=
    fun t v ht => modCore_keeps _ _ _ (Keeps.ite (addCode_keeps _ _ _ ht) ht)
  generalize ctxStatus s d.rc = cs
  cases cs with
  | some v => exact put s v h0
  | none =>
    apply ResKeeps.ite (ResKeeps.done (put s _ h0))
    have hd := h d
    revert hd
    cases f d with
    | status t v => intro hd; exact put t v hd
    | wait t => exact id

theorem translatePages_keeps (s : State) (n rc layer hg m p : Nat) (h0 : Keeps s0 s) :
    Keeps s0 (translatePages s n rc layer hg m p).1 := by
  induction m generalizing s p with
  | zero => unfold translatePages; exact h0
  | succ m ih =>
  unfold translatePages
  try dsimp only
  repeat' first
    | with_reducible assumption
    | with_reducible apply ih
    | with_reducible apply translate_keeps
    | with_reducible refine Keeps.ofPair ?_ (by assumption)
    | split
    | with_reducible dsimp only

theorem readFrames_keeps (s : State) (n : Nat) (d : KvDesc) (first : Nat) (l : List Pte) (h0 : Keeps s0 s) :
    Keeps s0 (readFrames s n d first l).1 := by
  induction l generalizing s first with
  | nil => unfold readFrames; exact h0
  | cons p ps ih =>
  unfold readFrames
  try dsimp only
  repeat' first
    | with_reducible assumption
    | with_reducible apply Keeps.ite1
    | with_reducible apply Keeps.ite
    | with_reducible apply ih
    | with_reducible apply readSpans_keeps
    | with_reducible apply poisonRun_keeps
    | split
    | with_reducible dsimp only

theorem kvldDo_keeps (s : State) (k : Nat) (d : KvDesc) (h0 : Keeps s0 s) :
    KvKeeps s0 (kvldDo s k d) := by
  unfold kvldDo
  try dsimp only
  repeat' first
    | with_reducible assumption
    | with_reducible apply KvKeeps.status
    | with_reducible apply KvKeeps.wait
    | with_reducible apply KvKeeps.ite
    | with_reducible apply Keeps.ite
    | with_reducible apply translatePages_keeps
    | with_reducible apply readFrames_keeps
    | with_reducible apply tookFree_keeps
    | with_reducible apply modCore_keeps
    | with_reducible refine Keeps.ofPair ?_ (by assumption)
    | split
    | with_reducible dsimp only
    | with_reducible apply Keeps.mk'

theorem makePages_keeps (s : State) (n rc layer hg m p : Nat) (h0 : Keeps s0 s) :
    OptKeeps1 s0 (makePages s n rc layer hg m p) := by
  induction m generalizing s p with
  | zero => intro t a e; unfold makePages at e; cases e; exact h0
  | succ m ih =>
  intro t a e
  unfold makePages at e
  have h2 := translate_keeps s n rc layer hg p h0
  dsimp only at e
  split at e
  · exact ih _ _ h2 _ _ e
  · split at e
    · split at e
      · cases e
      · rename_i s1 hs
        exact ih _ _ ((ensurePage_keeps _ _ _ _ _ h2).get hs) _ _ e
    · cases e; exact h2

theorem markSpec_keeps (s : State) (rc layer hg m p : Nat) (h0 : Keeps s0 s) :
    Keeps s0 (markSpec s rc layer hg m p) := by
  induction m generalizing s p with
  | zero => unfold markSpec; exact h0
  | succ m ih =>
  unfold markSpec
  try dsimp only
  repeat' first
    | with_reducible assumption
    | with_reducible apply Keeps.ite
    | with_reducible apply ih
    | with_reducible apply putPte_keeps
    | split
    | with_reducible apply Keeps.mk'

theorem appendEntries_keeps (s : State) (k : Nat) (c : Core) (d : KvDesc) (p0 : Nat) (pages : Nat) (h0 : Keeps s0 s) :
    Keeps s0 (appendEntries s k c d p0 pages) := by
  unfold appendEntries
  try dsimp only
  repeat' first
    | with_reducible assumption
    | with_reducible intro _
    | with_reducible apply Keeps.ite
    | with_reducible apply Keeps.foldl
    | with_reducible apply flushStg_keeps
    | with_reducible apply modStg_keeps
    | with_reducible apply markSpec_keeps
    | split

theorem kvappDo_keeps (s : State) (k : Nat) (c : Core) (d : KvDesc) (h0 : Keeps s0 s) :
    KvKeeps s0 (kvappDo s k c d) := by
  unfold kvappDo
  try dsimp only
  repeat' first
    | with_reducible assumption
    | with_reducible apply KvKeeps.status
    | with_reducible apply KvKeeps.wait
    | with_reducible apply KvKeeps.ite
    | with_reducible apply Keeps.ite
    | with_reducible apply makePages_keeps
    | with_reducible apply appendEntries_keeps
    | with_reducible refine OptKeeps1.get ?_ (by assumption)
    | split
    | with_reducible dsimp only

theorem kvcmtDo_keeps (s : State) (d : KvDesc) (h0 : Keeps s0 s) :
    KvKeeps s0 (kvcmtDo s d) := by
  unfold kvcmtDo
  try dsimp only
  repeat' first
    | with_reducible assumption
    | with_reducible apply KvKeeps.status
    | with_reducible apply KvKeeps.wait
    | with_reducible apply KvKeeps.ite
    | with_reducible apply Keeps.ite
    | with_reducible apply modAllStg_keeps
    | with_reducible apply setReq_keeps
    | split
    | with_reducible apply Keeps.mk'

theorem kvdropDo_keeps (s : State) (d : KvDesc) (h0 : Keeps s0 s) :
    KvKeeps s0 (kvdropDo s d) := by
  unfold kvdropDo
  try dsimp only
  repeat' first
    | with_reducible assumption
    | with_reducible apply KvKeeps.status
    | with_reducible apply KvKeeps.wait
    | with_reducible apply KvKeeps.ite
    | with_reducible apply Keeps.ite
    | with_reducible apply removeStg_keeps
    | split

theorem execKvld_keeps (k : Nat) (w : FmtT) (s : State) (h0 : Keeps s0 s) :
    OutKeeps s0 (execKvld k w s) := by
  unfold execKvld
  try dsimp only
  repeat' first
    | with_reducible assumption
    | with_reducible intro _
    | with_reducible apply ResKeeps.flt
    | with_reducible apply ResKeeps.ite
    | with_reducible apply ResKeeps.done
    | with_reducible apply ResKeeps.jump
    | with_reducible apply ResKeeps.hold
    | with_reducible apply OutKeeps.next
    | with_reducible apply OutKeeps.fault
    | with_reducible apply OutKeeps.ite
    | with_reducible apply issueT_keeps
    | with_reducible apply kvRun_keeps
    | with_reducible apply kvldDo_keeps
    | with_reducible refine KvKeeps.getStatus ?_ (by assumption)
    | with_reducible refine KvKeeps.getWait ?_ (by assumption)
    | split

theorem execKvapp_keeps (k : Nat) (w : FmtT) (s : State) (h0 : Keeps s0 s) :
    OutKeeps s0 (execKvapp k w s) := by
  unfold execKvapp
  try dsimp only
  repeat' first
    | with_reducible assumption
    | with_reducible intro _
    | with_reducible apply ResKeeps.flt
    | with_reducible apply ResKeeps.ite
    | with_reducible apply ResKeeps.done
    | with_reducible apply ResKeeps.jump
    | with_reducible apply ResKeeps.hold
    | with_reducible apply OutKeeps.next
    | with_reducible apply OutKeeps.fault
    | with_reducible apply OutKeeps.ite
    | with_reducible apply issueT_keeps
    | with_reducible apply kvRun_keeps
    | with_reducible apply kvappDo_keeps
    | with_reducible refine KvKeeps.getStatus ?_ (by assumption)
    | with_reducible refine KvKeeps.getWait ?_ (by assumption)
    | split

theorem execKvcmt_keeps (k : Nat) (w : FmtT) (s : State) (h0 : Keeps s0 s) :
    OutKeeps s0 (execKvcmt k w s) := by
  unfold execKvcmt
  try dsimp only
  repeat' first
    | with_reducible assumption
    | with_reducible intro _
    | with_reducible apply ResKeeps.flt
    | with_reducible apply ResKeeps.ite
    | with_reducible apply ResKeeps.done
    | with_reducible apply ResKeeps.jump
    | with_reducible apply ResKeeps.hold
    | with_reducible apply OutKeeps.next
    | with_reducible apply OutKeeps.fault
    | with_reducible apply OutKeeps.ite
    | with_reducible apply issueT_keeps
    | with_reducible apply kvRun_keeps
    | with_reducible apply kvcmtDo_keeps
    | with_reducible refine KvKeeps.getStatus ?_ (by assumption)
    | with_reducible refine KvKeeps.getWait ?_ (by assumption)
    | split

theorem execKvdrop_keeps (k : Nat) (w : FmtT) (s : State) (h0 : Keeps s0 s) :
    OutKeeps s0 (execKvdrop k w s) := by
  unfold execKvdrop
  try dsimp only
  repeat' first
    | with_reducible assumption
    | with_reducible intro _
    | with_reducible apply ResKeeps.flt
    | with_reducible apply ResKeeps.ite
    | with_reducible apply ResKeeps.done
    | with_reducible apply ResKeeps.jump
    | with_reducible apply ResKeeps.hold
    | with_reducible apply OutKeeps.next
    | with_reducible apply OutKeeps.fault
    | with_reducible apply OutKeeps.ite
    | with_reducible apply issueT_keeps
    | with_reducible apply kvRun_keeps
    | with_reducible apply kvdropDo_keeps
    | with_reducible refine KvKeeps.getStatus ?_ (by assumption)
    | with_reducible refine KvKeeps.getWait ?_ (by assumption)
    | split

theorem importReads_keeps (s : State) (e : DotEntry) (tag : Word) (i : Nat) (l : List ImpRec) (h0 : Keeps s0 s) :
    OptKeeps s0 (importReads s e tag i l) := by
  induction l generalizing s i with
  | nil => unfold importReads; exact OptKeeps.some h0
  | cons r rs ih =>
  unfold importReads
  try dsimp only
  repeat' first
    | with_reducible assumption
    | with_reducible apply OptKeeps.none
    | with_reducible apply OptKeeps.some
    | with_reducible apply OptKeeps.ite
    | with_reducible apply ih
    | with_reducible apply sendItem_keeps
    | with_reducible refine OptKeeps.get ?_ (by assumption)
    | split

theorem importSend_keeps (s : State) (m : Nat) (tag : Word) (h0 : Keeps s0 s) :
    Keeps s0 (importSend s m tag) := by
  unfold importSend
  try dsimp only
  repeat' first
    | with_reducible assumption
    | with_reducible apply importReads_keeps
    | with_reducible apply setDot_keeps
    | with_reducible apply OptKeeps.getD
    | with_reducible refine OptKeeps.get ?_ (by assumption)
    | split
    | with_reducible apply Keeps.mk'

theorem importStart_keeps (x0 : State) (m : Nat) (h0 : Keeps s0 x0) :
    Keeps s0 (importStart x0 m) := by
  unfold importStart
  try dsimp only
  repeat' first
    | with_reducible assumption
    | with_reducible apply Keeps.ite
    | with_reducible apply areaReady_keeps
    | with_reducible apply setDot_keeps
    | with_reducible apply leaveActive_keeps
    | with_reducible apply pocReadEvents_keeps
    | with_reducible apply armLimit_keeps
    | with_reducible apply importSend_keeps
    | with_reducible apply tookTags_keeps
    | with_reducible apply OptKeeps.getD
    | with_reducible refine Keeps.ofPair ?_ (by assumption)
    | split
    | with_reducible dsimp only
    | with_reducible apply Keeps.mk'

theorem importPage_keeps (s : State) (e : DotEntry) (i : Nat) (r : ImpRec) (h0 : Keeps s0 s) :
    Keeps s0 (importPage s e i r) := by
  unfold importPage
  try dsimp only
  repeat' first
    | with_reducible assumption
    | with_reducible intro _
    | with_reducible apply OptKeeps2.none
    | with_reducible apply OptKeeps2.ite
    | with_reducible apply OptKeeps2.some
    | with_reducible apply ensureLeaf_keeps
    | with_reducible apply allocRun_keeps
    | with_reducible apply OptKeeps2.map
    | with_reducible apply OptKeeps2.map2
    | with_reducible apply putPte_keeps
    | with_reducible apply physWrite_keeps
    | with_reducible refine OptKeeps.get ?_ (by assumption)
    | with_reducible refine OptKeeps2.get ?_ (by assumption)
    | split

theorem oweMirror_keeps (s : State) (rc : Nat) (h0 : Keeps s0 s) :
    Keeps s0 (oweMirror s rc) := by
  unfold oweMirror
  try dsimp only
  repeat' first
    | with_reducible assumption
    | with_reducible apply Keeps.ite
    | split
    | with_reducible apply Keeps.mk'

theorem importDone_keeps (s : State) (m : Nat) (h0 : Keeps s0 s) :
    Keeps s0 (importDone s m) := by
  unfold importDone
  try dsimp only
  repeat' first
    | with_reducible assumption
    | with_reducible intro _
    | with_reducible apply Keeps.ite
    | with_reducible apply Keeps.foldl
    | with_reducible apply Keeps.foldl1
    | with_reducible apply armTierTimer_keeps
    | with_reducible apply leaveActive_keeps
    | with_reducible apply failOp_keeps
    | with_reducible apply importPage_keeps
    | with_reducible apply rcPut_keeps
    | with_reducible apply setRcState_keeps
    | with_reducible apply oweMirror_keeps
    | with_reducible apply OptKeeps.getD
    | split
    | with_reducible dsimp only

theorem execKvimp_keeps (k : Nat) (w : FmtT) (s : State) (h0 : Keeps s0 s) :
    OutKeeps s0 (execKvimp k w s) := by
  unfold execKvimp
  try dsimp only
  repeat' first
    | with_reducible assumption
    | with_reducible intro _
    | with_reducible apply ResKeeps.flt
    | with_reducible apply ResKeeps.ite
    | with_reducible apply ResKeeps.done
    | with_reducible apply ResKeeps.jump
    | with_reducible apply ResKeeps.hold
    | with_reducible apply OutKeeps.next
    | with_reducible apply OutKeeps.fault
    | with_reducible apply OutKeeps.ite
    | with_reducible apply issueT_keeps
    | with_reducible apply longStart_keeps
    | with_reducible apply importStart_keeps
    | split

theorem execKvImportDone_keeps (t : Nat) (m : Nat) (s : State) (h0 : Keeps s0 s) :
    OutKeeps s0 (execKvImportDone t m s) := by
  unfold execKvImportDone
  try dsimp only
  repeat' first
    | with_reducible assumption
    | with_reducible intro _
    | with_reducible apply ResKeeps.flt
    | with_reducible apply ResKeeps.ite
    | with_reducible apply ResKeeps.done
    | with_reducible apply ResKeeps.jump
    | with_reducible apply ResKeeps.hold
    | with_reducible apply OutKeeps.next
    | with_reducible apply OutKeeps.fault
    | with_reducible apply OutKeeps.ite
    | with_reducible apply presentUnit_keeps
    | with_reducible apply importDone_keeps
    | split

/-! ## Near.lean -/

/-- The state of a near-bank command's answer keeps what `Keeps` says. -/
def NbKeeps (s : State) : NbOut → Prop
  | .done t _ _ => Keeps s t
  | .wait t => Keeps s t

theorem NbKeeps.done {s t : State} {m n : Nat} (h : Keeps s t) : NbKeeps s (.done t m n) := h
theorem NbKeeps.wait {s t : State} (h : Keeps s t) : NbKeeps s (.wait t) := h
theorem NbKeeps.ite {s : State} {a b : NbOut} {p : Prop} [Decidable p] (ha : NbKeeps s a) (hb : NbKeeps s b) :
    NbKeeps s (if p then a else b) := by split <;> assumption
theorem NbKeeps.getDone {s t : State} {c : NbOut} {m n : Nat} (h : NbKeeps s c) (e : c = .done t m n) : Keeps s t := by
  subst e; exact h
theorem NbKeeps.getWait {s t : State} {c : NbOut} (h : NbKeeps s c) (e : c = .wait t) : Keeps s t := by
  subst e; exact h

theorem nbCountWords_keeps (s : State) (ce : Nat) (ue : Nat) (h0 : Keeps s0 s) :
    Keeps s0 (nbCountWords s ce ue) := by
  unfold nbCountWords
  try dsimp only
  repeat' first
    | with_reducible assumption
    | with_reducible apply countUp_keeps
    | split

theorem nbEvents_keeps (s : State) (f : NbFields) (ws : List Nat) (h0 : Keeps s0 s) :
    Keeps s0 (nbEvents s f ws) := by
  unfold nbEvents
  try dsimp only
  repeat' first
    | with_reducible assumption
    | with_reducible intro _
    | with_reducible apply Keeps.ite
    | with_reducible apply Keeps.foldl
    | with_reducible apply ueEvent_keeps
    | split

theorem nbBlocks_keeps (s : State) (f : NbFields) (all : List (Nat × Nat)) (bs : List (Nat × Nat)) (h0 : Keeps s0 s) :
    Keeps s0 (nbBlocks s f all bs).1 := by
  unfold nbBlocks
  try dsimp only
  repeat' first
    | with_reducible assumption
    | with_reducible apply checkBlocks_keeps
    | with_reducible apply nbEvents_keeps
    | with_reducible apply nbCountWords_keeps
    | with_reducible apply countUp_keeps
    | split
    | with_reducible dsimp only

theorem nbBadWord_keeps (s : State) (f : NbFields) (w : Nat) (h0 : Keeps s0 s) :
    Keeps s0 (nbBadWord s f w) := by
  unfold nbBadWord
  try dsimp only
  repeat' first
    | with_reducible assumption
    | with_reducible apply Keeps.ite
    | with_reducible apply poisonRun_keeps
    | with_reducible apply stepUe_keeps
    | split

theorem nbUe_keeps (s : State) (f : NbFields) (es : List Pte) (ws : List Nat) (h0 : Keeps s0 s) :
    NbKeeps s0 (nbUe s f es ws) := by
  unfold nbUe
  try dsimp only
  repeat' first
    | with_reducible assumption
    | with_reducible intro _
    | with_reducible apply NbKeeps.done
    | with_reducible apply NbKeeps.wait
    | with_reducible apply NbKeeps.ite
    | with_reducible apply Keeps.foldl
    | with_reducible apply nbBadWord_keeps
    | with_reducible apply tookFree_keeps
    | split

theorem nbLatched_keeps (s : State) (m : List Host.Cell) (f : NbFields) (es : List Pte) (h0 : Keeps s0 s) :
    Keeps s0 (nbLatched s m f es) := by
  unfold nbLatched
  try dsimp only
  repeat' first
    | with_reducible assumption
    | with_reducible intro _
    | with_reducible apply Keeps.foldl
    | split
    | with_reducible apply Keeps.mk'

theorem nbCompute_keeps (s : State) (f : NbFields) (es : List Pte) (h0 : Keeps s0 s) :
    NbKeeps s0 (nbCompute s f es) := by
  unfold nbCompute
  try dsimp only
  repeat' first
    | with_reducible assumption
    | with_reducible intro _
    | with_reducible apply NbKeeps.done
    | with_reducible apply NbKeeps.wait
    | with_reducible apply NbKeeps.ite
    | with_reducible apply Keeps.ite
    | with_reducible apply Keeps.foldl
    | with_reducible apply Keeps.foldl1
    | with_reducible apply nbBlocks_keeps
    | with_reducible apply nbCountWords_keeps
    | with_reducible apply pocReadEvents_keeps
    | with_reducible apply nbLatched_keeps
    | with_reducible apply physWrite_keeps
    | with_reducible apply nbUe_keeps
    | with_reducible refine NbKeeps.getDone ?_ (by assumption)
    | with_reducible refine NbKeeps.getWait ?_ (by assumption)
    | with_reducible refine Keeps.ofPair ?_ (by assumption)
    | split
    | with_reducible dsimp only

theorem nbRun_keeps (s : State) (n : Nat) (f : NbFields) (h0 : Keeps s0 s) :
    NbKeeps s0 (nbRun s n f) := by
  unfold nbRun
  try dsimp only
  repeat' first
    | with_reducible assumption
    | with_reducible apply NbKeeps.done
    | with_reducible apply NbKeeps.wait
    | with_reducible apply NbKeeps.ite
    | with_reducible apply Keeps.ite
    | with_reducible apply nbCompute_keeps
    | with_reducible apply translatePages_keeps
    | with_reducible refine NbKeeps.getDone ?_ (by assumption)
    | with_reducible refine NbKeeps.getWait ?_ (by assumption)
    | with_reducible refine Keeps.ofPair ?_ (by assumption)
    | split
    | with_reducible dsimp only

theorem nbCommandFinish_keeps (s : State) (m : Nat) (i : Nat) (h0 : Keeps s0 s) :
    Keeps s0 (nbCommandFinish s m i) := by
  unfold nbCommandFinish
  try dsimp only
  repeat' first
    | with_reducible assumption
    | with_reducible apply Keeps.ite
    | with_reducible apply leaveActive_keeps
    | with_reducible apply nbRun_keeps
    | with_reducible apply physWrite_keeps
    | with_reducible apply startNear_keeps
    | with_reducible apply setDot_keeps
    | with_reducible apply countUp_keeps
    | with_reducible apply addTotal_keeps
    | with_reducible apply addCode_keeps
    | with_reducible apply OptKeeps.getD
    | with_reducible refine NbKeeps.getDone ?_ (by assumption)
    | with_reducible refine NbKeeps.getWait ?_ (by assumption)
    | split
    | with_reducible apply Keeps.mk'

theorem nbDone_keeps (s : State) (m : Nat) (h0 : Keeps s0 s) :
    Keeps s0 (nbDone s m) := by
  unfold nbDone
  try dsimp only
  repeat' first
    | with_reducible assumption
    | with_reducible apply Keeps.ite
    | with_reducible apply leaveActive_keeps
    | with_reducible apply OptKeeps.getD
    | split

theorem nbStart_keeps (s : State) (m : Nat) (h0 : Keeps s0 s) :
    Keeps s0 (nbStart s m) := by
  unfold nbStart
  try dsimp only
  repeat' first
    | with_reducible assumption
    | with_reducible apply Keeps.ite
    | with_reducible apply leaveActive_keeps
    | with_reducible apply pocReadEvents_keeps
    | with_reducible apply modCore_keeps
    | with_reducible apply startNear_keeps
    | with_reducible apply setDot_keeps
    | with_reducible apply OptKeeps.getD
    | with_reducible refine Keeps.ofPair ?_ (by assumption)
    | split
    | with_reducible dsimp only
    | with_reducible apply Keeps.mk'

theorem nbissEff_keeps (s : State) (k : Nat) (w : FmtT) (c : Core) (h0 : Keeps s0 s) :
    ResKeeps s0 (nbissEff s k w c) := by
  unfold nbissEff
  try dsimp only
  repeat' first
    | with_reducible assumption
    | with_reducible intro _
    | with_reducible apply ResKeeps.flt
    | with_reducible apply ResKeeps.ite
    | with_reducible apply ResKeeps.done
    | with_reducible apply ResKeeps.jump
    | with_reducible apply ResKeeps.hold
    | with_reducible apply Keeps.ite
    | with_reducible apply startNone_keeps
    | with_reducible apply longStart_keeps
    | with_reducible apply nbStart_keeps
    | split

theorem nbfncEff_keeps (s : State) (k : Nat) (c : Core) (h0 : Keeps s0 s) :
    ResKeeps s0 (nbfncEff s k c) := by
  unfold nbfncEff
  try dsimp only
  repeat' first
    | with_reducible assumption
    | with_reducible apply ResKeeps.flt
    | with_reducible apply ResKeeps.ite
    | with_reducible apply ResKeeps.done
    | with_reducible apply ResKeeps.jump
    | with_reducible apply ResKeeps.hold
    | with_reducible apply regOp_keeps
    | with_reducible apply OptKeeps.getD
    | split
    | with_reducible apply Keeps.mk'

theorem nbrdEff_keeps (s : State) (k : Nat) (w : FmtT) (c : Core) (h0 : Keeps s0 s) :
    ResKeeps s0 (nbrdEff s k w c) := by
  unfold nbrdEff
  try dsimp only
  repeat' first
    | with_reducible assumption
    | with_reducible apply ResKeeps.flt
    | with_reducible apply ResKeeps.ite
    | with_reducible apply ResKeeps.done
    | with_reducible apply ResKeeps.jump
    | with_reducible apply ResKeeps.hold
    | with_reducible apply Keeps.ite
    | with_reducible apply regOp_keeps
    | with_reducible apply endNbrd_keeps
    | with_reducible apply OptKeeps.getD
    | split
    | with_reducible apply Keeps.mk'

theorem execNbiss_keeps (k : Nat) (w : FmtT) (s : State) (h0 : Keeps s0 s) :
    OutKeeps s0 (execNbiss k w s) := by
  unfold execNbiss
  try dsimp only
  repeat' first
    | with_reducible assumption
    | with_reducible intro _
    | with_reducible apply ResKeeps.flt
    | with_reducible apply ResKeeps.ite
    | with_reducible apply ResKeeps.done
    | with_reducible apply ResKeeps.jump
    | with_reducible apply ResKeeps.hold
    | with_reducible apply OutKeeps.next
    | with_reducible apply OutKeeps.fault
    | with_reducible apply OutKeeps.ite
    | with_reducible apply issueT_keeps
    | with_reducible apply nbissEff_keeps
    | split

theorem execNbfnc_keeps (k : Nat) (w : FmtT) (s : State) (h0 : Keeps s0 s) :
    OutKeeps s0 (execNbfnc k w s) := by
  unfold execNbfnc
  try dsimp only
  repeat' first
    | with_reducible assumption
    | with_reducible intro _
    | with_reducible apply ResKeeps.flt
    | with_reducible apply ResKeeps.ite
    | with_reducible apply ResKeeps.done
    | with_reducible apply ResKeeps.jump
    | with_reducible apply ResKeeps.hold
    | with_reducible apply OutKeeps.next
    | with_reducible apply OutKeeps.fault
    | with_reducible apply OutKeeps.ite
    | with_reducible apply issueT_keeps
    | with_reducible apply nbfncEff_keeps
    | split

theorem execNbrd_keeps (k : Nat) (w : FmtT) (s : State) (h0 : Keeps s0 s) :
    OutKeeps s0 (execNbrd k w s) := by
  unfold execNbrd
  try dsimp only
  repeat' first
    | with_reducible assumption
    | with_reducible intro _
    | with_reducible apply ResKeeps.flt
    | with_reducible apply ResKeeps.ite
    | with_reducible apply ResKeeps.done
    | with_reducible apply ResKeeps.jump
    | with_reducible apply ResKeeps.hold
    | with_reducible apply OutKeeps.next
    | with_reducible apply OutKeeps.fault
    | with_reducible apply OutKeeps.ite
    | with_reducible apply issueT_keeps
    | with_reducible apply nbrdEff_keeps
    | split

theorem execNearBankCommandFinish_keeps (t : Nat) (m : Nat) (i : Nat) (s : State) (h0 : Keeps s0 s) :
    OutKeeps s0 (execNearBankCommandFinish t m i s) := by
  unfold execNearBankCommandFinish
  try dsimp only
  repeat' first
    | with_reducible assumption
    | with_reducible intro _
    | with_reducible apply ResKeeps.flt
    | with_reducible apply ResKeeps.ite
    | with_reducible apply ResKeeps.done
    | with_reducible apply ResKeeps.jump
    | with_reducible apply ResKeeps.hold
    | with_reducible apply OutKeeps.next
    | with_reducible apply OutKeeps.fault
    | with_reducible apply OutKeeps.ite
    | with_reducible apply presentUnit_keeps
    | with_reducible apply nbCommandFinish_keeps
    | split

theorem execNearBankDone_keeps (t : Nat) (m : Nat) (s : State) (h0 : Keeps s0 s) :
    OutKeeps s0 (execNearBankDone t m s) := by
  unfold execNearBankDone
  try dsimp only
  repeat' first
    | with_reducible assumption
    | with_reducible intro _
    | with_reducible apply ResKeeps.flt
    | with_reducible apply ResKeeps.ite
    | with_reducible apply ResKeeps.done
    | with_reducible apply ResKeeps.jump
    | with_reducible apply ResKeeps.hold
    | with_reducible apply OutKeeps.next
    | with_reducible apply OutKeeps.fault
    | with_reducible apply OutKeeps.ite
    | with_reducible apply presentUnit_keeps
    | with_reducible apply nbDone_keeps
    | split

/-! ## Coll.lean -/

theorem setColl_keeps (s : State) (m : Nat) (f : Coll → Coll) (h0 : Keeps s0 s) :
    Keeps s0 (setColl s m f) := by
  unfold setColl
  try dsimp only
  repeat' first
    | with_reducible assumption
    | with_reducible apply setDot_keeps
    | with_reducible apply OptKeeps.getD
    | split
    | with_reducible apply Keeps.mk'

theorem compareDigest_keeps (s : State) (k : Word × Nat × Nat × Nat × List Byte) (h0 : Keeps s0 s) :
    Keeps s0 (compareDigest s k) := by
  unfold compareDigest
  try dsimp only
  repeat' first
    | with_reducible assumption
    | with_reducible apply Keeps.ite
    | split
    | with_reducible dsimp only
    | with_reducible apply Keeps.mk'

theorem keepDigest_keeps (s : State) (k : Word × Nat × Nat × Nat × List Byte) (h0 : Keeps s0 s) :
    Keeps s0 (keepDigest s k) := by
  unfold keepDigest
  try dsimp only
  repeat' first
    | with_reducible assumption
    | split
    | with_reducible dsimp only
    | with_reducible apply Keeps.mk'

theorem logDigest_keeps (s : State) (m : Nat) (digest : List Byte) (sender : Nat) (chunk : Nat) (piece : Nat) (h0 : Keeps s0 s) :
    Keeps s0 (logDigest s m digest sender chunk piece) := by
  unfold logDigest
  try dsimp only
  repeat' first
    | with_reducible assumption
    | with_reducible apply Keeps.ite
    | with_reducible apply failOp_keeps
    | with_reducible apply physWrite_keeps
    | with_reducible apply setColl_keeps
    | with_reducible apply keepDigest_keeps
    | with_reducible apply compareDigest_keeps
    | with_reducible apply OptKeeps.getD
    | split
    | with_reducible apply Keeps.mk'

theorem sendPiece_keeps (s : State) (c : Coll) (x : CollSent) (h0 : Keeps s0 s) :
    Keeps s0 (sendPiece s c x).1 := by
  unfold sendPiece
  try dsimp only
  repeat' first
    | with_reducible assumption
    | with_reducible apply sendItem_keeps
    | with_reducible refine OptKeeps.get ?_ (by assumption)
    | split
    | with_reducible apply Keeps.mk'

theorem sendPieces_keeps (s : State) (m : Nat) (l : List CollSent) (h0 : Keeps s0 s) :
    Keeps s0 (sendPieces s m l) := by
  induction l generalizing s with
  | nil => unfold sendPieces; exact h0
  | cons x xs ih =>
  unfold sendPieces
  try dsimp only
  repeat' first
    | with_reducible assumption
    | with_reducible apply Keeps.ite
    | with_reducible apply ih
    | with_reducible apply sendPiece_keeps
    | with_reducible apply setColl_keeps
    | with_reducible apply logDigest_keeps
    | with_reducible apply OptKeeps.getD
    | split
    | with_reducible dsimp only
    | with_reducible apply Keeps.mk'

theorem trySum_keeps (s : State) (m : Nat) (h0 : Keeps s0 s) :
    Keeps s0 (trySum s m) := by
  unfold trySum
  try dsimp only
  repeat' first
    | with_reducible assumption
    | with_reducible apply Keeps.ite
    | with_reducible apply setColl_keeps
    | with_reducible apply physWrite_keeps
    | with_reducible apply sendPieces_keeps
    | with_reducible apply OptKeeps.getD
    | split
    | with_reducible apply Keeps.mk'

theorem collBegin_keeps (s : State) (m : Nat) (h0 : Keeps s0 s) :
    Keeps s0 (collBegin s m) := by
  unfold collBegin
  try dsimp only
  repeat' first
    | with_reducible assumption
    | with_reducible intro _
    | with_reducible apply Keeps.ite
    | with_reducible apply Keeps.foldl
    | with_reducible apply Keeps.foldl1
    | with_reducible apply readReady_keeps
    | with_reducible apply failOp_keeps
    | with_reducible apply physWrite_keeps
    | with_reducible apply setColl_keeps
    | with_reducible apply trySum_keeps
    | with_reducible apply sendPieces_keeps
    | with_reducible apply OptKeeps.getD
    | with_reducible refine Keeps.ofPair ?_ (by assumption)
    | split
    | with_reducible dsimp only
    | with_reducible apply Keeps.mk'

theorem markLinks_keeps (s : State) (h0 : Keeps s0 s) :
    Keeps s0 (markLinks s) := by
  unfold markLinks
  try dsimp only
  repeat' first
    | with_reducible assumption
    | split
    | with_reducible apply Keeps.mk'

theorem startTag_keeps (s : State) (tag : Word) (h0 : Keeps s0 s) :
    Keeps s0 (startTag s tag) := by
  unfold startTag
  try dsimp only
  repeat' first
    | with_reducible assumption
    | split
    | with_reducible apply Keeps.mk'

theorem collStart_keeps (x0 : State) (m : Nat) (h0 : Keeps s0 x0) :
    Keeps s0 (collStart x0 m) := by
  unfold collStart
  try dsimp only
  repeat' first
    | with_reducible assumption
    | with_reducible apply Keeps.ite
    | with_reducible apply areaReady_keeps
    | with_reducible apply setDot_keeps
    | with_reducible apply leaveActive_keeps
    | with_reducible apply pocReadEvents_keeps
    | with_reducible apply collBegin_keeps
    | with_reducible apply startTag_keeps
    | with_reducible apply markLinks_keeps
    | with_reducible apply OptKeeps.getD
    | with_reducible refine Keeps.ofPair ?_ (by assumption)
    | split
    | with_reducible dsimp only
    | with_reducible apply Keeps.mk'

theorem sendAnswer_keeps (s : State) (x : Slot) (h0 : Keeps s0 s) :
    Keeps s0 (sendAnswer s x) := by
  unfold sendAnswer
  try dsimp only
  repeat' first
    | with_reducible assumption
    | with_reducible apply sendSide_keeps
    | with_reducible apply OptKeeps.getD
    | with_reducible refine OptKeeps.get ?_ (by assumption)
    | split

theorem collMismatch_keeps (s : State) (m : Nat) (sender : Nat) (chunk : Nat) (piece : Nat) (h0 : Keeps s0 s) :
    Keeps s0 (collMismatch s m sender chunk piece) := by
  unfold collMismatch
  try dsimp only
  repeat' first
    | with_reducible assumption
    | with_reducible intro _
    | with_reducible apply Keeps.foldl
    | with_reducible apply failOp_keeps
    | with_reducible apply countUp_keeps
    | with_reducible apply sendAnswer_keeps
    | with_reducible apply OptKeeps.getD
    | split

theorem noteEarly_keeps (s : State) (x : Slot) (h0 : Keeps s0 s) :
    Keeps s0 (noteEarly s x) := by
  unfold noteEarly
  try dsimp only
  repeat' first
    | with_reducible assumption
    | with_reducible apply Keeps.ite
    | split
    | with_reducible apply Keeps.mk'

theorem collData_keeps (s : State) (x : Slot) (h0 : Keeps s0 s) :
    Keeps s0 (collData s x) := by
  unfold collData
  try dsimp only
  repeat' first
    | with_reducible assumption
    | with_reducible apply Keeps.ite
    | with_reducible apply noteEarly_keeps
    | with_reducible apply setColl_keeps
    | with_reducible apply physWrite_keeps
    | with_reducible apply OptKeeps.getD
    | split
    | with_reducible dsimp only
    | with_reducible apply Keeps.mk'

theorem collDigest_keeps (x0 : State) (x : Slot) (h0 : Keeps s0 x0) :
    Keeps s0 (collDigest x0 x) := by
  unfold collDigest
  try dsimp only
  repeat' first
    | with_reducible assumption
    | with_reducible apply Keeps.ite
    | with_reducible apply sendAnswer_keeps
    | with_reducible apply collMismatch_keeps
    | with_reducible apply setColl_keeps
    | with_reducible apply trySum_keeps
    | with_reducible apply logDigest_keeps
    | with_reducible apply OptKeeps.getD
    | split
    | with_reducible apply Keeps.mk'

theorem collAck_keeps (s : State) (x : Slot) (h0 : Keeps s0 s) :
    Keeps s0 (collAck s x) := by
  unfold collAck
  try dsimp only
  repeat' first
    | with_reducible assumption
    | with_reducible apply setColl_keeps
    | split
    | with_reducible apply Keeps.mk'

theorem collFailIn_keeps (s : State) (x : Slot) (h0 : Keeps s0 s) :
    Keeps s0 (collFailIn s x) := by
  unfold collFailIn
  try dsimp only
  repeat' first
    | with_reducible assumption
    | with_reducible apply failOp_keeps
    | split

theorem collRefused_keeps (s : State) (x : Slot) (h0 : Keeps s0 s) :
    Keeps s0 (collRefused s x) := by
  unfold collRefused
  try dsimp only
  repeat' first
    | with_reducible assumption
    | with_reducible apply Keeps.ite
    | with_reducible apply setColl_keeps
    | split
    | with_reducible apply Keeps.mk'

theorem resend_keeps (s : State) (m : Nat) (p : CollSent → Bool) (h0 : Keeps s0 s) :
    Keeps s0 (resend s m p) := by
  unfold resend
  try dsimp only
  repeat' first
    | with_reducible assumption
    | with_reducible intro _
    | with_reducible apply Keeps.ite
    | with_reducible apply Keeps.foldl
    | with_reducible apply Keeps.foldl1
    | with_reducible apply sendPiece_keeps
    | with_reducible apply setColl_keeps
    | with_reducible apply OptKeeps.getD
    | split
    | with_reducible dsimp only
    | with_reducible apply Keeps.mk'

theorem holdPieces_keeps (s : State) (tag : Word) (h0 : Keeps s0 s) :
    Keeps s0 (holdPieces s tag) := by
  unfold holdPieces
  try dsimp only
  repeat' first
    | with_reducible assumption
    | split
    | with_reducible apply Keeps.mk'

theorem collDone_keeps (s : State) (m : Nat) (h0 : Keeps s0 s) :
    Keeps s0 (collDone s m) := by
  unfold collDone
  try dsimp only
  repeat' first
    | with_reducible assumption
    | with_reducible apply Keeps.ite
    | with_reducible apply collBegin_keeps
    | with_reducible apply failOp_keeps
    | with_reducible apply moveUnits_keeps
    | with_reducible apply leaveActive_keeps
    | with_reducible apply holdPieces_keeps
    | with_reducible apply setDot_keeps
    | with_reducible apply OptKeeps.getD
    | with_reducible refine Keeps.ofPair ?_ (by assumption)
    | split
    | with_reducible dsimp only
    | with_reducible apply Keeps.mk'

theorem rputEff_keeps (s : State) (w : FmtT) (c : Core) (h0 : Keeps s0 s) :
    ResKeeps s0 (rputEff s w c) := by
  unfold rputEff
  try dsimp only
  repeat' first
    | with_reducible assumption
    | with_reducible apply ResKeeps.flt
    | with_reducible apply ResKeeps.ite
    | with_reducible apply ResKeeps.done
    | with_reducible apply ResKeeps.jump
    | with_reducible apply ResKeeps.hold
    | with_reducible apply Keeps.ite
    | with_reducible apply sendRput_keeps
    | with_reducible apply markLinks_keeps
    | split

theorem execRput_keeps (k : Nat) (w : FmtT) (s : State) (h0 : Keeps s0 s) :
    OutKeeps s0 (execRput k w s) := by
  unfold execRput
  try dsimp only
  repeat' first
    | with_reducible assumption
    | with_reducible intro _
    | with_reducible apply ResKeeps.flt
    | with_reducible apply ResKeeps.ite
    | with_reducible apply ResKeeps.done
    | with_reducible apply ResKeeps.jump
    | with_reducible apply ResKeeps.hold
    | with_reducible apply OutKeeps.next
    | with_reducible apply OutKeeps.fault
    | with_reducible apply OutKeeps.ite
    | with_reducible apply issueT_keeps
    | with_reducible apply rputEff_keeps
    | split

theorem execColl_keeps (k : Nat) (w : FmtT) (s : State) (h0 : Keeps s0 s) :
    OutKeeps s0 (execColl k w s) := by
  unfold execColl
  try dsimp only
  repeat' first
    | with_reducible assumption
    | with_reducible intro _
    | with_reducible apply ResKeeps.flt
    | with_reducible apply ResKeeps.ite
    | with_reducible apply ResKeeps.done
    | with_reducible apply ResKeeps.jump
    | with_reducible apply ResKeeps.hold
    | with_reducible apply OutKeeps.next
    | with_reducible apply OutKeeps.fault
    | with_reducible apply OutKeeps.ite
    | with_reducible apply issueT_keeps
    | with_reducible apply longStart_keeps
    | with_reducible apply collStart_keeps
    | split

theorem execCollectiveDone_keeps (t : Nat) (m : Nat) (s : State) (h0 : Keeps s0 s) :
    OutKeeps s0 (execCollectiveDone t m s) := by
  unfold execCollectiveDone
  try dsimp only
  repeat' first
    | with_reducible assumption
    | with_reducible intro _
    | with_reducible apply ResKeeps.flt
    | with_reducible apply ResKeeps.ite
    | with_reducible apply ResKeeps.done
    | with_reducible apply ResKeeps.jump
    | with_reducible apply ResKeeps.hold
    | with_reducible apply OutKeeps.next
    | with_reducible apply OutKeeps.fault
    | with_reducible apply OutKeeps.ite
    | with_reducible apply presentUnit_keeps
    | with_reducible apply collDone_keeps
    | split

theorem execPieceResend_keeps (t : Nat) (m : Nat) (dest : Nat) (chunk : Nat) (piece : Nat) (s : State) (h0 : Keeps s0 s) :
    OutKeeps s0 (execPieceResend t m dest chunk piece s) := by
  unfold execPieceResend
  try dsimp only
  repeat' first
    | with_reducible assumption
    | with_reducible intro _
    | with_reducible apply ResKeeps.flt
    | with_reducible apply ResKeeps.ite
    | with_reducible apply ResKeeps.done
    | with_reducible apply ResKeeps.jump
    | with_reducible apply ResKeeps.hold
    | with_reducible apply OutKeeps.next
    | with_reducible apply OutKeeps.fault
    | with_reducible apply OutKeeps.ite
    | with_reducible apply Keeps.ite
    | with_reducible apply presentUnit_keeps
    | with_reducible apply resend_keeps
    | with_reducible apply OptKeeps.getD
    | split

theorem execNotReadyRetry_keeps (t : Nat) (m : Nat) (dest : Nat) (chunk : Nat) (piece : Nat) (s : State) (h0 : Keeps s0 s) :
    OutKeeps s0 (execNotReadyRetry t m dest chunk piece s) := by
  unfold execNotReadyRetry
  try dsimp only
  repeat' first
    | with_reducible assumption
    | with_reducible intro _
    | with_reducible apply ResKeeps.flt
    | with_reducible apply ResKeeps.ite
    | with_reducible apply ResKeeps.done
    | with_reducible apply ResKeeps.jump
    | with_reducible apply ResKeeps.hold
    | with_reducible apply OutKeeps.next
    | with_reducible apply OutKeeps.fault
    | with_reducible apply OutKeeps.ite
    | with_reducible apply Keeps.ite
    | with_reducible apply presentUnit_keeps
    | with_reducible apply resend_keeps
    | with_reducible apply OptKeeps.getD
    | split

theorem execRouteRetry_keeps (t : Nat) (m : Nat) (s : State) (h0 : Keeps s0 s) :
    OutKeeps s0 (execRouteRetry t m s) := by
  unfold execRouteRetry
  try dsimp only
  repeat' first
    | with_reducible assumption
    | with_reducible intro _
    | with_reducible apply ResKeeps.flt
    | with_reducible apply ResKeeps.ite
    | with_reducible apply ResKeeps.done
    | with_reducible apply ResKeeps.jump
    | with_reducible apply ResKeeps.hold
    | with_reducible apply OutKeeps.next
    | with_reducible apply OutKeeps.fault
    | with_reducible apply OutKeeps.ite
    | with_reducible apply Keeps.ite
    | with_reducible apply presentUnit_keeps
    | with_reducible apply resend_keeps
    | with_reducible apply importSend_keeps
    | with_reducible apply sendReads_keeps
    | with_reducible apply setDot_keeps
    | with_reducible apply OptKeeps.getD
    | with_reducible refine OptKeeps.get ?_ (by assumption)
    | split
    | with_reducible apply Keeps.mk'

/-! ## Stop.lean -/

theorem stopTransfer_keeps (s : State) (m : Nat) (h0 : Keeps s0 s) :
    Keeps s0 (stopTransfer s m) := by
  unfold stopTransfer
  try dsimp only
  repeat' first
    | with_reducible assumption
    | with_reducible apply Keeps.ite
    | with_reducible apply moveUnits_keeps
    | with_reducible apply tookFree_keeps
    | with_reducible apply setDot_keeps
    | with_reducible apply OptKeeps.getD
    | split
    | with_reducible dsimp only
    | with_reducible apply Keeps.mk'

theorem stopNear_keeps (s : State) (m : Nat) (h0 : Keeps s0 s) :
    Keeps s0 (stopNear s m) := by
  unfold stopNear
  try dsimp only
  repeat' first
    | with_reducible assumption
    | with_reducible intro _
    | with_reducible apply Keeps.ite
    | with_reducible apply Keeps.foldl
    | with_reducible apply nbRun_keeps
    | with_reducible apply physWrite_keeps
    | with_reducible apply tookFree_keeps
    | with_reducible apply OptKeeps.getD
    | with_reducible refine NbKeeps.getDone ?_ (by assumption)
    | with_reducible refine NbKeeps.getWait ?_ (by assumption)
    | split
    | with_reducible apply Keeps.mk'

theorem stopRange_keeps (s : State) (m : Nat) (h0 : Keeps s0 s) :
    Keeps s0 (stopRange s m) := by
  unfold stopRange
  try dsimp only
  repeat' first
    | with_reducible assumption
    | with_reducible apply Keeps.ite
    | with_reducible apply actLines_keeps
    | with_reducible apply tookFree_keeps
    | with_reducible apply OptKeeps.getD
    | split
    | with_reducible dsimp only

theorem stopEffect_keeps (s : State) (m : Nat) (h0 : Keeps s0 s) :
    Keeps s0 (stopEffect s m) := by
  unfold stopEffect
  try dsimp only
  repeat' first
    | with_reducible assumption
    | with_reducible apply Keeps.ite
    | with_reducible apply stopTransfer_keeps
    | with_reducible apply stopNear_keeps
    | with_reducible apply stopRange_keeps
    | with_reducible apply OptKeeps.getD
    | split

theorem stopOp_keeps (s : State) (m : Nat) (st : DotState) (result : Nat) (h0 : Keeps s0 s) :
    Keeps s0 (stopOp s m st result) := by
  unfold stopOp
  try dsimp only
  repeat' first
    | with_reducible assumption
    | with_reducible apply Keeps.ite
    | with_reducible apply armTierTimer_keeps
    | with_reducible apply leaveActive_keeps
    | with_reducible apply stopEffect_keeps
    | with_reducible apply OptKeeps.getD
    | split

theorem dotcanEff_keeps (s : State) (k : Nat) (w : FmtT) (c : Core) (h0 : Keeps s0 s) :
    ResKeeps s0 (dotcanEff s k w c) := by
  unfold dotcanEff
  try dsimp only
  repeat' first
    | with_reducible assumption
    | with_reducible intro _
    | with_reducible apply ResKeeps.flt
    | with_reducible apply ResKeeps.ite
    | with_reducible apply ResKeeps.done
    | with_reducible apply ResKeeps.jump
    | with_reducible apply ResKeeps.hold
    | with_reducible apply Keeps.ite
    | with_reducible apply withEntry_keeps
    | with_reducible apply stopOp_keeps
    | with_reducible apply regOp_keeps
    | with_reducible apply addCode_keeps
    | with_reducible apply OptKeeps.getD
    | split

theorem opFails_keeps (s : State) (m : Nat) (why : OpFailure) (h0 : Keeps s0 s) :
    Keeps s0 (opFails s m why) := by
  unfold opFails
  try dsimp only
  repeat' first
    | with_reducible assumption
    | with_reducible apply Keeps.ite
    | with_reducible apply collMismatch_keeps
    | with_reducible apply armTierTimer_keeps
    | with_reducible apply failOp_keeps
    | with_reducible apply stopEffect_keeps
    | with_reducible apply OptKeeps.getD
    | split

theorem opDeadline_keeps (s : State) (m : Nat) (h0 : Keeps s0 s) :
    Keeps s0 (opDeadline s m) := by
  unfold opDeadline
  try dsimp only
  repeat' first
    | with_reducible assumption
    | with_reducible apply Keeps.ite
    | with_reducible apply stopOp_keeps
    | with_reducible apply OptKeeps.getD
    | split

theorem lateReqs_keeps (s : State) (h0 : Keeps s0 s) :
    Keeps s0 (lateReqs s) := by
  unfold lateReqs
  try dsimp only
  repeat' first
    | with_reducible assumption
    | with_reducible intro _
    | with_reducible apply Keeps.ite
    | with_reducible apply Keeps.foldl
    | with_reducible apply Keeps.foldl1
    | with_reducible apply addCode_keeps
    | with_reducible apply setReq_keeps
    | split
    | with_reducible dsimp only
    | with_reducible apply Keeps.mk'

theorem tierLate_keeps (s : State) (h0 : Keeps s0 s) :
    Keeps s0 (tierLate s) := by
  unfold tierLate
  try dsimp only
  repeat' first
    | with_reducible assumption
    | with_reducible intro _
    | with_reducible apply Keeps.ite
    | with_reducible apply Keeps.foldl
    | with_reducible apply Keeps.foldl1
    | with_reducible apply armTierTimer_keeps
    | with_reducible apply lateReqs_keeps
    | with_reducible apply stopOp_keeps
    | split
    | with_reducible dsimp only

theorem watchdog_keeps (s : State) (h0 : Keeps s0 s) :
    Keeps s0 (watchdog s) := by
  unfold watchdog
  try dsimp only
  repeat' first
    | with_reducible assumption
    | with_reducible intro _
    | with_reducible apply Keeps.ite
    | with_reducible apply overCores_keeps
    | with_reducible apply operatorFault_keeps
    | split
    | with_reducible apply Keeps.mk'

theorem partEnd_keeps (s : State) (k : Nat) (h0 : Keeps s0 s) :
    Keeps s0 (partEnd s k) := by
  unfold partEnd
  try dsimp only
  repeat' first
    | with_reducible assumption
    | with_reducible apply Keeps.ite
    | with_reducible apply modCore_keeps
    | with_reducible apply flushStg_keeps
    | split
    | with_reducible apply Keeps.mk'

theorem execDotcan_keeps (k : Nat) (w : FmtT) (s : State) (h0 : Keeps s0 s) :
    OutKeeps s0 (execDotcan k w s) := by
  unfold execDotcan
  try dsimp only
  repeat' first
    | with_reducible assumption
    | with_reducible intro _
    | with_reducible apply ResKeeps.flt
    | with_reducible apply ResKeeps.ite
    | with_reducible apply ResKeeps.done
    | with_reducible apply ResKeeps.jump
    | with_reducible apply ResKeeps.hold
    | with_reducible apply OutKeeps.next
    | with_reducible apply OutKeeps.fault
    | with_reducible apply OutKeeps.ite
    | with_reducible apply issueT_keeps
    | with_reducible apply dotcanEff_keeps
    | split

theorem execOperationFailed_keeps (t : Nat) (m : Nat) (why : OpFailure) (s : State) (h0 : Keeps s0 s) :
    OutKeeps s0 (execOperationFailed t m why s) := by
  unfold execOperationFailed
  try dsimp only
  repeat' first
    | with_reducible assumption
    | with_reducible intro _
    | with_reducible apply ResKeeps.flt
    | with_reducible apply ResKeeps.ite
    | with_reducible apply ResKeeps.done
    | with_reducible apply ResKeeps.jump
    | with_reducible apply ResKeeps.hold
    | with_reducible apply OutKeeps.next
    | with_reducible apply OutKeeps.fault
    | with_reducible apply OutKeeps.ite
    | with_reducible apply presentUnit_keeps
    | with_reducible apply opFails_keeps
    | split

theorem execOperationDeadline_keeps (t : Nat) (m : Nat) (s : State) (h0 : Keeps s0 s) :
    OutKeeps s0 (execOperationDeadline t m s) := by
  unfold execOperationDeadline
  try dsimp only
  repeat' first
    | with_reducible assumption
    | with_reducible intro _
    | with_reducible apply ResKeeps.flt
    | with_reducible apply ResKeeps.ite
    | with_reducible apply ResKeeps.done
    | with_reducible apply ResKeeps.jump
    | with_reducible apply ResKeeps.hold
    | with_reducible apply OutKeeps.next
    | with_reducible apply OutKeeps.fault
    | with_reducible apply OutKeeps.ite
    | with_reducible apply presentUnit_keeps
    | with_reducible apply opDeadline_keeps
    | split

theorem execTierWaitLimit_keeps (t : Nat) (s : State) (h0 : Keeps s0 s) :
    OutKeeps s0 (execTierWaitLimit t s) := by
  unfold execTierWaitLimit
  try dsimp only
  repeat' first
    | with_reducible assumption
    | with_reducible intro _
    | with_reducible apply ResKeeps.flt
    | with_reducible apply ResKeeps.ite
    | with_reducible apply ResKeeps.done
    | with_reducible apply ResKeeps.jump
    | with_reducible apply ResKeeps.hold
    | with_reducible apply OutKeeps.next
    | with_reducible apply OutKeeps.fault
    | with_reducible apply OutKeeps.ite
    | with_reducible apply Keeps.ite
    | with_reducible apply present_keeps
    | with_reducible apply tierLate_keeps
    | split

theorem execStepWatchdog_keeps (t : Nat) (s : State) (h0 : Keeps s0 s) :
    OutKeeps s0 (execStepWatchdog t s) := by
  unfold execStepWatchdog
  try dsimp only
  repeat' first
    | with_reducible assumption
    | with_reducible intro _
    | with_reducible apply ResKeeps.flt
    | with_reducible apply ResKeeps.ite
    | with_reducible apply ResKeeps.done
    | with_reducible apply ResKeeps.jump
    | with_reducible apply ResKeeps.hold
    | with_reducible apply OutKeeps.next
    | with_reducible apply OutKeeps.fault
    | with_reducible apply OutKeeps.ite
    | with_reducible apply Keeps.ite
    | with_reducible apply present_keeps
    | with_reducible apply watchdog_keeps
    | split

theorem execCorePartEnd_keeps (t : Nat) (k : Nat) (s : State) (h0 : Keeps s0 s) :
    OutKeeps s0 (execCorePartEnd t k s) := by
  unfold execCorePartEnd
  try dsimp only
  repeat' first
    | with_reducible assumption
    | with_reducible intro _
    | with_reducible apply ResKeeps.flt
    | with_reducible apply ResKeeps.ite
    | with_reducible apply ResKeeps.done
    | with_reducible apply ResKeeps.jump
    | with_reducible apply ResKeeps.hold
    | with_reducible apply OutKeeps.next
    | with_reducible apply OutKeeps.fault
    | with_reducible apply OutKeeps.ite
    | with_reducible apply presentUnit_keeps
    | with_reducible apply partEnd_keeps
    | split

/-! ## Token.lean -/

theorem chargeTenant_keeps (s : State) (t : Nat) (c : Nat) (h0 : Keeps s0 s) :
    Keeps s0 (chargeTenant s t c) := by
  unfold chargeTenant
  try dsimp only
  repeat' first
    | with_reducible assumption
    | with_reducible apply Keeps.ite
    | with_reducible apply tenPut_keeps
    | split
    | with_reducible apply Keeps.mk'

theorem confirmTokens_keeps (s : State) (rc : Nat) (named : List Word32) (h0 : Keeps s0 s) :
    Keeps s0 (confirmTokens s rc named).1 := by
  unfold confirmTokens
  try dsimp only
  repeat' first
    | with_reducible assumption
    | with_reducible apply Keeps.ite1
    | with_reducible apply Keeps.ite
    | with_reducible apply countUp_keeps
    | with_reducible apply chargeTenant_keeps
    | with_reducible apply setReq_keeps
    | with_reducible apply rcPut_keeps
    | with_reducible apply addTotal_keeps
    | with_reducible apply tenPut_keeps
    | with_reducible apply addCode_keeps
    | split
    | with_reducible dsimp only
    | with_reducible apply Keeps.mk'

theorem recordMayfly_keeps (s : State) (rc : Nat) (tok : Word32) (h0 : Keeps s0 s) :
    Keeps s0 (recordMayfly s rc tok).1 := by
  unfold recordMayfly
  try dsimp only
  repeat' first
    | with_reducible assumption
    | with_reducible apply Keeps.ite1
    | with_reducible apply Keeps.ite
    | with_reducible apply rcPut_keeps
    | with_reducible apply setReq_keeps
    | with_reducible apply tenPut_keeps
    | split
    | with_reducible apply Keeps.mk'

theorem temit_keeps (s : State) (rc : Nat) (spec : Bool) (tok : Word32) (h0 : Keeps s0 s) :
    Keeps s0 (temit s rc spec tok).1 := by
  unfold temit
  try dsimp only
  repeat' first
    | with_reducible assumption
    | with_reducible apply Keeps.ite1
    | with_reducible apply Keeps.ite
    | with_reducible apply recordMayfly_keeps
    | with_reducible apply confirmTokens_keeps
    | with_reducible refine Keeps.ofPair ?_ (by assumption)
    | split

theorem dropMayflies_keeps (s : State) (rc : Nat) (h0 : Keeps s0 s) :
    Keeps s0 (dropMayflies s rc) := by
  unfold dropMayflies
  try dsimp only
  repeat' first
    | with_reducible assumption
    | with_reducible apply Keeps.ite
    | with_reducible apply setReq_keeps
    | with_reducible apply rcPut_keeps
    | split
    | with_reducible apply Keeps.mk'

theorem tverify_keeps (s : State) (rc : Nat) (n : Nat) (tok : Word32) (h0 : Keeps s0 s) :
    Keeps s0 (tverify s rc n tok).1 := by
  unfold tverify
  try dsimp only
  repeat' first
    | with_reducible assumption
    | with_reducible apply Keeps.ite1
    | with_reducible apply Keeps.ite
    | with_reducible apply modAllStg_keeps
    | with_reducible apply removeStg_keeps
    | with_reducible apply dropMayflies_keeps
    | with_reducible apply setReq_keeps
    | with_reducible apply confirmTokens_keeps
    | with_reducible refine Keeps.ofPair ?_ (by assumption)
    | split
    | with_reducible dsimp only
    | with_reducible apply Keeps.mk'

theorem tokenRes_keeps (s : State) (k : Nat) (w : FmtT) (r : State × Nat) (h : Keeps s0 r.1) :
    ResKeeps s0 (tokenRes k w r) := by
  unfold tokenRes
  exact regOp_keeps _ _ _ h

theorem execTemit_keeps (k : Nat) (w : FmtT) (s : State) (h0 : Keeps s0 s) :
    OutKeeps s0 (execTemit k w s) := by
  unfold execTemit
  try dsimp only
  repeat' first
    | with_reducible assumption
    | with_reducible intro _
    | with_reducible apply ResKeeps.flt
    | with_reducible apply ResKeeps.ite
    | with_reducible apply ResKeeps.done
    | with_reducible apply ResKeeps.jump
    | with_reducible apply ResKeeps.hold
    | with_reducible apply OutKeeps.next
    | with_reducible apply OutKeeps.fault
    | with_reducible apply OutKeeps.ite
    | with_reducible apply issueT_keeps
    | with_reducible apply tokenRes_keeps
    | with_reducible apply temit_keeps
    | split

theorem execTverify_keeps (k : Nat) (w : FmtT) (s : State) (h0 : Keeps s0 s) :
    OutKeeps s0 (execTverify k w s) := by
  unfold execTverify
  try dsimp only
  repeat' first
    | with_reducible assumption
    | with_reducible intro _
    | with_reducible apply ResKeeps.flt
    | with_reducible apply ResKeeps.ite
    | with_reducible apply ResKeeps.done
    | with_reducible apply ResKeeps.jump
    | with_reducible apply ResKeeps.hold
    | with_reducible apply OutKeeps.next
    | with_reducible apply OutKeeps.fault
    | with_reducible apply OutKeeps.ite
    | with_reducible apply issueT_keeps
    | with_reducible apply tokenRes_keeps
    | with_reducible apply tverify_keeps
    | split

end Sys2Proof.Machine
end

