-- ==== Sys2Proof/Laws/KeepsSched.lean ====
section
/-! SUPPORT. Each operation keeps the command queue and the canonical form of memories and tables (`Keeps`): the device table, the mirror, the governor, releases, the pager, host commands and the integrity engine. -/
namespace Sys2Proof.Machine
open Sys2Proof
variable {s0 : State}

/-! ## Table.lean -/

theorem putGen_keeps (s : State) (g : Nat) (h0 : Keeps s0 s) :
    Keeps s0 (putGen s g) := by
  unfold putGen
  try dsimp only
  repeat' first
    | with_reducible assumption
    | with_reducible apply setReg64_keeps
    | split
    | with_reducible apply Keeps.mk'

theorem beginPublication_keeps (s : State) (mask : Nat) (h0 : Keeps s0 s) :
    Keeps s0 (beginPublication s mask) := by
  unfold beginPublication
  try dsimp only
  repeat' first
    | with_reducible assumption
    | with_reducible apply Keeps.ite
    | with_reducible apply setFld_keeps
    | with_reducible apply putGen_keeps
    | split
    | with_reducible apply Keeps.mk'

theorem setCause_keeps (s : State) (mask : Nat) (h0 : Keeps s0 s) :
    Keeps s0 (setCause s mask) := by
  unfold setCause
  try dsimp only
  repeat' first
    | with_reducible assumption
    | with_reducible intro _
    | with_reducible apply Keeps.ite
    | with_reducible apply Keeps.foldl
    | with_reducible apply setBit_keeps
    | split

theorem endPublication_keeps (s : State) (h0 : Keeps s0 s) :
    Keeps s0 (endPublication s) := by
  unfold endPublication
  try dsimp only
  repeat' first
    | with_reducible assumption
    | with_reducible apply Keeps.ite
    | with_reducible apply putGen_keeps
    | with_reducible apply setFld_keeps
    | with_reducible apply sendIf_keeps
    | with_reducible apply setCause_keeps
    | split
    | with_reducible apply Keeps.mk'

/-! ## Mirror.lean -/

theorem armBeat_keeps (s : State) (h0 : Keeps s0 s) :
    Keeps s0 (armBeat s) := by
  unfold armBeat
  try dsimp only
  repeat' first
    | with_reducible assumption
    | with_reducible apply Keeps.ite
    | split
    | with_reducible apply Keeps.mk'

theorem setMState_keeps (s : State) (x : Nat) (h0 : Keeps s0 s) :
    Keeps s0 (setMState s x) := by
  unfold setMState
  try dsimp only
  repeat' first
    | with_reducible assumption
    | with_reducible apply Keeps.ite
    | with_reducible apply armBeat_keeps
    | with_reducible apply setFld_keeps
    | split

theorem setMResult_keeps (s : State) (x : Nat) (h0 : Keeps s0 s) :
    Keeps s0 (setMResult s x) := by
  unfold setMResult
  try dsimp only
  repeat' first
    | with_reducible assumption
    | with_reducible apply setFld_keeps
    | split

theorem sendFrame_keeps (s : State) (f : MFrame) (h0 : Keeps s0 s) :
    OptKeeps s0 (sendFrame s f) := by
  unfold sendFrame
  try dsimp only
  repeat' first
    | with_reducible assumption
    | with_reducible apply OptKeeps.none
    | with_reducible apply OptKeeps.some
    | with_reducible apply OptKeeps.ite
    | with_reducible apply Keeps.ite
    | with_reducible apply setPort_keeps
    | with_reducible apply countUp_keeps
    | with_reducible apply setFld_keeps
    | split
    | with_reducible apply Keeps.mk'

theorem sendRun_keeps (s : State) (l : List MFrame) (h0 : Keeps s0 s) :
    Keeps s0 (sendRun s l).1 := by
  induction l generalizing s with
  | nil => unfold sendRun; exact h0
  | cons f fs ih =>
  unfold sendRun
  try dsimp only
  repeat' first
    | with_reducible assumption
    | with_reducible apply ih
    | with_reducible apply sendFrame_keeps
    | with_reducible refine OptKeeps.get ?_ (by assumption)
    | split

theorem flushMirror_keeps (s : State) (h0 : Keeps s0 s) :
    Keeps s0 (flushMirror s) := by
  unfold flushMirror
  try dsimp only
  repeat' first
    | with_reducible assumption
    | with_reducible intro _
    | with_reducible apply Keeps.ite
    | with_reducible apply Keeps.foldl
    | with_reducible apply Keeps.foldl1
    | with_reducible apply sendRun_keeps
    | split
    | with_reducible dsimp only
    | with_reducible apply Keeps.mk'

theorem queueFrames_keeps (s : State) (fs : List MFrame) (h0 : Keeps s0 s) :
    Keeps s0 (queueFrames s fs) := by
  unfold queueFrames
  try dsimp only
  repeat' first
    | with_reducible assumption
    | with_reducible apply flushMirror_keeps
    | split
    | with_reducible apply Keeps.mk'

theorem sendDying_keeps (s : State) (h0 : Keeps s0 s) :
    Keeps s0 (sendDying s) := by
  unfold sendDying
  try dsimp only
  repeat' first
    | with_reducible assumption
    | with_reducible apply Keeps.ite
    | with_reducible apply queueFrames_keeps
    | split

theorem suspect_keeps (s : State) (src : Nat) (h0 : Keeps s0 s) :
    Keeps s0 (suspect s src) := by
  unfold suspect
  try dsimp only
  repeat' first
    | with_reducible assumption
    | with_reducible apply Keeps.ite
    | with_reducible apply setFld_keeps
    | with_reducible apply setMState_keeps
    | with_reducible apply sendIf_keeps
    | with_reducible apply countUp_keeps
    | with_reducible apply setAlert_keeps
    | split
    | with_reducible apply Keeps.mk'

theorem unsuspect_keeps (s : State) (h0 : Keeps s0 s) :
    Keeps s0 (unsuspect s) := by
  unfold unsuspect
  try dsimp only
  repeat' first
    | with_reducible assumption
    | with_reducible apply Keeps.ite
    | with_reducible apply setMState_keeps
    | split

/-! ## Fatal.lean -/

/-- The state after reset is canonical. -/
theorem reset_canonical : Safety.canonical State.reset := by
  refine ⟨⟨rfl, rfl, rfl⟩, ?_, rfl, rfl, rfl, rfl, rfl, rfl, rfl⟩
  decide

theorem cleared_keeps (s : State) (cause : Nat) (h0 : Keeps s0 s) :
    Keeps s0 (cleared s cause) := by
  unfold cleared
  apply setFld_keeps
  apply setFld_keeps
  refine h0.trans ⟨rfl, fun c => ?_⟩
  exact ⟨⟨rfl, c.1.2.1, rfl⟩, reset_canonical.2⟩

theorem powerOnReset_keeps (s : State) (cause : Nat) (h0 : Keeps s0 s) :
    Keeps s0 (powerOnReset s cause) := by
  unfold powerOnReset
  try dsimp only
  repeat' first
    | with_reducible assumption
    | with_reducible apply cleared_keeps
    | split

theorem resetIfLow_keeps (s : State) (h0 : Keeps s0 s) :
    Keeps s0 (resetIfLow s) := by
  unfold resetIfLow
  try dsimp only
  repeat' first
    | with_reducible assumption
    | with_reducible apply Keeps.ite
    | with_reducible apply powerOnReset_keeps
    | split
    | with_reducible apply Keeps.mk'

theorem resetDone_keeps (s : State) (h0 : Keeps s0 s) :
    Keeps s0 (resetDone s) := by
  unfold resetDone
  try dsimp only
  repeat' first
    | with_reducible assumption
    | with_reducible apply resetIfLow_keeps
    | split
    | with_reducible apply Keeps.mk'

theorem abandonStep_keeps (s : State) (h0 : Keeps s0 s) :
    Keeps s0 (abandonStep s) := by
  unfold abandonStep
  try dsimp only
  repeat' first
    | with_reducible assumption
    | with_reducible intro _
    | with_reducible apply overCores_keeps
    | with_reducible apply modCore_keeps
    | with_reducible apply setFld_keeps
    | split
    | with_reducible apply Keeps.mk'

theorem writeRetraction_keeps (s : State) (h0 : Keeps s0 s) :
    Keeps s0 (writeRetraction s) := by
  unfold writeRetraction
  try dsimp only
  repeat' first
    | with_reducible assumption
    | with_reducible apply errorRecord_keeps
    | split
    | with_reducible apply Keeps.mk'

theorem goFatal_keeps (s : State) (cls : Nat) (src : Nat) (h0 : Keeps s0 s) :
    Keeps s0 (goFatal s cls src) := by
  unfold goFatal
  try dsimp only
  repeat' first
    | with_reducible assumption
    | with_reducible apply Keeps.ite
    | with_reducible apply writeRetraction_keeps
    | with_reducible apply endPublication_keeps
    | with_reducible apply sendDying_keeps
    | with_reducible apply setFld_keeps
    | with_reducible apply errorRecord_keeps
    | with_reducible apply setAlert_keeps
    | with_reducible apply sendVector_keeps
    | split
    | with_reducible apply Keeps.mk'

theorem enterFatal_keeps (s : State) (cls : Nat) (src : Nat) (h0 : Keeps s0 s) :
    Keeps s0 (enterFatal s cls src) := by
  unfold enterFatal
  try dsimp only
  repeat' first
    | with_reducible assumption
    | with_reducible apply Keeps.ite
    | with_reducible apply goFatal_keeps
    | with_reducible apply resetIfLow_keeps
    | split

theorem railsOff_keeps (s : State) (rails : List Nat) (h0 : Keeps s0 s) :
    Keeps s0 (railsOff s rails) := by
  unfold railsOff
  try dsimp only
  repeat' first
    | with_reducible assumption
    | with_reducible intro _
    | with_reducible apply Keeps.foldl
    | with_reducible apply setFld_keeps
    | split

theorem shutdown_keeps (s : State) (src : Nat) (h0 : Keeps s0 s) :
    Keeps s0 (shutdown s src) := by
  unfold shutdown
  try dsimp only
  repeat' first
    | with_reducible assumption
    | with_reducible apply Keeps.ite
    | with_reducible apply abandonStep_keeps
    | with_reducible apply railsOff_keeps
    | with_reducible apply setAlert_keeps
    | with_reducible apply goFatal_keeps
    | split
    | with_reducible apply Keeps.mk'

theorem execQuarterLoss_keeps (t : Nat) (quarter : Nat) (s : State) (h0 : Keeps s0 s) :
    OutKeeps s0 (execQuarterLoss t quarter s) := by
  unfold execQuarterLoss
  try dsimp only
  repeat' first
    | with_reducible assumption
    | with_reducible intro _
    | with_reducible apply ResKeeps.flt
    | with_reducible apply ResKeeps.ite
    | with_reducible apply ResKeeps.done
    | with_reducible apply ResKeeps.jump
    | with_reducible apply ResKeeps.hold
    | with_reducible apply OutKeeps.next
    | with_reducible apply OutKeeps.fault
    | with_reducible apply OutKeeps.ite
    | with_reducible apply presentUnit_keeps
    | with_reducible apply enterFatal_keeps
    | split

theorem stackLoss_keeps (s : State) (stack : Nat) (h0 : Keeps s0 s) :
    Keeps s0 (stackLoss s stack) := by
  unfold stackLoss
  try dsimp only
  repeat' first
    | with_reducible assumption
    | with_reducible apply enterFatal_keeps
    | with_reducible apply setFld_keeps
    | split

theorem execStackLost_keeps (t : Nat) (stack : Nat) (s : State) (h0 : Keeps s0 s) :
    OutKeeps s0 (execStackLost t stack s) := by
  unfold execStackLost
  try dsimp only
  repeat' first
    | with_reducible assumption
    | with_reducible intro _
    | with_reducible apply ResKeeps.flt
    | with_reducible apply ResKeeps.ite
    | with_reducible apply ResKeeps.done
    | with_reducible apply ResKeeps.jump
    | with_reducible apply ResKeeps.hold
    | with_reducible apply OutKeeps.next
    | with_reducible apply OutKeeps.fault
    | with_reducible apply OutKeeps.ite
    | with_reducible apply presentUnit_keeps
    | with_reducible apply stackLoss_keeps
    | split

theorem execKolwinDetectedFault_keeps (t : Nat) (s : State) (h0 : Keeps s0 s) :
    OutKeeps s0 (execKolwinDetectedFault t s) := by
  unfold execKolwinDetectedFault
  try dsimp only
  repeat' first
    | with_reducible assumption
    | with_reducible intro _
    | with_reducible apply ResKeeps.flt
    | with_reducible apply ResKeeps.ite
    | with_reducible apply ResKeeps.done
    | with_reducible apply ResKeeps.jump
    | with_reducible apply ResKeeps.hold
    | with_reducible apply OutKeeps.next
    | with_reducible apply OutKeeps.fault
    | with_reducible apply OutKeeps.ite
    | with_reducible apply present_keeps
    | with_reducible apply enterFatal_keeps
    | split

theorem execSelfCheck_keeps (t : Nat) (pass : Bool) (s : State) (h0 : Keeps s0 s) :
    OutKeeps s0 (execSelfCheck t pass s) := by
  unfold execSelfCheck
  try dsimp only
  repeat' first
    | with_reducible assumption
    | with_reducible intro _
    | with_reducible apply ResKeeps.flt
    | with_reducible apply ResKeeps.ite
    | with_reducible apply ResKeeps.done
    | with_reducible apply ResKeeps.jump
    | with_reducible apply ResKeeps.hold
    | with_reducible apply OutKeeps.next
    | with_reducible apply OutKeeps.fault
    | with_reducible apply OutKeeps.ite
    | with_reducible apply Keeps.ite
    | with_reducible apply present_keeps
    | with_reducible apply enterFatal_keeps
    | split

/-! ## Guard.lean -/

theorem grPut_keeps (s : State) (n : Nat) (st : Nat) (result : Nat) (h0 : Keeps s0 s) :
    Keeps s0 (grPut s n st result) := by
  unfold grPut
  try dsimp only
  repeat' first
    | with_reducible assumption
    | with_reducible apply setFld_keeps
    | split

theorem sealRange_keeps (s : State) (n : Nat) (h0 : Keeps s0 s) :
    Keeps s0 (sealRange s n) := by
  unfold sealRange
  try dsimp only
  repeat' first
    | with_reducible assumption
    | with_reducible apply Keeps.ite
    | with_reducible apply setFld_keeps
    | split

theorem unsealRange_keeps (s : State) (n : Nat) (h0 : Keeps s0 s) :
    Keeps s0 (unsealRange s n) := by
  unfold unsealRange
  try dsimp only
  repeat' first
    | with_reducible assumption
    | with_reducible apply Keeps.ite
    | with_reducible apply setFld_keeps
    | split

theorem sealBlocks_keeps (s : State) (n m i : Nat) (h0 : Keeps s0 s) :
    Keeps s0 (sealBlocks s n m i).1 := by
  induction m generalizing s i with
  | zero => unfold sealBlocks; exact h0
  | succ m ih =>
  unfold sealBlocks
  try dsimp only
  repeat' first
    | with_reducible assumption
    | with_reducible apply Keeps.ite1
    | with_reducible apply Keeps.ite
    | with_reducible apply ih
    | with_reducible apply pocReadEvents_keeps
    | with_reducible apply physPut_keeps
    | with_reducible refine Keeps.ofPair ?_ (by assumption)
    | split
    | with_reducible dsimp only

theorem endSealing_keeps (s : State) (n : Nat) (h0 : Keeps s0 s) :
    Keeps s0 (endSealing s n) := by
  unfold endSealing
  try dsimp only
  repeat' first
    | with_reducible assumption
    | with_reducible apply Keeps.ite
    | with_reducible apply sealBlocks_keeps
    | with_reducible apply formDigest_keeps
    | with_reducible apply grPut_keeps
    | with_reducible apply regPutBytes_keeps
    | with_reducible apply setFld_keeps
    | with_reducible refine Keeps.ofPair ?_ (by assumption)
    | split
    | with_reducible dsimp only

theorem endUnsealing_keeps (s : State) (h0 : Keeps s0 s) :
    Keeps s0 (endUnsealing s) := by
  unfold endUnsealing
  try dsimp only
  repeat' first
    | with_reducible assumption
    | with_reducible intro _
    | with_reducible apply Keeps.ite
    | with_reducible apply Keeps.foldl
    | with_reducible apply formDigest_keeps
    | with_reducible apply setFld_keeps
    | split

theorem freshEntry_keeps (s : State) (n : Nat) (b : Nat) (crc : Nat) (h0 : Keeps s0 s) :
    Keeps s0 (freshEntry s n b crc) := by
  unfold freshEntry
  try dsimp only
  repeat' first
    | with_reducible assumption
    | with_reducible apply Keeps.ite
    | with_reducible apply physPut_keeps
    | with_reducible apply physWrite_keeps
    | with_reducible apply OptKeeps.getD
    | split

theorem closeSlot_keeps (s : State) (slot : Option Nat) (h0 : Keeps s0 s) :
    Keeps s0 (closeSlot s slot) := by
  unfold closeSlot
  try dsimp only
  repeat' first
    | with_reducible assumption
    | with_reducible intro _
    | with_reducible apply Keeps.foldl
    | with_reducible apply setReg64_keeps
    | split

theorem putRepair_keeps (s : State) (r : Repair) (new : Option Repair) (h0 : Keeps s0 s) :
    Keeps s0 (putRepair s r new) := by
  unfold putRepair
  try dsimp only
  repeat' first
    | with_reducible assumption
    | with_reducible apply Keeps.ite
    | split
    | with_reducible apply Keeps.mk'

theorem repaired_keeps (s : State) (r : Repair) (data : List Byte) (crc : Nat) (h0 : Keeps s0 s) :
    Keeps s0 (repaired s r data crc) := by
  unfold repaired
  try dsimp only
  repeat' first
    | with_reducible assumption
    | with_reducible apply freshEntry_keeps
    | with_reducible apply physWrite_keeps
    | with_reducible apply putRepair_keeps
    | with_reducible apply closeSlot_keeps
    | with_reducible apply countUp_keeps
    | with_reducible apply errorRecord_keeps
    | with_reducible apply setFld_keeps
    | with_reducible apply startRepairs_keeps
    | split

theorem startStage2_keeps (s : State) (r : Repair) (h0 : Keeps s0 s) :
    Keeps s0 (startStage2 s r) := by
  unfold startStage2
  try dsimp only
  repeat' first
    | with_reducible assumption
    | with_reducible apply putRepair_keeps
    | with_reducible apply queueFrames_keeps
    | with_reducible apply OptKeeps.getD
    | split
    | with_reducible apply Keeps.mk'

theorem startStage3_keeps (s : State) (r : Repair) (h0 : Keeps s0 s) :
    Keeps s0 (startStage3 s r) := by
  unfold startStage3
  try dsimp only
  repeat' first
    | with_reducible assumption
    | with_reducible apply putRepair_keeps
    | with_reducible apply setReg64_keeps
    | with_reducible apply setAlert_keeps
    | with_reducible apply sendIf_keeps
    | with_reducible apply OptKeeps.getD
    | split
    | with_reducible apply Keeps.mk'

theorem failStage_keeps (s : State) (r : Repair) (h0 : Keeps s0 s) :
    Keeps s0 (failStage s r) := by
  unfold failStage
  try dsimp only
  repeat' first
    | with_reducible assumption
    | with_reducible apply Keeps.ite
    | with_reducible apply closeSlot_keeps
    | with_reducible apply sendIf_keeps
    | with_reducible apply setFld_keeps
    | with_reducible apply startStage2_keeps
    | with_reducible apply startStage3_keeps
    | with_reducible apply enterFatal_keeps
    | with_reducible apply errorRecord_keeps
    | split

theorem repairFetched_keeps (s : State) (r : Repair) (data : List Byte) (h0 : Keeps s0 s) :
    Keeps s0 (repairFetched s r data) := by
  unfold repairFetched
  try dsimp only
  repeat' first
    | with_reducible assumption
    | with_reducible apply Keeps.ite
    | with_reducible apply repaired_keeps
    | with_reducible apply failStage_keeps
    | split

theorem repairStageEnd_keeps (s : State) (n : Nat) (b : Nat) (stage : Nat) (h0 : Keeps s0 s) :
    Keeps s0 (repairStageEnd s n b stage) := by
  unfold repairStageEnd
  try dsimp only
  repeat' first
    | with_reducible assumption
    | with_reducible apply Keeps.ite
    | with_reducible apply zoneRead_keeps
    | with_reducible apply repairFetched_keeps
    | with_reducible apply failStage_keeps
    | with_reducible refine Keeps.ofPair ?_ (by assumption)
    | split
    | with_reducible dsimp only

theorem repairStageLimit_keeps (s : State) (n : Nat) (b : Nat) (h0 : Keeps s0 s) :
    Keeps s0 (repairStageLimit s n b) := by
  unfold repairStageLimit
  try dsimp only
  repeat' first
    | with_reducible assumption
    | with_reducible apply Keeps.ite
    | with_reducible apply failStage_keeps
    | split

theorem repairSlotLimit_keeps (s : State) (slot : Nat) (h0 : Keeps s0 s) :
    Keeps s0 (repairSlotLimit s slot) := by
  unfold repairSlotLimit
  try dsimp only
  repeat' first
    | with_reducible assumption
    | with_reducible apply Keeps.ite
    | with_reducible apply failStage_keeps
    | split

theorem repairGranule_keeps (s : State) (n : Nat) (b : Nat) (j : Nat) (data : List Byte) (h0 : Keeps s0 s) :
    Keeps s0 (repairGranule s n b j data) := by
  unfold repairGranule
  try dsimp only
  repeat' first
    | with_reducible assumption
    | with_reducible apply Keeps.ite
    | with_reducible apply putRepair_keeps
    | with_reducible apply repairFetched_keeps
    | split
    | with_reducible apply Keeps.mk'

theorem serveRepair_keeps (s : State) (arg : Nat) (data : List Byte) (h0 : Keeps s0 s) :
    Keeps s0 (serveRepair s arg data) := by
  unfold serveRepair
  try dsimp only
  repeat' first
    | with_reducible assumption
    | with_reducible apply Keeps.ite
    | with_reducible apply queueFrames_keeps
    | with_reducible apply countUp_keeps
    | split

theorem execSeal_keeps (t : Nat) (n : Nat) (s : State) (h0 : Keeps s0 s) :
    OutKeeps s0 (execSeal t n s) := by
  unfold execSeal
  try dsimp only
  repeat' first
    | with_reducible assumption
    | with_reducible intro _
    | with_reducible apply ResKeeps.flt
    | with_reducible apply ResKeeps.ite
    | with_reducible apply ResKeeps.done
    | with_reducible apply ResKeeps.jump
    | with_reducible apply ResKeeps.hold
    | with_reducible apply OutKeeps.next
    | with_reducible apply OutKeeps.fault
    | with_reducible apply OutKeeps.ite
    | with_reducible apply presentUnit_keeps
    | with_reducible apply sealRange_keeps
    | split

theorem execUnseal_keeps (t : Nat) (n : Nat) (s : State) (h0 : Keeps s0 s) :
    OutKeeps s0 (execUnseal t n s) := by
  unfold execUnseal
  try dsimp only
  repeat' first
    | with_reducible assumption
    | with_reducible intro _
    | with_reducible apply ResKeeps.flt
    | with_reducible apply ResKeeps.ite
    | with_reducible apply ResKeeps.done
    | with_reducible apply ResKeeps.jump
    | with_reducible apply ResKeeps.hold
    | with_reducible apply OutKeeps.next
    | with_reducible apply OutKeeps.fault
    | with_reducible apply OutKeeps.ite
    | with_reducible apply presentUnit_keeps
    | with_reducible apply unsealRange_keeps
    | split

theorem execRepairStageLimit_keeps (t : Nat) (n : Nat) (b : Nat) (s : State) (h0 : Keeps s0 s) :
    OutKeeps s0 (execRepairStageLimit t n b s) := by
  unfold execRepairStageLimit
  try dsimp only
  repeat' first
    | with_reducible assumption
    | with_reducible intro _
    | with_reducible apply ResKeeps.flt
    | with_reducible apply ResKeeps.ite
    | with_reducible apply ResKeeps.done
    | with_reducible apply ResKeeps.jump
    | with_reducible apply ResKeeps.hold
    | with_reducible apply OutKeeps.next
    | with_reducible apply OutKeeps.fault
    | with_reducible apply OutKeeps.ite
    | with_reducible apply presentUnit_keeps
    | with_reducible apply repairStageLimit_keeps
    | split

theorem execRepairSlotLimit_keeps (t : Nat) (slot : Nat) (s : State) (h0 : Keeps s0 s) :
    OutKeeps s0 (execRepairSlotLimit t slot s) := by
  unfold execRepairSlotLimit
  try dsimp only
  repeat' first
    | with_reducible assumption
    | with_reducible intro _
    | with_reducible apply ResKeeps.flt
    | with_reducible apply ResKeeps.ite
    | with_reducible apply ResKeeps.done
    | with_reducible apply ResKeeps.jump
    | with_reducible apply ResKeeps.hold
    | with_reducible apply OutKeeps.next
    | with_reducible apply OutKeeps.fault
    | with_reducible apply OutKeeps.ite
    | with_reducible apply presentUnit_keeps
    | with_reducible apply repairSlotLimit_keeps
    | split

/-! ## Power.lean -/

theorem showNbLimit_keeps (s : State) (h0 : Keeps s0 s) :
    Keeps s0 (showNbLimit s) := by
  unfold showNbLimit
  try dsimp only
  repeat' first
    | with_reducible assumption
    | with_reducible apply startNear_keeps
    | with_reducible apply setFld_keeps
    | split

theorem applyRails_keeps (s : State) (h0 : Keeps s0 s) :
    Keeps s0 (applyRails s) := by
  unfold applyRails
  try dsimp only
  repeat' first
    | with_reducible assumption
    | with_reducible intro _
    | with_reducible apply Keeps.ite
    | with_reducible apply Keeps.foldl
    | with_reducible apply setFld_keeps
    | with_reducible apply sendIf_keeps
    | with_reducible apply showNbLimit_keeps
    | split

theorem modPower_keeps (s : State) (f : Power → Power) (h0 : Keeps s0 s) :
    Keeps s0 (modPower s f) := by
  unfold modPower
  try dsimp only
  repeat' first
    | with_reducible assumption
    | split
    | with_reducible apply Keeps.mk'

theorem governorProfile_keeps (s : State) (h0 : Keeps s0 s) :
    Keeps s0 (governorProfile s) := by
  unfold governorProfile
  try dsimp only
  repeat' first
    | with_reducible assumption
    | with_reducible apply Keeps.ite
    | with_reducible apply applyRails_keeps
    | with_reducible apply modPower_keeps
    | split
    | with_reducible apply Keeps.mk'

theorem emergencyAction_keeps (s : State) (src : Nat) (h0 : Keeps s0 s) :
    Keeps s0 (emergencyAction s src) := by
  unfold emergencyAction
  try dsimp only
  repeat' first
    | with_reducible assumption
    | with_reducible apply Keeps.ite
    | with_reducible apply applyRails_keeps
    | with_reducible apply modPower_keeps
    | split
    | with_reducible apply Keeps.mk'

theorem classZero_keeps (s : State) (h0 : Keeps s0 s) :
    Keeps s0 (classZero s) := by
  unfold classZero
  try dsimp only
  repeat' first
    | with_reducible assumption
    | with_reducible apply countUp_keeps
    | with_reducible apply setFld_keeps
    | with_reducible apply setAlert_keeps
    | with_reducible apply sendIf_keeps
    | split

theorem emergency_keeps (s : State) (src : Nat) (h0 : Keeps s0 s) :
    Keeps s0 (emergency s src) := by
  unfold emergency
  try dsimp only
  repeat' first
    | with_reducible assumption
    | with_reducible apply emergencyAction_keeps
    | with_reducible apply classZero_keeps
    | split

theorem emergencyOver_keeps (s : State) (src : Nat) (h0 : Keeps s0 s) :
    Keeps s0 (emergencyOver s src) := by
  unfold emergencyOver
  try dsimp only
  repeat' first
    | with_reducible assumption
    | with_reducible apply applyRails_keeps
    | with_reducible apply modPower_keeps
    | with_reducible apply emergency_keeps
    | split
    | with_reducible apply Keeps.mk'

theorem leverDown_keeps (s : State) (h0 : Keeps s0 s) :
    Keeps s0 (leverDown s) := by
  unfold leverDown
  try dsimp only
  repeat' first
    | with_reducible assumption
    | with_reducible apply Keeps.ite
    | with_reducible apply modPower_keeps
    | split
    | with_reducible apply Keeps.mk'

theorem leverUp_keeps (s : State) (h0 : Keeps s0 s) :
    Keeps s0 (leverUp s) := by
  unfold leverUp
  try dsimp only
  repeat' first
    | with_reducible assumption
    | with_reducible apply Keeps.ite
    | with_reducible apply modPower_keeps
    | split
    | with_reducible apply Keeps.mk'

theorem sampleOver_keeps (s : State) (power5 : Nat) (h0 : Keeps s0 s) :
    Keeps s0 (sampleOver s power5) := by
  unfold sampleOver
  try dsimp only
  repeat' first
    | with_reducible assumption
    | with_reducible apply Keeps.ite
    | with_reducible apply countUp_keeps
    | with_reducible apply modPower_keeps
    | with_reducible apply emergency_keeps
    | with_reducible apply leverDown_keeps
    | split
    | with_reducible apply Keeps.mk'

theorem sampleUnder_keeps (s : State) (power5 : Nat) (h0 : Keeps s0 s) :
    Keeps s0 (sampleUnder s power5) := by
  unfold sampleUnder
  try dsimp only
  repeat' first
    | with_reducible assumption
    | with_reducible apply Keeps.ite
    | with_reducible apply modPower_keeps
    | with_reducible apply leverUp_keeps
    | split
    | with_reducible apply Keeps.mk'

theorem slewRail_keeps (s : State) (v : Nat) (h0 : Keeps s0 s) :
    Keeps s0 (slewRail s v) := by
  unfold slewRail
  try dsimp only
  repeat' first
    | with_reducible assumption
    | with_reducible apply Keeps.ite
    | with_reducible apply setFld_keeps
    | split

theorem takeReading_keeps (s : State) (x : PowerReading) (h0 : Keeps s0 s) :
    Keeps s0 (takeReading s x) := by
  unfold takeReading
  try dsimp only
  repeat' first
    | with_reducible assumption
    | with_reducible intro _
    | with_reducible apply Keeps.foldl
    | with_reducible apply setFld_keeps
    | with_reducible apply slewRail_keeps
    | with_reducible apply OptKeeps.getD
    | split

theorem powerStep_keeps (x0 : State) (x : PowerReading) (h0 : Keeps s0 x0) :
    Keeps s0 (powerStep x0 x) := by
  unfold powerStep
  try dsimp only
  repeat' first
    | with_reducible assumption
    | with_reducible intro _
    | with_reducible apply Keeps.ite
    | with_reducible apply Keeps.foldl
    | with_reducible apply modPower_keeps
    | with_reducible apply addTotal_keeps
    | with_reducible apply setFld_keeps
    | with_reducible apply takeReading_keeps
    | with_reducible apply applyRails_keeps
    | with_reducible apply sampleOver_keeps
    | with_reducible apply sampleUnder_keeps
    | with_reducible apply countUp_keeps
    | with_reducible apply OptKeeps.getD
    | split
    | with_reducible apply Keeps.mk'

theorem thermalStep_keeps (s : State) (v : Nat) (junction : Nat) (h0 : Keeps s0 s) :
    Keeps s0 (thermalStep s v junction) := by
  unfold thermalStep
  try dsimp only
  repeat' first
    | with_reducible assumption
    | with_reducible apply Keeps.ite
    | with_reducible apply applyRails_keeps
    | with_reducible apply modPower_keeps
    | with_reducible apply setFld_keeps
    | with_reducible apply countUp_keeps
    | split
    | with_reducible apply Keeps.mk'

theorem coolant_keeps (s : State) (h0 : Keeps s0 s) :
    Keeps s0 (coolant s) := by
  unfold coolant
  try dsimp only
  repeat' first
    | with_reducible assumption
    | with_reducible apply setAlert_keeps
    | with_reducible apply emergency_keeps
    | with_reducible apply setFld_keeps
    | split

theorem railsDown_keeps (s : State) (keepTier2 : Bool) (h0 : Keeps s0 s) :
    Keeps s0 (railsDown s keepTier2) := by
  unfold railsDown
  try dsimp only
  repeat' first
    | with_reducible assumption
    | with_reducible apply Keeps.ite
    | with_reducible apply modPower_keeps
    | with_reducible apply railsOff_keeps
    | split
    | with_reducible apply Keeps.mk'

theorem quiesce_keeps (s : State) (h0 : Keeps s0 s) :
    Keeps s0 (quiesce s) := by
  unfold quiesce
  try dsimp only
  repeat' first
    | with_reducible assumption
    | with_reducible apply Keeps.ite
    | with_reducible apply setFld_keeps
    | with_reducible apply railsDown_keeps
    | split
    | with_reducible apply Keeps.mk'

theorem execPowerSample_keeps (t : Nat) (sample : PowerReading) (s : State) (h0 : Keeps s0 s) :
    OutKeeps s0 (execPowerSample t sample s) := by
  unfold execPowerSample
  try dsimp only
  repeat' first
    | with_reducible assumption
    | with_reducible intro _
    | with_reducible apply ResKeeps.flt
    | with_reducible apply ResKeeps.ite
    | with_reducible apply ResKeeps.done
    | with_reducible apply ResKeeps.jump
    | with_reducible apply ResKeeps.hold
    | with_reducible apply OutKeeps.next
    | with_reducible apply OutKeeps.fault
    | with_reducible apply OutKeeps.ite
    | with_reducible apply presentAlways_keeps
    | with_reducible apply powerStep_keeps
    | split

theorem execThermalSetpointStep_keeps (t : Nat) (rail : Nat) (junction : Nat) (s : State) (h0 : Keeps s0 s) :
    OutKeeps s0 (execThermalSetpointStep t rail junction s) := by
  unfold execThermalSetpointStep
  try dsimp only
  repeat' first
    | with_reducible assumption
    | with_reducible intro _
    | with_reducible apply ResKeeps.flt
    | with_reducible apply ResKeeps.ite
    | with_reducible apply ResKeeps.done
    | with_reducible apply ResKeeps.jump
    | with_reducible apply ResKeeps.hold
    | with_reducible apply OutKeeps.next
    | with_reducible apply OutKeeps.fault
    | with_reducible apply OutKeeps.ite
    | with_reducible apply Keeps.ite
    | with_reducible apply presentAlways_keeps
    | with_reducible apply thermalStep_keeps
    | split

theorem execInputBelow44v_keeps (t : Nat) (s : State) (h0 : Keeps s0 s) :
    OutKeeps s0 (execInputBelow44v t s) := by
  unfold execInputBelow44v
  try dsimp only
  repeat' first
    | with_reducible assumption
    | with_reducible intro _
    | with_reducible apply ResKeeps.flt
    | with_reducible apply ResKeeps.ite
    | with_reducible apply ResKeeps.done
    | with_reducible apply ResKeeps.jump
    | with_reducible apply ResKeeps.hold
    | with_reducible apply OutKeeps.next
    | with_reducible apply OutKeeps.fault
    | with_reducible apply OutKeeps.ite
    | with_reducible apply presentAlways_keeps
    | with_reducible apply emergency_keeps
    | split

theorem execInputLowPersists_keeps (t : Nat) (s : State) (h0 : Keeps s0 s) :
    OutKeeps s0 (execInputLowPersists t s) := by
  unfold execInputLowPersists
  try dsimp only
  repeat' first
    | with_reducible assumption
    | with_reducible intro _
    | with_reducible apply ResKeeps.flt
    | with_reducible apply ResKeeps.ite
    | with_reducible apply ResKeeps.done
    | with_reducible apply ResKeeps.jump
    | with_reducible apply ResKeeps.hold
    | with_reducible apply OutKeeps.next
    | with_reducible apply OutKeeps.fault
    | with_reducible apply OutKeeps.ite
    | with_reducible apply presentAlways_keeps
    | with_reducible apply shutdown_keeps
    | split

theorem execInputBelow40v_keeps (t : Nat) (s : State) (h0 : Keeps s0 s) :
    OutKeeps s0 (execInputBelow40v t s) := by
  unfold execInputBelow40v
  try dsimp only
  repeat' first
    | with_reducible assumption
    | with_reducible intro _
    | with_reducible apply ResKeeps.flt
    | with_reducible apply ResKeeps.ite
    | with_reducible apply ResKeeps.done
    | with_reducible apply ResKeeps.jump
    | with_reducible apply ResKeeps.hold
    | with_reducible apply OutKeeps.next
    | with_reducible apply OutKeeps.fault
    | with_reducible apply OutKeeps.ite
    | with_reducible apply presentAlways_keeps
    | with_reducible apply shutdown_keeps
    | split

theorem execInputAbove58v_keeps (t : Nat) (s : State) (h0 : Keeps s0 s) :
    OutKeeps s0 (execInputAbove58v t s) := by
  unfold execInputAbove58v
  try dsimp only
  repeat' first
    | with_reducible assumption
    | with_reducible intro _
    | with_reducible apply ResKeeps.flt
    | with_reducible apply ResKeeps.ite
    | with_reducible apply ResKeeps.done
    | with_reducible apply ResKeeps.jump
    | with_reducible apply ResKeeps.hold
    | with_reducible apply OutKeeps.next
    | with_reducible apply OutKeeps.fault
    | with_reducible apply OutKeeps.ite
    | with_reducible apply presentAlways_keeps
    | with_reducible apply shutdown_keeps
    | with_reducible apply classZero_keeps
    | split

theorem execJunctionLimit_keeps (t : Nat) (s : State) (h0 : Keeps s0 s) :
    OutKeeps s0 (execJunctionLimit t s) := by
  unfold execJunctionLimit
  try dsimp only
  repeat' first
    | with_reducible assumption
    | with_reducible intro _
    | with_reducible apply ResKeeps.flt
    | with_reducible apply ResKeeps.ite
    | with_reducible apply ResKeeps.done
    | with_reducible apply ResKeeps.jump
    | with_reducible apply ResKeeps.hold
    | with_reducible apply OutKeeps.next
    | with_reducible apply OutKeeps.fault
    | with_reducible apply OutKeeps.ite
    | with_reducible apply presentAlways_keeps
    | with_reducible apply emergency_keeps
    | split

theorem execJunction110c_keeps (t : Nat) (s : State) (h0 : Keeps s0 s) :
    OutKeeps s0 (execJunction110c t s) := by
  unfold execJunction110c
  try dsimp only
  repeat' first
    | with_reducible assumption
    | with_reducible intro _
    | with_reducible apply ResKeeps.flt
    | with_reducible apply ResKeeps.ite
    | with_reducible apply ResKeeps.done
    | with_reducible apply ResKeeps.jump
    | with_reducible apply ResKeeps.hold
    | with_reducible apply OutKeeps.next
    | with_reducible apply OutKeeps.fault
    | with_reducible apply OutKeeps.ite
    | with_reducible apply presentAlways_keeps
    | with_reducible apply shutdown_keeps
    | split

theorem execHbmAbove105c_keeps (t : Nat) (stack : Nat) (s : State) (h0 : Keeps s0 s) :
    OutKeeps s0 (execHbmAbove105c t stack s) := by
  unfold execHbmAbove105c
  try dsimp only
  repeat' first
    | with_reducible assumption
    | with_reducible intro _
    | with_reducible apply ResKeeps.flt
    | with_reducible apply ResKeeps.ite
    | with_reducible apply ResKeeps.done
    | with_reducible apply ResKeeps.jump
    | with_reducible apply ResKeeps.hold
    | with_reducible apply OutKeeps.next
    | with_reducible apply OutKeeps.fault
    | with_reducible apply OutKeeps.ite
    | with_reducible apply Keeps.ite
    | with_reducible apply presentAlways_keeps
    | with_reducible apply shutdown_keeps
    | with_reducible apply classZero_keeps
    | split

theorem execCoolantAlarm_keeps (t : Nat) (s : State) (h0 : Keeps s0 s) :
    OutKeeps s0 (execCoolantAlarm t s) := by
  unfold execCoolantAlarm
  try dsimp only
  repeat' first
    | with_reducible assumption
    | with_reducible intro _
    | with_reducible apply ResKeeps.flt
    | with_reducible apply ResKeeps.ite
    | with_reducible apply ResKeeps.done
    | with_reducible apply ResKeeps.jump
    | with_reducible apply ResKeeps.hold
    | with_reducible apply OutKeeps.next
    | with_reducible apply OutKeeps.fault
    | with_reducible apply OutKeeps.ite
    | with_reducible apply presentAlways_keeps
    | with_reducible apply coolant_keeps
    | split

theorem execCoolantAlarmPersists_keeps (t : Nat) (s : State) (h0 : Keeps s0 s) :
    OutKeeps s0 (execCoolantAlarmPersists t s) := by
  unfold execCoolantAlarmPersists
  try dsimp only
  repeat' first
    | with_reducible assumption
    | with_reducible intro _
    | with_reducible apply ResKeeps.flt
    | with_reducible apply ResKeeps.ite
    | with_reducible apply ResKeeps.done
    | with_reducible apply ResKeeps.jump
    | with_reducible apply ResKeeps.hold
    | with_reducible apply OutKeeps.next
    | with_reducible apply OutKeeps.fault
    | with_reducible apply OutKeeps.ite
    | with_reducible apply presentAlways_keeps
    | with_reducible apply shutdown_keeps
    | split

theorem execEmergencyEnd_keeps (t : Nat) (source : Nat) (s : State) (h0 : Keeps s0 s) :
    OutKeeps s0 (execEmergencyEnd t source s) := by
  unfold execEmergencyEnd
  try dsimp only
  repeat' first
    | with_reducible assumption
    | with_reducible intro _
    | with_reducible apply ResKeeps.flt
    | with_reducible apply ResKeeps.ite
    | with_reducible apply ResKeeps.done
    | with_reducible apply ResKeeps.jump
    | with_reducible apply ResKeeps.hold
    | with_reducible apply OutKeeps.next
    | with_reducible apply OutKeeps.fault
    | with_reducible apply OutKeeps.ite
    | with_reducible apply Keeps.ite
    | with_reducible apply presentAlways_keeps
    | with_reducible apply emergencyOver_keeps
    | split

/-! ## Release.lean -/

theorem ringPut_keeps (s : State) (a : Nat) (bs : List Byte) (h0 : Keeps s0 s) :
    Keeps s0 (ringPut s a bs) := by
  unfold ringPut
  try dsimp only
  repeat' first
    | with_reducible assumption
    | with_reducible apply Keeps.ite
    | with_reducible apply hostPut_keeps
    | with_reducible apply physWrite_keeps
    | with_reducible apply errorRecord_keeps
    | split

theorem showIdle_keeps (s : State) (q : Nat) (h0 : Keeps s0 s) :
    Keeps s0 (showIdle s q) := by
  unfold showIdle
  try dsimp only
  repeat' first
    | with_reducible assumption
    | with_reducible apply setFld_keeps
    | split

theorem sendCoalesced_keeps (s : State) (q : Nat) (h0 : Keeps s0 s) :
    Keeps s0 (sendCoalesced s q) := by
  unfold sendCoalesced
  try dsimp only
  repeat' first
    | with_reducible assumption
    | with_reducible apply setQueue_keeps
    | with_reducible apply sendIf_keeps
    | split
    | with_reducible apply Keeps.mk'

theorem coalesce_keeps (s : State) (q : Nat) (h0 : Keeps s0 s) :
    Keeps s0 (coalesce s q) := by
  unfold coalesce
  try dsimp only
  repeat' first
    | with_reducible assumption
    | with_reducible apply Keeps.ite
    | with_reducible apply setQueue_keeps
    | with_reducible apply sendCoalesced_keeps
    | split
    | with_reducible apply Keeps.mk'

theorem complete_keeps (s : State) (c : QCmd) (status : Nat) (result : Nat) (h0 : Keeps s0 s) :
    Keeps s0 (complete s c status result) := by
  unfold complete
  try dsimp only
  repeat' first
    | with_reducible assumption
    | with_reducible apply Keeps.ite
    | with_reducible apply ringPut_keeps
    | with_reducible apply setQueue_keeps
    | with_reducible apply showIdle_keeps
    | with_reducible apply coalesce_keeps
    | with_reducible apply setFld_keeps
    | split
    | with_reducible apply Keeps.mk'

theorem tailIssued_keeps (s : State) (rc : Nat) (h0 : Keeps s0 s) :
    Keeps s0 (tailIssued s rc) := by
  unfold tailIssued
  try dsimp only
  repeat' first
    | with_reducible assumption
    | with_reducible apply rcPut_keeps
    | split

theorem putRing_keeps (s : State) (rc : Nat) (step : Nat) (kind : Nat) (first : Bool) (token : Nat) (boundary : Nat) (h0 : Keeps s0 s) :
    Keeps s0 (putRing s rc step kind first token boundary).1 := by
  unfold putRing
  try dsimp only
  repeat' first
    | with_reducible assumption
    | with_reducible apply Keeps.ite1
    | with_reducible apply Keeps.ite
    | with_reducible apply tailIssued_keeps
    | with_reducible apply ringPut_keeps
    | split
    | with_reducible apply Keeps.mk'

theorem openGate_keeps (s : State) (l : List (Nat × Nat × Nat × List Byte)) (h0 : Keeps s0 s) :
    Keeps s0 (openGate s l) := by
  induction l generalizing s with
  | nil => unfold openGate; exact Keeps.mk' h0
  | cons g gs ih =>
  unfold openGate
  try dsimp only
  repeat' first
    | with_reducible assumption
    | with_reducible apply Keeps.ite
    | with_reducible apply ih
    | with_reducible apply tailIssued_keeps
    | with_reducible apply ringPut_keeps
    | split
    | with_reducible dsimp only
    | with_reducible apply Keeps.mk'

theorem drainGate_keeps (s : State) (h0 : Keeps s0 s) :
    Keeps s0 (drainGate s) := by
  unfold drainGate
  try dsimp only
  repeat' first
    | with_reducible assumption
    | with_reducible apply Keeps.ite
    | with_reducible apply openGate_keeps
    | with_reducible apply sendIf_keeps
    | split

theorem writeHeld_keeps (s : State) (rc step : Nat) (l : List Held) (h0 : Keeps s0 s) :
    Keeps s0 (writeHeld s rc step l).1 := by
  induction l generalizing s with
  | nil => unfold writeHeld; exact h0
  | cons h hs ih =>
  unfold writeHeld
  try dsimp only
  repeat' first
    | with_reducible assumption
    | with_reducible apply Keeps.ite1
    | with_reducible apply Keeps.ite
    | with_reducible apply ih
    | with_reducible apply Keeps.ite1
    | with_reducible apply putRing_keeps
    | split
    | with_reducible dsimp only

theorem countCeiling_keeps (s : State) (n : Nat) (h0 : Keeps s0 s) :
    Keeps s0 (countCeiling s n) := by
  unfold countCeiling
  try dsimp only
  repeat' first
    | with_reducible assumption
    | split
    | with_reducible apply Keeps.mk'

theorem latency_keeps (s : State) (rc : Nat) (j : Nat) (h0 : Keeps s0 s) :
    Keeps s0 (latency s rc j) := by
  unfold latency
  try dsimp only
  repeat' first
    | with_reducible assumption
    | with_reducible apply Keeps.ite
    | with_reducible apply countCeiling_keeps
    | with_reducible apply rcPut_keeps
    | with_reducible apply setRcFlag_keeps
    | with_reducible apply countUp_keeps
    | with_reducible apply addTotal_keeps
    | split

theorem setHeld_keeps (s : State) (rc : Nat) (hs : List Held) (h0 : Keeps s0 s) :
    Keeps s0 (setHeld s rc hs) := by
  unfold setHeld
  try dsimp only
  repeat' first
    | with_reducible assumption
    | with_reducible apply rcPut_keeps
    | with_reducible apply setReq_keeps
    | split
    | with_reducible apply Keeps.mk'

theorem unpin_keeps (s : State) (rc : Nat) (h0 : Keeps s0 s) :
    Keeps s0 (unpin s rc) := by
  unfold unpin
  try dsimp only
  repeat' first
    | with_reducible assumption
    | with_reducible apply Keeps.ite
    | with_reducible apply adPut_keeps
    | split

theorem showLive_keeps (s : State) (h0 : Keeps s0 s) :
    Keeps s0 (showLive s) := by
  unfold showLive
  try dsimp only
  repeat' first
    | with_reducible assumption
    | with_reducible apply setFld_keeps
    | split

theorem freeContext_keeps (s : State) (rc : Nat) (h0 : Keeps s0 s) :
    Keeps s0 (freeContext s rc) := by
  unfold freeContext
  try dsimp only
  repeat' first
    | with_reducible assumption
    | with_reducible apply Keeps.ite
    | with_reducible apply setReq_keeps
    | with_reducible apply setRcState_keeps
    | with_reducible apply unpin_keeps
    | with_reducible apply showLive_keeps
    | split
    | with_reducible apply Keeps.mk'

theorem writeEnd_keeps (s : State) (rc : Nat) (step : Nat) (h0 : Keeps s0 s) :
    Keeps s0 (writeEnd s rc step).1 := by
  unfold writeEnd
  try dsimp only
  repeat' first
    | with_reducible assumption
    | with_reducible apply Keeps.ite1
    | with_reducible apply Keeps.ite
    | with_reducible apply putRing_keeps
    | with_reducible apply setRcState_keeps
    | split
    | with_reducible dsimp only

theorem writeNotices_keeps (s : State) (rc step : Nat) (l : List (Nat × Nat × Nat)) (h0 : Keeps s0 s) :
    Keeps s0 (writeNotices s rc step l).1 := by
  induction l generalizing s with
  | nil => unfold writeNotices; exact h0
  | cons h hs ih =>
  unfold writeNotices
  try dsimp only
  repeat' first
    | with_reducible assumption
    | with_reducible apply Keeps.ite1
    | with_reducible apply Keeps.ite
    | with_reducible apply ih
    | with_reducible apply Keeps.ite1
    | with_reducible apply putRing_keeps
    | split
    | with_reducible dsimp only

theorem releaseOne_keeps (s : State) (rc : Nat) (step : Nat) (h0 : Keeps s0 s) :
    Keeps s0 (releaseOne s rc step).1 := by
  unfold releaseOne
  try dsimp only
  repeat' first
    | with_reducible assumption
    | with_reducible apply Keeps.ite1
    | with_reducible apply Keeps.ite
    | with_reducible apply writeNotices_keeps
    | with_reducible apply setReq_keeps
    | with_reducible apply writeHeld_keeps
    | with_reducible apply latency_keeps
    | with_reducible apply setHeld_keeps
    | with_reducible apply writeEnd_keeps
    | split
    | with_reducible dsimp only
    | with_reducible apply Keeps.mk'

theorem releaseReq_keeps (s : State) (rc : Nat) (step : Nat) (h0 : Keeps s0 s) :
    Keeps s0 (releaseReq s rc step) := by
  unfold releaseReq
  try dsimp only
  repeat' first
    | with_reducible assumption
    | with_reducible apply Keeps.ite
    | with_reducible apply releaseOne_keeps
    | with_reducible apply queueFrames_keeps
    | with_reducible apply freeContext_keeps
    | split
    | with_reducible dsimp only

/-! ## Pager.lean -/

theorem popSpill_keeps (s : State) (h0 : Keeps s0 s) :
    OptKeeps2 s0 (popSpill s) := by
  unfold popSpill
  try dsimp only
  repeat' first
    | with_reducible assumption
    | with_reducible apply OptKeeps2.none
    | with_reducible apply OptKeeps2.some
    | with_reducible apply OptKeeps2.ite
    | with_reducible apply Keeps.ite
    | with_reducible apply setFld_keeps
    | split

theorem pushSpill_keeps (s : State) (j : Nat) (h0 : Keeps s0 s) :
    Keeps s0 (pushSpill s j) := by
  unfold pushSpill
  try dsimp only
  repeat' first
    | with_reducible assumption
    | with_reducible apply setFld_keeps
    | with_reducible apply physPut_keeps
    | split

theorem releaseFreed_keeps (s : State) (h0 : Keeps s0 s) :
    Keeps s0 (releaseFreed s) := by
  unfold releaseFreed
  try dsimp only
  repeat' first
    | with_reducible assumption
    | with_reducible intro _
    | with_reducible apply Keeps.foldl
    | with_reducible apply Keeps.foldl1
    | with_reducible apply physPut_keeps
    | with_reducible apply pushSpill_keeps
    | with_reducible apply dropRef_keeps
    | split
    | with_reducible dsimp only
    | with_reducible apply Keeps.mk'

theorem setMoving_keeps (s : State) (f : Nat) (v : Bool) (h0 : Keeps s0 s) :
    Keeps s0 (setMoving s f v) := by
  unfold setMoving
  try dsimp only
  repeat' first
    | with_reducible assumption
    | with_reducible apply ftPut_keeps
    | split
    | with_reducible apply Keeps.mk'

theorem spillFrames_keeps (s : State) (f j n i : Nat) (h0 : Keeps s0 s) :
    Keeps s0 (spillFrames s f j n i).1 := by
  induction n generalizing s i with
  | zero => unfold spillFrames; exact h0
  | succ n ih =>
  unfold spillFrames
  try dsimp only
  repeat' first
    | with_reducible assumption
    | with_reducible apply Keeps.ite1
    | with_reducible apply Keeps.ite
    | with_reducible apply ih
    | with_reducible apply Keeps.ite1
    | with_reducible apply zoneWrite_keeps
    | split
    | with_reducible dsimp only

theorem spillPage_keeps (s : State) (rc : Nat) (layer : Nat) (hg : Nat) (page : Nat) (h0 : Keeps s0 s) :
    Keeps s0 (spillPage s rc layer hg page).1 := by
  unfold spillPage
  try dsimp only
  repeat' first
    | with_reducible assumption
    | with_reducible intro _
    | with_reducible apply OptKeeps2.none
    | with_reducible apply OptKeeps2.ite
    | with_reducible apply OptKeeps2.some
    | with_reducible apply Keeps.ite1
    | with_reducible apply Keeps.ite
    | with_reducible apply setMoving_keeps
    | with_reducible apply pocReadEvents_keeps
    | with_reducible apply poisonRun_keeps
    | with_reducible apply popSpill_keeps
    | with_reducible apply OptKeeps2.map
    | with_reducible apply OptKeeps2.map2
    | with_reducible apply setFld_keeps
    | with_reducible apply spillFrames_keeps
    | with_reducible apply putPte_keeps
    | with_reducible apply countUp_keeps
    | with_reducible apply dropRef_keeps
    | with_reducible apply pushSpill_keeps
    | with_reducible refine OptKeeps2.get ?_ (by assumption)
    | with_reducible refine Keeps.ofPair ?_ (by assumption)
    | split
    | with_reducible dsimp only
    | with_reducible apply Keeps.mk'

theorem startSpill_keeps (s : State) (rc : Nat) (owed : QCmd) (h0 : Keeps s0 s) :
    Keeps s0 (startSpill s rc owed) := by
  unfold startSpill
  try dsimp only
  repeat' first
    | with_reducible assumption
    | with_reducible intro _
    | with_reducible apply Keeps.ite
    | with_reducible apply Keeps.foldl
    | with_reducible apply Keeps.foldl1
    | with_reducible apply setMoving_keeps
    | with_reducible apply complete_keeps
    | with_reducible apply setReq_keeps
    | split
    | with_reducible dsimp only
    | with_reducible apply Keeps.mk'

theorem viaMirror_keeps (s : State) (f : State → State) (h : ∀ t, Keeps s0 t → Keeps s0 (f t)) (h0 : Keeps s0 s) :
    Keeps s0 (viaMirror s f) := by
  unfold viaMirror
  try dsimp only
  repeat' first
    | with_reducible assumption
    | with_reducible apply h
    | with_reducible apply setFld_keeps
    | split

theorem spillMirror_keeps (s : State) (rc : Nat) (layer : Nat) (hg : Nat) (page : Nat) (h0 : Keeps s0 s) :
    Keeps s0 (spillMirror s rc layer hg page) := by
  unfold spillMirror
  try dsimp only
  repeat' first
    | with_reducible assumption
    | with_reducible apply Keeps.ite
    | with_reducible apply spillPage_keeps
    | with_reducible refine Keeps.ofPair ?_ (by assumption)
    | split
    | with_reducible dsimp only

theorem restoreFrames_keeps (s : State) (j n : Nat) (h0 : Keeps s0 s) :
    Keeps s0 (restoreFrames s j n).1 := by
  induction n with
  | zero => unfold restoreFrames; exact h0
  | succ n ih =>
  unfold restoreFrames
  try dsimp only
  repeat' first
    | with_reducible assumption
    | with_reducible apply zoneRead_keeps
    | with_reducible refine Keeps.ofPair ?_ (by assumption)
    | split
    | with_reducible dsimp only

theorem unparkState_keeps (s : State) (rc : Nat) (h0 : Keeps s0 s) :
    Keeps s0 (unparkState s rc) := by
  unfold unparkState
  try dsimp only
  repeat' first
    | with_reducible assumption
    | with_reducible apply Keeps.ite
    | with_reducible apply setReq_keeps
    | with_reducible apply setRcFlag_keeps
    | with_reducible apply setRcState_keeps
    | split
    | with_reducible apply Keeps.mk'

theorem restoreEnd_keeps (s : State) (rc : Nat) (h0 : Keeps s0 s) :
    Keeps s0 (restoreEnd s rc) := by
  unfold restoreEnd
  try dsimp only
  repeat' first
    | with_reducible assumption
    | with_reducible apply unparkState_keeps
    | with_reducible apply setReq_keeps
    | with_reducible apply complete_keeps
    | with_reducible apply armTierTimer_keeps
    | split
    | with_reducible apply Keeps.mk'

theorem startRestore_keeps (s : State) (rc : Nat) (owed : Option QCmd) (limited : Bool) (h0 : Keeps s0 s) :
    Keeps s0 (startRestore s rc owed limited) := by
  unfold startRestore
  try dsimp only
  repeat' first
    | with_reducible assumption
    | with_reducible apply Keeps.ite
    | with_reducible apply setReq_keeps
    | with_reducible apply restoreEnd_keeps
    | with_reducible apply armTierTimer_keeps
    | split
    | with_reducible dsimp only
    | with_reducible apply Keeps.mk'

theorem spillNext_keeps (s : State) (rc : Nat) (layer : Nat) (hg : Nat) (page : Nat) (full : Bool) (h0 : Keeps s0 s) :
    Keeps s0 (spillNext s rc layer hg page full) := by
  unfold spillNext
  try dsimp only
  repeat' first
    | with_reducible assumption
    | with_reducible apply Keeps.ite
    | with_reducible apply setReq_keeps
    | with_reducible apply startRestore_keeps
    | with_reducible apply complete_keeps
    | split
    | with_reducible apply Keeps.mk'

theorem spill_keeps (s : State) (rc : Nat) (layer : Nat) (hg : Nat) (page : Nat) (h0 : Keeps s0 s) :
    Keeps s0 (spill s rc layer hg page) := by
  unfold spill
  try dsimp only
  repeat' first
    | with_reducible assumption
    | with_reducible intro _
    | with_reducible apply Keeps.ite
    | with_reducible apply spillPage_keeps
    | with_reducible apply spillNext_keeps
    | with_reducible apply viaMirror_keeps
    | with_reducible apply spillMirror_keeps
    | split
    | with_reducible dsimp only

theorem restoreFails_keeps (s : State) (rc : Nat) (cause : Nat) (block : Nat) (h0 : Keeps s0 s) :
    Keeps s0 (restoreFails s rc cause block) := by
  unfold restoreFails
  try dsimp only
  repeat' first
    | with_reducible assumption
    | with_reducible apply errorRecord_keeps
    | with_reducible apply armTierTimer_keeps
    | with_reducible apply addCode_keeps
    | with_reducible apply setReq_keeps
    | split
    | with_reducible apply Keeps.mk'

theorem restore_keeps (s : State) (rc : Nat) (layer : Nat) (hg : Nat) (page : Nat) (h0 : Keeps s0 s) :
    Keeps s0 (restore s rc layer hg page) := by
  unfold restore
  try dsimp only
  repeat' first
    | with_reducible assumption
    | with_reducible intro _
    | with_reducible apply OptKeeps2.none
    | with_reducible apply OptKeeps2.ite
    | with_reducible apply OptKeeps2.some
    | with_reducible apply Keeps.ite
    | with_reducible apply restoreFrames_keeps
    | with_reducible apply restoreFails_keeps
    | with_reducible apply allocRun_keeps
    | with_reducible apply OptKeeps2.map
    | with_reducible apply OptKeeps2.map2
    | with_reducible apply putPte_keeps
    | with_reducible apply physWrite_keeps
    | with_reducible apply countUp_keeps
    | with_reducible apply pushSpill_keeps
    | with_reducible apply restoreEnd_keeps
    | with_reducible apply setReq_keeps
    | with_reducible refine OptKeeps2.get ?_ (by assumption)
    | with_reducible refine Keeps.ofPair ?_ (by assumption)
    | split
    | with_reducible dsimp only
    | with_reducible apply Keeps.mk'

theorem sharePage_keeps (s : State) (tgt : Nat) (src : Nat) (n : Nat) (q : Nat × Nat × Nat × Nat × Pte) (h0 : Keeps s0 s) :
    Keeps s0 (sharePage s tgt src n q) := by
  unfold sharePage
  try dsimp only
  repeat' first
    | with_reducible assumption
    | with_reducible intro _
    | with_reducible apply OptKeeps2.none
    | with_reducible apply OptKeeps2.ite
    | with_reducible apply OptKeeps2.some
    | with_reducible apply Keeps.ite
    | with_reducible apply ensureLeaf_keeps
    | with_reducible apply allocRun_keeps
    | with_reducible apply OptKeeps2.map
    | with_reducible apply OptKeeps2.map2
    | with_reducible apply countUp_keeps
    | with_reducible apply physCopy_keeps
    | with_reducible apply putPte_keeps
    | with_reducible apply ftPut_keeps
    | with_reducible refine OptKeeps.get ?_ (by assumption)
    | with_reducible refine OptKeeps2.get ?_ (by assumption)
    | split
    | with_reducible dsimp only
    | with_reducible apply Keeps.mk'

theorem markShared_keeps (s : State) (tenant : Nat) (ps : List (Nat × Nat × Nat × Nat × Pte)) (h0 : Keeps s0 s) :
    Keeps s0 (markShared s tenant ps) := by
  unfold markShared
  try dsimp only
  repeat' first
    | with_reducible assumption
    | with_reducible intro _
    | with_reducible apply Keeps.ite
    | with_reducible apply Keeps.foldl
    | with_reducible apply ftPut_keeps
    | split
    | with_reducible apply Keeps.mk'

theorem remirror_keeps (s : State) (rc : Nat) (h0 : Keeps s0 s) :
    Keeps s0 (remirror s rc) := by
  unfold remirror
  try dsimp only
  repeat' first
    | with_reducible assumption
    | with_reducible apply Keeps.ite
    | with_reducible apply oweMirror_keeps
    | split

theorem tryShare_keeps (s : State) (tgt : Nat) (src : Nat) (n : Nat) (c : QCmd) (h0 : Keeps s0 s) :
    Keeps s0 (tryShare s tgt src n c) := by
  unfold tryShare
  try dsimp only
  repeat' first
    | with_reducible assumption
    | with_reducible intro _
    | with_reducible apply Keeps.ite
    | with_reducible apply Keeps.foldl
    | with_reducible apply Keeps.foldl1
    | with_reducible apply setReq_keeps
    | with_reducible apply markShared_keeps
    | with_reducible apply complete_keeps
    | with_reducible apply addCode_keeps
    | with_reducible apply sharePage_keeps
    | with_reducible apply remirror_keeps
    | with_reducible apply rcPut_keeps
    | split
    | with_reducible dsimp only
    | with_reducible apply Keeps.mk'

theorem retryShares_keeps (s : State) (h0 : Keeps s0 s) :
    Keeps s0 (retryShares s) := by
  unfold retryShares
  try dsimp only
  repeat' first
    | with_reducible assumption
    | with_reducible intro _
    | with_reducible apply Keeps.ite
    | with_reducible apply Keeps.foldl
    | with_reducible apply Keeps.foldl1
    | with_reducible apply tryShare_keeps
    | with_reducible apply complete_keeps
    | with_reducible apply setReq_keeps
    | split
    | with_reducible dsimp only
    | with_reducible apply Keeps.mk'

theorem startRestores_keeps (s : State) (h0 : Keeps s0 s) :
    Keeps s0 (startRestores s) := by
  unfold startRestores
  try dsimp only
  repeat' first
    | with_reducible assumption
    | with_reducible intro _
    | with_reducible apply Keeps.ite
    | with_reducible apply Keeps.foldl
    | with_reducible apply Keeps.foldl1
    | with_reducible apply startRestore_keeps
    | with_reducible apply setReq_keeps
    | split
    | with_reducible dsimp only
    | with_reducible apply Keeps.mk'

theorem execSpill_keeps (t : Nat) (rc : Nat) (layer : Nat) (hg : Nat) (page : Nat) (s : State) (h0 : Keeps s0 s) :
    OutKeeps s0 (execSpill t rc layer hg page s) := by
  unfold execSpill
  try dsimp only
  repeat' first
    | with_reducible assumption
    | with_reducible intro _
    | with_reducible apply ResKeeps.flt
    | with_reducible apply ResKeeps.ite
    | with_reducible apply ResKeeps.done
    | with_reducible apply ResKeeps.jump
    | with_reducible apply ResKeeps.hold
    | with_reducible apply OutKeeps.next
    | with_reducible apply OutKeeps.fault
    | with_reducible apply OutKeeps.ite
    | with_reducible apply presentUnit_keeps
    | with_reducible apply spill_keeps
    | split

/-! ## HostCmd.lean -/

theorem operandArea_keeps (s : State) (a : Nat) (n : Nat) (rc : Nat) (h0 : Keeps s0 s) :
    Keeps s0 (operandArea s a n rc).1 := by
  unfold operandArea
  try dsimp only
  repeat' first
    | with_reducible assumption
    | with_reducible apply Keeps.ite1
    | with_reducible apply Keeps.ite
    | with_reducible apply pocReadEvents_keeps
    | with_reducible refine Keeps.ofPair ?_ (by assumption)
    | split
    | with_reducible dsimp only

theorem startImport_keeps (s : State) (rc : Nat) (h0 : Keeps s0 s) :
    Keeps s0 (startImport s rc) := by
  unfold startImport
  try dsimp only
  repeat' first
    | with_reducible assumption
    | with_reducible apply setReq_keeps
    | with_reducible apply setDot_keeps
    | with_reducible apply tookFree_keeps
    | with_reducible apply importStart_keeps
    | split
    | with_reducible apply Keeps.mk'

theorem admitAccept_keeps (s : State) (c : QCmd) (b : List Byte) (v : Nat) (h0 : Keeps s0 s) :
    Keeps s0 (admitAccept s c b v) := by
  unfold admitAccept
  try dsimp only
  repeat' first
    | with_reducible assumption
    | with_reducible apply Keeps.ite
    | with_reducible apply setReq_keeps
    | with_reducible apply physWrite_keeps
    | with_reducible apply adPut_keeps
    | with_reducible apply countUp_keeps
    | with_reducible apply showLive_keeps
    | with_reducible apply complete_keeps
    | with_reducible apply startImport_keeps
    | split

theorem importListRead_keeps (s : State) (b : List Byte) (rc : Nat) (h0 : Keeps s0 s) :
    Keeps s0 (importListRead s b rc).1 := by
  unfold importListRead
  try dsimp only
  repeat' first
    | with_reducible assumption
    | with_reducible apply Keeps.ite1
    | with_reducible apply Keeps.ite
    | with_reducible apply operandArea_keeps
    | with_reducible refine Keeps.ofPair ?_ (by assumption)
    | split
    | with_reducible dsimp only

theorem applyAdmit_keeps (s : State) (c : QCmd) (h0 : Keeps s0 s) :
    Keeps s0 (applyAdmit s c) := by
  unfold applyAdmit
  try dsimp only
  repeat' first
    | with_reducible assumption
    | with_reducible apply Keeps.ite
    | with_reducible apply operandArea_keeps
    | with_reducible apply complete_keeps
    | with_reducible apply importListRead_keeps
    | with_reducible apply admitAccept_keeps
    | with_reducible refine Keeps.ofPair ?_ (by assumption)
    | split
    | with_reducible dsimp only

theorem applyCancel_keeps (s : State) (c : QCmd) (h0 : Keeps s0 s) :
    Keeps s0 (applyCancel s c) := by
  unfold applyCancel
  try dsimp only
  repeat' first
    | with_reducible assumption
    | with_reducible apply Keeps.ite
    | with_reducible apply complete_keeps
    | with_reducible apply addCode_keeps
    | with_reducible apply setRcFlag_keeps
    | split

theorem applyResumeRequest_keeps (s : State) (c : QCmd) (h0 : Keeps s0 s) :
    Keeps s0 (applyResumeRequest s c) := by
  unfold applyResumeRequest
  try dsimp only
  repeat' first
    | with_reducible assumption
    | with_reducible apply Keeps.ite
    | with_reducible apply complete_keeps
    | with_reducible apply setRcState_keeps
    | with_reducible apply rcPut_keeps
    | split

theorem applyPark_keeps (s : State) (c : QCmd) (h0 : Keeps s0 s) :
    Keeps s0 (applyPark s c) := by
  unfold applyPark
  try dsimp only
  repeat' first
    | with_reducible assumption
    | with_reducible apply Keeps.ite
    | with_reducible apply complete_keeps
    | with_reducible apply setRcState_keeps
    | with_reducible apply setRcFlag_keeps
    | with_reducible apply startSpill_keeps
    | split

theorem applyUnpark_keeps (s : State) (c : QCmd) (h0 : Keeps s0 s) :
    Keeps s0 (applyUnpark s c) := by
  unfold applyUnpark
  try dsimp only
  repeat' first
    | with_reducible assumption
    | with_reducible apply Keeps.ite
    | with_reducible apply complete_keeps
    | with_reducible apply setReq_keeps
    | split
    | with_reducible apply Keeps.mk'

theorem applyShare_keeps (s : State) (c : QCmd) (h0 : Keeps s0 s) :
    Keeps s0 (applyShare s c) := by
  unfold applyShare
  try dsimp only
  repeat' first
    | with_reducible assumption
    | with_reducible apply Keeps.ite
    | with_reducible apply complete_keeps
    | with_reducible apply tryShare_keeps
    | split

theorem applyTenant_keeps (s : State) (c : QCmd) (h0 : Keeps s0 s) :
    Keeps s0 (applyTenant s c) := by
  unfold applyTenant
  try dsimp only
  repeat' first
    | with_reducible assumption
    | with_reducible apply Keeps.ite
    | with_reducible apply complete_keeps
    | with_reducible apply tenPut_keeps
    | split

theorem setAdState_keeps (s : State) (v : Nat) (st : Nat) (h0 : Keeps s0 s) :
    Keeps s0 (setAdState s v st) := by
  unfold setAdState
  try dsimp only
  repeat' first
    | with_reducible assumption
    | with_reducible apply adPut_keeps
    | split

theorem clearArea_keeps (s : State) (v : Nat) (h0 : Keeps s0 s) :
    Keeps s0 (clearArea s v) := by
  unfold clearArea
  try dsimp only
  repeat' first
    | with_reducible assumption
    | with_reducible intro _
    | with_reducible apply Keeps.foldl
    | with_reducible apply setAdState_keeps
    | split

theorem goldenRead_keeps (s : State) (a n : Nat) (h0 : Keeps s0 s) :
    Keeps s0 (goldenRead s a n).1 := by
  induction n with
  | zero => unfold goldenRead; exact h0
  | succ n ih =>
  unfold goldenRead
  try dsimp only
  repeat' first
    | with_reducible assumption
    | with_reducible apply zoneRead_keeps
    | with_reducible refine Keeps.ofPair ?_ (by assumption)
    | split
    | with_reducible dsimp only

theorem goldenWrite_keeps (s : State) (a : Nat) (l : List (List Byte)) (h0 : Keeps s0 s) :
    Keeps s0 (goldenWrite s a l).1 := by
  induction l generalizing s a with
  | nil => unfold goldenWrite; exact h0
  | cons b bs ih =>
  unfold goldenWrite
  try dsimp only
  repeat' first
    | with_reducible assumption
    | with_reducible apply Keeps.ite1
    | with_reducible apply Keeps.ite
    | with_reducible apply ih
    | with_reducible apply Keeps.ite1
    | with_reducible apply zoneWrite_keeps
    | with_reducible refine Keeps.ofPair ?_ (by assumption)
    | split
    | with_reducible dsimp only

theorem applyLoadAdapter_keeps (s : State) (c : QCmd) (h0 : Keeps s0 s) :
    Keeps s0 (applyLoadAdapter s c) := by
  unfold applyLoadAdapter
  try dsimp only
  repeat' first
    | with_reducible assumption
    | with_reducible apply Keeps.ite
    | with_reducible apply complete_keeps
    | with_reducible apply physWrite_keeps
    | split
    | with_reducible apply Keeps.mk'

theorem freeAdapter_keeps (s : State) (v : Nat) (h0 : Keeps s0 s) :
    Keeps s0 (freeAdapter s v) := by
  unfold freeAdapter
  try dsimp only
  repeat' first
    | with_reducible assumption
    | with_reducible apply physWrite_keeps
    | split
    | with_reducible dsimp only
    | with_reducible apply Keeps.mk'

theorem loadRefused_keeps (s : State) (v : Nat) (c : QCmd) (status : Nat) (h0 : Keeps s0 s) :
    Keeps s0 (loadRefused s v c status) := by
  unfold loadRefused
  try dsimp only
  repeat' first
    | with_reducible assumption
    | with_reducible intro _
    | with_reducible apply Keeps.ite
    | with_reducible apply Keeps.foldl
    | with_reducible apply freeAdapter_keeps
    | with_reducible apply addCode_keeps
    | with_reducible apply adPut_keeps
    | with_reducible apply complete_keeps
    | split

theorem loadSource_keeps (s : State) (v : Nat) (c : QCmd) (h0 : Keeps s0 s) :
    Keeps s0 (loadSource s v c).1 := by
  unfold loadSource
  try dsimp only
  repeat' first
    | with_reducible assumption
    | with_reducible apply Keeps.ite1
    | with_reducible apply Keeps.ite
    | with_reducible apply goldenRead_keeps
    | with_reducible apply operandArea_keeps
    | with_reducible refine Keeps.ofPair ?_ (by assumption)
    | split
    | with_reducible dsimp only

theorem setZonesFull_keeps (after s : State) (h0 : Keeps s0 s) :
    Keeps s0 (setZonesFull after s) := by
  unfold setZonesFull
  try dsimp only
  repeat' first
    | with_reducible assumption
    | with_reducible intro _
    | with_reducible apply Keeps.ite
    | with_reducible apply Keeps.foldl
    | with_reducible intro _
    | with_reducible apply setFld_keeps
    | split

theorem landAdapter_keeps (s : State) (v : Nat) (c : QCmd) (cold : Bool) (bs : List Byte) (h0 : Keeps s0 s) :
    Keeps s0 (landAdapter s v c cold bs) := by
  unfold landAdapter
  try dsimp only
  repeat' first
    | with_reducible assumption
    | with_reducible apply Keeps.ite
    | with_reducible apply goldenWrite_keeps
    | with_reducible apply loadRefused_keeps
    | with_reducible apply setZonesFull_keeps
    | with_reducible apply physWrite_keeps
    | with_reducible apply clearArea_keeps
    | with_reducible apply complete_keeps
    | split
    | with_reducible dsimp only
    | with_reducible apply Keeps.mk'

theorem loadAdapterEnd_keeps (x0 : State) (v : Nat) (ok : Bool) (h0 : Keeps s0 x0) :
    Keeps s0 (loadAdapterEnd x0 v ok) := by
  unfold loadAdapterEnd
  try dsimp only
  repeat' first
    | with_reducible assumption
    | with_reducible apply Keeps.ite
    | with_reducible apply areaReady_keeps
    | with_reducible apply loadSource_keeps
    | with_reducible apply loadRefused_keeps
    | with_reducible apply landAdapter_keeps
    | with_reducible refine Keeps.ofPair ?_ (by assumption)
    | split
    | with_reducible dsimp only
    | with_reducible apply Keeps.mk'

theorem landAdapters_keeps (s : State) (h0 : Keeps s0 s) :
    Keeps s0 (landAdapters s) := by
  unfold landAdapters
  try dsimp only
  repeat' first
    | with_reducible assumption
    | with_reducible intro _
    | with_reducible apply Keeps.ite
    | with_reducible apply Keeps.foldl
    | with_reducible apply Keeps.foldl1
    | with_reducible apply adPut_keeps
    | with_reducible apply setAdState_keeps
    | split
    | with_reducible dsimp only
    | with_reducible apply Keeps.mk'

theorem freeAdapters_keeps (s : State) (h0 : Keeps s0 s) :
    Keeps s0 (freeAdapters s) := by
  unfold freeAdapters
  try dsimp only
  repeat' first
    | with_reducible assumption
    | with_reducible intro _
    | with_reducible apply Keeps.foldl
    | with_reducible apply freeAdapter_keeps
    | split

theorem applyRetireAdapter_keeps (s : State) (c : QCmd) (h0 : Keeps s0 s) :
    Keeps s0 (applyRetireAdapter s c) := by
  unfold applyRetireAdapter
  try dsimp only
  repeat' first
    | with_reducible assumption
    | with_reducible apply Keeps.ite
    | with_reducible apply complete_keeps
    | with_reducible apply adPut_keeps
    | split

theorem bringIn_keeps (s : State) (rc : Nat) (h0 : Keeps s0 s) :
    Keeps s0 (bringIn s rc) := by
  unfold bringIn
  try dsimp only
  repeat' first
    | with_reducible assumption
    | with_reducible apply Keeps.ite
    | with_reducible apply armTierTimer_keeps
    | with_reducible apply setReq_keeps
    | with_reducible apply setAdState_keeps
    | with_reducible apply clearArea_keeps
    | split
    | with_reducible apply Keeps.mk'

theorem endWaiters_keeps (s : State) (v : Nat) (failed : Bool) (h0 : Keeps s0 s) :
    Keeps s0 (endWaiters s v failed) := by
  unfold endWaiters
  try dsimp only
  repeat' first
    | with_reducible assumption
    | with_reducible intro _
    | with_reducible apply Keeps.ite
    | with_reducible apply Keeps.foldl
    | with_reducible apply armTierTimer_keeps
    | with_reducible apply setReq_keeps
    | with_reducible apply addCode_keeps
    | split
    | with_reducible apply Keeps.mk'

theorem adapterEnd_keeps (s : State) (v : Nat) (ok : Bool) (h0 : Keeps s0 s) :
    Keeps s0 (adapterEnd s v ok) := by
  unfold adapterEnd
  try dsimp only
  repeat' first
    | with_reducible assumption
    | with_reducible apply Keeps.ite
    | with_reducible apply goldenRead_keeps
    | with_reducible apply endWaiters_keeps
    | with_reducible apply setAdState_keeps
    | with_reducible apply physWrite_keeps
    | with_reducible apply clearArea_keeps
    | with_reducible apply errorRecord_keeps
    | with_reducible refine Keeps.ofPair ?_ (by assumption)
    | split
    | with_reducible dsimp only
    | with_reducible apply Keeps.mk'

theorem applyLoadImage_keeps (s : State) (c : QCmd) (h0 : Keeps s0 s) :
    Keeps s0 (applyLoadImage s c) := by
  unfold applyLoadImage
  try dsimp only
  repeat' first
    | with_reducible assumption
    | with_reducible apply Keeps.ite
    | with_reducible apply complete_keeps
    | with_reducible apply operandArea_keeps
    | with_reducible refine Keeps.ofPair ?_ (by assumption)
    | split
    | with_reducible dsimp only
    | with_reducible apply Keeps.mk'

theorem extendM_keeps (s : State) (i : Nat) (x : List Byte) (h0 : Keeps s0 s) :
    Keeps s0 (extendM s i x) := by
  unfold extendM
  try dsimp only
  repeat' first
    | with_reducible assumption
    | split
    | with_reducible dsimp only
    | with_reducible apply Keeps.mk'

theorem measureImage_keeps (s : State) (l : ImageLoad) (h0 : Keeps s0 s) :
    Keeps s0 (measureImage s l) := by
  unfold measureImage
  try dsimp only
  repeat' first
    | with_reducible assumption
    | with_reducible apply Keeps.ite
    | with_reducible apply extendM_keeps
    | split

theorem installImage_keeps (s : State) (l : ImageLoad) (h0 : Keeps s0 s) :
    Keeps s0 (installImage s l) := by
  have h1 := measureImage_keeps s l h0
  have h2 : Keeps s0 (if l.image.off < 0xC000 then formDigest (measureImage s l) else measureImage s l) :=
    Keeps.ite (formDigest_keeps _ h1) h1
  exact complete_keeps _ _ _ _ (h2.trans (Keeps.imem (Memory.wf_writeBytes _ _)))

theorem imageEnd_keeps (s : State) (h0 : Keeps s0 s) :
    Keeps s0 (imageEnd s) := by
  unfold imageEnd
  try dsimp only
  repeat' first
    | with_reducible assumption
    | with_reducible apply Keeps.ite
    | with_reducible apply installImage_keeps
    | split
    | with_reducible apply Keeps.mk'

theorem installWaiting_keeps (s : State) (h0 : Keeps s0 s) :
    Keeps s0 (installWaiting s) := by
  unfold installWaiting
  try dsimp only
  repeat' first
    | with_reducible assumption
    | with_reducible intro _
    | with_reducible apply Keeps.foldl
    | with_reducible apply installImage_keeps
    | split
    | with_reducible apply Keeps.mk'

theorem zeroEntries_keeps (s : State) (a : Nat) (n : Nat) (h0 : Keeps s0 s) :
    Keeps s0 (zeroEntries s a n) := by
  unfold zeroEntries
  try dsimp only
  repeat' first
    | with_reducible assumption
    | with_reducible intro _
    | with_reducible apply Keeps.foldl
    | with_reducible apply physPut_keeps
    | split

theorem releaseTable_keeps (s : State) (c : QCmd) (a : Nat) (n : Nat) (h0 : Keeps s0 s) :
    Keeps s0 (releaseTable s c a n) := by
  unfold releaseTable
  try dsimp only
  repeat' first
    | with_reducible assumption
    | with_reducible apply Keeps.ite
    | with_reducible apply complete_keeps
    | with_reducible apply zeroEntries_keeps
    | split

theorem applyGuestTable_keeps (s : State) (c : QCmd) (h0 : Keeps s0 s) :
    Keeps s0 (applyGuestTable s c) := by
  unfold applyGuestTable
  try dsimp only
  repeat' first
    | with_reducible assumption
    | with_reducible intro _
    | with_reducible apply Keeps.ite
    | with_reducible apply Keeps.foldl
    | with_reducible apply releaseTable_keeps
    | with_reducible apply complete_keeps
    | with_reducible apply ftPut_keeps
    | split
    | with_reducible apply Keeps.mk'

theorem dropLines_keeps (s : State) (a : Nat) (n : Nat) (h0 : Keeps s0 s) :
    Keeps s0 (dropLines s a n) := by
  unfold dropLines
  try dsimp only
  repeat' first
    | with_reducible assumption
    | with_reducible intro _
    | with_reducible apply Keeps.ite
    | with_reducible apply Keeps.foldl
    | with_reducible apply Keeps.foldl1
    | with_reducible apply setCluster_keeps
    | split
    | with_reducible dsimp only
    | with_reducible apply Keeps.mk'

theorem guestTableEnd_keeps (s : State) (ok : Bool) (h0 : Keeps s0 s) :
    Keeps s0 (guestTableEnd s ok) := by
  unfold guestTableEnd
  try dsimp only
  repeat' first
    | with_reducible assumption
    | with_reducible apply Keeps.ite
    | with_reducible apply areaReady_keeps
    | with_reducible apply complete_keeps
    | with_reducible apply dropLines_keeps
    | with_reducible apply operandArea_keeps
    | with_reducible apply physWrite_keeps
    | with_reducible apply zeroEntries_keeps
    | with_reducible refine Keeps.ofPair ?_ (by assumption)
    | split
    | with_reducible dsimp only
    | with_reducible apply Keeps.mk'

theorem applyResumeScheduler_keeps (s : State) (c : QCmd) (h0 : Keeps s0 s) :
    Keeps s0 (applyResumeScheduler s c) := by
  unfold applyResumeScheduler
  try dsimp only
  repeat' first
    | with_reducible assumption
    | with_reducible apply Keeps.ite
    | with_reducible apply complete_keeps
    | with_reducible apply setFld_keeps
    | split

theorem applyBody_keeps (s : State) (c : QCmd) (h0 : Keeps s0 s) :
    Keeps s0 (applyBody s c) := by
  unfold applyBody
  try dsimp only
  repeat' first
    | with_reducible assumption
    | with_reducible apply applyAdmit_keeps
    | with_reducible apply applyCancel_keeps
    | with_reducible apply applyResumeRequest_keeps
    | with_reducible apply applyPark_keeps
    | with_reducible apply applyUnpark_keeps
    | with_reducible apply applyShare_keeps
    | with_reducible apply applyTenant_keeps
    | with_reducible apply applyLoadAdapter_keeps
    | with_reducible apply applyRetireAdapter_keeps
    | with_reducible apply applyLoadImage_keeps
    | with_reducible apply applyResumeScheduler_keeps
    | with_reducible apply applyGuestTable_keeps
    | with_reducible apply complete_keeps
    | split

theorem areasReady_keeps (s : State) (c : QCmd) (h0 : Keeps s0 s) :
    Keeps s0 (areasReady s c).1 := by
  unfold areasReady
  try dsimp only
  repeat' first
    | with_reducible assumption
    | with_reducible intro _
    | with_reducible apply Keeps.foldl
    | with_reducible apply Keeps.foldl1
    | with_reducible apply areaReady_keeps
    | split
    | with_reducible dsimp only

theorem applyCmd_keeps (s : State) (c : QCmd) (h0 : Keeps s0 s) :
    Keeps s0 (applyCmd s c) := by
  unfold applyCmd
  try dsimp only
  repeat' first
    | with_reducible assumption
    | with_reducible apply Keeps.ite
    | with_reducible apply complete_keeps
    | with_reducible apply areasReady_keeps
    | with_reducible apply applyBody_keeps
    | with_reducible refine Keeps.ofPair ?_ (by assumption)
    | split
    | with_reducible dsimp only
    | with_reducible apply Keeps.mk'

theorem applyCmds_keeps (s : State) (h0 : Keeps s0 s) :
    Keeps s0 (applyCmds s) := by
  unfold applyCmds
  try dsimp only
  repeat' first
    | with_reducible assumption
    | with_reducible intro _
    | with_reducible apply Keeps.foldl
    | with_reducible apply applyCmd_keeps
    | split
    | with_reducible apply Keeps.mk'

theorem execAdapterCopyEnd_keeps (t : Nat) (v : Nat) (ok : Bool) (s : State) (h0 : Keeps s0 s) :
    OutKeeps s0 (execAdapterCopyEnd t v ok s) := by
  unfold execAdapterCopyEnd
  try dsimp only
  repeat' first
    | with_reducible assumption
    | with_reducible intro _
    | with_reducible apply ResKeeps.flt
    | with_reducible apply ResKeeps.ite
    | with_reducible apply ResKeeps.done
    | with_reducible apply ResKeeps.jump
    | with_reducible apply ResKeeps.hold
    | with_reducible apply OutKeeps.next
    | with_reducible apply OutKeeps.fault
    | with_reducible apply OutKeeps.ite
    | with_reducible apply presentUnit_keeps
    | with_reducible apply adapterEnd_keeps
    | split

theorem execLoadAdapterCopyEnd_keeps (t : Nat) (v : Nat) (ok : Bool) (s : State) (h0 : Keeps s0 s) :
    OutKeeps s0 (execLoadAdapterCopyEnd t v ok s) := by
  unfold execLoadAdapterCopyEnd
  try dsimp only
  repeat' first
    | with_reducible assumption
    | with_reducible intro _
    | with_reducible apply ResKeeps.flt
    | with_reducible apply ResKeeps.ite
    | with_reducible apply ResKeeps.done
    | with_reducible apply ResKeeps.jump
    | with_reducible apply ResKeeps.hold
    | with_reducible apply OutKeeps.next
    | with_reducible apply OutKeeps.fault
    | with_reducible apply OutKeeps.ite
    | with_reducible apply presentUnit_keeps
    | with_reducible apply loadAdapterEnd_keeps
    | split

theorem execImageLoadEnd_keeps (t : Nat) (s : State) (h0 : Keeps s0 s) :
    OutKeeps s0 (execImageLoadEnd t s) := by
  unfold execImageLoadEnd
  try dsimp only
  repeat' first
    | with_reducible assumption
    | with_reducible intro _
    | with_reducible apply ResKeeps.flt
    | with_reducible apply ResKeeps.ite
    | with_reducible apply ResKeeps.done
    | with_reducible apply ResKeeps.jump
    | with_reducible apply ResKeeps.hold
    | with_reducible apply OutKeeps.next
    | with_reducible apply OutKeeps.fault
    | with_reducible apply OutKeeps.ite
    | with_reducible apply present_keeps
    | with_reducible apply imageEnd_keeps
    | split

theorem execGuestTableCopyEnd_keeps (t : Nat) (ok : Bool) (s : State) (h0 : Keeps s0 s) :
    OutKeeps s0 (execGuestTableCopyEnd t ok s) := by
  unfold execGuestTableCopyEnd
  try dsimp only
  repeat' first
    | with_reducible assumption
    | with_reducible intro _
    | with_reducible apply ResKeeps.flt
    | with_reducible apply ResKeeps.ite
    | with_reducible apply ResKeeps.done
    | with_reducible apply ResKeeps.jump
    | with_reducible apply ResKeeps.hold
    | with_reducible apply OutKeeps.next
    | with_reducible apply OutKeeps.fault
    | with_reducible apply OutKeeps.ite
    | with_reducible apply present_keeps
    | with_reducible apply guestTableEnd_keeps
    | split

/-! ## Integrity.lean -/

theorem showTesting_keeps (s : State) (h0 : Keeps s0 s) :
    Keeps s0 (showTesting s) := by
  unfold showTesting
  try dsimp only
  repeat' first
    | with_reducible assumption
    | with_reducible apply setFld_keeps
    | split

theorem setCoreState_keeps (s : State) (k : Nat) (st : Nat) (h0 : Keeps s0 s) :
    Keeps s0 (setCoreState s k st) := by
  unfold setCoreState
  try dsimp only
  repeat' first
    | with_reducible assumption
    | with_reducible apply showTesting_keeps
    | with_reducible apply setFld_keeps
    | split

theorem setVerified_keeps (s : State) (k : Nat) (n : Nat) (h0 : Keeps s0 s) :
    Keeps s0 (setVerified s k n) := by
  unfold setVerified
  try dsimp only
  repeat' first
    | with_reducible assumption
    | with_reducible apply setFld_keeps
    | split

theorem armTests_keeps (s : State) (h0 : Keeps s0 s) :
    Keeps s0 (armTests s) := by
  unfold armTests
  try dsimp only
  repeat' first
    | with_reducible assumption
    | split
    | with_reducible apply Keeps.mk'

theorem testDue_keeps (s : State) (k : Nat) (h0 : Keeps s0 s) :
    Keeps s0 (testDue s k) := by
  unfold testDue
  try dsimp only
  repeat' first
    | with_reducible assumption
    | with_reducible apply Keeps.ite
    | with_reducible apply setCoreState_keeps
    | split
    | with_reducible dsimp only
    | with_reducible apply Keeps.mk'

theorem startTest_keeps (s : State) (k : Nat) (h0 : Keeps s0 s) :
    Keeps s0 (startTest s k) := by
  unfold startTest
  try dsimp only
  repeat' first
    | with_reducible assumption
    | with_reducible apply Keeps.ite
    | with_reducible apply setCoreState_keeps
    | split

theorem testBoundary_keeps (s : State) (next : Nat) (h0 : Keeps s0 s) :
    Keeps s0 (testBoundary s next) := by
  unfold testBoundary
  try dsimp only
  repeat' first
    | with_reducible assumption
    | with_reducible intro _
    | with_reducible apply Keeps.ite
    | with_reducible apply Keeps.foldl
    | with_reducible apply Keeps.foldl1
    | with_reducible apply setVerified_keeps
    | with_reducible apply setCoreState_keeps
    | with_reducible apply startTest_keeps
    | split
    | with_reducible dsimp only
    | with_reducible apply Keeps.mk'

theorem owePublication_keeps (s : State) (mask : Nat) (h0 : Keeps s0 s) :
    Keeps s0 (owePublication s mask) := by
  unfold owePublication
  try dsimp only
  repeat' first
    | with_reducible assumption
    | split
    | with_reducible apply Keeps.mk'

theorem recordRetired_keeps (s : State) (k : Nat) (g : Nat) (substituted : Bool) (h0 : Keeps s0 s) :
    Keeps s0 (recordRetired s k g substituted) := by
  unfold recordRetired
  try dsimp only
  repeat' first
    | with_reducible assumption
    | with_reducible apply countUp_keeps
    | with_reducible apply errorRecord_keeps
    | split

theorem recordSpareRetired_keeps (s : State) (k : Nat) (h0 : Keeps s0 s) :
    Keeps s0 (recordSpareRetired s k) := by
  unfold recordSpareRetired
  try dsimp only
  repeat' first
    | with_reducible assumption
    | with_reducible apply recordRetired_keeps
    | split

theorem retireCore_keeps (s : State) (next : Nat) (k : Nat) (h0 : Keeps s0 s) :
    Keeps s0 (retireCore s next k) := by
  unfold retireCore
  try dsimp only
  repeat' first
    | with_reducible assumption
    | with_reducible apply Keeps.ite
    | with_reducible apply setGid_keeps
    | with_reducible apply setCoreState_keeps
    | with_reducible apply setVerified_keeps
    | with_reducible apply owePublication_keeps
    | with_reducible apply recordRetired_keeps
    | with_reducible apply modCore_keeps
    | split
    | with_reducible apply Keeps.mk'

theorem retireLosers_keeps (s : State) (next : Nat) (h0 : Keeps s0 s) :
    Keeps s0 (retireLosers s next) := by
  unfold retireLosers
  try dsimp only
  repeat' first
    | with_reducible assumption
    | with_reducible intro _
    | with_reducible apply Keeps.foldl
    | with_reducible apply retireCore_keeps
    | split
    | with_reducible apply Keeps.mk'

theorem testFails_keeps (s : State) (k : Nat) (program : Nat) (h0 : Keeps s0 s) :
    Keeps s0 (testFails s k program) := by
  unfold testFails
  try dsimp only
  repeat' first
    | with_reducible assumption
    | with_reducible apply Keeps.ite
    | with_reducible apply errorRecord_keeps
    | with_reducible apply countUp_keeps
    | with_reducible apply setCoreState_keeps
    | with_reducible apply recordSpareRetired_keeps
    | split
    | with_reducible apply Keeps.mk'

theorem testEnd_keeps (s : State) (k : Nat) (failing : Option Nat) (h0 : Keeps s0 s) :
    Keeps s0 (testEnd s k failing) := by
  unfold testEnd
  try dsimp only
  repeat' first
    | with_reducible assumption
    | with_reducible apply Keeps.ite
    | with_reducible apply countUp_keeps
    | with_reducible apply testFails_keeps
    | with_reducible apply setCoreState_keeps
    | split
    | with_reducible apply Keeps.mk'

theorem publishSpare_keeps (s : State) (h0 : Keeps s0 s) :
    Keeps s0 (publishSpare s) := by
  unfold publishSpare
  try dsimp only
  repeat' first
    | with_reducible assumption
    | with_reducible apply Keeps.ite
    | with_reducible apply owePublication_keeps
    | split
    | with_reducible apply Keeps.mk'

theorem writeSlot_keeps (s : State) (p : Step) (sel : List (Nat × Nat)) (h0 : Keeps s0 s) :
    Keeps s0 (writeSlot s p sel) := by
  unfold writeSlot
  try dsimp only
  repeat' first
    | with_reducible assumption
    | with_reducible apply Keeps.ite
    | with_reducible apply physWrite_keeps
    | split

theorem openChecks_keeps (s : State) (p : Step) (firsts : List Nat) (sel : List (Nat × Nat)) (h0 : Keeps s0 s) :
    Keeps s0 (openChecks s p firsts sel) := by
  unfold openChecks
  try dsimp only
  repeat' first
    | with_reducible assumption
    | with_reducible intro _
    | with_reducible apply Keeps.ite
    | with_reducible apply Keeps.foldl
    | with_reducible apply Keeps.foldl1
    | split
    | with_reducible dsimp only
    | with_reducible apply Keeps.mk'

theorem engineRead_keeps (s : State) (a : Nat) (n : Nat) (h0 : Keeps s0 s) :
    Keeps s0 (engineRead s a n).1 := by
  unfold engineRead
  try dsimp only
  repeat' first
    | with_reducible assumption
    | with_reducible apply Keeps.ite1
    | with_reducible apply Keeps.ite
    | with_reducible apply pocReadEvents_keeps
    | split
    | with_reducible dsimp only

theorem setCheck_keeps (s : State) (i : Nat) (c : Check) (h0 : Keeps s0 s) :
    Keeps s0 (setCheck s i c) := by
  unfold setCheck
  try dsimp only
  repeat' first
    | with_reducible assumption
    | split
    | with_reducible apply Keeps.mk'

theorem dropCheck_keeps (s : State) (i : Nat) (c : Check) (h0 : Keeps s0 s) :
    Keeps s0 (dropCheck s i c) := by
  unfold dropCheck
  try dsimp only
  repeat' first
    | with_reducible assumption
    | with_reducible apply countUp_keeps
    | with_reducible apply setCheck_keeps
    | split
    | with_reducible apply Keeps.mk'

theorem readRecord_keeps (s : State) (tiles : Nat) (i : Nat) (c : Check) (h0 : Keeps s0 s) :
    Keeps s0 (readRecord s tiles i c) := by
  unfold readRecord
  try dsimp only
  repeat' first
    | with_reducible assumption
    | with_reducible apply Keeps.ite
    | with_reducible apply engineRead_keeps
    | with_reducible apply dropCheck_keeps
    | with_reducible apply physPut_keeps
    | with_reducible apply errorRecord_keeps
    | with_reducible apply setCheck_keeps
    | with_reducible apply physWrite_keeps
    | with_reducible refine Keeps.ofPair ?_ (by assumption)
    | split
    | with_reducible dsimp only
    | with_reducible apply Keeps.mk'

theorem wantRollback_keeps (s : State) (c : Check) (core : Nat) (h0 : Keeps s0 s) :
    Keeps s0 (wantRollback s c core) := by
  unfold wantRollback
  try dsimp only
  repeat' first
    | with_reducible assumption
    | with_reducible apply Keeps.ite
    | split
    | with_reducible dsimp only
    | with_reducible apply Keeps.mk'

theorem loses_keeps (s : State) (k : Nat) (h0 : Keeps s0 s) :
    Keeps s0 (loses s k) := by
  unfold loses
  try dsimp only
  repeat' first
    | with_reducible assumption
    | split
    | with_reducible apply Keeps.mk'

theorem outcome_keeps (s : State) (i : Nat) (c : Check) (st : CheckState) (h0 : Keeps s0 s) :
    Keeps s0 (outcome s i c st) := by
  unfold outcome
  try dsimp only
  repeat' first
    | with_reducible assumption
    | with_reducible apply countUp_keeps
    | with_reducible apply setCheck_keeps
    | split
    | with_reducible apply Keeps.mk'

theorem outcomeRecord_keeps (s : State) (c : Check) (code : Nat) (loser : Option Nat) (h0 : Keeps s0 s) :
    Keeps s0 (outcomeRecord s c code loser) := by
  unfold outcomeRecord
  try dsimp only
  repeat' first
    | with_reducible assumption
    | with_reducible apply tookFree_keeps
    | with_reducible apply errorRecord_keeps
    | with_reducible apply OptKeeps.getD
    | split

theorem testNow_keeps (s : State) (k : Nat) (h0 : Keeps s0 s) :
    Keeps s0 (testNow s k) := by
  unfold testNow
  try dsimp only
  repeat' first
    | with_reducible assumption
    | with_reducible apply Keeps.ite
    | with_reducible apply setCoreState_keeps
    | split

theorem duplicateDone_keeps (s : State) (i : Nat) (c : Check) (d1 : List Byte) (step : Nat) (h0 : Keeps s0 s) :
    Keeps s0 (duplicateDone s i c d1 step) := by
  unfold duplicateDone
  try dsimp only
  repeat' first
    | with_reducible assumption
    | with_reducible apply Keeps.ite
    | with_reducible apply setVerified_keeps
    | with_reducible apply outcome_keeps
    | with_reducible apply errorRecord_keeps
    | with_reducible apply countUp_keeps
    | with_reducible apply setCheck_keeps
    | split
    | with_reducible apply Keeps.mk'

theorem arbiterDone_keeps (s : State) (i : Nat) (c : Check) (d2 : List Byte) (h0 : Keeps s0 s) :
    Keeps s0 (arbiterDone s i c d2) := by
  unfold arbiterDone
  try dsimp only
  repeat' first
    | with_reducible assumption
    | with_reducible apply Keeps.ite
    | with_reducible apply loses_keeps
    | with_reducible apply wantRollback_keeps
    | with_reducible apply outcomeRecord_keeps
    | with_reducible apply outcome_keeps
    | with_reducible apply testNow_keeps
    | split

theorem judge_keeps (s : State) (p : Step) (j : Nat) (e : Nat × Nat × Nat) (h0 : Keeps s0 s) :
    Keeps s0 (judge s p j e) := by
  unfold judge
  try dsimp only
  repeat' first
    | with_reducible assumption
    | with_reducible apply Keeps.ite
    | with_reducible apply engineRead_keeps
    | with_reducible apply duplicateDone_keeps
    | with_reducible apply arbiterDone_keeps
    | with_reducible refine Keeps.ofPair ?_ (by assumption)
    | split
    | with_reducible dsimp only

theorem settleChecks_keeps (s : State) (p : Step) (h0 : Keeps s0 s) :
    Keeps s0 (settleChecks s p) := by
  unfold settleChecks
  try dsimp only
  repeat' first
    | with_reducible assumption
    | with_reducible intro _
    | with_reducible apply Keeps.ite
    | with_reducible apply Keeps.foldl
    | with_reducible apply Keeps.foldl1
    | with_reducible apply judge_keeps
    | with_reducible apply readRecord_keeps
    | split
    | with_reducible dsimp only
    | with_reducible apply Keeps.mk'

theorem applyCheckEn_keeps (s : State) (h0 : Keeps s0 s) :
    Keeps s0 (applyCheckEn s) := by
  unfold applyCheckEn
  try dsimp only
  repeat' first
    | with_reducible assumption
    | with_reducible apply Keeps.ite
    | with_reducible apply setFld_keeps
    | split
    | with_reducible apply Keeps.mk'

theorem execKnownAnswerTestDue_keeps (t : Nat) (k : Nat) (s : State) (h0 : Keeps s0 s) :
    OutKeeps s0 (execKnownAnswerTestDue t k s) := by
  unfold execKnownAnswerTestDue
  try dsimp only
  repeat' first
    | with_reducible assumption
    | with_reducible intro _
    | with_reducible apply ResKeeps.flt
    | with_reducible apply ResKeeps.ite
    | with_reducible apply ResKeeps.done
    | with_reducible apply ResKeeps.jump
    | with_reducible apply ResKeeps.hold
    | with_reducible apply OutKeeps.next
    | with_reducible apply OutKeeps.fault
    | with_reducible apply OutKeeps.ite
    | with_reducible apply presentUnit_keeps
    | with_reducible apply testDue_keeps
    | split

theorem execKnownAnswerTestEnd_keeps (t : Nat) (k : Nat) (failing : Option Nat) (s : State) (h0 : Keeps s0 s) :
    OutKeeps s0 (execKnownAnswerTestEnd t k failing s) := by
  unfold execKnownAnswerTestEnd
  try dsimp only
  repeat' first
    | with_reducible assumption
    | with_reducible intro _
    | with_reducible apply ResKeeps.flt
    | with_reducible apply ResKeeps.ite
    | with_reducible apply ResKeeps.done
    | with_reducible apply ResKeeps.jump
    | with_reducible apply ResKeeps.hold
    | with_reducible apply OutKeeps.next
    | with_reducible apply OutKeeps.fault
    | with_reducible apply OutKeeps.ite
    | with_reducible apply presentUnit_keeps
    | with_reducible apply testEnd_keeps
    | split

end Sys2Proof.Machine
end

