-- ==== Sys2Proof/Laws/KeepsPair.lean ====
section
/-! SUPPORT. Each operation keeps the command queue and the canonical form of memories and tables (`Keeps`): mirror and link frames, the step scheduler, launches and queues. -/
namespace Sys2Proof.Machine
open Sys2Proof
variable {s0 : State}

/-! ## MirrorOps.lean -/

theorem emptyPage_keeps (s : State) (rc : Nat) (layer : Nat) (hg : Nat) (page : Nat) (addr : Nat) (p : Pte) (gone : Bool) (h0 : Keeps s0 s) :
    Keeps s0 (emptyPage s rc layer hg page addr p gone) := by
  unfold emptyPage
  try dsimp only
  repeat' first
    | with_reducible assumption
    | with_reducible apply Keeps.ite
    | with_reducible apply pushSpill_keeps
    | with_reducible apply dropRef_keeps
    | with_reducible apply physPut_keeps
    | with_reducible apply dropTb_keeps
    | split

theorem rollPages_keeps (s : State) (rc : Nat) (g : Nat) (pos : Nat) (ev : List (Nat × Nat × Nat × Nat × Bool)) (h0 : Keeps s0 s) :
    Keeps s0 (rollPages s rc g pos ev).1 := by
  unfold rollPages
  try dsimp only
  repeat' first
    | with_reducible assumption
    | with_reducible intro _
    | with_reducible apply Keeps.ite1
    | with_reducible apply Keeps.ite
    | with_reducible apply Keeps.foldl
    | with_reducible apply Keeps.foldl1
    | with_reducible apply emptyPage_keeps
    | with_reducible apply putPte_keeps
    | split
    | with_reducible dsimp only
    | with_reducible apply Keeps.mk'

theorem sendBulk_keeps (s : State) (step : Nat) (h0 : Keeps s0 s) :
    Keeps s0 (sendBulk s step) := by
  unfold sendBulk
  try dsimp only
  repeat' first
    | with_reducible assumption
    | with_reducible intro _
    | with_reducible apply Keeps.foldl
    | with_reducible apply queueFrames_keeps
    | with_reducible apply setReq_keeps
    | split
    | with_reducible apply Keeps.mk'

theorem soloAlign_keeps (s : State) (h0 : Keeps s0 s) :
    Keeps s0 (soloAlign s) := by
  unfold soloAlign
  try dsimp only
  repeat' first
    | with_reducible assumption
    | with_reducible apply setFld_keeps
    | split
    | with_reducible apply Keeps.mk'

theorem clearPair_keeps (s : State) (h0 : Keeps s0 s) :
    Keeps s0 (clearPair s) := by
  unfold clearPair
  try dsimp only
  repeat' first
    | with_reducible assumption
    | with_reducible intro _
    | with_reducible apply Keeps.foldl
    | with_reducible apply Keeps.foldl1
    | with_reducible apply setReq_keeps
    | split
    | with_reducible dsimp only
    | with_reducible apply Keeps.mk'

theorem refusePair_keeps (s : State) (result : Nat) (h0 : Keeps s0 s) :
    Keeps s0 (refusePair s result) := by
  unfold refusePair
  try dsimp only
  repeat' first
    | with_reducible assumption
    | with_reducible apply setMResult_keeps
    | with_reducible apply setMState_keeps
    | with_reducible apply clearPair_keeps
    | split

theorem trySync_keeps (s : State) (h0 : Keeps s0 s) :
    Keeps s0 (trySync s) := by
  unfold trySync
  try dsimp only
  repeat' first
    | with_reducible assumption
    | with_reducible apply Keeps.ite
    | with_reducible apply setMState_keeps
    | split

theorem pairComplete_keeps (s : State) (h : List Byte) (h0 : Keeps s0 s) :
    Keeps s0 (pairComplete s h) := by
  unfold pairComplete
  try dsimp only
  repeat' first
    | with_reducible assumption
    | with_reducible apply Keeps.ite
    | with_reducible apply refusePair_keeps
    | with_reducible apply setFld_keeps
    | with_reducible apply setMResult_keeps
    | with_reducible apply setMState_keeps
    | with_reducible apply trySync_keeps
    | with_reducible apply sendBulk_keeps
    | split
    | with_reducible apply Keeps.mk'

theorem mirrorPair_keeps (s : State) (h0 : Keeps s0 s) :
    Keeps s0 (mirrorPair s) := by
  unfold mirrorPair
  try dsimp only
  repeat' first
    | with_reducible assumption
    | with_reducible apply Keeps.ite
    | with_reducible apply setMResult_keeps
    | with_reducible apply setMState_keeps
    | with_reducible apply clearPair_keeps
    | with_reducible apply setFld_keeps
    | with_reducible apply queueFrames_keeps
    | with_reducible apply pairComplete_keeps
    | split
    | with_reducible apply Keeps.mk'

theorem setMreq_keeps (s : State) (m : MirrorReq) (h0 : Keeps s0 s) :
    Keeps s0 (setMreq s m) := by
  unfold setMreq
  try dsimp only
  repeat' first
    | with_reducible assumption
    | with_reducible apply Keeps.ite
    | split
    | with_reducible apply Keeps.mk'

theorem dropMirror_keeps (s : State) (rc : Nat) (h0 : Keeps s0 s) :
    Keeps s0 (dropMirror s rc) := by
  unfold dropMirror
  try dsimp only
  repeat' first
    | with_reducible assumption
    | with_reducible intro _
    | with_reducible apply Keeps.foldl
    | with_reducible apply Keeps.foldl1
    | with_reducible apply viaMirror_keeps
    | with_reducible apply rollPages_keeps
    | with_reducible apply dropRef_keeps
    | with_reducible apply physWrite_keeps
    | with_reducible refine Keeps.ofPair ?_ (by assumption)
    | split
    | with_reducible dsimp only
    | with_reducible apply Keeps.mk'

theorem dropMirrors_keeps (s : State) (h0 : Keeps s0 s) :
    Keeps s0 (dropMirrors s) := by
  unfold dropMirrors
  try dsimp only
  repeat' first
    | with_reducible assumption
    | with_reducible intro _
    | with_reducible apply Keeps.foldl
    | with_reducible apply dropMirror_keeps
    | split

theorem mirrorEntry_keeps (s : State) (rc : Nat) (layer : Nat) (hg : Nat) (pos : Nat) (b : List Byte) (h0 : Keeps s0 s) :
    OptKeeps s0 (mirrorEntry s rc layer hg pos b) := by
  unfold mirrorEntry
  try dsimp only
  repeat' first
    | with_reducible assumption
    | with_reducible intro _
    | with_reducible apply OptKeeps2.none
    | with_reducible apply OptKeeps2.ite
    | with_reducible apply OptKeeps2.some
    | with_reducible apply OptKeeps.none
    | with_reducible apply OptKeeps.some
    | with_reducible apply OptKeeps.ite
    | with_reducible apply Keeps.ite
    | with_reducible apply setFld_keeps
    | with_reducible apply scatter_keeps
    | with_reducible apply putPte_keeps
    | with_reducible apply ensureLeaf_keeps
    | with_reducible apply allocRun_keeps
    | with_reducible apply OptKeeps2.map
    | with_reducible apply OptKeeps2.map2
    | with_reducible refine OptKeeps.get ?_ (by assumption)
    | with_reducible refine OptKeeps2.get ?_ (by assumption)
    | with_reducible apply OptKeeps.map
    | with_reducible intro _
    | split
    | with_reducible dsimp only
    | with_reducible apply Keeps.mk'

theorem mirrorConfirm_keeps (s : State) (m : MirrorReq) (f : MFrame) (h0 : Keeps s0 s) :
    Keeps s0 (mirrorConfirm s m f) := by
  unfold mirrorConfirm
  try dsimp only
  repeat' first
    | with_reducible assumption
    | with_reducible apply Keeps.ite
    | with_reducible apply physPut_keeps
    | with_reducible apply setMreq_keeps
    | split
    | with_reducible apply Keeps.mk'

theorem mirrorRelease_keeps (s : State) (m : MirrorReq) (f : MFrame) (h0 : Keeps s0 s) :
    Keeps s0 (mirrorRelease s m f) := by
  unfold mirrorRelease
  try dsimp only
  repeat' first
    | with_reducible assumption
    | with_reducible apply setMreq_keeps
    | with_reducible apply physPut_keeps
    | split

theorem mirrorApply_keeps (s : State) (f : MFrame) (h0 : Keeps s0 s) :
    Keeps s0 (mirrorApply s f) := by
  unfold mirrorApply
  try dsimp only
  repeat' first
    | with_reducible assumption
    | with_reducible apply Keeps.ite
    | with_reducible apply dropMirror_keeps
    | with_reducible apply physWrite_keeps
    | with_reducible apply mirrorConfirm_keeps
    | with_reducible apply mirrorRelease_keeps
    | with_reducible apply mirrorEntry_keeps
    | with_reducible apply setMreq_keeps
    | with_reducible refine OptKeeps.get ?_ (by assumption)
    | split
    | with_reducible apply Keeps.mk'

theorem setSlotless_keeps (s : State) (rc : Nat) (on : Bool) (h0 : Keeps s0 s) :
    Keeps s0 (setSlotless s rc on) := by
  unfold setSlotless
  try dsimp only
  repeat' first
    | with_reducible assumption
    | with_reducible apply Keeps.ite
    | split
    | with_reducible apply Keeps.mk'

theorem mirrorAdmit_keeps (x0 : State) (f : MFrame) (h0 : Keeps s0 x0) :
    Keeps s0 (mirrorAdmit x0 f) := by
  unfold mirrorAdmit
  try dsimp only
  repeat' first
    | with_reducible assumption
    | with_reducible apply Keeps.ite
    | with_reducible apply setSlotless_keeps
    | with_reducible apply countUp_keeps
    | with_reducible apply physClear_keeps
    | with_reducible apply physWrite_keeps
    | split
    | with_reducible apply Keeps.mk'

theorem viaMirrorEv_keeps (s : State) (rc : Nat) (g : Nat) (pos : Nat) (ev : List (Nat × Nat × Nat × Nat × Bool)) (h0 : Keeps s0 s) :
    Keeps s0 (viaMirrorEv s rc g pos ev).1 := by
  unfold viaMirrorEv
  try dsimp only
  repeat' first
    | with_reducible assumption
    | with_reducible apply rollPages_keeps
    | with_reducible apply setFld_keeps
    | split
    | with_reducible dsimp only

theorem mirrorRollback_keeps (s : State) (m : MirrorReq) (f : MFrame) (h0 : Keeps s0 s) :
    Keeps s0 (mirrorRollback s m f) := by
  unfold mirrorRollback
  try dsimp only
  repeat' first
    | with_reducible assumption
    | with_reducible apply viaMirrorEv_keeps
    | with_reducible apply setMreq_keeps
    | with_reducible apply OptKeeps.getD
    | split
    | with_reducible dsimp only
    | with_reducible apply Keeps.mk'

theorem mirrorEvent_keeps (s : State) (rc : Nat) (step : Nat) (v : Nat) (h0 : Keeps s0 s) :
    Keeps s0 (mirrorEvent s rc step v) := by
  unfold mirrorEvent
  try dsimp only
  repeat' first
    | with_reducible assumption
    | with_reducible intro _
    | with_reducible apply Keeps.ite
    | with_reducible apply viaMirror_keeps
    | with_reducible apply putPte_keeps
    | with_reducible apply setMreq_keeps
    | with_reducible apply pushSpill_keeps
    | with_reducible apply dropRef_keeps
    | split
    | with_reducible dsimp only
    | with_reducible apply Keeps.mk'

theorem mirrorStepEnd_keeps (s : State) (k : Nat) (h0 : Keeps s0 s) :
    Keeps s0 (mirrorStepEnd s k) := by
  unfold mirrorStepEnd
  try dsimp only
  repeat' first
    | with_reducible assumption
    | with_reducible intro _
    | with_reducible apply Keeps.foldl
    | with_reducible apply setReg64_keeps
    | with_reducible apply setMreq_keeps
    | with_reducible apply mirrorApply_keeps
    | with_reducible apply trySync_keeps
    | split
    | with_reducible apply Keeps.mk'

theorem retryMirror_keeps (s : State) (h0 : Keeps s0 s) :
    Keeps s0 (retryMirror s) := by
  unfold retryMirror
  try dsimp only
  repeat' first
    | with_reducible assumption
    | with_reducible intro _
    | with_reducible apply Keeps.foldl
    | with_reducible apply mirrorApply_keeps
    | with_reducible apply setMreq_keeps
    | split
    | with_reducible apply Keeps.mk'

theorem mirrorAccept_keeps (s : State) (f : MFrame) (h0 : Keeps s0 s) :
    Keeps s0 (mirrorAccept s f) := by
  unfold mirrorAccept
  try dsimp only
  repeat' first
    | with_reducible assumption
    | with_reducible intro _
    | with_reducible apply Keeps.ite
    | with_reducible apply Keeps.foldl
    | with_reducible apply mirrorStepEnd_keeps
    | with_reducible apply mirrorAdmit_keeps
    | with_reducible apply physWrite_keeps
    | with_reducible apply mirrorEvent_keeps
    | with_reducible apply mirrorRollback_keeps
    | with_reducible apply mirrorApply_keeps
    | with_reducible apply setMreq_keeps
    | split
    | with_reducible apply Keeps.mk'

theorem mirrorAck_keeps (s : State) (mack : Nat) (h0 : Keeps s0 s) :
    Keeps s0 (mirrorAck s mack) := by
  unfold mirrorAck
  try dsimp only
  repeat' first
    | with_reducible assumption
    | with_reducible intro _
    | with_reducible apply Keeps.ite
    | with_reducible apply Keeps.foldl
    | with_reducible apply Keeps.foldl1
    | with_reducible apply setFld_keeps
    | with_reducible apply setReq_keeps
    | with_reducible apply tookFree_keeps
    | with_reducible apply setReg64_keeps
    | with_reducible apply drainGate_keeps
    | with_reducible apply trySync_keeps
    | with_reducible apply unsuspect_keeps
    | split
    | with_reducible dsimp only
    | with_reducible apply Keeps.mk'

theorem mirrorFrame_keeps (s : State) (f : MFrame) (h0 : Keeps s0 s) :
    Keeps s0 (mirrorFrame s f) := by
  unfold mirrorFrame
  try dsimp only
  repeat' first
    | with_reducible assumption
    | with_reducible apply Keeps.ite
    | with_reducible apply countUp_keeps
    | with_reducible apply mirrorAccept_keeps
    | split
    | with_reducible apply Keeps.mk'

theorem mirrorSlot_keeps (s : State) (f : MFrame) (h0 : Keeps s0 s) :
    Keeps s0 (mirrorSlot s f) := by
  unfold mirrorSlot
  try dsimp only
  repeat' first
    | with_reducible assumption
    | with_reducible apply Keeps.ite
    | with_reducible apply mirrorFrame_keeps
    | with_reducible apply OptKeeps.getD
    | split
    | with_reducible dsimp only
    | with_reducible apply Keeps.mk'

theorem mirrorControl_keeps (s : State) (f : MFrame) (h0 : Keeps s0 s) :
    Keeps s0 (mirrorControl s f) := by
  unfold mirrorControl
  try dsimp only
  repeat' first
    | with_reducible assumption
    | with_reducible apply Keeps.ite
    | with_reducible apply setFld_keeps
    | with_reducible apply unsuspect_keeps
    | with_reducible apply pairComplete_keeps
    | with_reducible apply suspect_keeps
    | with_reducible apply serveRepair_keeps
    | with_reducible apply repairGranule_keeps
    | split
    | with_reducible apply Keeps.mk'

theorem mirrorIn_keeps (s : State) (f : MFrame) (h0 : Keeps s0 s) :
    Keeps s0 (mirrorIn s f) := by
  unfold mirrorIn
  try dsimp only
  repeat' first
    | with_reducible assumption
    | with_reducible apply Keeps.ite
    | with_reducible apply countUp_keeps
    | with_reducible apply mirrorAck_keeps
    | with_reducible apply mirrorSlot_keeps
    | with_reducible apply mirrorFrame_keeps
    | with_reducible apply mirrorControl_keeps
    | split
    | with_reducible apply Keeps.mk'

theorem mirrorUnpair_keeps (s : State) (h0 : Keeps s0 s) :
    Keeps s0 (mirrorUnpair s) := by
  unfold mirrorUnpair
  try dsimp only
  repeat' first
    | with_reducible assumption
    | with_reducible apply Keeps.ite
    | with_reducible apply queueFrames_keeps
    | with_reducible apply drainGate_keeps
    | with_reducible apply soloAlign_keeps
    | with_reducible apply clearPair_keeps
    | with_reducible apply dropMirrors_keeps
    | with_reducible apply setMState_keeps
    | with_reducible apply setMResult_keeps
    | split
    | with_reducible apply Keeps.mk'

theorem mirrorFence_keeps (s : State) (h0 : Keeps s0 s) :
    Keeps s0 (mirrorFence s) := by
  unfold mirrorFence
  try dsimp only
  repeat' first
    | with_reducible assumption
    | with_reducible apply setMState_keeps
    | with_reducible apply abandonStep_keeps
    | split
    | with_reducible apply Keeps.mk'

theorem mirrorTakeover_keeps (s : State) (h0 : Keeps s0 s) :
    Keeps s0 (mirrorTakeover s) := by
  unfold mirrorTakeover
  try dsimp only
  repeat' first
    | with_reducible assumption
    | with_reducible apply Keeps.ite
    | with_reducible apply setMState_keeps
    | with_reducible apply drainGate_keeps
    | with_reducible apply setMResult_keeps
    | split
    | with_reducible apply Keeps.mk'

theorem adoptRing_keeps (s : State) (rc : Nat) (m : MirrorReq) (h0 : Keeps s0 s) :
    Keeps s0 (adoptRing s rc m) := by
  unfold adoptRing
  try dsimp only
  repeat' first
    | with_reducible assumption
    | with_reducible intro _
    | with_reducible apply Keeps.foldl
    | with_reducible apply Keeps.foldl1
    | with_reducible apply ringPut_keeps
    | with_reducible apply rcPut_keeps
    | split
    | with_reducible dsimp only

theorem adoptOne_keeps (s : State) (m : MirrorReq) (h0 : Keeps s0 s) :
    Keeps s0 (adoptOne s m) := by
  unfold adoptOne
  try dsimp only
  repeat' first
    | with_reducible assumption
    | with_reducible intro _
    | with_reducible apply Keeps.ite
    | with_reducible apply Keeps.foldl
    | with_reducible apply setReq_keeps
    | with_reducible apply physWrite_keeps
    | with_reducible apply showLive_keeps
    | with_reducible apply adoptRing_keeps
    | with_reducible apply adPut_keeps
    | with_reducible apply rcPut_keeps
    | with_reducible apply addCode_keeps
    | split

theorem adoptLoop_keeps (s : State) (n : Nat) (h0 : Keeps s0 s) :
    Keeps s0 (adoptLoop s n) := by
  induction n generalizing s with
  | zero => unfold adoptLoop; exact h0
  | succ n ih =>
  unfold adoptLoop
  try dsimp only
  repeat' first
    | with_reducible assumption
    | with_reducible apply Keeps.ite
    | with_reducible apply ih
    | with_reducible apply setMResult_keeps
    | with_reducible apply setMState_keeps
    | with_reducible apply countUp_keeps
    | with_reducible apply startRestore_keeps
    | split
    | with_reducible apply Keeps.mk'

theorem adoptNext_keeps (s : State) (h0 : Keeps s0 s) :
    Keeps s0 (adoptNext s) := by
  unfold adoptNext
  try dsimp only
  repeat' first
    | with_reducible assumption
    | with_reducible apply Keeps.ite
    | with_reducible apply adoptLoop_keeps
    | split

theorem adopt_keeps (s : State) (h0 : Keeps s0 s) :
    Keeps s0 (adopt s) := by
  unfold adopt
  try dsimp only
  repeat' first
    | with_reducible assumption
    | with_reducible intro _
    | with_reducible apply Keeps.ite
    | with_reducible apply Keeps.foldl
    | with_reducible apply adoptOne_keeps
    | with_reducible apply dropMirror_keeps
    | with_reducible apply physWrite_keeps
    | with_reducible apply adoptNext_keeps
    | split
    | with_reducible apply Keeps.mk'

theorem beat_keeps (s : State) (h0 : Keeps s0 s) :
    Keeps s0 (beat s) := by
  unfold beat
  try dsimp only
  repeat' first
    | with_reducible assumption
    | with_reducible apply Keeps.ite
    | with_reducible apply queueFrames_keeps
    | split
    | with_reducible apply Keeps.mk'

theorem silence_keeps (s : State) (h0 : Keeps s0 s) :
    Keeps s0 (silence s) := by
  unfold silence
  try dsimp only
  repeat' first
    | with_reducible assumption
    | with_reducible apply Keeps.ite
    | with_reducible apply suspect_keeps
    | split

theorem ackMissed_keeps (s : State) (h0 : Keeps s0 s) :
    Keeps s0 (ackMissed s) := by
  unfold ackMissed
  try dsimp only
  repeat' first
    | with_reducible assumption
    | with_reducible apply Keeps.ite
    | with_reducible apply suspect_keeps
    | split

theorem execMrCmdPair_keeps (t : Nat) (s : State) (h0 : Keeps s0 s) :
    OutKeeps s0 (execMrCmdPair t s) := by
  unfold execMrCmdPair
  try dsimp only
  repeat' first
    | with_reducible assumption
    | with_reducible intro _
    | with_reducible apply ResKeeps.flt
    | with_reducible apply ResKeeps.ite
    | with_reducible apply ResKeeps.done
    | with_reducible apply ResKeeps.jump
    | with_reducible apply ResKeeps.hold
    | with_reducible apply OutKeeps.next
    | with_reducible apply OutKeeps.fault
    | with_reducible apply OutKeeps.ite
    | with_reducible apply presentAlways_keeps
    | with_reducible apply mirrorPair_keeps
    | split

theorem execUnpair_keeps (t : Nat) (s : State) (h0 : Keeps s0 s) :
    OutKeeps s0 (execUnpair t s) := by
  unfold execUnpair
  try dsimp only
  repeat' first
    | with_reducible assumption
    | with_reducible intro _
    | with_reducible apply ResKeeps.flt
    | with_reducible apply ResKeeps.ite
    | with_reducible apply ResKeeps.done
    | with_reducible apply ResKeeps.jump
    | with_reducible apply ResKeeps.hold
    | with_reducible apply OutKeeps.next
    | with_reducible apply OutKeeps.fault
    | with_reducible apply OutKeeps.ite
    | with_reducible apply presentAlways_keeps
    | with_reducible apply mirrorUnpair_keeps
    | split

theorem execFence_keeps (t : Nat) (s : State) (h0 : Keeps s0 s) :
    OutKeeps s0 (execFence t s) := by
  unfold execFence
  try dsimp only
  repeat' first
    | with_reducible assumption
    | with_reducible intro _
    | with_reducible apply ResKeeps.flt
    | with_reducible apply ResKeeps.ite
    | with_reducible apply ResKeeps.done
    | with_reducible apply ResKeeps.jump
    | with_reducible apply ResKeeps.hold
    | with_reducible apply OutKeeps.next
    | with_reducible apply OutKeeps.fault
    | with_reducible apply OutKeeps.ite
    | with_reducible apply presentAlways_keeps
    | with_reducible apply mirrorFence_keeps
    | split

theorem execTakeover_keeps (t : Nat) (s : State) (h0 : Keeps s0 s) :
    OutKeeps s0 (execTakeover t s) := by
  unfold execTakeover
  try dsimp only
  repeat' first
    | with_reducible assumption
    | with_reducible intro _
    | with_reducible apply ResKeeps.flt
    | with_reducible apply ResKeeps.ite
    | with_reducible apply ResKeeps.done
    | with_reducible apply ResKeeps.jump
    | with_reducible apply ResKeeps.hold
    | with_reducible apply OutKeeps.next
    | with_reducible apply OutKeeps.fault
    | with_reducible apply OutKeeps.ite
    | with_reducible apply presentAlways_keeps
    | with_reducible apply mirrorTakeover_keeps
    | split

theorem execHeartbeatSend_keeps (t : Nat) (s : State) (h0 : Keeps s0 s) :
    OutKeeps s0 (execHeartbeatSend t s) := by
  unfold execHeartbeatSend
  try dsimp only
  repeat' first
    | with_reducible assumption
    | with_reducible intro _
    | with_reducible apply ResKeeps.flt
    | with_reducible apply ResKeeps.ite
    | with_reducible apply ResKeeps.done
    | with_reducible apply ResKeeps.jump
    | with_reducible apply ResKeeps.hold
    | with_reducible apply OutKeeps.next
    | with_reducible apply OutKeeps.fault
    | with_reducible apply OutKeeps.ite
    | with_reducible apply present_keeps
    | with_reducible apply beat_keeps
    | split

theorem execHeartbeatSilence_keeps (t : Nat) (s : State) (h0 : Keeps s0 s) :
    OutKeeps s0 (execHeartbeatSilence t s) := by
  unfold execHeartbeatSilence
  try dsimp only
  repeat' first
    | with_reducible assumption
    | with_reducible intro _
    | with_reducible apply ResKeeps.flt
    | with_reducible apply ResKeeps.ite
    | with_reducible apply ResKeeps.done
    | with_reducible apply ResKeeps.jump
    | with_reducible apply ResKeeps.hold
    | with_reducible apply OutKeeps.next
    | with_reducible apply OutKeeps.fault
    | with_reducible apply OutKeeps.ite
    | with_reducible apply present_keeps
    | with_reducible apply silence_keeps
    | split

theorem execAckDeadlineMissed_keeps (t : Nat) (s : State) (h0 : Keeps s0 s) :
    OutKeeps s0 (execAckDeadlineMissed t s) := by
  unfold execAckDeadlineMissed
  try dsimp only
  repeat' first
    | with_reducible assumption
    | with_reducible intro _
    | with_reducible apply ResKeeps.flt
    | with_reducible apply ResKeeps.ite
    | with_reducible apply ResKeeps.done
    | with_reducible apply ResKeeps.jump
    | with_reducible apply ResKeeps.hold
    | with_reducible apply OutKeeps.next
    | with_reducible apply OutKeeps.fault
    | with_reducible apply OutKeeps.ite
    | with_reducible apply present_keeps
    | with_reducible apply ackMissed_keeps
    | split

theorem execRestore_keeps (t : Nat) (rc : Nat) (layer : Nat) (hg : Nat) (page : Nat) (s : State) (h0 : Keeps s0 s) :
    OutKeeps s0 (execRestore t rc layer hg page s) := by
  unfold execRestore
  try dsimp only
  repeat' first
    | with_reducible assumption
    | with_reducible intro _
    | with_reducible apply ResKeeps.flt
    | with_reducible apply ResKeeps.ite
    | with_reducible apply ResKeeps.done
    | with_reducible apply ResKeeps.jump
    | with_reducible apply ResKeeps.hold
    | with_reducible apply OutKeeps.next
    | with_reducible apply OutKeeps.fault
    | with_reducible apply OutKeeps.ite
    | with_reducible apply presentUnit_keeps
    | with_reducible apply adoptNext_keeps
    | with_reducible apply restore_keeps
    | split

/-! ## LinkOps.lean -/

theorem portEvent_keeps (s : State) (p : Nat) (wasUp : Bool) (h0 : Keeps s0 s) :
    Keeps s0 (portEvent s p wasUp) := by
  unfold portEvent
  try dsimp only
  repeat' first
    | with_reducible assumption
    | with_reducible apply Keeps.ite
    | with_reducible apply sendIf_keeps
    | with_reducible apply setFld_keeps
    | with_reducible apply armBeat_keeps
    | with_reducible apply refusePair_keeps
    | with_reducible apply suspect_keeps
    | split

theorem setPortState_keeps (s : State) (p : Nat) (st : Nat) (h0 : Keeps s0 s) :
    Keeps s0 (setPortState s p st) := by
  unfold setPortState
  try dsimp only
  repeat' first
    | with_reducible assumption
    | with_reducible apply Keeps.ite
    | with_reducible apply setFld_keeps
    | with_reducible apply setPort_keeps
    | with_reducible apply discardPort_keeps
    | with_reducible apply countUp_keeps
    | with_reducible apply portEvent_keeps
    | split
    | with_reducible apply Keeps.mk'

theorem followEnable_keeps (was s : State) (p : Nat) (h0 : Keeps s0 s) :
    Keeps s0 (followEnable was s p) := by
  unfold followEnable
  try dsimp only
  repeat' first
    | with_reducible assumption
    | with_reducible apply Keeps.ite
    | with_reducible apply setPortState_keeps
    | split

theorem followEnables_keeps (was s : State) (h0 : Keeps s0 s) :
    Keeps s0 (followEnables was s) := by
  unfold followEnables
  try dsimp only
  repeat' first
    | with_reducible assumption
    | with_reducible intro _
    | with_reducible apply Keeps.foldl
    | with_reducible intro _
    | with_reducible apply followEnable_keeps
    | split

theorem flushAny_keeps (s : State) (p : Nat) (h0 : Keeps s0 s) :
    Keeps s0 (flushAny s p) := by
  unfold flushAny
  try dsimp only
  repeat' first
    | with_reducible assumption
    | with_reducible apply Keeps.ite
    | with_reducible apply flushMirror_keeps
    | with_reducible apply flushPort_keeps
    | split

theorem trained_keeps (s : State) (p : Nat) (lanes : Nat) (peerId : Nat) (peerPort : Nat) (h0 : Keeps s0 s) :
    Keeps s0 (trained s p lanes peerId peerPort) := by
  unfold trained
  try dsimp only
  repeat' first
    | with_reducible assumption
    | with_reducible apply Keeps.ite
    | with_reducible apply sendIf_keeps
    | with_reducible apply setFld_keeps
    | with_reducible apply setPortState_keeps
    | with_reducible apply flushAny_keeps
    | with_reducible apply setPort_keeps
    | split
    | with_reducible apply Keeps.mk'

theorem loseLane_keeps (s : State) (p : Nat) (lane : Nat) (h0 : Keeps s0 s) :
    Keeps s0 (loseLane s p lane) := by
  unfold loseLane
  try dsimp only
  repeat' first
    | with_reducible assumption
    | with_reducible apply Keeps.ite
    | with_reducible apply setFld_keeps
    | with_reducible apply setPortState_keeps
    | split

theorem retrained_keeps (s : State) (p : Nat) (lanes : Nat) (h0 : Keeps s0 s) :
    Keeps s0 (retrained s p lanes) := by
  unfold retrained
  try dsimp only
  repeat' first
    | with_reducible assumption
    | with_reducible apply Keeps.ite
    | with_reducible apply setPort_keeps
    | with_reducible apply setFld_keeps
    | with_reducible apply flushAny_keeps
    | with_reducible apply setPortState_keeps
    | split
    | with_reducible apply Keeps.mk'

theorem execTrainingComplete_keeps (t : Nat) (p : Nat) (lanes : BitVec 6) (peerId : Nat) (peerPort : Nat) (s : State) (h0 : Keeps s0 s) :
    OutKeeps s0 (execTrainingComplete t p lanes peerId peerPort s) := by
  unfold execTrainingComplete
  try dsimp only
  repeat' first
    | with_reducible assumption
    | with_reducible intro _
    | with_reducible apply ResKeeps.flt
    | with_reducible apply ResKeeps.ite
    | with_reducible apply ResKeeps.done
    | with_reducible apply ResKeeps.jump
    | with_reducible apply ResKeeps.hold
    | with_reducible apply OutKeeps.next
    | with_reducible apply OutKeeps.fault
    | with_reducible apply OutKeeps.ite
    | with_reducible apply presentUnit_keeps
    | with_reducible apply trained_keeps
    | split

theorem execTrainingTimeout_keeps (t : Nat) (p : Nat) (s : State) (h0 : Keeps s0 s) :
    OutKeeps s0 (execTrainingTimeout t p s) := by
  unfold execTrainingTimeout
  try dsimp only
  repeat' first
    | with_reducible assumption
    | with_reducible intro _
    | with_reducible apply ResKeeps.flt
    | with_reducible apply ResKeeps.ite
    | with_reducible apply ResKeeps.done
    | with_reducible apply ResKeeps.jump
    | with_reducible apply ResKeeps.hold
    | with_reducible apply OutKeeps.next
    | with_reducible apply OutKeeps.fault
    | with_reducible apply OutKeeps.ite
    | with_reducible apply Keeps.ite
    | with_reducible apply presentUnit_keeps
    | with_reducible apply setPortState_keeps
    | split

theorem execRetrainingComplete_keeps (t : Nat) (p : Nat) (lanes : BitVec 6) (s : State) (h0 : Keeps s0 s) :
    OutKeeps s0 (execRetrainingComplete t p lanes s) := by
  unfold execRetrainingComplete
  try dsimp only
  repeat' first
    | with_reducible assumption
    | with_reducible intro _
    | with_reducible apply ResKeeps.flt
    | with_reducible apply ResKeeps.ite
    | with_reducible apply ResKeeps.done
    | with_reducible apply ResKeeps.jump
    | with_reducible apply ResKeeps.hold
    | with_reducible apply OutKeeps.next
    | with_reducible apply OutKeeps.fault
    | with_reducible apply OutKeeps.ite
    | with_reducible apply presentUnit_keeps
    | with_reducible apply retrained_keeps
    | split

theorem execRetrainingTimeout_keeps (t : Nat) (p : Nat) (s : State) (h0 : Keeps s0 s) :
    OutKeeps s0 (execRetrainingTimeout t p s) := by
  unfold execRetrainingTimeout
  try dsimp only
  repeat' first
    | with_reducible assumption
    | with_reducible intro _
    | with_reducible apply ResKeeps.flt
    | with_reducible apply ResKeeps.ite
    | with_reducible apply ResKeeps.done
    | with_reducible apply ResKeeps.jump
    | with_reducible apply ResKeeps.hold
    | with_reducible apply OutKeeps.next
    | with_reducible apply OutKeeps.fault
    | with_reducible apply OutKeeps.ite
    | with_reducible apply Keeps.ite
    | with_reducible apply presentUnit_keeps
    | with_reducible apply setPortState_keeps
    | split

theorem execDownTimeout_keeps (t : Nat) (p : Nat) (s : State) (h0 : Keeps s0 s) :
    OutKeeps s0 (execDownTimeout t p s) := by
  unfold execDownTimeout
  try dsimp only
  repeat' first
    | with_reducible assumption
    | with_reducible intro _
    | with_reducible apply ResKeeps.flt
    | with_reducible apply ResKeeps.ite
    | with_reducible apply ResKeeps.done
    | with_reducible apply ResKeeps.jump
    | with_reducible apply ResKeeps.hold
    | with_reducible apply OutKeeps.next
    | with_reducible apply OutKeeps.fault
    | with_reducible apply OutKeeps.ite
    | with_reducible apply Keeps.ite
    | with_reducible apply presentUnit_keeps
    | with_reducible apply setPortState_keeps
    | split

theorem execLaneLockLost_keeps (t : Nat) (p : Nat) (lane : Nat) (s : State) (h0 : Keeps s0 s) :
    OutKeeps s0 (execLaneLockLost t p lane s) := by
  unfold execLaneLockLost
  try dsimp only
  repeat' first
    | with_reducible assumption
    | with_reducible intro _
    | with_reducible apply ResKeeps.flt
    | with_reducible apply ResKeeps.ite
    | with_reducible apply ResKeeps.done
    | with_reducible apply ResKeeps.jump
    | with_reducible apply ResKeeps.hold
    | with_reducible apply OutKeeps.next
    | with_reducible apply OutKeeps.fault
    | with_reducible apply OutKeeps.ite
    | with_reducible apply Keeps.ite
    | with_reducible apply presentUnit_keeps
    | with_reducible apply loseLane_keeps
    | split

theorem execLaneErrorRate_keeps (t : Nat) (p : Nat) (lane : Nat) (s : State) (h0 : Keeps s0 s) :
    OutKeeps s0 (execLaneErrorRate t p lane s) := by
  unfold execLaneErrorRate
  try dsimp only
  repeat' first
    | with_reducible assumption
    | with_reducible intro _
    | with_reducible apply ResKeeps.flt
    | with_reducible apply ResKeeps.ite
    | with_reducible apply ResKeeps.done
    | with_reducible apply ResKeeps.jump
    | with_reducible apply ResKeeps.hold
    | with_reducible apply OutKeeps.next
    | with_reducible apply OutKeeps.fault
    | with_reducible apply OutKeeps.ite
    | with_reducible apply Keeps.ite
    | with_reducible apply presentUnit_keeps
    | with_reducible apply loseLane_keeps
    | split

theorem laneOff_keeps (s : State) (p : Nat) (lane : Nat) (h0 : Keeps s0 s) :
    Keeps s0 (laneOff s p lane) := by
  unfold laneOff
  try dsimp only
  repeat' first
    | with_reducible assumption
    | with_reducible apply Keeps.ite
    | with_reducible apply loseLane_keeps
    | with_reducible apply setFld_keeps
    | split

theorem execLaneOff_keeps (t : Nat) (p : Nat) (lane : Nat) (s : State) (h0 : Keeps s0 s) :
    OutKeeps s0 (execLaneOff t p lane s) := by
  unfold execLaneOff
  try dsimp only
  repeat' first
    | with_reducible assumption
    | with_reducible intro _
    | with_reducible apply ResKeeps.flt
    | with_reducible apply ResKeeps.ite
    | with_reducible apply ResKeeps.done
    | with_reducible apply ResKeeps.jump
    | with_reducible apply ResKeeps.hold
    | with_reducible apply OutKeeps.next
    | with_reducible apply OutKeeps.fault
    | with_reducible apply OutKeeps.ite
    | with_reducible apply Keeps.ite
    | with_reducible apply presentUnit_keeps
    | with_reducible apply laneOff_keeps
    | split

theorem retrain_keeps (s : State) (p : Nat) (h0 : Keeps s0 s) :
    Keeps s0 (retrain s p) := by
  unfold retrain
  try dsimp only
  repeat' first
    | with_reducible assumption
    | with_reducible apply Keeps.ite
    | with_reducible apply setPortState_keeps
    | split

theorem execRetrain_keeps (t : Nat) (p : Nat) (s : State) (h0 : Keeps s0 s) :
    OutKeeps s0 (execRetrain t p s) := by
  unfold execRetrain
  try dsimp only
  repeat' first
    | with_reducible assumption
    | with_reducible intro _
    | with_reducible apply ResKeeps.flt
    | with_reducible apply ResKeeps.ite
    | with_reducible apply ResKeeps.done
    | with_reducible apply ResKeeps.jump
    | with_reducible apply ResKeeps.hold
    | with_reducible apply OutKeeps.next
    | with_reducible apply OutKeeps.fault
    | with_reducible apply OutKeeps.ite
    | with_reducible apply presentUnit_keeps
    | with_reducible apply retrain_keeps
    | split

theorem enablePort_keeps (s : State) (p : Nat) (on : Bool) (h0 : Keeps s0 s) :
    Keeps s0 (enablePort s p on) := by
  unfold enablePort
  try dsimp only
  repeat' first
    | with_reducible assumption
    | with_reducible apply Keeps.ite
    | with_reducible apply followEnable_keeps
    | with_reducible apply setFld_keeps
    | split

theorem execPortEnable_keeps (t : Nat) (p : Nat) (on : Bool) (s : State) (h0 : Keeps s0 s) :
    OutKeeps s0 (execPortEnable t p on s) := by
  unfold execPortEnable
  try dsimp only
  repeat' first
    | with_reducible assumption
    | with_reducible intro _
    | with_reducible apply ResKeeps.flt
    | with_reducible apply ResKeeps.ite
    | with_reducible apply ResKeeps.done
    | with_reducible apply ResKeeps.jump
    | with_reducible apply ResKeeps.hold
    | with_reducible apply OutKeeps.next
    | with_reducible apply OutKeeps.fault
    | with_reducible apply OutKeeps.ite
    | with_reducible apply presentUnit_keeps
    | with_reducible apply enablePort_keeps
    | split

theorem execPairPresentChange_keeps (t : Nat) (high : Bool) (s : State) (h0 : Keeps s0 s) :
    OutKeeps s0 (execPairPresentChange t high s) := by
  unfold execPairPresentChange
  try dsimp only
  repeat' first
    | with_reducible assumption
    | with_reducible intro _
    | with_reducible apply ResKeeps.flt
    | with_reducible apply ResKeeps.ite
    | with_reducible apply ResKeeps.done
    | with_reducible apply ResKeeps.jump
    | with_reducible apply ResKeeps.hold
    | with_reducible apply OutKeeps.next
    | with_reducible apply OutKeeps.fault
    | with_reducible apply OutKeeps.ite
    | with_reducible apply present_keeps
    | with_reducible apply followEnable_keeps
    | split
    | with_reducible apply Keeps.mk'

theorem replay_keeps (s : State) (p : Nat) (h0 : Keeps s0 s) :
    Keeps s0 (replay s p) := by
  unfold replay
  try dsimp only
  repeat' first
    | with_reducible assumption
    | with_reducible apply Keeps.ite
    | with_reducible apply setPort_keeps
    | with_reducible apply countUp_keeps
    | with_reducible apply setPortState_keeps
    | split
    | with_reducible apply Keeps.mk'

theorem execReplayTimeout_keeps (t : Nat) (p : Nat) (s : State) (h0 : Keeps s0 s) :
    OutKeeps s0 (execReplayTimeout t p s) := by
  unfold execReplayTimeout
  try dsimp only
  repeat' first
    | with_reducible assumption
    | with_reducible intro _
    | with_reducible apply ResKeeps.flt
    | with_reducible apply ResKeeps.ite
    | with_reducible apply ResKeeps.done
    | with_reducible apply ResKeeps.jump
    | with_reducible apply ResKeeps.hold
    | with_reducible apply OutKeeps.next
    | with_reducible apply OutKeeps.fault
    | with_reducible apply OutKeeps.ite
    | with_reducible apply Keeps.ite
    | with_reducible apply presentUnit_keeps
    | with_reducible apply replay_keeps
    | split

theorem takeLink_keeps (s : State) (p : Nat) (f : LinkFrame) (h0 : Keeps s0 s) :
    Keeps s0 (takeLink s p f) := by
  unfold takeLink
  try dsimp only
  repeat' first
    | with_reducible assumption
    | with_reducible intro _
    | with_reducible apply Keeps.ite
    | with_reducible apply Keeps.foldl
    | with_reducible apply Keeps.foldl1
    | with_reducible apply setPort_keeps
    | with_reducible apply flushAny_keeps
    | with_reducible apply replay_keeps
    | split
    | with_reducible dsimp only
    | with_reducible apply Keeps.mk'

theorem refuseSlot_keeps (s : State) (x : Slot) (reason : Nat) (h0 : Keeps s0 s) :
    Keeps s0 (refuseSlot s x reason) := by
  unfold refuseSlot
  try dsimp only
  repeat' first
    | with_reducible assumption
    | with_reducible apply Keeps.ite
    | with_reducible apply countUp_keeps
    | with_reducible apply setFld_keeps
    | with_reducible apply sendAnswer_keeps
    | split

theorem retractionIn_keeps (s : State) (r : RputIn) (h0 : Keeps s0 s) :
    Keeps s0 (retractionIn s r) := by
  unfold retractionIn
  try dsimp only
  repeat' first
    | with_reducible assumption
    | with_reducible apply Keeps.ite
    | split
    | with_reducible apply Keeps.mk'

theorem countRput_keeps (s : State) (r : RputIn) (h0 : Keeps s0 s) :
    Keeps s0 (countRput s r) := by
  unfold countRput
  try dsimp only
  repeat' first
    | with_reducible assumption
    | with_reducible apply Keeps.ite
    | with_reducible apply retractionIn_keeps
    | with_reducible apply countUp_keeps
    | with_reducible apply putCell_keeps
    | with_reducible apply errorRecord_keeps
    | split

theorem rputOf_keeps (s : State) (x : Slot) (h0 : Keeps s0 s) :
    Keeps s0 (rputOf s x).1 := by
  unfold rputOf
  try dsimp only
  repeat' first
    | with_reducible assumption
    | with_reducible apply Keeps.ite1
    | with_reducible apply Keeps.ite
    | with_reducible apply refuseSlot_keeps
    | split

theorem writeIn_keeps (s : State) (x : Slot) (h0 : Keeps s0 s) :
    Keeps s0 (writeIn s x) := by
  unfold writeIn
  try dsimp only
  repeat' first
    | with_reducible assumption
    | with_reducible apply Keeps.ite
    | with_reducible apply rputOf_keeps
    | with_reducible apply physWrite_keeps
    | with_reducible apply countRput_keeps
    | split
    | with_reducible dsimp only
    | with_reducible apply Keeps.mk'

theorem readAnswers_keeps (s : State) (x : Slot) (i : Nat) (h0 : Keeps s0 s) :
    Keeps s0 (readAnswers s x i).1 := by
  induction i with
  | zero => unfold readAnswers; exact h0
  | succ i ih =>
  unfold readAnswers
  try dsimp only
  repeat' first
    | with_reducible assumption
    | with_reducible apply Keeps.ite1
    | with_reducible apply Keeps.ite
    | with_reducible exact ih h0
    | with_reducible apply pocReadEvents_keeps
    | split
    | with_reducible dsimp only

theorem serveRead_keeps (s : State) (x : Slot) (h0 : Keeps s0 s) :
    Keeps s0 (serveRead s x) := by
  unfold serveRead
  try dsimp only
  repeat' first
    | with_reducible assumption
    | with_reducible apply Keeps.ite
    | with_reducible apply readReady_keeps
    | with_reducible apply readAnswers_keeps
    | with_reducible apply sendSide_keeps
    | with_reducible apply linkLost_keeps
    | with_reducible apply OptKeeps.getD
    | with_reducible refine OptKeeps.get ?_ (by assumption)
    | split
    | with_reducible dsimp only
    | with_reducible apply Keeps.mk'

theorem serveLinkReads_keeps (s : State) (h0 : Keeps s0 s) :
    Keeps s0 (serveLinkReads s) := by
  unfold serveLinkReads
  try dsimp only
  repeat' first
    | with_reducible assumption
    | with_reducible intro _
    | with_reducible apply Keeps.foldl
    | with_reducible apply serveRead_keeps
    | split
    | with_reducible apply Keeps.mk'

theorem bar2Deliver_keeps (s : State) (q : Nat × Nat) (h0 : Keeps s0 s) :
    Keeps s0 (bar2Deliver s q) := by
  unfold bar2Deliver
  try dsimp only
  repeat' first
    | with_reducible assumption
    | with_reducible apply Keeps.ite
    | with_reducible apply readReady_keeps
    | with_reducible apply pocReadEvents_keeps
    | split
    | with_reducible dsimp only
    | with_reducible apply Keeps.mk'

theorem retryStarts_keeps (s : State) (h0 : Keeps s0 s) :
    Keeps s0 (retryStarts s) := by
  unfold retryStarts
  try dsimp only
  repeat' first
    | with_reducible assumption
    | with_reducible intro _
    | with_reducible apply Keeps.ite
    | with_reducible apply Keeps.foldl
    | with_reducible apply Keeps.foldl1
    | with_reducible apply collStart_keeps
    | with_reducible apply importStart_keeps
    | with_reducible apply OptKeeps.getD
    | split
    | with_reducible dsimp only

theorem serveReads_keeps (s : State) (h0 : Keeps s0 s) :
    Keeps s0 (serveReads s) := by
  unfold serveReads
  try dsimp only
  repeat' first
    | with_reducible assumption
    | with_reducible intro _
    | with_reducible apply Keeps.foldl
    | with_reducible apply serveLinkReads_keeps
    | with_reducible apply retryStarts_keeps
    | with_reducible apply bar2Deliver_keeps
    | split
    | with_reducible apply Keeps.mk'

theorem readIn_keeps (s : State) (x : Slot) (h0 : Keeps s0 s) :
    Keeps s0 (readIn s x) := by
  unfold readIn
  try dsimp only
  repeat' first
    | with_reducible assumption
    | with_reducible apply Keeps.ite
    | with_reducible apply serveRead_keeps
    | with_reducible apply refuseSlot_keeps
    | split

theorem responseIn_keeps (s : State) (x : Slot) (h0 : Keeps s0 s) :
    Keeps s0 (responseIn s x) := by
  unfold responseIn
  try dsimp only
  repeat' first
    | with_reducible assumption
    | with_reducible apply Keeps.ite
    | with_reducible apply armTierTimer_keeps
    | with_reducible apply leaveActive_keeps
    | with_reducible apply setDot_keeps
    | with_reducible apply OptKeeps.getD
    | split
    | with_reducible apply Keeps.mk'

theorem refuseIn_keeps (s : State) (x : Slot) (h0 : Keeps s0 s) :
    Keeps s0 (refuseIn s x) := by
  unfold refuseIn
  try dsimp only
  repeat' first
    | with_reducible assumption
    | with_reducible apply Keeps.ite
    | with_reducible apply collRefused_keeps
    | with_reducible apply countUp_keeps
    | with_reducible apply armTierTimer_keeps
    | with_reducible apply leaveActive_keeps
    | with_reducible apply errorRecord_keeps
    | split

theorem slotHere_keeps (s : State) (x : Slot) (h0 : Keeps s0 s) :
    Keeps s0 (slotHere s x) := by
  unfold slotHere
  try dsimp only
  repeat' first
    | with_reducible assumption
    | with_reducible apply writeIn_keeps
    | with_reducible apply readIn_keeps
    | with_reducible apply responseIn_keeps
    | with_reducible apply collData_keeps
    | with_reducible apply collDigest_keeps
    | with_reducible apply collAck_keeps
    | with_reducible apply collFailIn_keeps
    | with_reducible apply refuseIn_keeps
    | split

theorem hopDrop_keeps (s : State) (h0 : Keeps s0 s) :
    Keeps s0 (hopDrop s) := by
  unfold hopDrop
  try dsimp only
  repeat' first
    | with_reducible assumption
    | with_reducible apply countUp_keeps
    | split

theorem forward_keeps (s : State) (x : Slot) (h0 : Keeps s0 s) :
    Keeps s0 (forward s x) := by
  unfold forward
  try dsimp only
  repeat' first
    | with_reducible assumption
    | with_reducible apply Keeps.ite
    | with_reducible apply hopDrop_keeps
    | with_reducible apply queueSlots_keeps
    | split
    | with_reducible apply Keeps.mk'

theorem slotIn_keeps (s : State) (x : Slot) (h0 : Keeps s0 s) :
    Keeps s0 (slotIn s x) := by
  unfold slotIn
  try dsimp only
  repeat' first
    | with_reducible assumption
    | with_reducible apply Keeps.ite
    | with_reducible apply hopDrop_keeps
    | with_reducible apply slotHere_keeps
    | with_reducible apply forward_keeps
    | split

theorem discardFrame_keeps (s : State) (p : Nat) (h0 : Keeps s0 s) :
    Keeps s0 (discardFrame s p) := by
  unfold discardFrame
  try dsimp only
  repeat' first
    | with_reducible assumption
    | with_reducible apply Keeps.ite
    | with_reducible apply sendIdle_keeps
    | with_reducible apply setPort_keeps
    | split
    | with_reducible apply Keeps.mk'

theorem undecoded_keeps (s : State) (p : Nat) (h0 : Keeps s0 s) :
    Keeps s0 (undecoded s p) := by
  unfold undecoded
  try dsimp only
  repeat' first
    | with_reducible assumption
    | with_reducible apply Keeps.ite
    | with_reducible apply discardFrame_keeps
    | with_reducible apply countUp_keeps
    | with_reducible apply setPort_keeps
    | with_reducible apply setPortState_keeps
    | split
    | with_reducible apply Keeps.mk'

theorem passedOn_keeps (s : State) (p : Nat) (pool : Nat) (h0 : Keeps s0 s) :
    Keeps s0 (passedOn s p pool) := by
  unfold passedOn
  try dsimp only
  repeat' first
    | with_reducible assumption
    | with_reducible apply setPort_keeps
    | split
    | with_reducible apply Keeps.mk'

theorem frameSlots_keeps (s : State) (p : Nat) (f : LinkFrame) (h0 : Keeps s0 s) :
    Keeps s0 (frameSlots s p f) := by
  unfold frameSlots
  try dsimp only
  repeat' first
    | with_reducible assumption
    | with_reducible intro _
    | with_reducible apply Keeps.ite
    | with_reducible apply Keeps.foldl
    | with_reducible apply mirrorIn_keeps
    | with_reducible apply passedOn_keeps
    | with_reducible apply slotIn_keeps
    | split

theorem frameIn_keeps (s : State) (p : Nat) (f : LinkFrame) (h0 : Keeps s0 s) :
    Keeps s0 (frameIn s p f) := by
  unfold frameIn
  try dsimp only
  repeat' first
    | with_reducible assumption
    | with_reducible apply Keeps.ite
    | with_reducible apply undecoded_keeps
    | with_reducible apply setPort_keeps
    | with_reducible apply countUp_keeps
    | with_reducible apply discardFrame_keeps
    | with_reducible apply takeLink_keeps
    | with_reducible apply sendIdle_keeps
    | with_reducible apply serveReads_keeps
    | with_reducible apply frameSlots_keeps
    | split
    | with_reducible apply Keeps.mk'

theorem execLinkFrame_keeps (t : Nat) (p : Nat) (f : LinkFrame) (s : State) (h0 : Keeps s0 s) :
    OutKeeps s0 (execLinkFrame t p f s) := by
  unfold execLinkFrame
  try dsimp only
  repeat' first
    | with_reducible assumption
    | with_reducible intro _
    | with_reducible apply ResKeeps.flt
    | with_reducible apply ResKeeps.ite
    | with_reducible apply ResKeeps.done
    | with_reducible apply ResKeeps.jump
    | with_reducible apply ResKeeps.hold
    | with_reducible apply OutKeeps.next
    | with_reducible apply OutKeeps.fault
    | with_reducible apply OutKeeps.ite
    | with_reducible apply presentUnit_keeps
    | with_reducible apply frameIn_keeps
    | split

theorem exportClear_keeps (s : State) (n : Nat) (h0 : Keeps s0 s) :
    Keeps s0 (exportClear s n) := by
  unfold exportClear
  try dsimp only
  repeat' first
    | with_reducible assumption
    | with_reducible apply Keeps.ite
    | with_reducible apply setFld_keeps
    | split

theorem exportEnd_keeps (s : State) (n : Nat) (h0 : Keeps s0 s) :
    Keeps s0 (exportEnd s n) := by
  unfold exportEnd
  try dsimp only
  repeat' first
    | with_reducible assumption
    | with_reducible apply Keeps.ite
    | with_reducible apply setFld_keeps
    | split

theorem execExportValidClear_keeps (t : Nat) (n : Nat) (s : State) (h0 : Keeps s0 s) :
    OutKeeps s0 (execExportValidClear t n s) := by
  unfold execExportValidClear
  try dsimp only
  repeat' first
    | with_reducible assumption
    | with_reducible intro _
    | with_reducible apply ResKeeps.flt
    | with_reducible apply ResKeeps.ite
    | with_reducible apply ResKeeps.done
    | with_reducible apply ResKeeps.jump
    | with_reducible apply ResKeeps.hold
    | with_reducible apply OutKeeps.next
    | with_reducible apply OutKeeps.fault
    | with_reducible apply OutKeeps.ite
    | with_reducible apply presentUnit_keeps
    | with_reducible apply exportClear_keeps
    | split

theorem execExportBusyEnd_keeps (t : Nat) (n : Nat) (s : State) (h0 : Keeps s0 s) :
    OutKeeps s0 (execExportBusyEnd t n s) := by
  unfold execExportBusyEnd
  try dsimp only
  repeat' first
    | with_reducible assumption
    | with_reducible intro _
    | with_reducible apply ResKeeps.flt
    | with_reducible apply ResKeeps.ite
    | with_reducible apply ResKeeps.done
    | with_reducible apply ResKeeps.jump
    | with_reducible apply ResKeeps.hold
    | with_reducible apply OutKeeps.next
    | with_reducible apply OutKeeps.fault
    | with_reducible apply OutKeeps.ite
    | with_reducible apply presentUnit_keeps
    | with_reducible apply exportEnd_keeps
    | split

theorem execSealingEnd_keeps (t : Nat) (n : Nat) (s : State) (h0 : Keeps s0 s) :
    OutKeeps s0 (execSealingEnd t n s) := by
  unfold execSealingEnd
  try dsimp only
  repeat' first
    | with_reducible assumption
    | with_reducible intro _
    | with_reducible apply ResKeeps.flt
    | with_reducible apply ResKeeps.ite
    | with_reducible apply ResKeeps.done
    | with_reducible apply ResKeeps.jump
    | with_reducible apply ResKeeps.hold
    | with_reducible apply OutKeeps.next
    | with_reducible apply OutKeeps.fault
    | with_reducible apply OutKeeps.ite
    | with_reducible apply presentUnit_keeps
    | with_reducible apply serveReads_keeps
    | with_reducible apply endSealing_keeps
    | split

theorem execRepairStageEnd_keeps (t : Nat) (n : Nat) (b : Nat) (stage : Nat) (s : State) (h0 : Keeps s0 s) :
    OutKeeps s0 (execRepairStageEnd t n b stage s) := by
  unfold execRepairStageEnd
  try dsimp only
  repeat' first
    | with_reducible assumption
    | with_reducible intro _
    | with_reducible apply ResKeeps.flt
    | with_reducible apply ResKeeps.ite
    | with_reducible apply ResKeeps.done
    | with_reducible apply ResKeeps.jump
    | with_reducible apply ResKeeps.hold
    | with_reducible apply OutKeeps.next
    | with_reducible apply OutKeeps.fault
    | with_reducible apply OutKeeps.ite
    | with_reducible apply presentUnit_keeps
    | with_reducible apply serveReads_keeps
    | with_reducible apply repairStageEnd_keeps
    | split

/-! ## Sched.lean -/

theorem bringAll_keeps (s : State) (h0 : Keeps s0 s) :
    Keeps s0 (bringAll s) := by
  unfold bringAll
  try dsimp only
  repeat' first
    | with_reducible assumption
    | with_reducible intro _
    | with_reducible apply Keeps.foldl
    | with_reducible apply bringIn_keeps
    | split

theorem reserve_keeps (s : State) (n : Nat) (h0 : Keeps s0 s) :
    Keeps s0 (reserve s n) := by
  unfold reserve
  try dsimp only
  repeat' first
    | with_reducible assumption
    | with_reducible apply setFld_keeps
    | split

theorem form_keeps (s : State) (h0 : Keeps s0 s) :
    Keeps s0 (form s) := by
  unfold form
  try dsimp only
  repeat' first
    | with_reducible assumption
    | with_reducible apply Keeps.ite
    | with_reducible apply setFld_keeps
    | with_reducible apply reserve_keeps
    | with_reducible apply bringAll_keeps
    | with_reducible apply countUp_keeps
    | split
    | with_reducible dsimp only
    | with_reducible apply Keeps.mk'

/-! ## SchedBoundary.lean -/

theorem scorePage_keeps (s : State) (rc : Nat) (n : Nat) (p : Nat × Nat × Nat × Nat × Pte) (h0 : Keeps s0 s) :
    Keeps s0 (scorePage s rc n p) := by
  unfold scorePage
  try dsimp only
  repeat' first
    | with_reducible assumption
    | with_reducible apply putPte_keeps
    | with_reducible apply physPut_keeps
    | split
    | with_reducible dsimp only
    | with_reducible apply Keeps.mk'

theorem evictReq_keeps (s : State) (n : Nat) (rc : Nat) (h0 : Keeps s0 s) :
    Keeps s0 (evictReq s n rc) := by
  unfold evictReq
  try dsimp only
  repeat' first
    | with_reducible assumption
    | with_reducible intro _
    | with_reducible apply Keeps.foldl
    | with_reducible apply Keeps.foldl1
    | with_reducible apply scorePage_keeps
    | with_reducible apply setReq_keeps
    | split
    | with_reducible dsimp only
    | with_reducible apply Keeps.mk'

theorem evictPass_keeps (s : State) (n : Nat) (h0 : Keeps s0 s) :
    Keeps s0 (evictPass s n) := by
  unfold evictPass
  try dsimp only
  repeat' first
    | with_reducible assumption
    | with_reducible intro _
    | with_reducible apply Keeps.ite
    | with_reducible apply Keeps.foldl
    | with_reducible apply evictReq_keeps
    | split

theorem commitPage_keeps (s : State) (es : List StgEntry) (k : Nat × Nat × Nat × Nat) (h0 : Keeps s0 s) :
    Keeps s0 (commitPage s es k).1 := by
  unfold commitPage
  try dsimp only
  repeat' first
    | with_reducible assumption
    | with_reducible apply Keeps.ite1
    | with_reducible apply Keeps.ite
    | with_reducible apply putPte_keeps
    | split
    | with_reducible dsimp only
    | with_reducible apply Keeps.mk'

theorem commitAll_keeps (s : State) (h0 : Keeps s0 s) :
    Keeps s0 (commitAll s).1 := by
  unfold commitAll
  try dsimp only
  repeat' first
    | with_reducible assumption
    | with_reducible intro _
    | with_reducible apply Keeps.ite1
    | with_reducible apply Keeps.ite
    | with_reducible apply Keeps.foldl
    | with_reducible apply Keeps.foldl1
    | with_reducible apply writeHalves_keeps
    | with_reducible apply commitPage_keeps
    | with_reducible apply modAllStg_keeps
    | with_reducible apply settleSpec_keeps
    | split
    | with_reducible dsimp only

theorem advancePos_keeps (s : State) (m : Member) (h0 : Keeps s0 s) :
    Keeps s0 (advancePos s m) := by
  unfold advancePos
  try dsimp only
  repeat' first
    | with_reducible assumption
    | with_reducible apply Keeps.ite
    | with_reducible apply rcPut_keeps
    | split

theorem logVerify_keeps (s : State) (rc : Nat) (proposed : Nat) (accepted : Nat) (h0 : Keeps s0 s) :
    Keeps s0 (logVerify s rc proposed accepted) := by
  unfold logVerify
  try dsimp only
  repeat' first
    | with_reducible assumption
    | with_reducible apply Keeps.ite
    | with_reducible apply rcPut_keeps
    | with_reducible apply setReq_keeps
    | split
    | with_reducible apply Keeps.mk'

theorem owedEnd_keeps (s : State) (rc : Nat) (h0 : Keeps s0 s) :
    Keeps s0 (owedEnd s rc) := by
  unfold owedEnd
  try dsimp only
  repeat' first
    | with_reducible assumption
    | with_reducible intro _
    | with_reducible apply Keeps.ite
    | with_reducible apply Keeps.foldl
    | with_reducible apply Keeps.foldl1
    | with_reducible apply setMoving_keeps
    | with_reducible apply complete_keeps
    | split
    | with_reducible dsimp only

theorem stopImport_keeps (s : State) (rc : Nat) (h0 : Keeps s0 s) :
    Keeps s0 (stopImport s rc) := by
  unfold stopImport
  try dsimp only
  repeat' first
    | with_reducible assumption
    | with_reducible apply Keeps.ite
    | with_reducible apply stopOp_keeps
    | with_reducible apply OptKeeps.getD
    | split

theorem endRequest_keeps (s : State) (rc : Nat) (code : Nat) (n : Nat) (h0 : Keeps s0 s) :
    Keeps s0 (endRequest s rc code n) := by
  unfold endRequest
  try dsimp only
  repeat' first
    | with_reducible assumption
    | with_reducible apply Keeps.ite
    | with_reducible apply stopImport_keeps
    | with_reducible apply owedEnd_keeps
    | with_reducible apply setReq_keeps
    | with_reducible apply armTierTimer_keeps
    | with_reducible apply setRcState_keeps
    | with_reducible apply rcPut_keeps
    | with_reducible apply countUp_keeps
    | with_reducible apply dropMayflies_keeps
    | with_reducible apply removeStg_keeps
    | with_reducible apply setHeld_keeps
    | split
    | with_reducible apply Keeps.mk'

theorem withdrawStep_keeps (s : State) (rc : Nat) (h0 : Keeps s0 s) :
    Keeps s0 (withdrawStep s rc) := by
  unfold withdrawStep
  try dsimp only
  repeat' first
    | with_reducible assumption
    | with_reducible intro _
    | with_reducible apply Keeps.ite
    | with_reducible apply Keeps.foldl
    | with_reducible apply Keeps.foldl1
    | with_reducible apply rcPut_keeps
    | split
    | with_reducible dsimp only

theorem holdTokens_keeps (s : State) (rc : Nat) (n : Nat) (toks : List Word32) (h0 : Keeps s0 s) :
    Keeps s0 (holdTokens s rc n toks) := by
  unfold holdTokens
  try dsimp only
  repeat' first
    | with_reducible assumption
    | with_reducible apply Keeps.ite
    | with_reducible apply setHeld_keeps
    | split
    | with_reducible dsimp only

theorem clearStep_keeps (s : State) (rc : Nat) (h0 : Keeps s0 s) :
    Keeps s0 (clearStep s rc) := by
  unfold clearStep
  try dsimp only
  repeat' first
    | with_reducible assumption
    | with_reducible apply setReq_keeps
    | split
    | with_reducible apply Keeps.mk'

theorem settleReq_keeps (s : State) (p : Step) (rc : Nat) (h0 : Keeps s0 s) :
    Keeps s0 (settleReq s p rc).1 := by
  unfold settleReq
  try dsimp only
  repeat' first
    | with_reducible assumption
    | with_reducible apply Keeps.ite1
    | with_reducible apply Keeps.ite
    | with_reducible apply clearStep_keeps
    | with_reducible apply endRequest_keeps
    | with_reducible apply withdrawStep_keeps
    | with_reducible apply logVerify_keeps
    | with_reducible apply holdTokens_keeps
    | with_reducible apply setRcState_keeps
    | with_reducible apply OptKeeps.getD
    | split

theorem settleAll_keeps (s : State) (p : Step) (h0 : Keeps s0 s) :
    Keeps s0 (settleAll s p).1 := by
  unfold settleAll
  try dsimp only
  repeat' first
    | with_reducible assumption
    | with_reducible intro _
    | with_reducible apply Keeps.foldl
    | with_reducible apply Keeps.foldl1
    | with_reducible apply settleReq_keeps
    | split
    | with_reducible dsimp only

theorem refillTenant_keeps (s : State) (t : Nat) (h0 : Keeps s0 s) :
    Keeps s0 (refillTenant s t) := by
  unfold refillTenant
  try dsimp only
  repeat' first
    | with_reducible assumption
    | with_reducible apply Keeps.ite
    | with_reducible apply tenPut_keeps
    | split

theorem refills_keeps (s : State) (h0 : Keeps s0 s) :
    Keeps s0 (refills s) := by
  unfold refills
  try dsimp only
  repeat' first
    | with_reducible assumption
    | with_reducible intro _
    | with_reducible apply Keeps.foldl
    | with_reducible apply refillTenant_keeps
    | split

theorem journalAll_keeps (s : State) (n : Nat) (h0 : Keeps s0 s) :
    Keeps s0 (journalAll s n) := by
  unfold journalAll
  try dsimp only
  repeat' first
    | with_reducible assumption
    | with_reducible intro _
    | with_reducible apply Keeps.foldl
    | with_reducible apply Keeps.foldl1
    | with_reducible apply setReq_keeps
    | split
    | with_reducible dsimp only
    | with_reducible apply Keeps.mk'

theorem restoreFields_keeps (s : State) (rc : Nat) (b : List Byte) (h0 : Keeps s0 s) :
    Keeps s0 (restoreFields s rc b) := by
  unfold restoreFields
  try dsimp only
  repeat' first
    | with_reducible assumption
    | with_reducible intro _
    | with_reducible apply Keeps.foldl
    | with_reducible apply Keeps.foldl1
    | with_reducible apply rcPut_keeps
    | with_reducible apply physWrite_keeps
    | with_reducible apply setRcFlag_keeps
    | split
    | with_reducible dsimp only

theorem refund_keeps (s : State) (t : Nat) (n : Nat) (h0 : Keeps s0 s) :
    Keeps s0 (refund s t n) := by
  unfold refund
  try dsimp only
  repeat' first
    | with_reducible assumption
    | with_reducible apply Keeps.ite
    | with_reducible apply tenPut_keeps
    | split

theorem rollReq_keeps (s : State) (g : Nat) (inStep : Bool) (rc : Nat) (h0 : Keeps s0 s) :
    Keeps s0 (rollReq s g inStep rc).1 := by
  unfold rollReq
  try dsimp only
  repeat' first
    | with_reducible assumption
    | with_reducible apply Keeps.ite1
    | with_reducible apply Keeps.ite
    | with_reducible apply restoreFields_keeps
    | with_reducible apply rollPages_keeps
    | with_reducible apply dropMayflies_keeps
    | with_reducible apply removeStg_keeps
    | with_reducible apply setReq_keeps
    | with_reducible apply refund_keeps
    | with_reducible apply setHeld_keeps
    | with_reducible refine Keeps.ofPair ?_ (by assumption)
    | split
    | with_reducible dsimp only
    | with_reducible apply Keeps.mk'

theorem sendRetraction_keeps (s : State) (ds : List Nat) (record : List Byte) (h0 : Keeps s0 s) :
    Keeps s0 (sendRetraction s ds record) := by
  unfold sendRetraction
  try dsimp only
  repeat' first
    | with_reducible assumption
    | with_reducible intro _
    | with_reducible apply Keeps.foldl
    | with_reducible apply sendRput_keeps
    | split

theorem forwardReceived_keeps (s : State) (h0 : Keeps s0 s) :
    Keeps s0 (forwardReceived s) := by
  unfold forwardReceived
  try dsimp only
  repeat' first
    | with_reducible assumption
    | with_reducible intro _
    | with_reducible apply Keeps.ite
    | with_reducible apply Keeps.foldl
    | with_reducible apply Keeps.foldl1
    | with_reducible apply sendRetraction_keeps
    | split
    | with_reducible dsimp only
    | with_reducible apply Keeps.mk'

theorem rollBack_keeps (s : State) (p : Step) (c : RollCause) (h0 : Keeps s0 s) :
    Keeps s0 (rollBack s p c).1 := by
  unfold rollBack
  try dsimp only
  repeat' first
    | with_reducible assumption
    | with_reducible intro _
    | with_reducible apply Keeps.ite1
    | with_reducible apply Keeps.ite
    | with_reducible apply Keeps.foldl
    | with_reducible apply Keeps.foldl1
    | with_reducible apply rollReq_keeps
    | with_reducible apply errorRecord_keeps
    | with_reducible apply sendRetraction_keeps
    | with_reducible apply countUp_keeps
    | with_reducible apply setReg64_keeps
    | with_reducible apply setFld_keeps
    | with_reducible apply sendIf_keeps
    | split
    | with_reducible dsimp only
    | with_reducible apply Keeps.mk'

theorem markFault_keeps (s : State) (p : Step) (h0 : Keeps s0 s) :
    Keeps s0 (markFault s p) := by
  unfold markFault
  try dsimp only
  repeat' first
    | with_reducible assumption
    | with_reducible apply Keeps.ite
    | with_reducible apply setFld_keeps
    | with_reducible apply sendIf_keeps
    | split
    | with_reducible apply Keeps.mk'

theorem settleRetraction_keeps (s : State) (p : Step) (h0 : Keeps s0 s) :
    Keeps s0 (settleRetraction s p) := by
  unfold settleRetraction
  try dsimp only
  repeat' first
    | with_reducible assumption
    | with_reducible apply Keeps.ite
    | with_reducible apply writeRetraction_keeps
    | split

theorem rollAtBoundary_keeps (x0 : State) (p : Step) (h0 : Keeps s0 x0) :
    Keeps s0 (rollAtBoundary x0 p).1 := by
  unfold rollAtBoundary
  try dsimp only
  repeat' first
    | with_reducible assumption
    | with_reducible apply Keeps.ite1
    | with_reducible apply Keeps.ite
    | with_reducible apply settleRetraction_keeps
    | with_reducible apply rollBack_keeps
    | with_reducible apply setFld_keeps
    | with_reducible apply markFault_keeps
    | with_reducible apply forwardReceived_keeps
    | with_reducible apply OptKeeps.getD
    | with_reducible refine Keeps.ofPair ?_ (by assumption)
    | split
    | with_reducible dsimp only
    | with_reducible apply Keeps.mk'

theorem handOff_keeps (s : State) (p : Step) (confirms : List MFrame) (new : List StgEntry) (h0 : Keeps s0 s) :
    Keeps s0 (handOff s p confirms new) := by
  unfold handOff
  try dsimp only
  repeat' first
    | with_reducible assumption
    | with_reducible intro _
    | with_reducible apply Keeps.ite
    | with_reducible apply Keeps.foldl
    | with_reducible apply queueFrames_keeps
    | with_reducible apply setReq_keeps
    | with_reducible apply sendBulk_keeps
    | with_reducible apply OptKeeps.getD
    | split
    | with_reducible apply Keeps.mk'

theorem applyVictims_keeps (s : State) (n : Nat) (rc : Nat) (h0 : Keeps s0 s) :
    Keeps s0 (applyVictims s n rc) := by
  unfold applyVictims
  try dsimp only
  repeat' first
    | with_reducible assumption
    | with_reducible intro _
    | with_reducible apply Keeps.ite
    | with_reducible apply Keeps.foldl
    | with_reducible apply Keeps.foldl1
    | with_reducible apply countUp_keeps
    | with_reducible apply putPte_keeps
    | with_reducible apply pushSpill_keeps
    | with_reducible apply dropRef_keeps
    | with_reducible apply setReq_keeps
    | split
    | with_reducible dsimp only
    | with_reducible apply Keeps.mk'

theorem applyProfile_keeps (s : State) (h0 : Keeps s0 s) :
    Keeps s0 (applyProfile s) := by
  unfold applyProfile
  try dsimp only
  repeat' first
    | with_reducible assumption
    | with_reducible apply Keeps.ite
    | with_reducible apply setFld_keeps
    | with_reducible apply modPower_keeps
    | with_reducible apply formDigest_keeps
    | with_reducible apply countUp_keeps
    | with_reducible apply regPut_keeps
    | with_reducible apply owePublication_keeps
    | with_reducible apply governorProfile_keeps
    | split
    | with_reducible apply Keeps.mk'

theorem showModes_keeps (s : State) (h0 : Keeps s0 s) :
    Keeps s0 (showModes s) := by
  unfold showModes
  try dsimp only
  repeat' first
    | with_reducible assumption
    | with_reducible apply setFld_keeps
    | split

theorem applyModes_keeps (s : State) (n : Nat) (h0 : Keeps s0 s) :
    Keeps s0 (applyModes s n) := by
  unfold applyModes
  try dsimp only
  repeat' first
    | with_reducible assumption
    | with_reducible intro _
    | with_reducible apply Keeps.ite
    | with_reducible apply Keeps.foldl
    | with_reducible apply modPower_keeps
    | with_reducible apply setFld_keeps
    | with_reducible apply showModes_keeps
    | with_reducible apply regPut_keeps
    | with_reducible apply dropMayflies_keeps
    | with_reducible apply removeStg_keeps
    | with_reducible apply endRequest_keeps
    | split
    | with_reducible apply Keeps.mk'

theorem orderSix_keeps (s : State) (n : Nat) (h0 : Keeps s0 s) :
    Keeps s0 (orderSix s n) := by
  unfold orderSix
  try dsimp only
  repeat' first
    | with_reducible assumption
    | with_reducible apply Keeps.ite
    | with_reducible apply landAdapters_keeps
    | with_reducible apply applyCmds_keeps
    | with_reducible apply adopt_keeps
    | with_reducible apply applyCheckEn_keeps
    | with_reducible apply modPower_keeps
    | with_reducible apply applyModes_keeps
    | with_reducible apply applyProfile_keeps
    | with_reducible apply publishSpare_keeps
    | with_reducible apply endUnsealing_keeps
    | split
    | with_reducible apply Keeps.mk'

theorem orderSeven_keeps (s : State) (h0 : Keeps s0 s) :
    Keeps s0 (orderSeven s) := by
  unfold orderSeven
  try dsimp only
  repeat' first
    | with_reducible assumption
    | with_reducible intro _
    | with_reducible apply Keeps.ite
    | with_reducible apply Keeps.foldl
    | with_reducible apply Keeps.foldl1
    | with_reducible apply retryMirror_keeps
    | with_reducible apply startRestores_keeps
    | with_reducible apply retryShares_keeps
    | with_reducible apply startImport_keeps
    | with_reducible apply dropTb_keeps
    | split
    | with_reducible dsimp only

theorem publishOwed_keeps (s : State) (h0 : Keeps s0 s) :
    Keeps s0 (publishOwed s) := by
  unfold publishOwed
  try dsimp only
  repeat' first
    | with_reducible assumption
    | with_reducible apply Keeps.ite
    | with_reducible apply beginPublication_keeps
    | split

theorem orderFive_keeps (s : State) (n : Nat) (h0 : Keeps s0 s) :
    Keeps s0 (orderFive s n) := by
  unfold orderFive
  try dsimp only
  repeat' first
    | with_reducible assumption
    | with_reducible intro _
    | with_reducible apply Keeps.ite
    | with_reducible apply Keeps.foldl
    | with_reducible apply releaseReq_keeps
    | with_reducible apply openGate_keeps
    | with_reducible apply putCell_keeps
    | with_reducible apply sendIf_keeps
    | split
    | with_reducible apply Keeps.mk'

theorem settleStep_keeps (s : State) (p : Step) (h0 : Keeps s0 s) :
    Keeps s0 (settleStep s p).1 := by
  unfold settleStep
  try dsimp only
  repeat' first
    | with_reducible assumption
    | with_reducible intro _
    | with_reducible apply Keeps.foldl
    | with_reducible apply Keeps.foldl1
    | with_reducible apply commitAll_keeps
    | with_reducible apply evictPass_keeps
    | with_reducible apply settleChecks_keeps
    | with_reducible apply advancePos_keeps
    | with_reducible apply rollAtBoundary_keeps
    | with_reducible apply settleAll_keeps
    | with_reducible apply removeStg_keeps
    | with_reducible apply refills_keeps
    | with_reducible apply setFld_keeps
    | split
    | with_reducible dsimp only
    | with_reducible apply Keeps.mk'

theorem boundaryOf_keeps (s : State) (p : Step) (h0 : Keeps s0 s) :
    Keeps s0 (boundaryOf s p) := by
  unfold boundaryOf
  try dsimp only
  repeat' first
    | with_reducible assumption
    | with_reducible intro _
    | with_reducible apply Keeps.foldl
    | with_reducible apply Keeps.foldl1
    | with_reducible apply settleStep_keeps
    | with_reducible apply openDue_keeps
    | with_reducible apply handOff_keeps
    | with_reducible apply freeAdapters_keeps
    | with_reducible apply releaseFreed_keeps
    | with_reducible apply applyVictims_keeps
    | with_reducible apply orderFive_keeps
    | with_reducible apply setFld_keeps
    | with_reducible apply installWaiting_keeps
    | with_reducible apply retireLosers_keeps
    | with_reducible apply testBoundary_keeps
    | with_reducible apply orderSix_keeps
    | with_reducible apply journalAll_keeps
    | with_reducible apply orderSeven_keeps
    | with_reducible apply quiesce_keeps
    | with_reducible apply form_keeps
    | with_reducible apply publishOwed_keeps
    | with_reducible apply OptKeeps.getD
    | split
    | with_reducible dsimp only
    | with_reducible apply Keeps.mk'

theorem stepBoundary_keeps (s : State) (h0 : Keeps s0 s) :
    Keeps s0 (stepBoundary s) := by
  unfold stepBoundary
  try dsimp only
  repeat' first
    | with_reducible assumption
    | with_reducible apply Keeps.ite
    | with_reducible apply boundaryOf_keeps
    | split
    | with_reducible apply Keeps.mk'

theorem idleForm_keeps (s : State) (h0 : Keeps s0 s) :
    Keeps s0 (idleForm s) := by
  unfold idleForm
  try dsimp only
  repeat' first
    | with_reducible assumption
    | with_reducible apply Keeps.ite
    | with_reducible apply quiesce_keeps
    | with_reducible apply form_keeps
    | with_reducible apply publishOwed_keeps
    | with_reducible apply journalAll_keeps
    | with_reducible apply orderSeven_keeps
    | with_reducible apply orderSix_keeps
    | with_reducible apply refills_keeps
    | with_reducible apply openDue_keeps
    | split

theorem execStepBoundary_keeps (t : Nat) (s : State) (h0 : Keeps s0 s) :
    OutKeeps s0 (execStepBoundary t s) := by
  unfold execStepBoundary
  try dsimp only
  repeat' first
    | with_reducible assumption
    | with_reducible intro _
    | with_reducible apply ResKeeps.flt
    | with_reducible apply ResKeeps.ite
    | with_reducible apply ResKeeps.done
    | with_reducible apply ResKeeps.jump
    | with_reducible apply ResKeeps.hold
    | with_reducible apply OutKeeps.next
    | with_reducible apply OutKeeps.fault
    | with_reducible apply OutKeeps.ite
    | with_reducible apply present_keeps
    | with_reducible apply stepBoundary_keeps
    | split

theorem execIdleFormation_keeps (t : Nat) (s : State) (h0 : Keeps s0 s) :
    OutKeeps s0 (execIdleFormation t s) := by
  unfold execIdleFormation
  try dsimp only
  repeat' first
    | with_reducible assumption
    | with_reducible intro _
    | with_reducible apply ResKeeps.flt
    | with_reducible apply ResKeeps.ite
    | with_reducible apply ResKeeps.done
    | with_reducible apply ResKeeps.jump
    | with_reducible apply ResKeeps.hold
    | with_reducible apply OutKeeps.next
    | with_reducible apply OutKeeps.fault
    | with_reducible apply OutKeeps.ite
    | with_reducible apply present_keeps
    | with_reducible apply idleForm_keeps
    | split

/-! ## Launch.lean -/

theorem writeFresh_keeps (s : State) (a : Nat) (bs : List Byte) (h0 : Keeps s0 s) :
    Keeps s0 (writeFresh s a bs) := by
  unfold writeFresh
  try dsimp only
  repeat' first
    | with_reducible assumption
    | with_reducible apply dropLines_keeps
    | with_reducible apply physWrite_keeps
    | split

theorem writeWork_keeps (s : State) (p : Step) (h0 : Keeps s0 s) :
    Keeps s0 (writeWork s p).1 := by
  unfold writeWork
  try dsimp only
  repeat' first
    | with_reducible assumption
    | with_reducible apply Keeps.ite1
    | with_reducible apply Keeps.ite
    | with_reducible apply writeFresh_keeps
    | with_reducible apply setFld_keeps
    | split
    | with_reducible dsimp only

theorem startCores_keeps (s : State) (p : Step) (offs : List Nat) (h0 : Keeps s0 s) :
    Keeps s0 (startCores s p offs) := by
  unfold startCores
  try dsimp only
  repeat' first
    | with_reducible assumption
    | with_reducible intro _
    | with_reducible apply Keeps.ite
    | with_reducible apply Keeps.foldl
    | with_reducible apply Keeps.foldl1
    | with_reducible apply modCore_keeps
    | with_reducible apply OptKeeps.getD
    | split
    | with_reducible dsimp only

theorem showEst_keeps (s : State) (h0 : Keeps s0 s) :
    Keeps s0 (showEst s) := by
  unfold showEst
  try dsimp only
  repeat' first
    | with_reducible assumption
    | with_reducible apply Keeps.ite
    | with_reducible apply setFld_keeps
    | split

theorem keepLaunch_keeps (s : State) (p : Step) (h0 : Keeps s0 s) :
    Keeps s0 (keepLaunch s p) := by
  unfold keepLaunch
  try dsimp only
  repeat' first
    | with_reducible assumption
    | with_reducible intro _
    | with_reducible apply Keeps.foldl
    | with_reducible apply setReq_keeps
    | split
    | with_reducible apply Keeps.mk'

theorem launch_keeps (s : State) (p0 : Step) (h0 : Keeps s0 s) :
    Keeps s0 (launch s p0) := by
  unfold launch
  try dsimp only
  repeat' first
    | with_reducible assumption
    | with_reducible apply Keeps.ite
    | with_reducible apply writeWork_keeps
    | with_reducible apply openChecks_keeps
    | with_reducible apply writeSlot_keeps
    | with_reducible apply dropLines_keeps
    | with_reducible apply putCell_keeps
    | with_reducible apply startCores_keeps
    | with_reducible apply keepLaunch_keeps
    | with_reducible apply showEst_keeps
    | with_reducible apply holdWatchdog_keeps
    | with_reducible apply setFld_keeps
    | with_reducible apply setReg64_keeps
    | split
    | with_reducible dsimp only
    | with_reducible apply Keeps.mk'

theorem stepLaunch_keeps (s : State) (h0 : Keeps s0 s) :
    Keeps s0 (stepLaunch s) := by
  unfold stepLaunch
  try dsimp only
  repeat' first
    | with_reducible assumption
    | with_reducible apply Keeps.ite
    | with_reducible apply launch_keeps
    | split

theorem fomEnd_keeps (s : State) (h0 : Keeps s0 s) :
    Keeps s0 (fomEnd s) := by
  unfold fomEnd
  try dsimp only
  repeat' first
    | with_reducible assumption
    | with_reducible apply Keeps.ite
    | with_reducible apply setFld_keeps
    | with_reducible apply tookFree_keeps
    | split
    | with_reducible apply Keeps.mk'

theorem execStepLaunch_keeps (t : Nat) (s : State) (h0 : Keeps s0 s) :
    OutKeeps s0 (execStepLaunch t s) := by
  unfold execStepLaunch
  try dsimp only
  repeat' first
    | with_reducible assumption
    | with_reducible intro _
    | with_reducible apply ResKeeps.flt
    | with_reducible apply ResKeeps.ite
    | with_reducible apply ResKeeps.done
    | with_reducible apply ResKeeps.jump
    | with_reducible apply ResKeeps.hold
    | with_reducible apply OutKeeps.next
    | with_reducible apply OutKeeps.fault
    | with_reducible apply OutKeeps.ite
    | with_reducible apply present_keeps
    | with_reducible apply stepLaunch_keeps
    | split

theorem execFomWindowEnd_keeps (t : Nat) (s : State) (h0 : Keeps s0 s) :
    OutKeeps s0 (execFomWindowEnd t s) := by
  unfold execFomWindowEnd
  try dsimp only
  repeat' first
    | with_reducible assumption
    | with_reducible intro _
    | with_reducible apply ResKeeps.flt
    | with_reducible apply ResKeeps.ite
    | with_reducible apply ResKeeps.done
    | with_reducible apply ResKeeps.jump
    | with_reducible apply ResKeeps.hold
    | with_reducible apply OutKeeps.next
    | with_reducible apply OutKeeps.fault
    | with_reducible apply OutKeeps.ite
    | with_reducible apply present_keeps
    | with_reducible apply fomEnd_keeps
    | split

/-! ## Queues.lean -/

theorem showQueueError_keeps (s : State) (h0 : Keeps s0 s) :
    Keeps s0 (showQueueError s) := by
  unfold showQueueError
  try dsimp only
  repeat' first
    | with_reducible assumption
    | with_reducible apply setFld_keeps
    | split

theorem stopQueue_keeps (s : State) (q : Nat) (cause : Nat) (h0 : Keeps s0 s) :
    Keeps s0 (stopQueue s q cause) := by
  unfold stopQueue
  try dsimp only
  repeat' first
    | with_reducible assumption
    | with_reducible apply setQueue_keeps
    | with_reducible apply setFld_keeps
    | with_reducible apply showIdle_keeps
    | with_reducible apply showQueueError_keeps
    | split
    | with_reducible apply Keeps.mk'

theorem takeEntry_keeps (s : State) (q : Nat) (h0 : Keeps s0 s) :
    Keeps s0 (takeEntry s q) := by
  unfold takeEntry
  try dsimp only
  repeat' first
    | with_reducible assumption
    | with_reducible apply Keeps.ite
    | with_reducible apply setQueue_keeps
    | with_reducible apply setFld_keeps
    | split
    | with_reducible dsimp only
    | with_reducible apply Keeps.mk'

theorem presentCmd_keeps (s : State) (c : QCmd) (h0 : Keeps s0 s) :
    Keeps s0 (presentCmd s c) := by
  unfold presentCmd
  try dsimp only
  repeat' first
    | with_reducible assumption
    | with_reducible apply Keeps.ite
    | with_reducible apply applyCmd_keeps
    | with_reducible apply startRestores_keeps
    | with_reducible apply form_keeps
    | split
    | with_reducible apply Keeps.mk'

theorem fetchFrom_keeps (s : State) (q n : Nat) (h0 : Keeps s0 s) :
    Keeps s0 (fetchFrom s q n) := by
  induction n generalizing s with
  | zero => unfold fetchFrom; exact h0
  | succ n ih =>
  unfold fetchFrom
  try dsimp only
  repeat' first
    | with_reducible assumption
    | with_reducible intro _
    | with_reducible apply Keeps.ite
    | with_reducible apply ih
    | with_reducible apply areaReady_keeps
    | with_reducible apply operandArea_keeps
    | with_reducible apply stopQueue_keeps
    | with_reducible apply takeEntry_keeps
    | with_reducible apply presentCmd_keeps
    | with_reducible refine Keeps.ofPair ?_ (by assumption)
    | split
    | with_reducible dsimp only

theorem fetchQueue_keeps (s : State) (q : Nat) (h0 : Keeps s0 s) :
    Keeps s0 (fetchQueue s q) := by
  unfold fetchQueue
  try dsimp only
  repeat' first
    | with_reducible assumption
    | with_reducible apply fetchFrom_keeps
    | split

theorem fetchAll_keeps (s : State) (h0 : Keeps s0 s) :
    Keeps s0 (fetchAll s) := by
  unfold fetchAll
  try dsimp only
  repeat' first
    | with_reducible assumption
    | with_reducible intro _
    | with_reducible apply Keeps.foldl
    | with_reducible apply Keeps.foldl1
    | with_reducible apply fetchQueue_keeps
    | split
    | with_reducible dsimp only

theorem doorbell_keeps (s : State) (q : Nat) (tail : Nat) (h0 : Keeps s0 s) :
    Keeps s0 (doorbell s q tail) := by
  unfold doorbell
  try dsimp only
  repeat' first
    | with_reducible assumption
    | with_reducible apply Keeps.ite
    | with_reducible apply stopQueue_keeps
    | with_reducible apply fetchQueue_keeps
    | with_reducible apply setQueue_keeps
    | split
    | with_reducible apply Keeps.mk'

theorem headDoorbell_keeps (s : State) (q : Nat) (head : Nat) (h0 : Keeps s0 s) :
    Keeps s0 (headDoorbell s q head) := by
  unfold headDoorbell
  try dsimp only
  repeat' first
    | with_reducible assumption
    | with_reducible apply Keeps.ite
    | with_reducible apply stopQueue_keeps
    | with_reducible apply fetchQueue_keeps
    | with_reducible apply setQueue_keeps
    | split
    | with_reducible apply Keeps.mk'

theorem execSubmissionDoorbell_keeps (t : Nat) (q : Nat) (tail : Nat) (s : State) (h0 : Keeps s0 s) :
    OutKeeps s0 (execSubmissionDoorbell t q tail s) := by
  unfold execSubmissionDoorbell
  try dsimp only
  repeat' first
    | with_reducible assumption
    | with_reducible intro _
    | with_reducible apply ResKeeps.flt
    | with_reducible apply ResKeeps.ite
    | with_reducible apply ResKeeps.done
    | with_reducible apply ResKeeps.jump
    | with_reducible apply ResKeeps.hold
    | with_reducible apply OutKeeps.next
    | with_reducible apply OutKeeps.fault
    | with_reducible apply OutKeeps.ite
    | with_reducible apply presentUnit_keeps
    | with_reducible apply doorbell_keeps
    | split

theorem execCompletionHeadDoorbell_keeps (t : Nat) (q : Nat) (head : Nat) (s : State) (h0 : Keeps s0 s) :
    OutKeeps s0 (execCompletionHeadDoorbell t q head s) := by
  unfold execCompletionHeadDoorbell
  try dsimp only
  repeat' first
    | with_reducible assumption
    | with_reducible intro _
    | with_reducible apply ResKeeps.flt
    | with_reducible apply ResKeeps.ite
    | with_reducible apply ResKeeps.done
    | with_reducible apply ResKeeps.jump
    | with_reducible apply ResKeeps.hold
    | with_reducible apply OutKeeps.next
    | with_reducible apply OutKeeps.fault
    | with_reducible apply OutKeeps.ite
    | with_reducible apply presentUnit_keeps
    | with_reducible apply headDoorbell_keeps
    | split

theorem execCoalesceTime_keeps (t : Nat) (q : Nat) (s : State) (h0 : Keeps s0 s) :
    OutKeeps s0 (execCoalesceTime t q s) := by
  unfold execCoalesceTime
  try dsimp only
  repeat' first
    | with_reducible assumption
    | with_reducible intro _
    | with_reducible apply ResKeeps.flt
    | with_reducible apply ResKeeps.ite
    | with_reducible apply ResKeeps.done
    | with_reducible apply ResKeeps.jump
    | with_reducible apply ResKeeps.hold
    | with_reducible apply OutKeeps.next
    | with_reducible apply OutKeeps.fault
    | with_reducible apply OutKeeps.ite
    | with_reducible apply Keeps.ite
    | with_reducible apply presentUnit_keeps
    | with_reducible apply sendCoalesced_keeps
    | split

theorem enableQueue_keeps (s : State) (q : Nat) (h0 : Keeps s0 s) :
    Keeps s0 (enableQueue s q) := by
  unfold enableQueue
  try dsimp only
  repeat' first
    | with_reducible assumption
    | with_reducible apply setFld_keeps
    | with_reducible apply setQueue_keeps
    | with_reducible apply showIdle_keeps
    | with_reducible apply showQueueError_keeps
    | split

theorem queueCtrl_keeps (s : State) (q : Nat) (v : Word32) (h0 : Keeps s0 s) :
    Keeps s0 (queueCtrl s q v) := by
  unfold queueCtrl
  try dsimp only
  repeat' first
    | with_reducible assumption
    | with_reducible apply Keeps.ite
    | with_reducible apply setFld_keeps
    | with_reducible apply enableQueue_keeps
    | with_reducible apply stopQueue_keeps
    | with_reducible apply showIdle_keeps
    | split

theorem execHqSqEnable_keeps (t : Nat) (q : Nat) (v : Word32) (s : State) (h0 : Keeps s0 s) :
    OutKeeps s0 (execHqSqEnable t q v s) := by
  unfold execHqSqEnable
  try dsimp only
  repeat' first
    | with_reducible assumption
    | with_reducible intro _
    | with_reducible apply ResKeeps.flt
    | with_reducible apply ResKeeps.ite
    | with_reducible apply ResKeeps.done
    | with_reducible apply ResKeeps.jump
    | with_reducible apply ResKeeps.hold
    | with_reducible apply OutKeeps.next
    | with_reducible apply OutKeeps.fault
    | with_reducible apply OutKeeps.ite
    | with_reducible apply presentUnit_keeps
    | with_reducible apply queueCtrl_keeps
    | split

theorem hostCmd_keeps (op : Nat) (t : Nat) (q : Nat) (c : HostCmd) (s : State) (h0 : Keeps s0 s) :
    OutKeeps s0 (hostCmd op t q c s) := by
  unfold hostCmd
  try dsimp only
  repeat' first
    | with_reducible assumption
    | with_reducible intro _
    | with_reducible apply ResKeeps.flt
    | with_reducible apply ResKeeps.ite
    | with_reducible apply ResKeeps.done
    | with_reducible apply ResKeeps.jump
    | with_reducible apply ResKeeps.hold
    | with_reducible apply OutKeeps.next
    | with_reducible apply OutKeeps.fault
    | with_reducible apply OutKeeps.ite
    | with_reducible apply Keeps.ite
    | with_reducible apply presentUnit_keeps
    | with_reducible apply takeEntry_keeps
    | with_reducible apply presentCmd_keeps
    | with_reducible apply setQueue_keeps
    | split
    | with_reducible apply Keeps.mk'

theorem execAdmitCmd_keeps (t : Nat) (q : Nat) (c : HostCmd) (s : State) (h0 : Keeps s0 s) :
    OutKeeps s0 (execAdmitCmd t q c s) := by
  unfold execAdmitCmd
  try dsimp only
  repeat' first
    | with_reducible assumption
    | with_reducible apply ResKeeps.flt
    | with_reducible apply ResKeeps.ite
    | with_reducible apply ResKeeps.done
    | with_reducible apply ResKeeps.jump
    | with_reducible apply ResKeeps.hold
    | with_reducible apply OutKeeps.next
    | with_reducible apply OutKeeps.fault
    | with_reducible apply OutKeeps.ite
    | with_reducible apply hostCmd_keeps
    | split

theorem execCancel_keeps (t : Nat) (q : Nat) (c : HostCmd) (s : State) (h0 : Keeps s0 s) :
    OutKeeps s0 (execCancel t q c s) := by
  unfold execCancel
  try dsimp only
  repeat' first
    | with_reducible assumption
    | with_reducible apply ResKeeps.flt
    | with_reducible apply ResKeeps.ite
    | with_reducible apply ResKeeps.done
    | with_reducible apply ResKeeps.jump
    | with_reducible apply ResKeeps.hold
    | with_reducible apply OutKeeps.next
    | with_reducible apply OutKeeps.fault
    | with_reducible apply OutKeeps.ite
    | with_reducible apply hostCmd_keeps
    | split

theorem execResumeRequest_keeps (t : Nat) (q : Nat) (c : HostCmd) (s : State) (h0 : Keeps s0 s) :
    OutKeeps s0 (execResumeRequest t q c s) := by
  unfold execResumeRequest
  try dsimp only
  repeat' first
    | with_reducible assumption
    | with_reducible apply ResKeeps.flt
    | with_reducible apply ResKeeps.ite
    | with_reducible apply ResKeeps.done
    | with_reducible apply ResKeeps.jump
    | with_reducible apply ResKeeps.hold
    | with_reducible apply OutKeeps.next
    | with_reducible apply OutKeeps.fault
    | with_reducible apply OutKeeps.ite
    | with_reducible apply hostCmd_keeps
    | split

theorem execPark_keeps (t : Nat) (q : Nat) (c : HostCmd) (s : State) (h0 : Keeps s0 s) :
    OutKeeps s0 (execPark t q c s) := by
  unfold execPark
  try dsimp only
  repeat' first
    | with_reducible assumption
    | with_reducible apply ResKeeps.flt
    | with_reducible apply ResKeeps.ite
    | with_reducible apply ResKeeps.done
    | with_reducible apply ResKeeps.jump
    | with_reducible apply ResKeeps.hold
    | with_reducible apply OutKeeps.next
    | with_reducible apply OutKeeps.fault
    | with_reducible apply OutKeeps.ite
    | with_reducible apply hostCmd_keeps
    | split

theorem execUnpark_keeps (t : Nat) (q : Nat) (c : HostCmd) (s : State) (h0 : Keeps s0 s) :
    OutKeeps s0 (execUnpark t q c s) := by
  unfold execUnpark
  try dsimp only
  repeat' first
    | with_reducible assumption
    | with_reducible apply ResKeeps.flt
    | with_reducible apply ResKeeps.ite
    | with_reducible apply ResKeeps.done
    | with_reducible apply ResKeeps.jump
    | with_reducible apply ResKeeps.hold
    | with_reducible apply OutKeeps.next
    | with_reducible apply OutKeeps.fault
    | with_reducible apply OutKeeps.ite
    | with_reducible apply hostCmd_keeps
    | split

theorem execSharePrefix_keeps (t : Nat) (q : Nat) (c : HostCmd) (s : State) (h0 : Keeps s0 s) :
    OutKeeps s0 (execSharePrefix t q c s) := by
  unfold execSharePrefix
  try dsimp only
  repeat' first
    | with_reducible assumption
    | with_reducible apply ResKeeps.flt
    | with_reducible apply ResKeeps.ite
    | with_reducible apply ResKeeps.done
    | with_reducible apply ResKeeps.jump
    | with_reducible apply ResKeeps.hold
    | with_reducible apply OutKeeps.next
    | with_reducible apply OutKeeps.fault
    | with_reducible apply OutKeeps.ite
    | with_reducible apply hostCmd_keeps
    | split

theorem execTenantCmd_keeps (t : Nat) (q : Nat) (c : HostCmd) (s : State) (h0 : Keeps s0 s) :
    OutKeeps s0 (execTenantCmd t q c s) := by
  unfold execTenantCmd
  try dsimp only
  repeat' first
    | with_reducible assumption
    | with_reducible apply ResKeeps.flt
    | with_reducible apply ResKeeps.ite
    | with_reducible apply ResKeeps.done
    | with_reducible apply ResKeeps.jump
    | with_reducible apply ResKeeps.hold
    | with_reducible apply OutKeeps.next
    | with_reducible apply OutKeeps.fault
    | with_reducible apply OutKeeps.ite
    | with_reducible apply hostCmd_keeps
    | split

theorem execLoadAdapter_keeps (t : Nat) (q : Nat) (c : HostCmd) (s : State) (h0 : Keeps s0 s) :
    OutKeeps s0 (execLoadAdapter t q c s) := by
  unfold execLoadAdapter
  try dsimp only
  repeat' first
    | with_reducible assumption
    | with_reducible apply ResKeeps.flt
    | with_reducible apply ResKeeps.ite
    | with_reducible apply ResKeeps.done
    | with_reducible apply ResKeeps.jump
    | with_reducible apply ResKeeps.hold
    | with_reducible apply OutKeeps.next
    | with_reducible apply OutKeeps.fault
    | with_reducible apply OutKeeps.ite
    | with_reducible apply hostCmd_keeps
    | split

theorem execRetireAdapter_keeps (t : Nat) (q : Nat) (c : HostCmd) (s : State) (h0 : Keeps s0 s) :
    OutKeeps s0 (execRetireAdapter t q c s) := by
  unfold execRetireAdapter
  try dsimp only
  repeat' first
    | with_reducible assumption
    | with_reducible apply ResKeeps.flt
    | with_reducible apply ResKeeps.ite
    | with_reducible apply ResKeeps.done
    | with_reducible apply ResKeeps.jump
    | with_reducible apply ResKeeps.hold
    | with_reducible apply OutKeeps.next
    | with_reducible apply OutKeeps.fault
    | with_reducible apply OutKeeps.ite
    | with_reducible apply hostCmd_keeps
    | split

theorem execLoadImage_keeps (t : Nat) (q : Nat) (c : HostCmd) (s : State) (h0 : Keeps s0 s) :
    OutKeeps s0 (execLoadImage t q c s) := by
  unfold execLoadImage
  try dsimp only
  repeat' first
    | with_reducible assumption
    | with_reducible apply ResKeeps.flt
    | with_reducible apply ResKeeps.ite
    | with_reducible apply ResKeeps.done
    | with_reducible apply ResKeeps.jump
    | with_reducible apply ResKeeps.hold
    | with_reducible apply OutKeeps.next
    | with_reducible apply OutKeeps.fault
    | with_reducible apply OutKeeps.ite
    | with_reducible apply hostCmd_keeps
    | split

theorem execResumeScheduler_keeps (t : Nat) (q : Nat) (c : HostCmd) (s : State) (h0 : Keeps s0 s) :
    OutKeeps s0 (execResumeScheduler t q c s) := by
  unfold execResumeScheduler
  try dsimp only
  repeat' first
    | with_reducible assumption
    | with_reducible apply ResKeeps.flt
    | with_reducible apply ResKeeps.ite
    | with_reducible apply ResKeeps.done
    | with_reducible apply ResKeeps.jump
    | with_reducible apply ResKeeps.hold
    | with_reducible apply OutKeeps.next
    | with_reducible apply OutKeeps.fault
    | with_reducible apply OutKeeps.ite
    | with_reducible apply hostCmd_keeps
    | split

theorem execGuestTable_keeps (t : Nat) (q : Nat) (c : HostCmd) (s : State) (h0 : Keeps s0 s) :
    OutKeeps s0 (execGuestTable t q c s) := by
  unfold execGuestTable
  try dsimp only
  repeat' first
    | with_reducible assumption
    | with_reducible apply ResKeeps.flt
    | with_reducible apply ResKeeps.ite
    | with_reducible apply ResKeeps.done
    | with_reducible apply ResKeeps.jump
    | with_reducible apply ResKeeps.hold
    | with_reducible apply OutKeeps.next
    | with_reducible apply OutKeeps.fault
    | with_reducible apply OutKeeps.ite
    | with_reducible apply hostCmd_keeps
    | split

end Sys2Proof.Machine
end

