-- ==== Sys2Proof/Laws/KeepsBoot.lean ====
section
/-! SUPPORT. Each operation keeps the command queue and the canonical form of memories and tables (`Keeps`): boot and resets, register accesses, Kolwin, the tick, events and register writes. -/
namespace Sys2Proof.Machine
open Sys2Proof
variable {s0 : State}

/-! ## Boot.lean -/

theorem smWf_foldl (d : Nat → Word32) (l : List (Nat × Word32)) :
    ∀ {m : List (Nat × Word32)}, smWf d m = true →
      smWf d (l.foldl (fun m r => smSet d m r.1 r.2) m) = true := by
  induction l with
  | nil => exact id
  | cons x l ih => intro m h; exact ih (smWf_smSet _ _ _ h)

theorem setBoot_keeps (s : State) (b : Nat) (h0 : Keeps s0 s) :
    Keeps s0 (setBoot s b) := by
  unfold setBoot
  try dsimp only
  repeat' first
    | with_reducible assumption
    | with_reducible apply setFld_keeps
    | split

theorem startProfile_keeps (s : State) (pins : Nat) (active : Nat) (record : List Byte) (h0 : Keeps s0 s) :
    Keeps s0 (startProfile s pins active record) := by
  unfold startProfile
  try dsimp only
  repeat' first
    | with_reducible assumption
    | with_reducible apply modPower_keeps
    | with_reducible apply setFld_keeps
    | with_reducible apply regPut_keeps
    | split
    | with_reducible apply Keeps.mk'

theorem clearedDevice_keeps (s : State) (cause : Nat) (h0 : Keeps s0 s) :
    Keeps s0 (clearedDevice s cause) := by
  have h1 := cleared_keeps s cause (Keeps.refl s)
  unfold clearedDevice
  dsimp only
  apply startProfile_keeps
  apply setFld_keeps
  apply setFld_keeps
  apply setFld_keeps
  apply setFld_keeps
  refine Keeps.foldl (fun _ _ => setFld_keeps _ _ _) (h0.trans ⟨h1.pending, fun c => ?_⟩)
  have c1 := h1.canon c
  exact ⟨⟨smWf_filter _ _ c.1.1, c1.1.2.1, c1.1.2.2⟩, smWf_foldl _ _ c1.2.1, c1.2.2.1, c.2.2.2.1, c1.2.2.2.2⟩

theorem linkKept_keeps (s t : State) (h0 : Keeps s0 t) :
    Keeps s0 (linkKept s t) := by
  unfold linkKept
  try dsimp only
  repeat' first
    | with_reducible assumption
    | with_reducible apply Keeps.ite
    | with_reducible apply setFld_keeps
    | split

theorem deviceReset_keeps (s : State) (cause : Nat) (h0 : Keeps s0 s) :
    Keeps s0 (deviceReset s cause) := by
  unfold deviceReset
  try dsimp only
  repeat' first
    | with_reducible assumption
    | with_reducible apply Keeps.ite
    | with_reducible apply shutdown_keeps
    | with_reducible apply clearedDevice_keeps
    | with_reducible apply linkKept_keeps
    | split

theorem inputUp_keeps (s : State) (h0 : Keeps s0 s) :
    Keeps s0 (inputUp s) := by
  unfold inputUp
  try dsimp only
  repeat' first
    | with_reducible assumption
    | with_reducible apply Keeps.ite
    | with_reducible apply powerOnReset_keeps
    | split
    | with_reducible apply Keeps.mk'

theorem inputDown_keeps (s : State) (h0 : Keeps s0 s) :
    Keeps s0 (inputDown s) := by
  unfold inputDown
  try dsimp only
  repeat' first
    | with_reducible assumption
    | with_reducible apply powerOnReset_keeps
    | split
    | with_reducible apply Keeps.mk'

theorem pwrgdUp_keeps (s : State) (resetHigh : Bool) (h0 : Keeps s0 s) :
    Keeps s0 (pwrgdUp s resetHigh) := by
  unfold pwrgdUp
  try dsimp only
  repeat' first
    | with_reducible assumption
    | with_reducible apply Keeps.ite
    | with_reducible apply shutdown_keeps
    | split
    | with_reducible apply Keeps.mk'

theorem samplePins_keeps (s : State) (p : Nat) (slot : Nat) (h0 : Keeps s0 s) :
    Keeps s0 (samplePins s p slot) := by
  unfold samplePins
  try dsimp only
  repeat' first
    | with_reducible assumption
    | with_reducible apply Keeps.ite
    | with_reducible apply startProfile_keeps
    | with_reducible apply setFld_keeps
    | split
    | with_reducible apply Keeps.mk'

theorem resetLow_keeps (s : State) (h0 : Keeps s0 s) :
    Keeps s0 (resetLow s) := by
  unfold resetLow
  try dsimp only
  repeat' first
    | with_reducible assumption
    | with_reducible apply Keeps.ite
    | with_reducible apply shutdown_keeps
    | with_reducible apply powerOnReset_keeps
    | split
    | with_reducible apply Keeps.mk'

theorem resetHigh_keeps (s : State) (p : Nat) (slot : Nat) (h0 : Keeps s0 s) :
    Keeps s0 (resetHigh s p slot) := by
  unfold resetHigh
  try dsimp only
  repeat' first
    | with_reducible assumption
    | with_reducible apply Keeps.ite
    | with_reducible apply samplePins_keeps
    | split
    | with_reducible apply Keeps.mk'

theorem resetTaken_keeps (s : State) (p : Nat) (slot : Nat) (h0 : Keeps s0 s) :
    Keeps s0 (resetTaken s p slot) := by
  unfold resetTaken
  try dsimp only
  repeat' first
    | with_reducible assumption
    | with_reducible apply Keeps.ite
    | with_reducible apply samplePins_keeps
    | split

theorem execInputApplied_keeps (t : Nat) (s : State) (h0 : Keeps s0 s) :
    OutKeeps s0 (execInputApplied t s) := by
  unfold execInputApplied
  try dsimp only
  repeat' first
    | with_reducible assumption
    | with_reducible apply ResKeeps.flt
    | with_reducible apply ResKeeps.ite
    | with_reducible apply ResKeeps.done
    | with_reducible apply ResKeeps.jump
    | with_reducible apply ResKeeps.hold
    | with_reducible apply OutKeeps.next
    | with_reducible apply OutKeeps.fault
    | with_reducible apply OutKeeps.ite
    | with_reducible apply inputUp_keeps
    | with_reducible apply atTick_keeps
    | split

theorem execInputRemoved_keeps (t : Nat) (s : State) (h0 : Keeps s0 s) :
    OutKeeps s0 (execInputRemoved t s) := by
  unfold execInputRemoved
  try dsimp only
  repeat' first
    | with_reducible assumption
    | with_reducible apply ResKeeps.flt
    | with_reducible apply ResKeeps.ite
    | with_reducible apply ResKeeps.done
    | with_reducible apply ResKeeps.jump
    | with_reducible apply ResKeeps.hold
    | with_reducible apply OutKeeps.next
    | with_reducible apply OutKeeps.fault
    | with_reducible apply OutKeeps.ite
    | with_reducible apply inputDown_keeps
    | with_reducible apply atTick_keeps
    | split

theorem execPwrgdHigh_keeps (t : Nat) (resetNHigh : Bool) (s : State) (h0 : Keeps s0 s) :
    OutKeeps s0 (execPwrgdHigh t resetNHigh s) := by
  unfold execPwrgdHigh
  try dsimp only
  repeat' first
    | with_reducible assumption
    | with_reducible apply ResKeeps.flt
    | with_reducible apply ResKeeps.ite
    | with_reducible apply ResKeeps.done
    | with_reducible apply ResKeeps.jump
    | with_reducible apply ResKeeps.hold
    | with_reducible apply OutKeeps.next
    | with_reducible apply OutKeeps.fault
    | with_reducible apply OutKeeps.ite
    | with_reducible apply pwrgdUp_keeps
    | with_reducible apply atTick_keeps
    | split

theorem execResetNAsserted_keeps (t : Nat) (s : State) (h0 : Keeps s0 s) :
    OutKeeps s0 (execResetNAsserted t s) := by
  unfold execResetNAsserted
  try dsimp only
  repeat' first
    | with_reducible assumption
    | with_reducible apply ResKeeps.flt
    | with_reducible apply ResKeeps.ite
    | with_reducible apply ResKeeps.done
    | with_reducible apply ResKeeps.jump
    | with_reducible apply ResKeeps.hold
    | with_reducible apply OutKeeps.next
    | with_reducible apply OutKeeps.fault
    | with_reducible apply OutKeeps.ite
    | with_reducible apply resetLow_keeps
    | with_reducible apply atTick_keeps
    | split

theorem execResetNDeasserted_keeps (t : Nat) (p : Nat) (slot : Nat) (s : State) (h0 : Keeps s0 s) :
    OutKeeps s0 (execResetNDeasserted t p slot s) := by
  unfold execResetNDeasserted
  try dsimp only
  repeat' first
    | with_reducible assumption
    | with_reducible apply ResKeeps.flt
    | with_reducible apply ResKeeps.ite
    | with_reducible apply ResKeeps.done
    | with_reducible apply ResKeeps.jump
    | with_reducible apply ResKeeps.hold
    | with_reducible apply OutKeeps.next
    | with_reducible apply OutKeeps.fault
    | with_reducible apply OutKeeps.ite
    | with_reducible apply Keeps.ite
    | with_reducible apply resetHigh_keeps
    | with_reducible apply atTick_keeps
    | split

theorem execResetNDeassertionTaken_keeps (t : Nat) (p : Nat) (slot : Nat) (s : State) (h0 : Keeps s0 s) :
    OutKeeps s0 (execResetNDeassertionTaken t p slot s) := by
  unfold execResetNDeassertionTaken
  try dsimp only
  repeat' first
    | with_reducible assumption
    | with_reducible apply ResKeeps.flt
    | with_reducible apply ResKeeps.ite
    | with_reducible apply ResKeeps.done
    | with_reducible apply ResKeeps.jump
    | with_reducible apply ResKeeps.hold
    | with_reducible apply OutKeeps.next
    | with_reducible apply OutKeeps.fault
    | with_reducible apply OutKeeps.ite
    | with_reducible apply Keeps.ite
    | with_reducible apply resetTaken_keeps
    | with_reducible apply atTick_keeps
    | split

theorem execPcieReset_keeps (t : Nat) (s : State) (h0 : Keeps s0 s) :
    OutKeeps s0 (execPcieReset t s) := by
  unfold execPcieReset
  try dsimp only
  repeat' first
    | with_reducible assumption
    | with_reducible intro _
    | with_reducible apply ResKeeps.flt
    | with_reducible apply ResKeeps.ite
    | with_reducible apply ResKeeps.done
    | with_reducible apply ResKeeps.jump
    | with_reducible apply ResKeeps.hold
    | with_reducible apply OutKeeps.next
    | with_reducible apply OutKeeps.fault
    | with_reducible apply OutKeeps.ite
    | with_reducible apply presentAlways_keeps
    | with_reducible apply deviceReset_keeps
    | split

theorem linkTrained_keeps (s : State) (g : Nat) (w : Nat) (h0 : Keeps s0 s) :
    Keeps s0 (linkTrained s g w) := by
  unfold linkTrained
  try dsimp only
  repeat' first
    | with_reducible assumption
    | with_reducible apply Keeps.ite
    | with_reducible apply setFld_keeps
    | with_reducible apply setBoot_keeps
    | split

theorem startRecovery_keeps (s : State) (h0 : Keeps s0 s) :
    Keeps s0 (startRecovery s) := by
  unfold startRecovery
  try dsimp only
  repeat' first
    | with_reducible assumption
    | with_reducible apply resetDone_keeps
    | with_reducible apply setAlert_keeps
    | with_reducible apply railsDown_keeps
    | with_reducible apply setBoot_keeps
    | split

theorem startFirmware_keeps (s : State) (b : List Byte) (h0 : Keeps s0 s) :
    Keeps s0 (startFirmware s b) := by
  unfold startFirmware
  try dsimp only
  repeat' first
    | with_reducible assumption
    | with_reducible apply extendM_keeps
    | with_reducible apply setFld_keeps
    | with_reducible apply setBoot_keeps
    | split
    | with_reducible apply Keeps.mk'

theorem verificationEnd_keeps (s : State) (h0 : Keeps s0 s) :
    Keeps s0 (verificationEnd s) := by
  unfold verificationEnd
  try dsimp only
  repeat' first
    | with_reducible assumption
    | with_reducible apply Keeps.ite
    | with_reducible apply startFirmware_keeps
    | with_reducible apply startRecovery_keeps
    | split

theorem heldCells_keeps (s : State) (h0 : Keeps s0 s) :
    Keeps s0 (heldCells s) := by
  unfold heldCells
  try dsimp only
  repeat' first
    | with_reducible assumption
    | with_reducible intro _
    | with_reducible apply Keeps.foldl
    | with_reducible apply setCell_keeps
    | split

theorem firmwareUp_keeps (s : State) (h0 : Keeps s0 s) :
    Keeps s0 (firmwareUp s) := by
  unfold firmwareUp
  try dsimp only
  repeat' first
    | with_reducible assumption
    | with_reducible intro _
    | with_reducible apply Keeps.ite
    | with_reducible apply Keeps.foldl
    | with_reducible apply applyRails_keeps
    | with_reducible apply modPower_keeps
    | with_reducible apply heldCells_keeps
    | with_reducible apply setFld_keeps
    | split
    | with_reducible apply Keeps.mk'

theorem hbmZeroed_keeps (s : State) (h0 : Keeps s0 s) :
    Keeps s0 (hbmZeroed s) := by
  unfold hbmZeroed
  exact h0.trans ⟨rfl, fun c => ⟨⟨smWf_filter _ _ c.1.1, c.1.2⟩, c.2⟩⟩

theorem hbmUp_keeps (s : State) (h0 : Keeps s0 s) :
    Keeps s0 (hbmUp s) := by
  unfold hbmUp
  try dsimp only
  repeat' first
    | with_reducible assumption
    | with_reducible apply Keeps.ite
    | with_reducible apply hbmZeroed_keeps
    | split

theorem tier2Ready_keeps (s : State) (h0 : Keeps s0 s) :
    Keeps s0 (tier2Ready s) := by
  unfold tier2Ready
  try dsimp only
  repeat' first
    | with_reducible assumption
    | with_reducible apply Keeps.ite
    | split
    | with_reducible apply Keeps.mk'

theorem startUpFail_keeps (s : State) (f : Nat × Nat) (h0 : Keeps s0 s) :
    Keeps s0 (startUpFail s f) := by
  unfold startUpFail
  try dsimp only
  repeat' first
    | with_reducible assumption
    | with_reducible apply Keeps.ite
    | with_reducible apply testFails_keeps
    | with_reducible apply retireCore_keeps
    | split
    | with_reducible dsimp only
    | with_reducible apply Keeps.mk'

theorem testsEnd_keeps (s : State) (failed : List (Nat × Nat)) (h0 : Keeps s0 s) :
    Keeps s0 (testsEnd s failed) := by
  unfold testsEnd
  try dsimp only
  repeat' first
    | with_reducible assumption
    | with_reducible intro _
    | with_reducible apply Keeps.ite
    | with_reducible apply Keeps.foldl
    | with_reducible apply Keeps.foldl1
    | with_reducible apply setCoreState_keeps
    | with_reducible apply countUp_keeps
    | with_reducible apply startUpFail_keeps
    | with_reducible apply showModes_keeps
    | with_reducible apply regPut_keeps
    | with_reducible apply beginPublication_keeps
    | split
    | with_reducible dsimp only

theorem publicationEnd_keeps (s : State) (h0 : Keeps s0 s) :
    Keeps s0 (publicationEnd s) := by
  unfold publicationEnd
  try dsimp only
  repeat' first
    | with_reducible assumption
    | with_reducible apply Keeps.ite
    | with_reducible apply endPublication_keeps
    | with_reducible apply setBoot_keeps
    | with_reducible apply resetDone_keeps
    | with_reducible apply fetchAll_keeps
    | with_reducible apply armTests_keeps
    | split

theorem execClailaezPublication_keeps (t : Nat) (s : State) (h0 : Keeps s0 s) :
    OutKeeps s0 (execClailaezPublication t s) := by
  unfold execClailaezPublication
  try dsimp only
  repeat' first
    | with_reducible assumption
    | with_reducible intro _
    | with_reducible apply ResKeeps.flt
    | with_reducible apply ResKeeps.ite
    | with_reducible apply ResKeeps.done
    | with_reducible apply ResKeeps.jump
    | with_reducible apply ResKeeps.hold
    | with_reducible apply OutKeeps.next
    | with_reducible apply OutKeeps.fault
    | with_reducible apply OutKeeps.ite
    | with_reducible apply present_keeps
    | with_reducible apply publicationEnd_keeps
    | split

theorem execPcieLinkTrained_keeps (t : Nat) (g : Nat) (w : Nat) (s : State) (h0 : Keeps s0 s) :
    OutKeeps s0 (execPcieLinkTrained t g w s) := by
  unfold execPcieLinkTrained
  try dsimp only
  repeat' first
    | with_reducible assumption
    | with_reducible intro _
    | with_reducible apply ResKeeps.flt
    | with_reducible apply ResKeeps.ite
    | with_reducible apply ResKeeps.done
    | with_reducible apply ResKeeps.jump
    | with_reducible apply ResKeeps.hold
    | with_reducible apply OutKeeps.next
    | with_reducible apply OutKeeps.fault
    | with_reducible apply OutKeeps.ite
    | with_reducible apply Keeps.ite
    | with_reducible apply presentAlways_keeps
    | with_reducible apply linkTrained_keeps
    | split

theorem execImageVerificationEnd_keeps (t : Nat) (s : State) (h0 : Keeps s0 s) :
    OutKeeps s0 (execImageVerificationEnd t s) := by
  unfold execImageVerificationEnd
  try dsimp only
  repeat' first
    | with_reducible assumption
    | with_reducible intro _
    | with_reducible apply ResKeeps.flt
    | with_reducible apply ResKeeps.ite
    | with_reducible apply ResKeeps.done
    | with_reducible apply ResKeeps.jump
    | with_reducible apply ResKeeps.hold
    | with_reducible apply OutKeeps.next
    | with_reducible apply OutKeeps.fault
    | with_reducible apply OutKeeps.ite
    | with_reducible apply present_keeps
    | with_reducible apply verificationEnd_keeps
    | split

theorem execFirmwareStart_keeps (t : Nat) (s : State) (h0 : Keeps s0 s) :
    OutKeeps s0 (execFirmwareStart t s) := by
  unfold execFirmwareStart
  try dsimp only
  repeat' first
    | with_reducible assumption
    | with_reducible intro _
    | with_reducible apply ResKeeps.flt
    | with_reducible apply ResKeeps.ite
    | with_reducible apply ResKeeps.done
    | with_reducible apply ResKeeps.jump
    | with_reducible apply ResKeeps.hold
    | with_reducible apply OutKeeps.next
    | with_reducible apply OutKeeps.fault
    | with_reducible apply OutKeeps.ite
    | with_reducible apply present_keeps
    | with_reducible apply firmwareUp_keeps
    | split

theorem execHbmTrainingEnd_keeps (t : Nat) (s : State) (h0 : Keeps s0 s) :
    OutKeeps s0 (execHbmTrainingEnd t s) := by
  unfold execHbmTrainingEnd
  try dsimp only
  repeat' first
    | with_reducible assumption
    | with_reducible intro _
    | with_reducible apply ResKeeps.flt
    | with_reducible apply ResKeeps.ite
    | with_reducible apply ResKeeps.done
    | with_reducible apply ResKeeps.jump
    | with_reducible apply ResKeeps.hold
    | with_reducible apply OutKeeps.next
    | with_reducible apply OutKeeps.fault
    | with_reducible apply OutKeeps.ite
    | with_reducible apply present_keeps
    | with_reducible apply hbmUp_keeps
    | split

theorem execTier2TrainingEnd_keeps (t : Nat) (s : State) (h0 : Keeps s0 s) :
    OutKeeps s0 (execTier2TrainingEnd t s) := by
  unfold execTier2TrainingEnd
  try dsimp only
  repeat' first
    | with_reducible assumption
    | with_reducible intro _
    | with_reducible apply ResKeeps.flt
    | with_reducible apply ResKeeps.ite
    | with_reducible apply ResKeeps.done
    | with_reducible apply ResKeeps.jump
    | with_reducible apply ResKeeps.hold
    | with_reducible apply OutKeeps.next
    | with_reducible apply OutKeeps.fault
    | with_reducible apply OutKeeps.ite
    | with_reducible apply present_keeps
    | with_reducible apply tier2Ready_keeps
    | split

theorem execStartUpTestsEnd_keeps (t : Nat) (failed : List (Nat × Nat)) (s : State) (h0 : Keeps s0 s) :
    OutKeeps s0 (execStartUpTestsEnd t failed s) := by
  unfold execStartUpTestsEnd
  try dsimp only
  repeat' first
    | with_reducible assumption
    | with_reducible intro _
    | with_reducible apply ResKeeps.flt
    | with_reducible apply ResKeeps.ite
    | with_reducible apply ResKeeps.done
    | with_reducible apply ResKeeps.jump
    | with_reducible apply ResKeeps.hold
    | with_reducible apply OutKeeps.next
    | with_reducible apply OutKeeps.fault
    | with_reducible apply OutKeeps.ite
    | with_reducible apply present_keeps
    | with_reducible apply testsEnd_keeps
    | split

/-! ## RegRead.lean -/

theorem tkLowRead_keeps (s : State) (h0 : Keeps s0 s) :
    Keeps s0 (tkLowRead s) := by
  unfold tkLowRead
  try dsimp only
  repeat' first
    | with_reducible assumption
    | split
    | with_reducible apply Keeps.mk'

theorem execTkCountLowRead_keeps (t : Nat) (s : State) (h0 : Keeps s0 s) :
    OutKeeps s0 (execTkCountLowRead t s) := by
  unfold execTkCountLowRead
  try dsimp only
  repeat' first
    | with_reducible assumption
    | with_reducible intro _
    | with_reducible apply ResKeeps.flt
    | with_reducible apply ResKeeps.ite
    | with_reducible apply ResKeeps.done
    | with_reducible apply ResKeeps.jump
    | with_reducible apply ResKeeps.hold
    | with_reducible apply OutKeeps.next
    | with_reducible apply OutKeeps.fault
    | with_reducible apply OutKeeps.ite
    | with_reducible apply presentAlways_keeps
    | with_reducible apply tkLowRead_keeps
    | split

/-! ## Kolwin.lean -/

theorem respond_keeps (s : State) (op : Nat) (c : KwCmd) (r : State × KwAnswer) (h : Keeps s0 r.1) (h0 : Keeps s0 s) :
    Keeps s0 (respond op c r) := by
  unfold respond
  try dsimp only
  repeat' first
    | with_reducible assumption
    | with_reducible apply Keeps.ite
    | with_reducible exact h
    | with_reducible apply sendIf_keeps
    | with_reducible apply setFld_keeps
    | split
    | with_reducible dsimp only
    | with_reducible apply Keeps.mk'

theorem kwRun_keeps (op : Nat) (c : KwCmd) (f : State → State × KwAnswer) (s : State) (h : Keeps s0 (f s).1) (h0 : Keeps s0 s) :
    Keeps s0 (kwRun op c f s) := by
  unfold kwRun
  try dsimp only
  repeat' first
    | with_reducible assumption
    | with_reducible apply Keeps.ite
    | with_reducible exact respond_keeps _ _ _ _ h h0
    | with_reducible exact respond_keeps _ _ _ _ h0 h0
    | with_reducible apply respond_keeps
    | split

theorem kwCmd_keeps (t op : Nat) (c : KwCmd) (s : State) (run : State → State) (h : ∀ x, Keeps s0 x → Keeps s0 (run x)) (h0 : Keeps s0 s) :
    OutKeeps s0 (kwCmd t op c s run) := by
  unfold kwCmd
  exact OutKeeps.ite (presentAlways_keeps h h0) (present_keeps (fun x hx => Keeps.ite (setFld_keeps _ _ _ hx) (h x hx)) h0)

theorem toHost_keeps (s : State) (a : Nat) (bs : List Byte) (h0 : Keeps s0 s) :
    Keeps s0 (toHost s a bs).1 := by
  unfold toHost
  try dsimp only
  repeat' first
    | with_reducible assumption
    | with_reducible apply Keeps.ite1
    | with_reducible apply Keeps.ite
    | with_reducible apply hostPut_keeps
    | split

theorem doIdentity_keeps (c : KwCmd) (s : State) (h0 : Keeps s0 s) :
    Keeps s0 (doIdentity c s).1 := by
  unfold doIdentity
  try dsimp only
  repeat' first
    | with_reducible assumption
    | with_reducible apply Keeps.ite1
    | with_reducible apply Keeps.ite
    | with_reducible apply toHost_keeps
    | split

theorem doAttest_keeps (c : KwCmd) (s : State) (h0 : Keeps s0 s) :
    Keeps s0 (doAttest c s).1 := by
  unfold doAttest
  try dsimp only
  repeat' first
    | with_reducible assumption
    | with_reducible apply Keeps.ite1
    | with_reducible apply Keeps.ite
    | with_reducible apply toHost_keeps
    | split
    | with_reducible apply Keeps.mk'

theorem doRegRead_keeps (c : KwCmd) (s : State) (h0 : Keeps s0 s) :
    Keeps s0 (doRegRead c s).1 := by
  unfold doRegRead
  try dsimp only
  repeat' first
    | with_reducible assumption
    | with_reducible apply Keeps.ite1
    | with_reducible apply Keeps.ite
    | with_reducible apply tookFree_keeps
    | split
    | with_reducible apply Keeps.mk'

theorem requestProfile_keeps (s : State) (i : Nat) (h0 : Keeps s0 s) :
    Keeps s0 (requestProfile s i) := by
  unfold requestProfile
  try dsimp only
  repeat' first
    | with_reducible assumption
    | with_reducible apply setFld_keeps
    | with_reducible apply modPower_keeps
    | split
    | with_reducible apply Keeps.mk'

theorem doProfileSelect_keeps (c : KwCmd) (s : State) (h0 : Keeps s0 s) :
    Keeps s0 (doProfileSelect c s).1 := by
  unfold doProfileSelect
  try dsimp only
  repeat' first
    | with_reducible assumption
    | with_reducible apply Keeps.ite1
    | with_reducible apply Keeps.ite
    | with_reducible apply requestProfile_keeps
    | split

theorem doProfileWrite_keeps (c : KwCmd) (s : State) (h0 : Keeps s0 s) :
    Keeps s0 (doProfileWrite c s).1 := by
  unfold doProfileWrite
  try dsimp only
  repeat' first
    | with_reducible assumption
    | with_reducible apply Keeps.ite1
    | with_reducible apply Keeps.ite
    | with_reducible apply extendM_keeps
    | with_reducible apply requestProfile_keeps
    | split
    | with_reducible dsimp only
    | with_reducible apply Keeps.mk'

theorem writeMode_keeps (s : State) (v : Word32) (h0 : Keeps s0 s) :
    Keeps s0 (writeMode s v) := by
  unfold writeMode
  try dsimp only
  repeat' first
    | with_reducible assumption
    | with_reducible apply modPower_keeps
    | with_reducible apply plainWrite_keeps
    | split
    | with_reducible apply Keeps.mk'

theorem doMode_keeps (c : KwCmd) (s : State) (h0 : Keeps s0 s) :
    Keeps s0 (doMode c s).1 := by
  unfold doMode
  try dsimp only
  repeat' first
    | with_reducible assumption
    | with_reducible apply writeMode_keeps
    | split

theorem doPair_keeps (c : KwCmd) (s : State) (h0 : Keeps s0 s) :
    Keeps s0 (doPair c s).1 := by
  unfold doPair
  try dsimp only
  repeat' first
    | with_reducible assumption
    | with_reducible apply mirrorPair_keeps
    | with_reducible apply mirrorUnpair_keeps
    | with_reducible apply mirrorFence_keeps
    | with_reducible apply mirrorTakeover_keeps
    | split

theorem stageImage_keeps (s : State) (b : List Byte) (h0 : Keeps s0 s) :
    Keeps s0 (stageImage s b).1 := by
  unfold stageImage
  try dsimp only
  repeat' first
    | with_reducible assumption
    | with_reducible apply setFld_keeps
    | split
    | with_reducible apply Keeps.mk'

theorem doFwStage_keeps (c : KwCmd) (s : State) (h0 : Keeps s0 s) :
    Keeps s0 (doFwStage c s).1 := by
  unfold doFwStage
  try dsimp only
  repeat' first
    | with_reducible assumption
    | with_reducible apply Keeps.ite1
    | with_reducible apply Keeps.ite
    | with_reducible apply stageImage_keeps
    | split
    | with_reducible apply Keeps.mk'

theorem doCommitSv_keeps (s : State) (h0 : Keeps s0 s) :
    Keeps s0 (doCommitSv s).1 := by
  unfold doCommitSv
  try dsimp only
  repeat' first
    | with_reducible assumption
    | with_reducible apply setFld_keeps
    | split
    | with_reducible apply Keeps.mk'

theorem flashEnd_keeps (s : State) (h0 : Keeps s0 s) :
    Keeps s0 (flashEnd s) := by
  unfold flashEnd
  try dsimp only
  repeat' first
    | with_reducible assumption
    | with_reducible apply Keeps.ite
    | with_reducible apply setFld_keeps
    | with_reducible apply deviceReset_keeps
    | split
    | with_reducible apply Keeps.mk'

theorem doReset_keeps (s : State) (h0 : Keeps s0 s) :
    Keeps s0 (doReset s).1 := by
  unfold doReset
  try dsimp only
  repeat' first
    | with_reducible assumption
    | with_reducible apply Keeps.ite1
    | with_reducible apply Keeps.ite
    | with_reducible apply shutdown_keeps
    | split

theorem doPowerState_keeps (c : KwCmd) (s : State) (h0 : Keeps s0 s) :
    Keeps s0 (doPowerState c s).1 := by
  unfold doPowerState
  try dsimp only
  repeat' first
    | with_reducible assumption
    | with_reducible apply Keeps.ite1
    | with_reducible apply Keeps.ite
    | with_reducible apply setFld_keeps
    | with_reducible apply quiesce_keeps
    | split
    | with_reducible apply Keeps.mk'

theorem doRepairSupply_keeps (c : KwCmd) (s : State) (h0 : Keeps s0 s) :
    Keeps s0 (doRepairSupply c s).1 := by
  unfold doRepairSupply
  try dsimp only
  repeat' first
    | with_reducible assumption
    | with_reducible apply Keeps.ite1
    | with_reducible apply Keeps.ite
    | with_reducible apply serveReads_keeps
    | with_reducible apply repaired_keeps
    | split

theorem doAlertAck_keeps (c : KwCmd) (s : State) (h0 : Keeps s0 s) :
    Keeps s0 (doAlertAck c s).1 := by
  unfold doAlertAck
  try dsimp only
  repeat' first
    | with_reducible assumption
    | with_reducible apply driveAlert_keeps
    | with_reducible apply setFld_keeps
    | split

theorem resetRun_keeps (c : KwCmd) (s : State) (h0 : Keeps s0 s) :
    Keeps s0 (resetRun c s) := by
  unfold resetRun
  try dsimp only
  repeat' first
    | with_reducible assumption
    | with_reducible intro _
    | with_reducible apply Keeps.ite
    | with_reducible apply kwRun_keeps
    | with_reducible apply doReset_keeps
    | with_reducible apply deviceReset_keeps
    | split

theorem execIdentity_keeps (t : Nat) (c : KwCmd) (s : State) (h0 : Keeps s0 s) :
    OutKeeps s0 (execIdentity t c s) := by
  unfold execIdentity
  try dsimp only
  repeat' first
    | with_reducible assumption
    | with_reducible intro _
    | with_reducible apply ResKeeps.flt
    | with_reducible apply ResKeeps.ite
    | with_reducible apply ResKeeps.done
    | with_reducible apply ResKeeps.jump
    | with_reducible apply ResKeeps.hold
    | with_reducible apply OutKeeps.next
    | with_reducible apply OutKeeps.fault
    | with_reducible apply OutKeeps.ite
    | with_reducible apply kwCmd_keeps
    | with_reducible apply kwRun_keeps
    | with_reducible apply doIdentity_keeps
    | split

theorem execAttest_keeps (t : Nat) (c : KwCmd) (s : State) (h0 : Keeps s0 s) :
    OutKeeps s0 (execAttest t c s) := by
  unfold execAttest
  try dsimp only
  repeat' first
    | with_reducible assumption
    | with_reducible intro _
    | with_reducible apply ResKeeps.flt
    | with_reducible apply ResKeeps.ite
    | with_reducible apply ResKeeps.done
    | with_reducible apply ResKeeps.jump
    | with_reducible apply ResKeeps.hold
    | with_reducible apply OutKeeps.next
    | with_reducible apply OutKeeps.fault
    | with_reducible apply OutKeeps.ite
    | with_reducible apply kwCmd_keeps
    | with_reducible apply kwRun_keeps
    | with_reducible apply doAttest_keeps
    | split

theorem execRegRead_keeps (t : Nat) (c : KwCmd) (s : State) (h0 : Keeps s0 s) :
    OutKeeps s0 (execRegRead t c s) := by
  unfold execRegRead
  try dsimp only
  repeat' first
    | with_reducible assumption
    | with_reducible intro _
    | with_reducible apply ResKeeps.flt
    | with_reducible apply ResKeeps.ite
    | with_reducible apply ResKeeps.done
    | with_reducible apply ResKeeps.jump
    | with_reducible apply ResKeeps.hold
    | with_reducible apply OutKeeps.next
    | with_reducible apply OutKeeps.fault
    | with_reducible apply OutKeeps.ite
    | with_reducible apply kwCmd_keeps
    | with_reducible apply kwRun_keeps
    | with_reducible apply doRegRead_keeps
    | split

theorem execProfileSelect_keeps (t : Nat) (c : KwCmd) (s : State) (h0 : Keeps s0 s) :
    OutKeeps s0 (execProfileSelect t c s) := by
  unfold execProfileSelect
  try dsimp only
  repeat' first
    | with_reducible assumption
    | with_reducible intro _
    | with_reducible apply ResKeeps.flt
    | with_reducible apply ResKeeps.ite
    | with_reducible apply ResKeeps.done
    | with_reducible apply ResKeeps.jump
    | with_reducible apply ResKeeps.hold
    | with_reducible apply OutKeeps.next
    | with_reducible apply OutKeeps.fault
    | with_reducible apply OutKeeps.ite
    | with_reducible apply kwCmd_keeps
    | with_reducible apply kwRun_keeps
    | with_reducible apply doProfileSelect_keeps
    | split

theorem execProfileWrite_keeps (t : Nat) (c : KwCmd) (s : State) (h0 : Keeps s0 s) :
    OutKeeps s0 (execProfileWrite t c s) := by
  unfold execProfileWrite
  try dsimp only
  repeat' first
    | with_reducible assumption
    | with_reducible intro _
    | with_reducible apply ResKeeps.flt
    | with_reducible apply ResKeeps.ite
    | with_reducible apply ResKeeps.done
    | with_reducible apply ResKeeps.jump
    | with_reducible apply ResKeeps.hold
    | with_reducible apply OutKeeps.next
    | with_reducible apply OutKeeps.fault
    | with_reducible apply OutKeeps.ite
    | with_reducible apply kwCmd_keeps
    | with_reducible apply kwRun_keeps
    | with_reducible apply doProfileWrite_keeps
    | split

theorem execModeCmd_keeps (t : Nat) (c : KwCmd) (s : State) (h0 : Keeps s0 s) :
    OutKeeps s0 (execModeCmd t c s) := by
  unfold execModeCmd
  try dsimp only
  repeat' first
    | with_reducible assumption
    | with_reducible intro _
    | with_reducible apply ResKeeps.flt
    | with_reducible apply ResKeeps.ite
    | with_reducible apply ResKeeps.done
    | with_reducible apply ResKeeps.jump
    | with_reducible apply ResKeeps.hold
    | with_reducible apply OutKeeps.next
    | with_reducible apply OutKeeps.fault
    | with_reducible apply OutKeeps.ite
    | with_reducible apply kwCmd_keeps
    | with_reducible apply kwRun_keeps
    | with_reducible apply doMode_keeps
    | split

theorem execPairCmd_keeps (t : Nat) (c : KwCmd) (s : State) (h0 : Keeps s0 s) :
    OutKeeps s0 (execPairCmd t c s) := by
  unfold execPairCmd
  try dsimp only
  repeat' first
    | with_reducible assumption
    | with_reducible intro _
    | with_reducible apply ResKeeps.flt
    | with_reducible apply ResKeeps.ite
    | with_reducible apply ResKeeps.done
    | with_reducible apply ResKeeps.jump
    | with_reducible apply ResKeeps.hold
    | with_reducible apply OutKeeps.next
    | with_reducible apply OutKeeps.fault
    | with_reducible apply OutKeeps.ite
    | with_reducible apply kwCmd_keeps
    | with_reducible apply kwRun_keeps
    | with_reducible apply doPair_keeps
    | split

theorem execFwStage_keeps (t : Nat) (c : KwCmd) (s : State) (h0 : Keeps s0 s) :
    OutKeeps s0 (execFwStage t c s) := by
  unfold execFwStage
  try dsimp only
  repeat' first
    | with_reducible assumption
    | with_reducible intro _
    | with_reducible apply ResKeeps.flt
    | with_reducible apply ResKeeps.ite
    | with_reducible apply ResKeeps.done
    | with_reducible apply ResKeeps.jump
    | with_reducible apply ResKeeps.hold
    | with_reducible apply OutKeeps.next
    | with_reducible apply OutKeeps.fault
    | with_reducible apply OutKeeps.ite
    | with_reducible apply kwCmd_keeps
    | with_reducible apply kwRun_keeps
    | with_reducible apply doFwStage_keeps
    | split

theorem execCommitSv_keeps (t : Nat) (c : KwCmd) (s : State) (h0 : Keeps s0 s) :
    OutKeeps s0 (execCommitSv t c s) := by
  unfold execCommitSv
  try dsimp only
  repeat' first
    | with_reducible assumption
    | with_reducible intro _
    | with_reducible apply ResKeeps.flt
    | with_reducible apply ResKeeps.ite
    | with_reducible apply ResKeeps.done
    | with_reducible apply ResKeeps.jump
    | with_reducible apply ResKeeps.hold
    | with_reducible apply OutKeeps.next
    | with_reducible apply OutKeeps.fault
    | with_reducible apply OutKeeps.ite
    | with_reducible apply kwCmd_keeps
    | with_reducible apply kwRun_keeps
    | with_reducible apply doCommitSv_keeps
    | split

theorem execPowerState_keeps (t : Nat) (c : KwCmd) (s : State) (h0 : Keeps s0 s) :
    OutKeeps s0 (execPowerState t c s) := by
  unfold execPowerState
  try dsimp only
  repeat' first
    | with_reducible assumption
    | with_reducible intro _
    | with_reducible apply ResKeeps.flt
    | with_reducible apply ResKeeps.ite
    | with_reducible apply ResKeeps.done
    | with_reducible apply ResKeeps.jump
    | with_reducible apply ResKeeps.hold
    | with_reducible apply OutKeeps.next
    | with_reducible apply OutKeeps.fault
    | with_reducible apply OutKeeps.ite
    | with_reducible apply kwCmd_keeps
    | with_reducible apply kwRun_keeps
    | with_reducible apply doPowerState_keeps
    | split

theorem execRepairSupply_keeps (t : Nat) (c : KwCmd) (s : State) (h0 : Keeps s0 s) :
    OutKeeps s0 (execRepairSupply t c s) := by
  unfold execRepairSupply
  try dsimp only
  repeat' first
    | with_reducible assumption
    | with_reducible intro _
    | with_reducible apply ResKeeps.flt
    | with_reducible apply ResKeeps.ite
    | with_reducible apply ResKeeps.done
    | with_reducible apply ResKeeps.jump
    | with_reducible apply ResKeeps.hold
    | with_reducible apply OutKeeps.next
    | with_reducible apply OutKeeps.fault
    | with_reducible apply OutKeeps.ite
    | with_reducible apply kwCmd_keeps
    | with_reducible apply kwRun_keeps
    | with_reducible apply doRepairSupply_keeps
    | split

theorem execAlertAck_keeps (t : Nat) (c : KwCmd) (s : State) (h0 : Keeps s0 s) :
    OutKeeps s0 (execAlertAck t c s) := by
  unfold execAlertAck
  try dsimp only
  repeat' first
    | with_reducible assumption
    | with_reducible intro _
    | with_reducible apply ResKeeps.flt
    | with_reducible apply ResKeeps.ite
    | with_reducible apply ResKeeps.done
    | with_reducible apply ResKeeps.jump
    | with_reducible apply ResKeeps.hold
    | with_reducible apply OutKeeps.next
    | with_reducible apply OutKeeps.fault
    | with_reducible apply OutKeeps.ite
    | with_reducible apply kwCmd_keeps
    | with_reducible apply kwRun_keeps
    | with_reducible apply doAlertAck_keeps
    | split

theorem execResetCmd_keeps (t : Nat) (c : KwCmd) (s : State) (h0 : Keeps s0 s) :
    OutKeeps s0 (execResetCmd t c s) := by
  unfold execResetCmd
  try dsimp only
  repeat' first
    | with_reducible assumption
    | with_reducible intro _
    | with_reducible apply ResKeeps.flt
    | with_reducible apply ResKeeps.ite
    | with_reducible apply ResKeeps.done
    | with_reducible apply ResKeeps.jump
    | with_reducible apply ResKeeps.hold
    | with_reducible apply OutKeeps.next
    | with_reducible apply OutKeeps.fault
    | with_reducible apply OutKeeps.ite
    | with_reducible apply kwCmd_keeps
    | with_reducible apply resetRun_keeps
    | split

theorem mailboxRun_keeps (s : State) (h0 : Keeps s0 s) :
    Keeps s0 (mailboxRun s) := by
  unfold mailboxRun
  try dsimp only
  repeat' first
    | with_reducible assumption
    | with_reducible apply Keeps.ite
    | with_reducible apply setFld_keeps
    | with_reducible apply respond_keeps
    | with_reducible apply OptKeeps.getD
    | split
    | with_reducible apply Keeps.mk'

theorem fallback_keeps (s : State) (h0 : Keeps s0 s) :
    Keeps s0 (fallback s) := by
  unfold fallback
  try dsimp only
  repeat' first
    | with_reducible assumption
    | with_reducible apply Keeps.ite
    | with_reducible apply setFld_keeps
    | split

theorem dynamicTaken_keeps (s : State) (addr : BitVec 7) (setdasa : Option (BitVec 7)) (h0 : Keeps s0 s) :
    Keeps s0 (dynamicTaken s addr setdasa) := by
  unfold dynamicTaken
  try dsimp only
  repeat' first
    | with_reducible assumption
    | with_reducible apply Keeps.ite
    | split
    | with_reducible apply Keeps.mk'

theorem execFlashWriteEnd_keeps (t : Nat) (s : State) (h0 : Keeps s0 s) :
    OutKeeps s0 (execFlashWriteEnd t s) := by
  unfold execFlashWriteEnd
  try dsimp only
  repeat' first
    | with_reducible assumption
    | with_reducible intro _
    | with_reducible apply ResKeeps.flt
    | with_reducible apply ResKeeps.ite
    | with_reducible apply ResKeeps.done
    | with_reducible apply ResKeeps.jump
    | with_reducible apply ResKeeps.hold
    | with_reducible apply OutKeeps.next
    | with_reducible apply OutKeeps.fault
    | with_reducible apply OutKeeps.ite
    | with_reducible apply presentAlways_keeps
    | with_reducible apply flashEnd_keeps
    | split

theorem execSmbusFallback_keeps (t : Nat) (s : State) (h0 : Keeps s0 s) :
    OutKeeps s0 (execSmbusFallback t s) := by
  unfold execSmbusFallback
  try dsimp only
  repeat' first
    | with_reducible assumption
    | with_reducible intro _
    | with_reducible apply ResKeeps.flt
    | with_reducible apply ResKeeps.ite
    | with_reducible apply ResKeeps.done
    | with_reducible apply ResKeeps.jump
    | with_reducible apply ResKeeps.hold
    | with_reducible apply OutKeeps.next
    | with_reducible apply OutKeeps.fault
    | with_reducible apply OutKeeps.ite
    | with_reducible apply presentAlways_keeps
    | with_reducible apply fallback_keeps
    | split

theorem execDynamicAddress_keeps (a : AddressAssign) (s : State) (h0 : Keeps s0 s) :
    OutKeeps s0 (execDynamicAddress a s) := by
  unfold execDynamicAddress
  try dsimp only
  repeat' first
    | with_reducible assumption
    | with_reducible intro _
    | with_reducible apply ResKeeps.flt
    | with_reducible apply ResKeeps.ite
    | with_reducible apply ResKeeps.done
    | with_reducible apply ResKeeps.jump
    | with_reducible apply ResKeeps.hold
    | with_reducible apply OutKeeps.next
    | with_reducible apply OutKeeps.fault
    | with_reducible apply OutKeeps.ite
    | with_reducible apply presentAlways_keeps
    | with_reducible apply dynamicTaken_keeps
    | split

/-! ## Tick.lean -/

theorem shiftRc_keeps (d : Nat) (s : State) (rc : Nat) (h0 : Keeps s0 s) :
    Keeps s0 (shiftRc d s rc) := by
  unfold shiftRc
  try dsimp only
  repeat' first
    | with_reducible assumption
    | with_reducible intro _
    | with_reducible apply Keeps.foldl
    | with_reducible apply rcPut_keeps
    | split

theorem shiftTenant_keeps (d : Nat) (s : State) (t : Nat) (h0 : Keeps s0 s) :
    Keeps s0 (shiftTenant d s t) := by
  unfold shiftTenant
  try dsimp only
  repeat' first
    | with_reducible assumption
    | with_reducible apply Keeps.ite
    | with_reducible apply tenPut_keeps
    | split

theorem shiftSlot_keeps (d : Nat) (s : State) (i : Nat) (h0 : Keeps s0 s) :
    Keeps s0 (shiftSlot d s i) := by
  unfold shiftSlot
  try dsimp only
  repeat' first
    | with_reducible assumption
    | with_reducible apply Keeps.ite
    | with_reducible apply setReg64_keeps
    | split

theorem shiftEngines_keeps (d : Nat) (s : State) (h0 : Keeps s0 s) :
    Keeps s0 (shiftEngines d s) := by
  unfold shiftEngines
  try dsimp only
  repeat' first
    | with_reducible assumption
    | with_reducible apply OptKeeps.getD
    | split
    | with_reducible dsimp only
    | with_reducible apply Keeps.mk'

theorem stepForward_keeps (s : State) (d : Nat) (h0 : Keeps s0 s) :
    Keeps s0 (stepForward s d) := by
  unfold stepForward
  try dsimp only
  repeat' first
    | with_reducible assumption
    | with_reducible intro _
    | with_reducible apply Keeps.foldl
    | with_reducible apply Keeps.foldl1
    | with_reducible apply shiftRc_keeps
    | with_reducible apply shiftTenant_keeps
    | with_reducible apply shiftEngines_keeps
    | with_reducible apply shiftSlot_keeps
    | with_reducible apply setDot_keeps
    | with_reducible apply setCell_keeps
    | with_reducible apply setReq_keeps
    | with_reducible apply setQueue_keeps
    | with_reducible apply setReg64_keeps
    | with_reducible apply OptKeeps.getD
    | split
    | with_reducible dsimp only
    | with_reducible apply Keeps.mk'

theorem showAlign_keeps (s : State) (agree : Bool) (h0 : Keeps s0 s) :
    Keeps s0 (showAlign s agree) := by
  unfold showAlign
  try dsimp only
  repeat' first
    | with_reducible assumption
    | with_reducible apply setFld_keeps
    | split

theorem syncPulse_keeps (s : State) (h0 : Keeps s0 s) :
    Keeps s0 (syncPulse s) := by
  unfold syncPulse
  try dsimp only
  repeat' first
    | with_reducible assumption
    | with_reducible apply Keeps.ite
    | split
    | with_reducible apply Keeps.mk'

theorem syncIn_keeps (t : Nat) (leaderCount : Nat) (edgeOk : Bool) (s : State) (h0 : Keeps s0 s) :
    Keeps s0 (syncIn t leaderCount edgeOk s) := by
  unfold syncIn
  try dsimp only
  repeat' first
    | with_reducible assumption
    | with_reducible apply Keeps.ite
    | with_reducible apply stepForward_keeps
    | with_reducible apply showAlign_keeps
    | with_reducible apply setFld_keeps
    | split
    | with_reducible apply Keeps.mk'

theorem loseSync_keeps (s : State) (h0 : Keeps s0 s) :
    Keeps s0 (loseSync s) := by
  unfold loseSync
  try dsimp only
  repeat' first
    | with_reducible assumption
    | with_reducible apply Keeps.ite
    | with_reducible apply setFld_keeps
    | with_reducible apply sendIf_keeps
    | split
    | with_reducible apply Keeps.mk'

theorem slew_keeps (edgeOk : Bool) (x0 : State) (h0 : Keeps s0 x0) :
    Keeps s0 (slew edgeOk x0) := by
  unfold slew
  try dsimp only
  repeat' first
    | with_reducible assumption
    | with_reducible apply Keeps.ite
    | with_reducible apply showAlign_keeps
    | split
    | with_reducible apply Keeps.mk'

theorem execFfSyncOut_keeps (t : Nat) (s : State) (h0 : Keeps s0 s) :
    OutKeeps s0 (execFfSyncOut t s) := by
  unfold execFfSyncOut
  try dsimp only
  repeat' first
    | with_reducible assumption
    | with_reducible intro _
    | with_reducible apply ResKeeps.flt
    | with_reducible apply ResKeeps.ite
    | with_reducible apply ResKeeps.done
    | with_reducible apply ResKeeps.jump
    | with_reducible apply ResKeeps.hold
    | with_reducible apply OutKeeps.next
    | with_reducible apply OutKeeps.fault
    | with_reducible apply OutKeeps.ite
    | with_reducible apply present_keeps
    | with_reducible apply syncPulse_keeps
    | split

theorem execFfSyncIn_keeps (t : Nat) (leaderCount : Nat) (edgeOk : Bool) (s : State) (h0 : Keeps s0 s) :
    OutKeeps s0 (execFfSyncIn t leaderCount edgeOk s) := by
  unfold execFfSyncIn
  try dsimp only
  repeat' first
    | with_reducible assumption
    | with_reducible intro _
    | with_reducible apply ResKeeps.flt
    | with_reducible apply ResKeeps.ite
    | with_reducible apply ResKeeps.done
    | with_reducible apply ResKeeps.jump
    | with_reducible apply ResKeeps.hold
    | with_reducible apply OutKeeps.next
    | with_reducible apply OutKeeps.fault
    | with_reducible apply OutKeeps.ite
    | with_reducible apply present_keeps
    | with_reducible apply syncIn_keeps
    | split

theorem execHoldover_keeps (t : Nat) (s : State) (h0 : Keeps s0 s) :
    OutKeeps s0 (execHoldover t s) := by
  unfold execHoldover
  try dsimp only
  repeat' first
    | with_reducible assumption
    | with_reducible intro _
    | with_reducible apply ResKeeps.flt
    | with_reducible apply ResKeeps.ite
    | with_reducible apply ResKeeps.done
    | with_reducible apply ResKeeps.jump
    | with_reducible apply ResKeeps.hold
    | with_reducible apply OutKeeps.next
    | with_reducible apply OutKeeps.fault
    | with_reducible apply OutKeeps.ite
    | with_reducible apply present_keeps
    | with_reducible apply loseSync_keeps
    | split

theorem execSlewing_keeps (t : Nat) (edgeOk : Bool) (s : State) (h0 : Keeps s0 s) :
    OutKeeps s0 (execSlewing t edgeOk s) := by
  unfold execSlewing
  try dsimp only
  repeat' first
    | with_reducible assumption
    | with_reducible intro _
    | with_reducible apply ResKeeps.flt
    | with_reducible apply ResKeeps.ite
    | with_reducible apply ResKeeps.done
    | with_reducible apply ResKeeps.jump
    | with_reducible apply ResKeeps.hold
    | with_reducible apply OutKeeps.next
    | with_reducible apply OutKeeps.fault
    | with_reducible apply OutKeeps.ite
    | with_reducible apply present_keeps
    | with_reducible apply slew_keeps
    | split

/-! ## Events.lean -/

theorem wordReads_keeps (s : State) (addr : Nat) (data : BitVec 128) (metadata : Word32) (h0 : Keeps s0 s) :
    Keeps s0 (wordReads s addr data metadata) := by
  unfold wordReads
  try dsimp only
  repeat' first
    | with_reducible assumption
    | with_reducible apply store_keeps
    | split
    | with_reducible apply Keeps.mk'

theorem wordMended_keeps (s : State) (addr : Nat) (onDie : Bool) (h0 : Keeps s0 s) :
    Keeps s0 (wordMended s addr onDie) := by
  unfold wordMended
  try dsimp only
  repeat' first
    | with_reducible assumption
    | with_reducible apply Keeps.ite
    | with_reducible apply countUp_keeps
    | split
    | with_reducible apply Keeps.mk'

theorem execUncorrectableWord_keeps (t : Nat) (w : StoredWord) (s : State) (h0 : Keeps s0 s) :
    OutKeeps s0 (execUncorrectableWord t w s) := by
  unfold execUncorrectableWord
  try dsimp only
  repeat' first
    | with_reducible assumption
    | with_reducible intro _
    | with_reducible apply ResKeeps.flt
    | with_reducible apply ResKeeps.ite
    | with_reducible apply ResKeeps.done
    | with_reducible apply ResKeeps.jump
    | with_reducible apply ResKeeps.hold
    | with_reducible apply OutKeeps.next
    | with_reducible apply OutKeeps.fault
    | with_reducible apply OutKeeps.ite
    | with_reducible apply presentUnit_keeps
    | with_reducible apply wordReads_keeps
    | split

theorem execCorrectedWordWriteBack_keeps (t : Nat) (w : MendedWord) (s : State) (h0 : Keeps s0 s) :
    OutKeeps s0 (execCorrectedWordWriteBack t w s) := by
  unfold execCorrectedWordWriteBack
  try dsimp only
  repeat' first
    | with_reducible assumption
    | with_reducible intro _
    | with_reducible apply ResKeeps.flt
    | with_reducible apply ResKeeps.ite
    | with_reducible apply ResKeeps.done
    | with_reducible apply ResKeeps.jump
    | with_reducible apply ResKeeps.hold
    | with_reducible apply OutKeeps.next
    | with_reducible apply OutKeeps.fault
    | with_reducible apply OutKeeps.ite
    | with_reducible apply presentUnit_keeps
    | with_reducible apply wordMended_keeps
    | split

theorem refreshDue_keeps (s : State) (pc : Nat) (h0 : Keeps s0 s) :
    Keeps s0 (refreshDue s pc) := by
  unfold refreshDue
  try dsimp only
  repeat' first
    | with_reducible assumption
    | with_reducible apply Keeps.ite
    | with_reducible apply issueRefresh_keeps
    | split
    | with_reducible apply Keeps.mk'

theorem stackTemperature_keeps (s : State) (k : Nat) (celsius : Nat) (h0 : Keeps s0 s) :
    Keeps s0 (stackTemperature s k celsius) := by
  unfold stackTemperature
  try dsimp only
  repeat' first
    | with_reducible assumption
    | with_reducible apply setFld_keeps
    | split

theorem retrainPeriodic_keeps (s : State) (ch : Nat) (h0 : Keeps s0 s) :
    Keeps s0 (retrainPeriodic s ch) := by
  unfold retrainPeriodic
  try dsimp only
  repeat' first
    | with_reducible assumption
    | with_reducible apply Keeps.ite
    | with_reducible apply openWindow_keeps
    | split
    | with_reducible dsimp only
    | with_reducible apply Keeps.mk'

theorem closeWindow_keeps (s : State) (ch : Nat) (h0 : Keeps s0 s) :
    Keeps s0 (closeWindow s ch) := by
  unfold closeWindow
  try dsimp only
  repeat' first
    | with_reducible assumption
    | with_reducible intro _
    | with_reducible apply Keeps.ite
    | with_reducible apply Keeps.foldl
    | with_reducible apply issueRefresh_keeps
    | split
    | with_reducible apply Keeps.mk'

theorem windowEnd_keeps (s : State) (ch : Nat) (ok : Bool) (h0 : Keeps s0 s) :
    Keeps s0 (windowEnd s ch ok) := by
  unfold windowEnd
  try dsimp only
  repeat' first
    | with_reducible assumption
    | with_reducible apply Keeps.ite
    | with_reducible apply closeWindow_keeps
    | with_reducible apply stackLoss_keeps
    | split

theorem execRefresh_keeps (t : Nat) (pc : Nat) (s : State) (h0 : Keeps s0 s) :
    OutKeeps s0 (execRefresh t pc s) := by
  unfold execRefresh
  try dsimp only
  repeat' first
    | with_reducible assumption
    | with_reducible intro _
    | with_reducible apply ResKeeps.flt
    | with_reducible apply ResKeeps.ite
    | with_reducible apply ResKeeps.done
    | with_reducible apply ResKeeps.jump
    | with_reducible apply ResKeeps.hold
    | with_reducible apply OutKeeps.next
    | with_reducible apply OutKeeps.fault
    | with_reducible apply OutKeeps.ite
    | with_reducible apply presentUnit_keeps
    | with_reducible apply refreshDue_keeps
    | split

theorem execHbmTemperature_keeps (t : Nat) (stack : Nat) (celsius : Nat) (s : State) (h0 : Keeps s0 s) :
    OutKeeps s0 (execHbmTemperature t stack celsius s) := by
  unfold execHbmTemperature
  try dsimp only
  repeat' first
    | with_reducible assumption
    | with_reducible intro _
    | with_reducible apply ResKeeps.flt
    | with_reducible apply ResKeeps.ite
    | with_reducible apply ResKeeps.done
    | with_reducible apply ResKeeps.jump
    | with_reducible apply ResKeeps.hold
    | with_reducible apply OutKeeps.next
    | with_reducible apply OutKeeps.fault
    | with_reducible apply OutKeeps.ite
    | with_reducible apply presentUnit_keeps
    | with_reducible apply stackTemperature_keeps
    | split

theorem execPeriodicRetrain_keeps (t : Nat) (ch : Nat) (s : State) (h0 : Keeps s0 s) :
    OutKeeps s0 (execPeriodicRetrain t ch s) := by
  unfold execPeriodicRetrain
  try dsimp only
  repeat' first
    | with_reducible assumption
    | with_reducible intro _
    | with_reducible apply ResKeeps.flt
    | with_reducible apply ResKeeps.ite
    | with_reducible apply ResKeeps.done
    | with_reducible apply ResKeeps.jump
    | with_reducible apply ResKeeps.hold
    | with_reducible apply OutKeeps.next
    | with_reducible apply OutKeeps.fault
    | with_reducible apply OutKeeps.ite
    | with_reducible apply presentUnit_keeps
    | with_reducible apply retrainPeriodic_keeps
    | split

theorem execErrorTriggeredRetrain_keeps (t : Nat) (ch : Nat) (s : State) (h0 : Keeps s0 s) :
    OutKeeps s0 (execErrorTriggeredRetrain t ch s) := by
  unfold execErrorTriggeredRetrain
  try dsimp only
  repeat' first
    | with_reducible assumption
    | with_reducible intro _
    | with_reducible apply ResKeeps.flt
    | with_reducible apply ResKeeps.ite
    | with_reducible apply ResKeeps.done
    | with_reducible apply ResKeeps.jump
    | with_reducible apply ResKeeps.hold
    | with_reducible apply OutKeeps.next
    | with_reducible apply OutKeeps.fault
    | with_reducible apply OutKeeps.ite
    | with_reducible apply presentUnit_keeps
    | with_reducible apply openWindow_keeps
    | split

theorem execRetrainWindowEnd_keeps (t : Nat) (ch : Nat) (ok : Bool) (s : State) (h0 : Keeps s0 s) :
    OutKeeps s0 (execRetrainWindowEnd t ch ok s) := by
  unfold execRetrainWindowEnd
  try dsimp only
  repeat' first
    | with_reducible assumption
    | with_reducible intro _
    | with_reducible apply ResKeeps.flt
    | with_reducible apply ResKeeps.ite
    | with_reducible apply ResKeeps.done
    | with_reducible apply ResKeeps.jump
    | with_reducible apply ResKeeps.hold
    | with_reducible apply OutKeeps.next
    | with_reducible apply OutKeeps.fault
    | with_reducible apply OutKeeps.ite
    | with_reducible apply presentUnit_keeps
    | with_reducible apply windowEnd_keeps
    | split

theorem showDisagree_keeps (s : State) (h0 : Keeps s0 s) :
    Keeps s0 (showDisagree s) := by
  unfold showDisagree
  try dsimp only
  repeat' first
    | with_reducible assumption
    | with_reducible apply setFld_keeps
    | split

theorem fenceUnit_keeps (s : State) (kind : Nat) (index : Nat) (h0 : Keeps s0 s) :
    Keeps s0 (fenceUnit s kind index) := by
  unfold fenceUnit
  try dsimp only
  repeat' first
    | with_reducible assumption
    | with_reducible apply Keeps.ite
    | with_reducible apply setCoreState_keeps
    | with_reducible apply retrain_keeps
    | with_reducible apply openWindow_keeps
    | split

theorem treesDiffer_keeps (s : State) (kind : Nat) (index : Nat) (dataSt : Nat) (ctrlSt : Nat) (h0 : Keeps s0 s) :
    Keeps s0 (treesDiffer s kind index dataSt ctrlSt) := by
  unfold treesDiffer
  try dsimp only
  repeat' first
    | with_reducible assumption
    | with_reducible apply Keeps.ite
    | with_reducible apply errorRecord_keeps
    | with_reducible apply countUp_keeps
    | with_reducible apply fenceUnit_keeps
    | with_reducible apply showDisagree_keeps
    | split
    | with_reducible apply Keeps.mk'

theorem retireUnit_keeps (s : State) (k : Nat) (h0 : Keeps s0 s) :
    Keeps s0 (retireUnit s k) := by
  unfold retireUnit
  try dsimp only
  repeat' first
    | with_reducible assumption
    | with_reducible apply Keeps.ite
    | with_reducible apply setCoreState_keeps
    | with_reducible apply recordSpareRetired_keeps
    | split
    | with_reducible apply Keeps.mk'

theorem reconcileCore_keeps (s : State) (d : Disagreement) (pass : Bool) (h0 : Keeps s0 s) :
    Keeps s0 (reconcileCore s d pass).1 := by
  unfold reconcileCore
  try dsimp only
  repeat' first
    | with_reducible assumption
    | with_reducible apply Keeps.ite1
    | with_reducible apply Keeps.ite
    | with_reducible apply setCoreState_keeps
    | with_reducible apply retireUnit_keeps
    | with_reducible apply countUp_keeps
    | with_reducible apply testEnd_keeps
    | with_reducible apply tookFree_keeps
    | split

theorem reconcilePort_keeps (s : State) (d : Disagreement) (pass : Bool) (h0 : Keeps s0 s) :
    Keeps s0 (reconcilePort s d pass).1 := by
  unfold reconcilePort
  try dsimp only
  repeat' first
    | with_reducible assumption
    | with_reducible apply Keeps.ite1
    | with_reducible apply Keeps.ite
    | with_reducible apply setPortState_keeps
    | with_reducible apply retrained_keeps
    | split

theorem reconcileUnit_keeps (s : State) (d : Disagreement) (pass : Bool) (h0 : Keeps s0 s) :
    Keeps s0 (reconcileUnit s d pass).1 := by
  unfold reconcileUnit
  try dsimp only
  repeat' first
    | with_reducible assumption
    | with_reducible apply Keeps.ite1
    | with_reducible apply Keeps.ite
    | with_reducible apply reconcileCore_keeps
    | with_reducible apply reconcilePort_keeps
    | with_reducible apply closeWindow_keeps
    | split

theorem reconciledUnit_keeps (s : State) (kind : Nat) (index : Nat) (pass : Bool) (h0 : Keeps s0 s) :
    Keeps s0 (reconciledUnit s kind index pass) := by
  unfold reconciledUnit
  try dsimp only
  repeat' first
    | with_reducible assumption
    | with_reducible apply Keeps.ite
    | with_reducible apply reconcileUnit_keeps
    | with_reducible apply errorRecord_keeps
    | with_reducible apply showDisagree_keeps
    | with_reducible apply enterFatal_keeps
    | with_reducible apply stackLoss_keeps
    | with_reducible refine Keeps.ofPair ?_ (by assumption)
    | split
    | with_reducible dsimp only
    | with_reducible apply Keeps.mk'

theorem execDisagree_keeps (t : Nat) (kind : Nat) (index : Nat) (dataSt : Nat) (ctrlSt : Nat) (s : State) (h0 : Keeps s0 s) :
    OutKeeps s0 (execDisagree t kind index dataSt ctrlSt s) := by
  unfold execDisagree
  try dsimp only
  repeat' first
    | with_reducible assumption
    | with_reducible intro _
    | with_reducible apply ResKeeps.flt
    | with_reducible apply ResKeeps.ite
    | with_reducible apply ResKeeps.done
    | with_reducible apply ResKeeps.jump
    | with_reducible apply ResKeeps.hold
    | with_reducible apply OutKeeps.next
    | with_reducible apply OutKeeps.fault
    | with_reducible apply OutKeeps.ite
    | with_reducible apply presentUnit_keeps
    | with_reducible apply treesDiffer_keeps
    | split

theorem execReconciled_keeps (t : Nat) (kind : Nat) (index : Nat) (pass : Bool) (s : State) (h0 : Keeps s0 s) :
    OutKeeps s0 (execReconciled t kind index pass s) := by
  unfold execReconciled
  try dsimp only
  repeat' first
    | with_reducible assumption
    | with_reducible intro _
    | with_reducible apply ResKeeps.flt
    | with_reducible apply ResKeeps.ite
    | with_reducible apply ResKeeps.done
    | with_reducible apply ResKeeps.jump
    | with_reducible apply ResKeeps.hold
    | with_reducible apply OutKeeps.next
    | with_reducible apply OutKeeps.fault
    | with_reducible apply OutKeeps.ite
    | with_reducible apply presentUnit_keeps
    | with_reducible apply reconciledUnit_keeps
    | split

/-! ## Regs.lean -/

theorem ovfWrite_keeps (s : State) (off : Nat) (v : Word32) (h0 : Keeps s0 s) :
    Keeps s0 (ovfWrite s off v) := by
  unfold ovfWrite
  try dsimp only
  repeat' first
    | with_reducible assumption
    | with_reducible intro _
    | with_reducible apply Keeps.ite
    | with_reducible apply Keeps.foldl
    | with_reducible apply Keeps.foldl1
    | with_reducible apply regPut_keeps
    | with_reducible apply plainWrite_keeps
    | split
    | with_reducible dsimp only

theorem guardRegs_keeps (s : State) (off : Nat) (v : Word32) (h0 : Keeps s0 s) :
    Keeps s0 (guardRegs s off v) := by
  unfold guardRegs
  try dsimp only
  repeat' first
    | with_reducible assumption
    | with_reducible apply Keeps.ite
    | with_reducible apply plainWrite_keeps
    | with_reducible apply sealRange_keeps
    | with_reducible apply unsealRange_keeps
    | with_reducible apply setFld_keeps
    | split

theorem tierClear_keeps (s : State) (a n : Nat) (h0 : Keeps s0 s) :
    Keeps s0 (tierClear s a n) := by
  unfold tierClear
  exact Keeps.ite (h0.trans (Keeps.hostMem (Memory.wf_clearRange _ _))) (physClear_keeps _ _ _ h0)

theorem initZone_keeps (s : State) (z : Nat) (h0 : Keeps s0 s) :
    Keeps s0 (initZone s z) := by
  unfold initZone
  try dsimp only
  repeat' first
    | with_reducible assumption
    | with_reducible apply Keeps.ite
    | with_reducible apply setFld_keeps
    | with_reducible apply tierClear_keeps
    | split

theorem enableZone_keeps (s : State) (z : Nat) (h0 : Keeps s0 s) :
    Keeps s0 (enableZone s z) := by
  unfold enableZone
  try dsimp only
  repeat' first
    | with_reducible assumption
    | with_reducible apply Keeps.ite
    | with_reducible apply setFld_keeps
    | split

theorem zoneCtrl_keeps (s : State) (z : Nat) (v : Word32) (h0 : Keeps s0 s) :
    Keeps s0 (zoneCtrl s z v) := by
  unfold zoneCtrl
  try dsimp only
  repeat' first
    | with_reducible assumption
    | with_reducible apply Keeps.ite
    | with_reducible apply setFld_keeps
    | with_reducible apply initZone_keeps
    | with_reducible apply enableZone_keeps
    | split

theorem zoneRegs_keeps (s : State) (off : Nat) (v : Word32) (h0 : Keeps s0 s) :
    Keeps s0 (zoneRegs s off v) := by
  unfold zoneRegs
  try dsimp only
  repeat' first
    | with_reducible assumption
    | with_reducible apply Keeps.ite
    | with_reducible apply zoneCtrl_keeps
    | with_reducible apply plainWrite_keeps
    | split

theorem initEnd_keeps (s : State) (z : Nat) (h0 : Keeps s0 s) :
    Keeps s0 (initEnd s z) := by
  unfold initEnd
  try dsimp only
  repeat' first
    | with_reducible assumption
    | with_reducible apply setFld_keeps
    | split

theorem kvCtrl_keeps (s : State) (v : Word32) (h0 : Keeps s0 s) :
    Keeps s0 (kvCtrl s v) := by
  unfold kvCtrl
  try dsimp only
  repeat' first
    | with_reducible assumption
    | with_reducible apply Keeps.ite
    | with_reducible apply setFld_keeps
    | split

theorem kvDrop_keeps (s : State) (v : Word32) (h0 : Keeps s0 s) :
    Keeps s0 (kvDrop s v) := by
  unfold kvDrop
  try dsimp only
  repeat' first
    | with_reducible assumption
    | with_reducible intro _
    | with_reducible apply Keeps.ite
    | with_reducible apply Keeps.foldl
    | with_reducible apply Keeps.foldl1
    | with_reducible apply setCluster_keeps
    | with_reducible apply setFld_keeps
    | split
    | with_reducible dsimp only
    | with_reducible apply Keeps.mk'

theorem kvDropEnd_keeps (s : State) (h0 : Keeps s0 s) :
    Keeps s0 (kvDropEnd s) := by
  unfold kvDropEnd
  try dsimp only
  repeat' first
    | with_reducible assumption
    | with_reducible apply setFld_keeps
    | split

theorem kvRegs_keeps (s : State) (off : Nat) (v : Word32) (h0 : Keeps s0 s) :
    Keeps s0 (kvRegs s off v) := by
  unfold kvRegs
  try dsimp only
  repeat' first
    | with_reducible assumption
    | with_reducible apply Keeps.ite
    | with_reducible apply kvCtrl_keeps
    | with_reducible apply kvDrop_keeps
    | with_reducible apply plainWrite_keeps
    | split

theorem linkCtrl_keeps (s : State) (v : Word32) (h0 : Keeps s0 s) :
    Keeps s0 (linkCtrl s v) := by
  unfold linkCtrl
  try dsimp only
  repeat' first
    | with_reducible assumption
    | with_reducible apply Keeps.ite
    | with_reducible apply setFld_keeps
    | with_reducible apply followEnables_keeps
    | split

theorem portCtrl_keeps (s : State) (p : Nat) (v : Word32) (h0 : Keeps s0 s) :
    Keeps s0 (portCtrl s p v) := by
  unfold portCtrl
  try dsimp only
  repeat' first
    | with_reducible assumption
    | with_reducible intro _
    | with_reducible apply Keeps.ite
    | with_reducible apply Keeps.foldl
    | with_reducible apply setFld_keeps
    | with_reducible apply loseLane_keeps
    | with_reducible apply enablePort_keeps
    | with_reducible apply retrain_keeps
    | split

theorem exportRegs_keeps (s : State) (off : Nat) (v : Word32) (h0 : Keeps s0 s) :
    Keeps s0 (exportRegs s off v) := by
  unfold exportRegs
  try dsimp only
  repeat' first
    | with_reducible assumption
    | with_reducible apply Keeps.ite
    | with_reducible apply setFld_keeps
    | with_reducible apply exportClear_keeps
    | with_reducible apply plainWrite_keeps
    | split

theorem linkRegs_keeps (s : State) (off : Nat) (v : Word32) (h0 : Keeps s0 s) :
    Keeps s0 (linkRegs s off v) := by
  unfold linkRegs
  try dsimp only
  repeat' first
    | with_reducible assumption
    | with_reducible apply Keeps.ite
    | with_reducible apply linkCtrl_keeps
    | with_reducible apply portCtrl_keeps
    | with_reducible apply exportRegs_keeps
    | with_reducible apply plainWrite_keeps
    | split

theorem mirrorRegs_keeps (s : State) (off : Nat) (v : Word32) (h0 : Keeps s0 s) :
    Keeps s0 (mirrorRegs s off v) := by
  unfold mirrorRegs
  try dsimp only
  repeat' first
    | with_reducible assumption
    | with_reducible apply Keeps.ite
    | with_reducible apply setFld_keeps
    | with_reducible apply enablePort_keeps
    | with_reducible apply plainWrite_keeps
    | split

theorem integCtrl_keeps (s : State) (v : Word32) (h0 : Keeps s0 s) :
    Keeps s0 (integCtrl s v) := by
  unfold integCtrl
  try dsimp only
  repeat' first
    | with_reducible assumption
    | with_reducible apply Keeps.ite
    | with_reducible apply setFld_keeps
    | with_reducible apply armTests_keeps
    | with_reducible apply modPower_keeps
    | split
    | with_reducible apply Keeps.mk'

theorem integRegs_keeps (s : State) (off : Nat) (v : Word32) (h0 : Keeps s0 s) :
    Keeps s0 (integRegs s off v) := by
  unfold integRegs
  try dsimp only
  repeat' first
    | with_reducible assumption
    | with_reducible apply Keeps.ite
    | with_reducible apply integCtrl_keeps
    | with_reducible apply plainWrite_keeps
    | split

theorem hostWindow_keeps (s : State) (off : Nat) (v : Word32) (h0 : Keeps s0 s) :
    Keeps s0 (hostWindow s off v) := by
  unfold hostWindow
  try dsimp only
  repeat' first
    | with_reducible assumption
    | with_reducible apply Keeps.ite
    | with_reducible apply plainWrite_keeps
    | with_reducible apply beginPublication_keeps
    | with_reducible apply owePublication_keeps
    | split
    | with_reducible apply Keeps.mk'

theorem queueRegs_keeps (s : State) (off : Nat) (v : Word32) (h0 : Keeps s0 s) :
    Keeps s0 (queueRegs s off v) := by
  unfold queueRegs
  try dsimp only
  repeat' first
    | with_reducible assumption
    | with_reducible apply Keeps.ite
    | with_reducible apply fetchAll_keeps
    | with_reducible apply plainWrite_keeps
    | with_reducible apply hostWindow_keeps
    | with_reducible apply queueCtrl_keeps
    | split

theorem doorbellWord_keeps (s : State) (off : Nat) (v : Word32) (h0 : Keeps s0 s) :
    Keeps s0 (doorbellWord s off v) := by
  unfold doorbellWord
  try dsimp only
  repeat' first
    | with_reducible assumption
    | with_reducible apply Keeps.ite
    | with_reducible apply doorbell_keeps
    | with_reducible apply headDoorbell_keeps
    | split

theorem mailboxWord_keeps (s : State) (off : Nat) (v : Word32) (h0 : Keeps s0 s) :
    Keeps s0 (mailboxWord s off v) := by
  unfold mailboxWord
  try dsimp only
  repeat' first
    | with_reducible assumption
    | with_reducible apply Keeps.ite
    | with_reducible apply mailboxRun_keeps
    | with_reducible apply plainWrite_keeps
    | split
    | with_reducible apply Keeps.mk'

theorem writeReg_keeps (s : State) (off : Nat) (v : Word32) (h0 : Keeps s0 s) :
    Keeps s0 (writeReg s off v) := by
  unfold writeReg
  try dsimp only
  repeat' first
    | with_reducible assumption
    | with_reducible apply Keeps.ite
    | with_reducible apply ovfWrite_keeps
    | with_reducible apply plainWrite_keeps
    | with_reducible apply guardRegs_keeps
    | with_reducible apply zoneRegs_keeps
    | with_reducible apply showNbLimit_keeps
    | with_reducible apply kvRegs_keeps
    | with_reducible apply linkRegs_keeps
    | with_reducible apply mirrorRegs_keeps
    | with_reducible apply integRegs_keeps
    | with_reducible apply requestProfile_keeps
    | with_reducible apply writeMode_keeps
    | with_reducible apply queueRegs_keeps
    | with_reducible apply driveAlert_keeps
    | with_reducible apply doorbellWord_keeps
    | with_reducible apply mailboxWord_keeps
    | split
    | with_reducible apply Keeps.mk'

theorem hostWrite_keeps (s : State) (off : Nat) (v : Word32) (h0 : Keeps s0 s) :
    Keeps s0 (hostWrite s off v) := by
  unfold hostWrite
  try dsimp only
  repeat' first
    | with_reducible assumption
    | with_reducible apply Keeps.ite
    | with_reducible apply writeReg_keeps
    | split

theorem hostWriteWide_keeps (s : State) (off : Nat) (wide : Bool) (v : Word) (h0 : Keeps s0 s) :
    Keeps s0 (hostWriteWide s off wide v) := by
  unfold hostWriteWide
  try dsimp only
  repeat' first
    | with_reducible assumption
    | with_reducible apply Keeps.ite
    | with_reducible apply hostWrite_keeps
    | split

theorem execRegisterWrite_keeps (t : Nat) (bar : Bar) (off : Nat) (wide : Bool) (v : Word) (s : State) (h0 : Keeps s0 s) :
    OutKeeps s0 (execRegisterWrite t bar off wide v s) := by
  unfold execRegisterWrite
  try dsimp only
  repeat' first
    | with_reducible assumption
    | with_reducible intro _
    | with_reducible apply ResKeeps.flt
    | with_reducible apply ResKeeps.ite
    | with_reducible apply ResKeeps.done
    | with_reducible apply ResKeeps.jump
    | with_reducible apply ResKeeps.hold
    | with_reducible apply OutKeeps.next
    | with_reducible apply OutKeeps.fault
    | with_reducible apply OutKeeps.ite
    | with_reducible apply Keeps.ite
    | with_reducible apply presentAlways_keeps
    | with_reducible apply hostWriteWide_keeps
    | split

theorem execOvfClear_keeps (t : Nat) (off : Nat) (v : Word32) (s : State) (h0 : Keeps s0 s) :
    OutKeeps s0 (execOvfClear t off v s) := by
  unfold execOvfClear
  try dsimp only
  repeat' first
    | with_reducible assumption
    | with_reducible intro _
    | with_reducible apply ResKeeps.flt
    | with_reducible apply ResKeeps.ite
    | with_reducible apply ResKeeps.done
    | with_reducible apply ResKeeps.jump
    | with_reducible apply ResKeeps.hold
    | with_reducible apply OutKeeps.next
    | with_reducible apply OutKeeps.fault
    | with_reducible apply OutKeeps.ite
    | with_reducible apply Keeps.ite
    | with_reducible apply presentAlways_keeps
    | with_reducible apply hostWrite_keeps
    | split

theorem execZoneInit_keeps (t : Nat) (n : Nat) (s : State) (h0 : Keeps s0 s) :
    OutKeeps s0 (execZoneInit t n s) := by
  unfold execZoneInit
  try dsimp only
  repeat' first
    | with_reducible assumption
    | with_reducible intro _
    | with_reducible apply ResKeeps.flt
    | with_reducible apply ResKeeps.ite
    | with_reducible apply ResKeeps.done
    | with_reducible apply ResKeeps.jump
    | with_reducible apply ResKeeps.hold
    | with_reducible apply OutKeeps.next
    | with_reducible apply OutKeeps.fault
    | with_reducible apply OutKeeps.ite
    | with_reducible apply presentUnit_keeps
    | with_reducible apply initZone_keeps
    | split

theorem execInitEnd_keeps (t : Nat) (n : Nat) (s : State) (h0 : Keeps s0 s) :
    OutKeeps s0 (execInitEnd t n s) := by
  unfold execInitEnd
  try dsimp only
  repeat' first
    | with_reducible assumption
    | with_reducible intro _
    | with_reducible apply ResKeeps.flt
    | with_reducible apply ResKeeps.ite
    | with_reducible apply ResKeeps.done
    | with_reducible apply ResKeeps.jump
    | with_reducible apply ResKeeps.hold
    | with_reducible apply OutKeeps.next
    | with_reducible apply OutKeeps.fault
    | with_reducible apply OutKeeps.ite
    | with_reducible apply presentUnit_keeps
    | with_reducible apply initEnd_keeps
    | split

theorem execTzEnable_keeps (t : Nat) (n : Nat) (v : Word32) (s : State) (h0 : Keeps s0 s) :
    OutKeeps s0 (execTzEnable t n v s) := by
  unfold execTzEnable
  try dsimp only
  repeat' first
    | with_reducible assumption
    | with_reducible intro _
    | with_reducible apply ResKeeps.flt
    | with_reducible apply ResKeeps.ite
    | with_reducible apply ResKeeps.done
    | with_reducible apply ResKeeps.jump
    | with_reducible apply ResKeeps.hold
    | with_reducible apply OutKeeps.next
    | with_reducible apply OutKeeps.fault
    | with_reducible apply OutKeeps.ite
    | with_reducible apply presentUnit_keeps
    | with_reducible apply hostWrite_keeps
    | split

theorem execKvEnable_keeps (t : Nat) (v : Word32) (s : State) (h0 : Keeps s0 s) :
    OutKeeps s0 (execKvEnable t v s) := by
  unfold execKvEnable
  try dsimp only
  repeat' first
    | with_reducible assumption
    | with_reducible intro _
    | with_reducible apply ResKeeps.flt
    | with_reducible apply ResKeeps.ite
    | with_reducible apply ResKeeps.done
    | with_reducible apply ResKeeps.jump
    | with_reducible apply ResKeeps.hold
    | with_reducible apply OutKeeps.next
    | with_reducible apply OutKeeps.fault
    | with_reducible apply OutKeeps.ite
    | with_reducible apply present_keeps
    | with_reducible apply hostWrite_keeps
    | split

theorem execKvInv_keeps (t : Nat) (v : Word32) (s : State) (h0 : Keeps s0 s) :
    OutKeeps s0 (execKvInv t v s) := by
  unfold execKvInv
  try dsimp only
  repeat' first
    | with_reducible assumption
    | with_reducible intro _
    | with_reducible apply ResKeeps.flt
    | with_reducible apply ResKeeps.ite
    | with_reducible apply ResKeeps.done
    | with_reducible apply ResKeeps.jump
    | with_reducible apply ResKeeps.hold
    | with_reducible apply OutKeeps.next
    | with_reducible apply OutKeeps.fault
    | with_reducible apply OutKeeps.ite
    | with_reducible apply present_keeps
    | with_reducible apply hostWrite_keeps
    | split

theorem execKvInvEnd_keeps (t : Nat) (s : State) (h0 : Keeps s0 s) :
    OutKeeps s0 (execKvInvEnd t s) := by
  unfold execKvInvEnd
  try dsimp only
  repeat' first
    | with_reducible assumption
    | with_reducible intro _
    | with_reducible apply ResKeeps.flt
    | with_reducible apply ResKeeps.ite
    | with_reducible apply ResKeeps.done
    | with_reducible apply ResKeeps.jump
    | with_reducible apply ResKeeps.hold
    | with_reducible apply OutKeeps.next
    | with_reducible apply OutKeeps.fault
    | with_reducible apply OutKeeps.ite
    | with_reducible apply present_keeps
    | with_reducible apply kvDropEnd_keeps
    | split

theorem execCheckEn_keeps (t : Nat) (v : Word32) (s : State) (h0 : Keeps s0 s) :
    OutKeeps s0 (execCheckEn t v s) := by
  unfold execCheckEn
  try dsimp only
  repeat' first
    | with_reducible assumption
    | with_reducible intro _
    | with_reducible apply ResKeeps.flt
    | with_reducible apply ResKeeps.ite
    | with_reducible apply ResKeeps.done
    | with_reducible apply ResKeeps.jump
    | with_reducible apply ResKeeps.hold
    | with_reducible apply OutKeeps.next
    | with_reducible apply OutKeeps.fault
    | with_reducible apply OutKeeps.ite
    | with_reducible apply present_keeps
    | with_reducible apply hostWrite_keeps
    | split

theorem execPwProfileRequest_keeps (t : Nat) (v : Word32) (s : State) (h0 : Keeps s0 s) :
    OutKeeps s0 (execPwProfileRequest t v s) := by
  unfold execPwProfileRequest
  try dsimp only
  repeat' first
    | with_reducible assumption
    | with_reducible intro _
    | with_reducible apply ResKeeps.flt
    | with_reducible apply ResKeeps.ite
    | with_reducible apply ResKeeps.done
    | with_reducible apply ResKeeps.jump
    | with_reducible apply ResKeeps.hold
    | with_reducible apply OutKeeps.next
    | with_reducible apply OutKeeps.fault
    | with_reducible apply OutKeeps.ite
    | with_reducible apply present_keeps
    | with_reducible apply hostWrite_keeps
    | split

theorem execPwModeWrite_keeps (t : Nat) (v : Word32) (s : State) (h0 : Keeps s0 s) :
    OutKeeps s0 (execPwModeWrite t v s) := by
  unfold execPwModeWrite
  try dsimp only
  repeat' first
    | with_reducible assumption
    | with_reducible intro _
    | with_reducible apply ResKeeps.flt
    | with_reducible apply ResKeeps.ite
    | with_reducible apply ResKeeps.done
    | with_reducible apply ResKeeps.jump
    | with_reducible apply ResKeeps.hold
    | with_reducible apply OutKeeps.next
    | with_reducible apply OutKeeps.fault
    | with_reducible apply OutKeeps.ite
    | with_reducible apply present_keeps
    | with_reducible apply hostWrite_keeps
    | split

theorem execHostwinSize_keeps (t : Nat) (v : Word) (s : State) (h0 : Keeps s0 s) :
    OutKeeps s0 (execHostwinSize t v s) := by
  unfold execHostwinSize
  try dsimp only
  repeat' first
    | with_reducible assumption
    | with_reducible intro _
    | with_reducible apply ResKeeps.flt
    | with_reducible apply ResKeeps.ite
    | with_reducible apply ResKeeps.done
    | with_reducible apply ResKeeps.jump
    | with_reducible apply ResKeeps.hold
    | with_reducible apply OutKeeps.next
    | with_reducible apply OutKeeps.fault
    | with_reducible apply OutKeeps.ite
    | with_reducible apply present_keeps
    | with_reducible apply hostWriteWide_keeps
    | split

theorem bar2Put_keeps (s : State) (off : Nat) (bs : List Byte) (h0 : Keeps s0 s) :
    Keeps s0 (bar2Put s off bs) := by
  unfold bar2Put
  try dsimp only
  repeat' first
    | with_reducible assumption
    | with_reducible apply Keeps.ite
    | with_reducible apply dropWrite_keeps
    | with_reducible apply countUp_keeps
    | with_reducible apply physWrite_keeps
    | split

theorem bar2Get_keeps (s : State) (off : Nat) (n : Nat) (h0 : Keeps s0 s) :
    Keeps s0 (bar2Get s off n) := by
  unfold bar2Get
  try dsimp only
  repeat' first
    | with_reducible assumption
    | with_reducible apply Keeps.ite
    | with_reducible apply bar2Deliver_keeps
    | split
    | with_reducible apply Keeps.mk'

theorem execBar2Write_keeps (t : Nat) (off : Nat) (data : List Byte) (s : State) (h0 : Keeps s0 s) :
    OutKeeps s0 (execBar2Write t off data s) := by
  unfold execBar2Write
  try dsimp only
  repeat' first
    | with_reducible assumption
    | with_reducible intro _
    | with_reducible apply ResKeeps.flt
    | with_reducible apply ResKeeps.ite
    | with_reducible apply ResKeeps.done
    | with_reducible apply ResKeeps.jump
    | with_reducible apply ResKeeps.hold
    | with_reducible apply OutKeeps.next
    | with_reducible apply OutKeeps.fault
    | with_reducible apply OutKeeps.ite
    | with_reducible apply presentAlways_keeps
    | with_reducible apply bar2Put_keeps
    | split

theorem execBar2Read_keeps (t : Nat) (off : Nat) (n : Nat) (s : State) (h0 : Keeps s0 s) :
    OutKeeps s0 (execBar2Read t off n s) := by
  unfold execBar2Read
  try dsimp only
  repeat' first
    | with_reducible assumption
    | with_reducible intro _
    | with_reducible apply ResKeeps.flt
    | with_reducible apply ResKeeps.ite
    | with_reducible apply ResKeeps.done
    | with_reducible apply ResKeeps.jump
    | with_reducible apply ResKeeps.hold
    | with_reducible apply OutKeeps.next
    | with_reducible apply OutKeeps.fault
    | with_reducible apply OutKeeps.ite
    | with_reducible apply presentAlways_keeps
    | with_reducible apply bar2Get_keeps
    | split

end Sys2Proof.Machine
end

