-- ==== Sys2Proof/Tests/Slice0.lean ====
section
/-! SUPPORT. Tests: terms that `Instr.wf` refuses, results worked out by hand or taken from the spec's worked examples, and
for each statement that has hypotheses a concrete state and operands that meet them. -/
namespace Sys2Proof.Tests
open Sys2Proof Sys2Proof.Machine

/-! ## Small states -/

/-- Core 0 as `c`, at the start of an operator image of 64 bytes, on a device just reset. -/
def st (c : Core) : State :=
  { State.reset with cores := [(0, { c with phase := .issuing })], images := [⟨0, 64, false, 0, 0⟩] }

/-- A core whose scalar registers 1, 2, … hold these values. -/
def regs (vs : List Nat) : Core :=
  { s := (vs.zipIdx 1).filterMap fun p => if p.1 = 0 then none else some (p.2, BitVec.ofNat 64 p.1) }

/-- A guest call that may reach the first 256 scratchpad bytes and runs in the image at 0. -/
def call (left : Nat) : GuestCall := ⟨1, 2, 0, [], 0, [], 0, 256, 0, 256, 0, 0, 3, 7, left, 0, 64⟩

/-- A format T word with no guard: registers D, A, B, C, MOD and IMM16. -/
def tw (d a b c : BitVec 5) (md : BitVec 14) (imm : BitVec 16) : FmtT := ⟨0, 0, d, a, b, c, md, imm⟩
def lw (d a : BitVec 5) (imm : BitVec 32) : FmtL := ⟨0, 0, d, a, 0, imm⟩
def hc : HostCmd := ⟨0, 0, 0, 0, []⟩
def kc : KwCmd := ⟨true, 0, none, 0, 0, 0, []⟩
/-- A board command of an opcode with its PEC. -/
def kcOf (op : Nat) : KwCmd := { kc with pec := pec (commandBytes op kc) }

/-- The fields of `Safety.ready`, as they evaluate for core 0. -/
def readyB (s : State) : Bool :=
  issuing s 0 && inCode s 0 (getCore s 0).pc && inCode s 0 ((getCore s 0).pc + 8) && guardOn (getCore s 0) 0 0 &&
    wordOk s 0 && decide ((getCore s 0).memHold = .none) && match (getCore s 0).guest with
    | none => true
    | some g => decide (g.left ≠ 0)

theorem ready_of {s : State} (h : readyB s = true) : Safety.ready s 0 0 0 := by
  simp only [readyB, Bool.and_eq_true] at h
  obtain ⟨⟨⟨⟨⟨⟨h1, h2⟩, h3⟩, h4⟩, h6⟩, h7⟩, h5⟩ := h
  refine ⟨by decide, h1, h2, h3, fun g hg => ?_, h4, h6, of_decide_eq_true h7⟩
  rw [hg] at h5
  exact of_decide_eq_true h5

theorem operator_of {s : State} (h : (readyB s && (getCore s 0).guest.isNone) = true) : Safety.operator s 0 0 0 := by
  rw [Bool.and_eq_true] at h
  exact ⟨ready_of h.1, Option.isNone_iff_eq_none.mp h.2⟩

/-- A range that lies in the host window. -/
theorem row_host {s : State} {a n : Nat} (h : hostBase ≤ a ∧ 0 < n ∧ a + n ≤ min (hostBase + s.kolwin.hostWin) peerBase) :
    rowOf s a n = .host := by
  have ht : tier2Bytes ≤ 0x10000000000 := by unfold tier2Bytes; split <;> omega
  have h2 : ¬ a + n ≤ hbmBytes := by simp only [hostBase, hbmBytes] at *; omega
  have h3 : ¬ (tier2Base ≤ a ∧ a + n ≤ tier2Base + tier2Bytes) := by simp only [hostBase, tier2Base] at *; omega
  rw [rowOf, if_neg h2, if_neg h3, if_pos ⟨h.1, h.2.2⟩]

/-! ## Terms that are not well-formed -/

theorem test_illformed_scalar_words_refused :
    let w := tw 0 0 0 0 0x3FFF 0
    let l : FmtL := ⟨0, 0, 0, 0, 0xFF, 0⟩
    (([.nop 0 w, .br 0 l, .brz 0 l, .brnz 0 l, .call 0 l, .callr 0 w, .ret 0 w, .yield 0 w, .gcall 0 w, .gret 0 w, .add 0 w,
      .sub 0 w, .mul 0 w, .mulhu 0 w, .mulhs 0 w, .divu 0 w, .remu 0 w, .and 0 w, .or 0 w, .xor 0 w, .shl 0 w, .shr 0 w,
      .sar 0 w, .min 0 w, .max 0 w, .minu 0 w, .maxu 0 w, .sel 0 w, .cmp 0 w, .movi 0 l, .movhi 0 l, .pand 0 w, .por 0 w,
      .pxor 0 w] : List Instr).all fun i => !i.wf) = true := by decide

theorem test_illformed_vector_and_matrix_words_refused :
    let w := tw 0 0 0 0 0x3FFF 0
    (([.vadd 0 w, .vsub 0 w, .vmul 0 w, .vfma 0 w, .vmax 0 w, .vmin 0 w, .vcmp 0 w, .vexp 0 w, .vrcp 0 w, .vrsq 0 w, .vred 0 w,
      .vcvt 0 w, .vcvtsr 0 w, .vtopk 0 w, .vrand 0 w, .vbcast 0 w, .vext 0 w, .vsel 0 w, .wld 0 w, .mma 0 w, .apre 0 w,
      .acfg 0 w, .ast 0 w, .aclr 0 w, .ard 0 w] : List Instr).all fun i => !i.wf) = true := by decide

theorem test_illformed_memory_and_system_words_refused :
    let w := tw 0 0 0 0 0x3FFF 0
    (([.lds 0 w, .sts 0 w, .vld 0 w, .vst 0 w, .ldc 0 w, .stc 0 w, .ldv 0 w, .stv 0 w, .dma 0 w, .flushr 0 w, .invr 0 w,
      .kvld 0 w, .kvapp 0 w, .kvcmt 0 w, .kvdrop 0 w, .kvimp 0 w, .nbiss 0 w, .nbfnc 0 w, .nbrd 0 w, .rput 0 w, .coll 0 w,
      .amrg 0 w, .temit 0 w, .tverify 0 w, .sccfg 0 w, .scrd 0 w, .scset 0 w, .scadd 0 w, .scdl 0 w, .wait 0 w, .dotrd 0 w,
      .dotcan 0 w, .dotrel 0 w, .sysrd 0 w, .tbrd 0 w] : List Instr).all fun i => !i.wf) = true := by decide

/-- One past the last core, entry, cell, queue, port, lane, range, stack, channel, version and context. -/
theorem test_illformed_units_refused :
    (([.nop 544 (tw 0 0 0 0 0 0), .corePartEnd 0 544, .dmaDone 0 4096, .tierDone 0 4096, .nearBankCommandFinish 0 4096 0,
      .nearBankDone 0 4096, .collectiveDone 0 4096, .kvImportDone 0 4096, .flushDone 0 4096, .invalidateDone 0 4096,
      .operationFailed 0 4096 .denied, .operationDeadline 0 4096, .syncCellDeadline 0 32768, .admitCmd 0 256 hc, .cancel 0 256 hc,
      .resumeRequest 0 256 hc, .park 0 256 hc, .unpark 0 256 hc, .sharePrefix 0 256 hc, .tenantCmd 0 256 hc, .loadAdapter 0 256 hc,
      .retireAdapter 0 256 hc, .loadImage 0 256 hc, .resumeScheduler 0 256 hc, .guestTable 0 256 hc, .adapterCopyEnd 0 1024 true,
      .loadAdapterCopyEnd 0 1024 true, .submissionDoorbell 0 256 0, .completionHeadDoorbell 0 256 0, .coalesceTime 0 256,
      .hqSqEnable 0 256 0, .registerWrite 0 .bar0 0x4000000 false 0, .registerWrite 0 .bar4 0x1000 false 0,
      .registerWrite 0 .bar0 4 true 0, .ovfClear 0 2 0, .seal 0 16, .sealingEnd 0 16, .unseal 0 16, .zoneInit 0 16, .initEnd 0 16,
      .tzEnable 0 16 0, .portEnable 0 17 true, .retrain 0 17, .exportValidClear 0 16, .exportBusyEnd 0 16] : List Instr).all
      fun i => !i.wf) = true := by decide

theorem test_illformed_events_refused :
    (([.spill 0 65536 0 0 0, .restore 0 65536 0 0 0, .linkFrame 0 17 ⟨[], 0, 0, 0, false, true, [], [], []⟩, .replayTimeout 0 17,
      .pieceResend 0 4096 0 0 0, .notReadyRetry 0 4096 0 0 0, .routeRetry 0 4096, .trainingComplete 0 17 0 0 0, .trainingTimeout 0 17,
      .laneLockLost 0 17 0, .laneLockLost 0 0 6, .laneErrorRate 0 0 6, .laneOff 0 0 6, .retrainingComplete 0 17 0,
      .retrainingTimeout 0 17, .downTimeout 0 17, .thermalSetpointStep 0 8 0, .hbmAbove105c 0 12, .emergencyEnd 0 6, .quarterLoss 0 4,
      .stackLost 0 12, .uncorrectableWord 0 ⟨0x4800000000, 0, 0⟩, .correctedWordWriteBack 0 ⟨0x4800000000, true⟩, .repairStageEnd 0 16 0 1,
      .repairStageLimit 0 16 0, .repairSlotLimit 0 16, .refresh 0 384, .hbmTemperature 0 12 0, .periodicRetrain 0 192,
      .errorTriggeredRetrain 0 192, .retrainWindowEnd 0 192 true, .knownAnswerTestDue 0 544, .knownAnswerTestEnd 0 544 none,
      .disagree 0 1 544 0 0, .disagree 0 1 0 5 0, .disagree 0 1 0 0 5, .disagree 0 5 0 0 0, .reconciled 0 2 32 true,
      .resetNDeasserted 0 4 0, .resetNDeasserted 0 0 32, .resetNDeassertionTaken 0 4 0, .startUpTestsEnd 0 [(544, 0)],
      .pcieLinkTrained 0 7 16, .pcieLinkTrained 0 6 17,
      .identity 0 { kc with code := some 13 }] : List Instr).all fun i => !i.wf) = true := by decide

theorem test_wellformed_commands_are_taken :
    (([.nop 543 (tw 0 0 0 0 0 0), .add 543 (tw 1 2 3 0 0 0), .movi 0 (lw 31 0 0xFFFFFFFF), .vfma 0 ⟨2, 1, 4, 5, 6, 7, 0x2000, 0⟩,
      .registerWrite 0 .bar0 0x3FFFFF8 true 0, .dmaDone 0 4095, .syncCellDeadline 0 32767, .portEnable 0 16 true,
      .disagree 0 4 383 0 4, .pcieLinkTrained 0 6 16] : List Instr).all Instr.wf) = true := by decide

/-- The table gives its rows no bits. -/
theorem test_no_word_spells_a_command : decodeTableWord 64 0 = none := by decide

/-! ## The spec's worked examples and values worked out by hand -/

/-- R148's example: address 0x0012_3456_7800, and the stack of the granule after it. -/
theorem test_interleave_of_the_worked_example :
    interleave 0x001234567800 = { stack := 1, channel := 10, pseudo := 1, unit := 5, bank := 16, row := 4142, column := 2 } ∧
    pseudoChannel 0x001234567800 = 53 ∧ (interleave 0x001234567900).stack = 0 := by decide

/-- The example of chapter 4: an ARRIVE cell near its wrap and target 2. -/
theorem test_wait_reached_across_the_wrap :
    waitMet 0 2 0xFFFFFFFFFFFA 2 = false ∧ waitMet 0 2 0 2 = false ∧ waitMet 0 2 2 2 = true := by decide

/-- 2^64 − 1 + 1 wraps to 0, and its high product with itself is 2^64 − 2 unsigned and 0 signed. -/
theorem test_scalar_corners :
    let c := regs [0xFFFFFFFFFFFFFFFF, 1]
    let r := fun (i : Instr) => match exec i (st c) with | .next t => some (readS (getCore t 0) 3, (getCore t 0).pc) | _ => none
    r (.add 0 (tw 3 1 2 0 0 0)) = some (0, 8) ∧ r (.mulhu 0 (tw 3 1 1 0 0 0)) = some (0xFFFFFFFFFFFFFFFE, 8) ∧
    r (.mulhs 0 (tw 3 1 1 0 0 0)) = some (0, 8) ∧ r (.divu 0 (tw 3 2 0 0 0 0)) = some (0xFFFFFFFFFFFFFFFF, 8) ∧
    r (.remu 0 (tw 3 2 0 0 0 0)) = some (1, 8) := by decide

/-- An immediate is sign-extended, SHR of −1 by 4 clears the top digit and SAR keeps it; a write of s0 is discarded. -/
theorem test_immediates_shifts_and_s0 :
    let c := regs [0xFFFFFFFFFFFFFFFF, 1]
    let r := fun (i : Instr) (d : BitVec 5) => match exec i (st c) with | .next t => some (readS (getCore t 0) d) | _ => none
    r (.add 0 (tw 3 2 0 0 0x2000 0xFFFE)) 3 = some 0xFFFFFFFFFFFFFFFF ∧ r (.shr 0 (tw 3 1 0 0 0x2000 4)) 3 = some 0x0FFFFFFFFFFFFFFF ∧
    r (.sar 0 (tw 3 1 0 0 0x2000 4)) 3 = some 0xFFFFFFFFFFFFFFFF ∧ r (.add 0 (tw 0 1 2 0 0 0)) 0 = some 0 ∧
    r (.movhi 0 (lw 1 0 0x12345678)) 1 = some 0x12345678FFFFFFFF := by decide

/-- 1.5 + 2.5 = 4 and 1.5 × 2.5 = 3.75 in FP32, and 3.75 in BF16, FP16, FP8 E4M3 and FP4. -/
theorem test_float_formats :
    encodeF 8 (addF (decodeF 8 0x3FC00000) (decodeF 8 0x40200000)) = 0x40800000 ∧
    encodeF 8 (mulF (decodeF 8 0x3FC00000) (decodeF 8 0x40200000)) = 0x40700000 ∧
    [6, 7, 2, 1].map (fun f => encodeF f (decodeF 8 0x40700000)) = [0x4070, 0x4380, 0x47, 6] := by decide

/-- BRZ is taken on a zero register to PC + 8 × IMM32, and a target past the code raises 0x09 with the PC left. -/
theorem test_branch_target :
    (match exec (.brz 0 (lw 0 1 6)) (st (regs [0])) with | .next t => some (getCore t 0).pc | _ => none) = some 48 ∧
    (match exec (.br 0 (lw 0 0 8)) (st (regs [0])) with | .next t => some ((getCore t 0).pc, (getCore t 0).faulted) | _ => none)
      = some (0, true) := by decide

/-- SCADD returns the old value; an ARRIVE cell wraps at 2^48 and sets WRAPPED. -/
theorem test_scadd_wraps :
    (match exec (.scadd 0 (tw 3 1 2 0 0 0))
        { st (regs [1200, 8]) with cells := [(1200, { value := 0xFFFFFFFFFFFA, cfg := 0x40000000#32, deadline := 0 })] } with
      | .next t => some (readS (getCore t 0) 3, (getCell t 1200).value, (getCell t 1200).cfg) | _ => none)
      = some (0xFFFFFFFFFFFA, 2, 0x41000000#32) := by decide

/-! ## The hypotheses of the statements: the device, and core instructions -/

theorem wit_WellFormedQueueRuns :
    (([.nop 543 (tw 0 0 0 0 0 0), .stepBoundary 0] : List Instr).all Instr.wf) = true ∧
    ∃ t, exec (.nop 0 (tw 0 0 0 0 0 0)) (st {}) = .next t := ⟨by decide, _, rfl⟩

theorem wit_StepKeepsTablesCanonical : Safety.canonical State.reset ∧ ∃ t, step State.reset = .next t :=
  ⟨by unfold Safety.canonical Safety.memoriesCanonical Safety.tablesCanonical; decide, _, rfl⟩

theorem wit_RegisterFileReads : (0 : BitVec 5) ≠ 31 ∧ (7 : Nat) < 8 := by decide

/-- Operands in registers, and the immediate form. -/
theorem wit_ScalarArithmeticResults :
    Safety.ready (st {}) 0 0 0 ∧ infoScalar.okT (tw 31 31 31 0 0 0) = true ∧ infoScalar.okT (tw 1 2 0 0 0x2000 0xFFFF) = true ∧
    infoSel.okT (tw 1 2 3 7 0 0) = true := ⟨ready_of (by decide), by decide⟩

theorem wit_ScalarMovesAndPredicates :
    Safety.ready (st {}) 0 0 0 ∧ infoCmp.okT (tw 7 1 2 0 0x1400 0) = true ∧ infoPred.okT (tw 7 7 7 0 0 0) = true ∧
    infoMovi.okL (lw 31 0 0x80000000) = true := ⟨ready_of (by decide), by decide⟩

/-- A branch not taken, one to the last word of the code, one past it in an image and in a guest's, and one from a PC that is
not a multiple of 8. -/
theorem wit_BranchesTransferControl :
    Safety.ready (st {}) 0 0 0 ∧ Safety.ready (st { pc := 4 }) 0 0 0 ∧ Safety.ready (st { guest := some (call 1) }) 0 0 0 ∧
    infoNone.okT (tw 0 0 0 0 0 0) = true ∧ infoBr.okL (lw 0 0 7) = true ∧ infoBrc.okL (lw 0 31 8) = true ∧
    inCode (st {}) 0 56 = true ∧ inCode (st {}) 0 64 = false ∧ inCode (st { guest := some (call 1) }) 0 64 = false ∧
    ((4 : Int) + 8 * (1 : Int)) % 8 ≠ 0 :=
  ⟨ready_of (by decide), ready_of (by decide), ready_of (by decide), by decide⟩

theorem wit_CallsReturnsAndYield :
    Safety.operator (st (regs [56, 60, 64])) 0 0 0 ∧ infoCall.okL (lw 31 0 7) = true ∧ infoCallr.okT (tw 31 1 0 0 0 0) = true ∧
    infoRet.okT (tw 0 3 0 0 0 0) = true ∧ infoYield.okT (tw 0 0 0 0 0 0) = true ∧
    inCode (st (regs [56, 60, 64])) 0 56 = true ∧ inCode (st (regs [56, 60, 64])) 0 64 = false ∧ 60 % 8 ≠ 0 :=
  ⟨operator_of (by decide), by decide⟩

/-- A call block at 0: entry 0xC000, budget 1, inputs of 256 bytes at 256 and workspace of 256 at 512, tenant 7. -/
def blockBytes : List Host.Cell := [(1, 0xC0), (4, 1), (9, 1), (13, 1), (17, 2), (21, 1), (50, 7)]
def guestState (allowed : Bool) : State :=
  let s := { st { scratch := blockBytes } with images := [⟨0, 64, false, 0, 0⟩, ⟨0xC000, 8, true, 7, 0xC000⟩] }
  setFld s ⟨0xA0010, 9, 8⟩ (if allowed then 1 else 2)

/-- Offsets that are misaligned, past the scratchpad and last in it; calls barred, a bad block, and a call that enters. -/
theorem wit_GuestCallEntersAndReturns :
    Safety.operator (guestState true) 0 0 0 ∧ Safety.operator (guestState false) 0 0 0 ∧ infoGcall.okT (tw 1 2 3 0 0 0) = true ∧
    guestAllowed (guestState false) = false ∧ guestAllowed (guestState true) = true ∧
    (let b := callBlock (readBytes blockBytes 0 64)
     blockOk b 0 = true ∧ (entryImage (guestState true) b).isSome = true ∧ blockOk b 512 = false) ∧
    0xFFFC0 + 64 = 0x100000 ∧
    (Safety.ready (st { guest := some (call 1) }) 0 0 0 ∧ infoNone.okT (tw 0 0 0 0 0 0) = true ∧
      ((st { guest := some (call 1) }).images.any fun i => decide (i.off ≤ 0) && decide (0 + 8 ≤ i.off + i.len)) = true) :=
  ⟨operator_of (by decide), operator_of (by decide), by decide, by decide, by decide, by decide, by decide, ready_of (by decide), by decide, by decide⟩

/-- Issue stopped, a word that is no encoding, a budget at its end, a false guard, and an instruction a guest may not run. -/
theorem wit_IssueChecksInOrder :
    Safety.issued (.yield 0 (tw 0 0 0 0 0 0)) = some (0, 0, 0) ∧ issuing State.reset 0 = false ∧ issuing (st {}) 0 = true ∧
    inCode (st {}) 0 0 = true ∧ inCode (st {}) 0 8 = true ∧ Instr.wf (.yield 0 (tw 1 0 0 0 0 0)) = false ∧
    Instr.wf (.yield 0 (tw 0 0 0 0 0 0)) = true ∧ guardOn (getCore (st {}) 0) 1 0 = false ∧
    Safety.operatorOnly (.yield 0 (tw 0 0 0 0 0 0)) = true ∧
    (getCore (st { guest := some (call 0) }) 0).guest = some (call 0) ∧ (call 0).left = 0 ∧ (call 1).left ≠ 0 ∧
    issuing (st { guest := some (call 1) }) 0 = true ∧ inCode (st { guest := some (call 1) }) 0 0 = true := by decide

theorem wit_FaultEndsPartOrGuestCall :
    (getCore (st {}) 0).guest = none ∧ (getCore (st { guest := some (call 1) }) 0).guest = some (call 1) ∧
    ((st {}).images.any fun i => decide (i.off ≤ (call 1).retPc) && decide ((call 1).retPc + 8 ≤ i.off + i.len)) = true ∧
    inCode (st { pc := 48 }) 0 56 = true ∧ inCode (st { pc := 56 }) 0 64 = false ∧ issuing (st { pc := 64 }) 0 = true ∧
    inCode (st { pc := 64 }) 0 64 = false ∧ (st {}).kolwin.fatal = false := by decide

/-- FP32 and BF16 lanes; every FN of VCMP. -/
theorem wit_VectorLaneResults :
    Safety.ready (st {}) 0 0 0 ∧ infoVec3.okT (tw 1 2 3 0 0x2000 0) = true ∧ infoVec3.okT (tw 1 2 3 0 0x1800 0) = true ∧
    infoVfma.okT (tw 4 5 6 7 0x2000 0) = true ∧
    ((List.range 6).all fun n => infoVcmp.okT (tw 1 2 3 0 (BitVec.ofNat 14 (0x2000 + 128 * n)) 0)) = true ∧
    infoVsel.okT (tw 1 2 3 4 0x0400 0) = true ∧ infoVbcast.okT (tw 1 2 0 0 0x0400 0) = true := ⟨ready_of (by decide), by decide⟩

theorem wit_VectorFunctionResults :
    Safety.ready (st {}) 0 0 0 ∧ infoVexp.okT (tw 1 2 0 0 0x1880 0) = true ∧ infoVexp.okT (tw 1 2 0 0 0x2000 0) = true ∧
    infoVrcp.okT (tw 1 2 0 0 0x2000 0) = true ∧ decodeF 8 0xFF800000 = .inf true ∧ decodeF 8 0x7F800000 = .inf false ∧
    isNan (decodeF 8 0x3F800000) = false := ⟨ready_of (by decide), by decide⟩

/-- Conversions to narrower and to wider lanes, the last segment of each. -/
theorem wit_VectorReduceConvertResults :
    Safety.ready (st {}) 0 0 0 ∧ infoVred.okT (tw 1 2 0 0 0x2080 0) = true ∧ infoVcvt.okT (tw 1 2 0 0 0x2070 1) = true ∧
    infoVcvt.okT (tw 1 2 0 0 0x0470 8) = true ∧ infoVcvtsr.okT (tw 1 2 3 4 0x2010 6) = true ∧
    infoVrand.okT (tw 1 2 3 0 0x2080 0) = true ∧ infoVext.okT (tw 1 2 0 0 0x0400 511) = true := ⟨ready_of (by decide), by decide⟩

/-- No element, 64 elements at the last 256 bytes, one element more, an offset that is not aligned, and a guest's first 256. -/
theorem wit_TopKSelectsLargest :
    Safety.ready (st (regs [0xFFF00, 64, 65])) 0 0 0 ∧ infoVtopk.okT (tw 2 1 2 3 0x2000 0) = true ∧
    scratchFault (regs []) false 0xFFF00 (64 * 4) = none ∧ scratchFault (regs []) false 0xFFF00 (65 * 4) = some 0x03 ∧
    scratchFault { guest := some (call 1) } false 0 (64 * 4) = none ∧ scratchFault { guest := some (call 1) } false 0 (65 * 4) = some 0x05 ∧
    0xFFF00 % 256 = 0 ∧ 4 % 256 ≠ 0 := ⟨ready_of (by decide), by decide⟩

theorem wit_NumberFormatsRoundTrip :
    ([(1, 15), (2, 0x7E), (3, 0x7B), (4, 7), (5, 127), (6, 0x7F80), (7, 0x7C00), (8, 0xFF800000)].all fun (p : Nat × Nat) =>
      decide (p.2 < 2 ^ fmtBits p.1) && !isNan (decodeF p.1 p.2)) = true := by decide

/-- FP4 with its scales and BF16, each at the last place it fits and one step past it. -/
theorem wit_MatrixWeightsLoad :
    Safety.operator (st (regs [0, 64, 0])) 0 0 0 ∧ infoWld.okT (tw 0 1 2 3 0x1100 0) = true ∧ infoWld.okT (tw 0 1 2 3 0x0600 0) = true ∧
    (16 * fmtBits 1 = 64 ∧ 64 % 64 = 0) ∧ 32 % 64 ≠ 0 ∧ 0xFE000 + 127 * 64 + 64 = 0x100000 ∧ 0xFE040 + 127 * 64 + 64 > 0x100000 ∧
    0xFFE00 + 512 = 0x100000 := ⟨operator_of (by decide), by decide⟩

/-- A pair with no record, a pair accw refuses, rows that fault, and products into an accumulator and into accw. -/
theorem wit_MatrixMultiplyAccumulates :
    Safety.operator (st (regs [0, 256])) 0 0 0 ∧ infoMma.okT (tw 3 1 2 0 0x0600 127) = true ∧ pairRecord 0 6 = none ∧
    pairRecord 6 6 = some false ∧ pairRecord 1 2 = some true ∧ rowsFault 0 256 256 128 = none ∧
    rowsFault 0x100000 256 256 1 = some 0x03 ∧ rowsFault 4 256 256 1 = some 0x04 ∧
    (getAcc (regs []) 3).mode = .nearest ∧ ({ accw := some {} } : Core).accw.isSome = true := ⟨operator_of (by decide), by decide⟩

/-- EXACT with the window base at both ends of its range and just outside it; a tile of FP32 accumulators and accw. -/
theorem wit_AccumulatorConfiguration :
    Safety.operator (st (regs [0x16B, 31])) 0 0 0 ∧ infoAcfg.okT (tw 2 1 2 0 0x2000 0) = true ∧ infoAclr.okT (tw 3 0 0 0 0 0) = true ∧
    modeOf 2 = .exact ∧ modeOf 1 ≠ .exact ∧
    [0x16B, 31, 0x16A, 32].map (fun n => (BitVec.ofNat 9 n).toInt) = [-149, 31, -150, 32] := ⟨operator_of (by decide), by decide⟩

theorem wit_AccumulatorPreloadStoreRead :
    Safety.operator (st (regs [0, 512])) 0 0 0 ∧ Safety.operator (st { accw := some {} }) 0 0 0 ∧
    infoApre.okT (tw 3 1 2 0 0x1800 127) = true ∧ infoAst.okT (tw 5 1 2 3 0x1800 127) = true ∧ infoArd.okT (tw 1 2 0 0 0x0020 0) = true ∧
    rowsFault 0 512 512 128 = none ∧ rowsFault 0 3072 3072 128 = none ∧ rowsFault 0 512 512 1 = none ∧
    rowsFault 0xFFF00 512 512 1 = some 0x03 := ⟨operator_of (by decide), operator_of (by decide), by decide⟩

/-- The last aligned access of each width, the first that is misaligned or outside, and a guest's input region. -/
theorem wit_ScratchpadLoadsAndStores :
    Safety.ready (st (regs [0xFFFF8])) 0 0 0 ∧ Safety.ready (st { guest := some (call 1) }) 0 0 0 ∧
    infoLds.okT (tw 1 2 0 0 0x3800 0) = true ∧ infoSts.okT (tw 1 2 0 0 0x3000 0) = true ∧ infoVld.okT (tw 1 2 0 0 0 0xFF00) = true ∧
    0xFFFF8 % 8 = 0 ∧ 0xFFFF8 + 8 ≤ 0x100000 ∧ 0xFFFFC % 8 ≠ 0 ∧ ¬ 0x100000 + 8 ≤ 0x100000 ∧ 0xFFF00 + 256 ≤ 0x100000 ∧
    (call 1).inBase + 256 ≤ (call 1).inBase + (call 1).inLen := ⟨ready_of (by decide), ready_of (by decide), by decide⟩

set_option maxRecDepth 8192 in
/-- One line at the end of HBM. -/
theorem wit_LineLoadsDeliverLines :
    let s := st (regs [0x47FFFFFF00, 0xFFF00])
    Safety.ready s 0 0 0 ∧ infoLdc.okT (tw 0 1 2 0 0 0) = true ∧ infoLines.okT (tw 0 1 2 0 0 0) = true ∧
    (getCore s 0).guest = none ∧ lineFault s (getCore s 0) false 0x47FFFFFF00 0xFFF00 256 = none ∧ guarded s 0x47FFFFFF00 256 = false ∧
    badIn s 0x47FFFFFF00 256 = none ∧ softWordsIn s 0x47FFFFFF00 256 = [] ∧
    (getCluster s (clusterOf 0)).cache = [] ∧ (physRead s 0x47FFFFFF00 256).length = 256 := ⟨ready_of (by decide), by decide⟩

theorem wit_LineStoresTakeLines :
    let s := st (regs [0x47FFFFFF00, 0xFFF00])
    let g := setFld (setFld s (Reg.mcGrState 0) 2) (Reg.mcGrSize 0) 1
    Safety.operator s 0 0 0 ∧ infoLines.okT (tw 0 1 2 0 0 0) = true ∧ 0x47FFFFFF00 % 256 = 0 ∧ 0xFFF00 % 256 = 0 ∧
    guarded s 0x47FFFFFF00 256 = false ∧ guarded g 0 256 = true ∧ 0x47FFFFFF00 + 512 > 0x4800000000 ∧ 0xFFF00 + 512 > 0x100000 :=
  ⟨operator_of (by decide), by decide⟩

/-! ## Operations, cells, tables and tokens -/

/-- Registers `vs` with scratchpad bytes. -/
def sp (vs : List Nat) (m : List Host.Cell) : State := st { regs vs with scratch := m }

/-- A descriptor at 0 of one line from scratchpad 256 to HBM 512, in a state whose first entry is free; one with a reserved
byte set, one naming a cell of kind NONE, and one off its alignment. -/
theorem wit_LongOperationsAllocate :
    let m : List Host.Cell := [(1, 1), (9, 2), (17, 1), (0x24, 8)]
    let s := sp [0, 4, 0xFFFE0] m
    let d := descOf (readBytes m 0 64)
    Safety.operator s 0 0 0 ∧ infoLongOp.okT (tw 5 1 0 7 0 0) = true ∧ descZero (readBytes m 0 64) = true ∧ kwZero d = true ∧
    dmaCheck s d = none ∧ rangeCheck d = none ∧ (getDot s 0).state = .free ∧ d.cellEn = false ∧ d.len = 256 ∧
    dmaCheck s { d with src := 4 } = some 0x04 ∧ descZero (readBytes (m ++ [(0x25, 1)]) 0 64) = false ∧
    (descOf (readBytes (m.take 3 ++ [(0x23, 0x80), (0x24, 8)]) 0 64)).cellEn = true ∧ (getCell s 0).kind = 0 ∧
    4 % 64 ≠ 0 ∧ 0xFFFE0 + 64 > 0x100000 := ⟨operator_of (by decide), by decide⟩

/-- Offload off, no operation and one still open, and an entry in each state. -/
theorem wit_NearBankWaitAndRead :
    let e : DotEntry := { state := .active, kind := 3 }
    let s := { st { regs [4095, 0xFFF00] with nbOps := [4095] } with dot := [(4095, e)] }
    Safety.operator s 0 0 0 ∧ infoLongOp.okT (tw 5 1 0 7 0 0) = true ∧ modeOffload (setFld s ⟨0xA0010, 5, 4⟩ 0) = 0 ∧
    infoNbfnc.okT (tw 0 0 0 0 0 0) = true ∧ infoNbrd.okT (tw 1 1 2 0 0 0) = true ∧ (getDot s 4095).kind = 3 ∧
    (getDot s 4095).state = .active ∧ (getDot s 0).state = .free ∧ 0xFFF00 + 256 ≤ 0x100000 ∧ 0xFFF00 + 512 > 0x100000 ∧ 4 % 256 ≠ 0 :=
  ⟨operator_of (by decide), by decide⟩

/-- The last cell software may change and the first it may not; a configuration of each kind and one that is refused. -/
theorem wit_SyncCellInstructions :
    let s := { st (regs [32511, 1, 0x54000000]) with cells := [(32511, { value := 0, cfg := 0x56000000#32, deadline := 0 })] }
    Safety.operator s 0 0 0 ∧ infoSccfg.okT (tw 0 1 2 3 0 0) = true ∧ infoScrd.okT (tw 4 1 0 7 0 0) = true ∧
    infoScset.okT (tw 0 1 2 0 0x3800 0) = true ∧ infoScadd.okT (tw 4 1 2 0 0 0) = true ∧ infoScdl.okT (tw 0 1 2 0 0 0) = true ∧
    (getCell s 32511).kind ≠ 0 ∧ (getCell s 32511).cfg.getLsbD 25 = true ∧ (getCell s 32510).kind = 0 ∧
    (0x54000000 % 2 ^ 25 = 0 ∧ 0x54000000 / 2 ^ 29 % 8 ≤ 2 ∧ 0x54000000 / 2 ^ 26 % 8 ≤ 5) ∧ 2 < 0x60000000 / 2 ^ 29 % 8 :=
  ⟨operator_of (by decide), by decide⟩

theorem wit_SyncCellInstructions_quiet : ∀ j cond tg pd tm, (getCore (st {}) j).wait ≠ .cell 32511 cond tg pd tm := by
  intro j cond tg pd tm
  simp only [st, getCore, smGet]
  split <;> simp [coreDefault]

/-- A plain cell, one with a deadline, conditions met and not met, and a timed wait whose deadline slot is 0. -/
theorem wit_WaitTestsCondition :
    let s := { st (regs [1, 5, 32768]) with cells := [(1, { value := 5, cfg := 0x22000000#32, deadline := 0 })] }
    Safety.operator s 0 0 0 ∧ infoWait.okT (tw 1 1 2 0 0x0100 0) = true ∧ infoWait.okT (tw 1 1 2 0 0x0700 0) = true ∧
    modBits (tw 1 1 2 0 0x0700 0) 26 25 = 3 ∧ modBits (tw 1 1 2 0 0x0100 0) 24 24 = 1 ∧ (getCell s 1).kind = 1 ∧
    (getCell s 1).cfg.getLsbD 25 = true ∧ (getCell s 1).deadline = 0 ∧ waitMet 1 1 5 5 = true ∧ waitMet 2 1 5 5 = false ∧
    waitMet 0 2 4 5 = false ∧ waitMet 3 1 5 2 = false := ⟨operator_of (by decide), by decide⟩

/-- A waiting core, its cell and another. -/
theorem wit_CellUpdatesEndWaits :
    let s := st { wait := .cell 1 1 5 3 true }
    smWf coreDefault s.cores = true ∧ (getCore s 0).wait = .cell 1 1 5 3 true ∧ inCode s 0 ((getCore s 0).pc + 8) = true ∧
    waitMet 1 1 5 5 = true ∧ waitMet 1 1 4 5 = false := by decide

theorem wit_OperationTableInstructions :
    let s := { st (regs [4095, 4096]) with dot := [(4094, { state := .active, kind := 1 }), (4095, { state := .done, kind := 2 })] }
    Safety.operator s 0 0 0 ∧ infoDotrd.okT (tw 3 1 0 0 0 3) = true ∧ infoDotp.okT (tw 7 1 0 0 0 0) = true ∧
    (getDot s 4095).state = .done ∧ (getDot s 4094).state = .active ∧ (getDot s 0).state = .free := ⟨operator_of (by decide), by decide⟩

theorem wit_SystemAndTableReads :
    Safety.ready (st { guest := some (call 1) }) 0 0 0 ∧ Safety.ready (st (regs [0xFFF8, 4])) 0 0 0 ∧
    infoSysrd.okT (tw 1 0 0 0 0 15) = true ∧ infoTbrd.okT (tw 2 1 0 0 0 0xFFF8) = true ∧ (getCore (st {}) 0).guest = none :=
  ⟨ready_of (by decide), ready_of (by decide), by decide⟩

/-- Key-value service on, context 0 in prefill, and the same with CANCEL_PENDING; one 16-bit layer of one head group. -/
def kvState (flags : Byte) (desc : List Host.Cell) : State :=
  setFld { sp [0, 32] desc with mem := [(0, 2)] ++ (if flags = 0 then [] else [(2, flags)]) } Reg.kvStatusEnabled 1

theorem wit_KeyValueInstructions :
    let s := kvState 0 []
    Safety.operator s 0 0 0 ∧ infoKv.okT (tw 3 1 0 0 0 0) = true ∧ kvEnabled s = true ∧ rcLive s 0 = true ∧ rcCancelled s 0 = false ∧
    rcCancelled (kvState 8 []) 0 = true ∧ ctxStatus s 0 = none ∧ (kvDescOf (readBytes [] 0 32)).zero = true ∧
    (kvDescOf (readBytes [(0x14, 1)] 0 32)).zero = false ∧ (kvDescOf (readBytes [(6, 3)] 0 32)).keys = true ∧ (getReq s 0).kvcmt = false ∧
    (allStg s).length = 0 ∧ 0xFFFE0 + 32 ≤ 0x100000 ∧ 0x10 % 32 ≠ 0 := ⟨operator_of (by decide), by decide⟩

def member (rc : Nat) : Member := ⟨rc, false, true, 1, 1, 0, 0xFFFF, 0, false, 0, false⟩
def running (rc : Nat) : Step := ⟨7, [member rc], [0], [256], 1, 4, 0, false, false, false, false, false, []⟩

/-- A step with context 0 in its batch, a mayfly proposed, and speculation on; a context the step does not name. -/
theorem wit_TokenInstructions :
    let s0 := kvState 0 []
    let s := { s0 with sched := { s0.sched with cur := some (running 0) }, reqs := [(0, { mayflies := [5] })] }
    Safety.operator s 0 0 0 ∧ infoTemit.okT (tw 3 1 2 0 0x2000 0) = true ∧ infoTemit.okT (tw 3 1 2 0 0 0) = true ∧
    infoTverify.okT (tw 3 1 2 4 0 0) = true ∧ rcLive s 0 = true ∧ rcCancelled s 0 = false ∧
    ((running 0).members.any fun m => decide (m.rc = 0) && !m.gone) = true ∧
    ((running 1).members.any fun m => decide (m.rc = 0) && !m.gone) = false ∧ (getReq s 0).confirmed = false ∧
    (getReq s 0).mayflies.length = 1 ∧ modeSpec (setFld s ⟨0xA0010, 3, 2⟩ 1) = true := ⟨operator_of (by decide), by decide⟩

/-- Two partials; one line to the first window of another device, the last of the rows, and addresses just outside. -/
theorem wit_AttentionMergeAndRemoteWrite :
    let s := st (regs [0xFFF00, 0xC01000000000])
    Safety.operator s 0 0 0 ∧ infoAmrg.okT (tw 2 4 6 9 0x2000 0) = true ∧ infoRput.okT (tw 0 1 2 3 0 0) = true ∧ ownId s = 0 ∧
    (0xC01000000000 - 0xC00000000000) / 0x1000000000 = 1 ∧ 0xFFF00 + 256 ≤ 0x100000 ∧ 0xFFF00 + 512 > 0x100000 ∧
    (0xC01FFFFFFF00 - 0xC00000000000) % 0x1000000000 + 256 = 0x1000000000 := ⟨operator_of (by decide), by decide⟩

/-! ## Events of operations -/

theorem wit_DeviceNotRunningDiscardsEvents :
    alive { State.reset with kolwin := { State.reset.kolwin with fatal := true } } = false ∧
    Safety.issued (.nop 0 (tw 0 0 0 0 0 0)) = some (0, 0, 0) ∧ Instr.wf (.nop 0 (tw 0 0 0 0 0 0)) = true ∧ (4095 : Nat) < 4096 := by decide

theorem wit_EntryLeavesActive :
    let s := { st {} with dot := [(4095, { state := .active, kind := 1, autofree := true, cellEn := true, cell := 1, rcEn := true })] }
    (getDot s 4095).state = .active ∧ DotState.done ≠ .active ∧ DotState.failed ≠ .active := by decide

/-- An operation in progress of each kind: a flush, an invalidation, a near-bank operation, a store of one line at the end of
HBM, one past it, a gather of one member, and an import of no page. -/
theorem wit_OperationCompletionEvents :
    let s := fun (e : DotEntry) => { st {} with dot := [(4095, { e with state := .active })] }
    let c : Coll := { begun := true, op := 1, members := [0] }
    alive (s {}) = true ∧ (getDot (s { kind := 6, lines := [1] }) 4095).state = .active ∧
    guarded (s {}) 256 256 = false ∧ 256 * 1 + 256 ≤ 0x4800000000 ∧
    (∀ x ∈ ({ kind := 3 } : DotEntry).nb, x.status.isSome = true) ∧ 0x47FFFFFF00 + 256 ≤ 0x4800000000 ∧
    guarded (s {}) 0x47FFFFFF00 256 = false ∧ 256 % 256 = 0 ∧
    collComplete (s {}) { kind := 4, len := 256 } c = true ∧ rowOf (s {}) 0 (collOut (s {}) { kind := 4, len := 256 } c) = .hbm ∧
    badIn (s {}) 0 256 = none ∧ importHost { kw2 := 0x8000 } = true ∧ importReadable (s {}) { kw2 := 0x8000 } [] = true ∧
    importRuns (s {}) 0 [] ≤ unreserved (s {}) ∧ importFault (s {}) { kw2 := 0x8000 } [] = none := by decide

/-- Entries that are not in progress, in progress before and at their deadline, and a near-bank command not yet run. -/
theorem wit_OperationFailuresAndDeadlines :
    let e : DotEntry := { state := .active, kind := 3, dlEn := true, deadline := 5, nb := [{ bytes := [] }] }
    let s := setFld { st {} with dot := [(4095, e)] } Reg.nbStatusLimit 2048
    alive s = true ∧ (getDot s 4095).state = .active ∧ (getDot s 0).state ≠ .active ∧ max s.tk 4 < 5 ∧ 5 ≤ max s.tk 5 ∧
    (getDot s 4095).nb[0]? = some { bytes := [] } ∧ fld s Reg.nbStatusLimit ≠ 0 := by decide

theorem wit_OperationFailuresAndDeadlines_run : ∃ s1 g, nbRun (st {}) 0 (nbFields []) = .done s1 0xF1 g :=
  ⟨st {}, 0, by rw [nbRun, if_pos (by decide)]⟩

/-- A core that has yielded; the watchdog and the tier timer before and at their ticks; a deadline slot in use. -/
theorem wit_PartEndsAndDeviceTimers :
    let s0 := st {}
    let s := { s0 with cores := [(543, { phase := .yielded })], timer1 := 5, timer2 := 5,
                       dot := [(4095, { state := .active, kind := 2, limit := 5 })],
                       cells := [(32767, { value := 0, cfg := 0x22000000#32, deadline := 5 })] }
    alive s = true ∧ (getCore s 543).phase = .yielded ∧ (getCore s 0).phase ≠ .yielded ∧ max s.tk 4 < 5 ∧ 5 ≤ max s.tk 5 ∧
    smWf dotDefault s.dot = true ∧ (getDot s 4095).limit ≠ 0 ∧ (getCell s 32767).deadline ≠ 0 ∧ (getCell s 0).deadline = 0 := by decide

/-! ## The host interface and Kolwin -/

/-- A device in RUN with a host window of 1 MiB, queue 255 enabled with its rings at the start of the window, and the scheduler
halted. -/
def hostSt (mem : List Host.Cell) : State :=
  let s := { State.reset with kolwin := { State.reset.kolwin with hostWin := 0x100000 }, mem := mem }
  let flds : List (Fld × Nat) := [(Reg.hqCtrlEnable, 1), (Reg.hqSqCtrlEnable 255, 1), (Reg.kwStatusBoot, 3), (Reg.sqStatusHalted, 1),
    (Reg.hqSqCqBase 255, hostBase / 2 ^ (Reg.hqSqCqBase 255).lo), (Reg.hqSqSqBase 255, (hostBase + 0x10000) / 2 ^ (Reg.hqSqSqBase 255).lo)]
  flds.foldl (fun s p => setFld s p.1 p.2) s

theorem slot_host (mem : List Host.Cell) (h : hostBase ≤ Safety.completionSlot (hostSt mem) 255 ∧ 0 < 32 ∧
    Safety.completionSlot (hostSt mem) 255 + 32 ≤ min (hostBase + (hostSt mem).kolwin.hostWin) peerBase) :
    rowOf (hostSt mem) (Safety.completionSlot (hostSt mem) 255) 32 = .host := row_host h

/-- A command that acts at once, with body `b` and flags `f`. -/
theorem acts_of {mem : List Host.Cell} {op : Nat} {c : HostCmd} (h1 : canFetch (hostSt mem) 255 = true)
    (h2 : fieldStatus (Safety.fetched (hostSt mem) 0 255 op c) = none) (h3 : flag (hostSt mem) Reg.sqStatusHalted = true)
    (h4 : alive (hostSt mem) = true)
    (h5 : hostBase ≤ Safety.completionSlot (hostSt mem) 255 ∧ 0 < 32 ∧
      Safety.completionSlot (hostSt mem) 255 + 32 ≤ min (hostBase + (hostSt mem).kolwin.hostWin) peerBase) :
    Safety.actsAtOnce (hostSt mem) 0 255 op c := ⟨h4, by decide, h1, .inr (.inr h3), fun _ p hp => absurd hp (by simp [hostSt, State.reset]), h2, slot_host mem h5⟩

/-- A queue that may be fetched from while the scheduler runs, one that may not, and a command whose fields do not pass. -/
theorem wit_HostCommandsAreFetched :
    let s := hostSt []
    let r := setFld s Reg.sqStatusHalted 0
    alive s = true ∧ canFetch State.reset 255 = false ∧ canFetch r 255 = true ∧ flag r Reg.sqStatusHalted = false ∧
    fieldStatus (Safety.fetched s 0 255 2 { hc with flags := 1 }) = some 2 ∧
    hostBase ≤ Safety.completionSlot s 255 ∧ Safety.completionSlot s 255 + 32 ≤ hostBase + s.kolwin.hostWin := by decide

/-- CANCEL, RESUME_REQUEST, PARK, UNPARK and SHARE_PREFIX of context 0 act, which lies below the host window. -/
theorem wit_HostCommandsOnRequests :
    (∀ op ∈ [2, 3, 4, 5, 6], Safety.actsAtOnce (hostSt [(0, 3)]) 0 255 op hc) ∧ rcAddr (hostSt [(0, 3)]) 0 + 256 ≤ hostBase := by
  refine ⟨fun op h => ?_, by decide⟩
  simp only [List.mem_cons, List.not_mem_nil, or_false] at h
  obtain rfl | rfl | rfl | rfl | rfl := h <;> exact acts_of (by decide) (by decide) (by decide) (by decide) (by decide)

/-- The states the clauses name: in use, finished, in prefill, in decode, parked, limited. -/
theorem wit_HostCommandsOnRequests_states :
    [2, 3, 4, 5, 6].map (fun n => rcState (hostSt [(0, BitVec.ofNat 8 n)]) 0) = [2, 3, 4, 5, 6] ∧ rcState (hostSt []) 0 = 0 ∧
    rcGet (hostSt [(0, 5), (0x20, 1)]) 0 0x24 4 + 8192 ≤ 8192 * rcRb (hostSt [(0, 5), (0x20, 1)]) 0 ∧
    (getReq (hostSt [(0, 4)]) 0).pages = [] ∧ allPages (Safety.afterFetch (hostSt [(0, 4)]) 0 255) 0 = [] ∧
    rcPos (hostSt [(0, 2), (0x100, 2), (0x130, 1)]) 1 = 1 ∧ rcState (hostSt [(0, 2), (0x100, 2), (0x130, 1)]) 1 = 2 := by decide

/-- The other commands act with empty operands, on tables below the host window. -/
theorem wit_HostCommandsOnTables :
    (∀ op ∈ [1, 7, 8, 9, 10, 11, 12], Safety.actsAtOnce (hostSt []) 0 255 op hc) ∧ rcAddr (hostSt []) 0 + 256 ≤ hostBase ∧
    baseFld (hostSt []) Reg.sqAdapterBaseBase + 32768 ≤ hostBase ∧ tenAddr (hostSt []) 0 + 64 ≤ hostBase ∧
    adGet (hostSt []) 0 0 1 = 0 ∧ loadFieldsOk (hostSt []) 0 0 0 0 = false := by
  refine ⟨fun op h => ?_, by decide⟩
  simp only [List.mem_cons, List.not_mem_nil, or_false] at h
  obtain rfl | rfl | rfl | rfl | rfl | rfl | rfl := h <;> exact acts_of (by decide) (by decide) (by decide) (by decide) (by decide)

/-- A range of the host window that the host answers. -/
theorem host_reads {s : State} {a n : Nat} (h : hostBase ≤ a ∧ 0 < n ∧ a + n ≤ min (hostBase + s.kolwin.hostWin) peerBase)
    (h' : readFault s a n = none) : hostReads s a n = true := by
  rw [hostReads, row_host h, h']; rfl

/-- ADMIT and LOAD_IMAGE read the first bytes of the host window. -/
theorem wit_HostCommandsOnTables_rows : hostReads (hostSt []) hostBase 256 = true ∧ hostReads (hostSt []) hostBase 128 = true :=
  ⟨host_reads (by decide) (by decide), host_reads (by decide) (by decide)⟩

/-- A host page that does not answer, from its first byte to its last and in no page beside it. -/
theorem wit_readFault :
    let s := { hostSt [] with kolwin := { (hostSt []).kolwin with readFaults := [(0x800000001, 10)] } }
    [0x800000000FFF, 0x800000001000, 0x800000001FFF, 0x800000002000].map (fun a => readFault s a 1) =
      [none, some 10, some 10, none] := by decide

/-- An ADMIT whose image the host does not answer completes with READ_FAIL. -/
theorem test_operand_area_of_a_host_that_does_not_answer :
    let s := { hostSt [] with kolwin := { (hostSt []).kolwin with readFaults := [(0x800000001, 10)] } }
    ((match (operandArea s 0x800000001F00 256 0).2 with | .error c => some c | .ok _ => none) = some 8) := by
  intro s
  have h : rowOf s 0x800000001F00 256 = .host := row_host (by decide)
  have h' : readFault s 0x800000001F00 256 = some 10 := by decide
  simp [operandArea, h, h']

set_option maxRecDepth 16384 in
/-- An image load and a guest table copy in progress, an adapter copy whose version lies in HBM. -/
theorem wit_CopyCompletions :
    let q : QCmd := { queue := 255, opcode := 10, cmd := hc, tick := 0, head := 0 }
    let l : ImageLoad := { image := ⟨0, 8, false, 0, 0⟩, code := [], header := [], cmd := q, atBoundary := false }
    let s0 := hostSt []
    let s := { s0 with loads := [l], sched := { s0.sched with guestCopy := [(q, 0, 4096, 0)], adapters := [(1023, some q)] } }
    alive s = true ∧ mState s ≠ msFenced ∧ s.loads.find? (fun l => !l.atBoundary) = some l ∧ usedByStep s l.image = false ∧
    s.sched.guestCopy = (q, 0, 4096, 0) :: [] ∧ (∀ x ∈ rangeFrames 0 4096, ftAddr s x + 4 ≤ hostBase) ∧
    s.sched.adapters.find? (fun p => decide (p.1 = 1023) && p.2.isSome) = some (1023, some q) ∧
    adHbm s 1023 + adBytes s 1023 ≤ hostBase ∧ areaPinned s 1023 = false := by decide

/-- Doorbells and rings of queue 255: both sizes of ring, a pulse that is due, and rings outside every row. -/
theorem wit_QueuesAndDoorbells :
    let s := hostSt []
    alive s = true ∧ ringSize (fld s (Reg.hqSqCtrlSqLog2 255)) = 64 ∧ ringSize 16 = 65536 ∧ ringSize 17 = 64 ∧
    (getQueue s 255).stopped = false ∧ queueServed s 255 = true := by decide

theorem wit_QueuesAndDoorbells_rings : rowOf (hostSt []) hostBase (32 * 64) = .host ∧ rowOf (hostSt []) (hostBase + 0x10000) (64 * 64) = .host ∧
    hostReads (hostSt []) (hostBase + 0x10000) 64 = true :=
  ⟨row_host (by decide), row_host (by decide), host_reads (by decide) (by decide)⟩

/-- A register of two words, an OVF register, and HBM addresses at the end of what BAR2 reaches. -/
theorem wit_HostAccessToRegistersAndMemory :
    let s0 := hostSt []
    let s := { s0 with kolwin := { s0.kolwin with hbmTrained := true }, power := { s0.power with railsUp := true } }
    s.pins.powered = true ∧ s.pins.resetN = true ∧ bootNow s ≠ 4 ∧ s.kolwin.fatal = false ∧ ovfCounters 0x20010 = [] ∧
    0x20010 % 8 = 0 ∧ (ovfCounters (Reg.sqCountOvf.off)).length ≠ 0 ∧ Reg.sqCountOvf.off % 4 = 0 ∧ Reg.sqCountOvf.off < 0x100000 ∧
    flag s Reg.hqCtrlEnable = true ∧ flag State.reset Reg.hqCtrlEnable = false ∧
    baseFld s Reg.hqBar2BaseBase + (hbmBytes - 4) + 4 ≤ hbmBytes ∧ guardBlocks s (hbmBytes - 4) 4 = [] ∧ badWordsIn s 0 4 = [] ∧
    guarded s (hbmBytes - 4) 4 = false ∧ touchesTables s (hbmBytes - 4) 4 = false ∧ s.badWords = [] ∧
    touchesTables { s with mem := [(0, 2)] } 0 4 = true := by decide

/-- Commands of each port, a PEC that is wrong, a boot state that refuses, an unused field set, and a flash write. -/
theorem wit_KolwinTurnsAwayAndEvents :
    let s := hostSt []
    let w := { s with kolwin := { s.kolwin with writing := [1], startedAt := 0 } }
    s.pins.powered = true ∧ s.pins.resetN = true ∧ s.kolwin.fatal = false ∧ portNames 12 true = false ∧ portNames 3 false = false ∧ portNames 1 true = true ∧ stateAccepts s 1 = true ∧
    stateAccepts State.reset 1 = false ∧ { kc with zero := 1 }.zero ≠ 0 ∧ w.kolwin.writing ≠ [] ∧ bootNow w ≠ 4 ∧
    bootNow (setFld w Reg.kwStatusBoot 4) = 4 ∧ w.kolwin.resetting = false ∧ w.power.shutdown = false ∧
    (bootNow w = 3 ∧ w.kolwin.dynamicAddr = none ∧ w.kolwin.startedAt + 100000000 ≤ max w.tk 100000000) := by decide

theorem pec_right (op : Nat) : pecOk op (kcOf op) = true := (Bool.or_eq_true _ _).mpr (.inr (decide_eq_true rfl))

theorem pec_wrong (op : Nat) : pecOk op { kc with pec := pec (commandBytes op kc) + 1 } = false := by
  refine (Bool.or_eq_false_iff).mpr ⟨rfl, decide_eq_false ?_⟩
  show pec (commandBytes op kc) + 1 ≠ pec (commandBytes op kc)
  bv_omega

/-- Each opcode is served: REPAIR_SUPPLY from the mailbox, every other from the board. -/
theorem wit_KolwinCommandsAct :
    (∀ op ∈ [1, 2, 3, 4, 5, 6, 7, 8, 9, 10, 11, 13], Safety.kolwinServes (hostSt []) op (kcOf op)) ∧
    Safety.kolwinServes (hostSt []) 12 { kc with board := false } := by
  refine ⟨fun op h => ⟨by decide, fun _ => by decide, rfl, pec_right op, ?_, ?_, rfl, rfl⟩,
    ⟨by decide, fun _ => by decide, rfl, by decide, by decide, by decide, rfl, by decide⟩⟩ <;> revert op <;> decide

/-- The mailbox with a MODE frame, BUSY with it, and another command that finds it so. -/
theorem wit_KolwinTurnsAwayAndEvents_mailbox :
    let s := { hostSt [] with kolwin := { (hostSt []).kolwin with mbCmd := [(0, 6)] } }
    let b := setFld { s with kolwin := { s.kolwin with mbHeld := readBytes s.kolwin.mbCmd 0 64 } } Reg.mbStatusBusy 1
    alive s = true ∧ fieldAt (readBytes s.kolwin.mbCmd 0 64) 0 1 = 6 ∧ flag s Reg.mbStatusBusy = false ∧
    flag b Reg.mbStatusBusy = true ∧ mbTaken b 6 { kc with board := false } = false ∧
    mbTaken b 6 { kc with board := false, tag := 1 } = true ∧ mbTaken b 6 kc = false := by decide

/-- Operands at the ends of their ranges. -/
theorem wit_KolwinCommandsAct_operands :
    let s := hostSt []
    let r : Repair := ⟨0, 1, 3, some 15, 10, 0, []⟩
    s.power.shutdown = false ∧ s.kolwin.resetting = false ∧ s.kolwin.powerState ≠ 2 ∧ s.sched.cur = none ∧
    flag s Reg.kwStatusFwWriting = false ∧ 33554384 + 48 ≤ 33554432 ∧ (48 % 4 = 0 ∧ 0x3FFFFD0 + 48 ≤ 0x4000000) ∧
    s.tkLatch = none ∧ fieldAt [2] 0 1 = 2 ∧ fieldAt [3] 0 1 ≤ 3 ∧ fieldAt [4] 0 4 % 16 = 4 ∧
    ({ s with repairs := [r] } : State).repairs.find? (fun r => decide (r.slot = some 15)) = some r := by decide

/-- A repair of block 1 of a range whose CRC table lies apart. -/
theorem wit_repairable : Safety.repairable (setFld (hostSt []) (Reg.mcGrCrcBase 0) 0x1000) ⟨0, 1, 3, some 15, 10, 0, []⟩ :=
  ⟨by decide, by decide, by decide, by decide⟩

/-! ## Links, the pair, guarded ranges, the scheduler, power, integrity, boot -/

/-- A module whose mirror is in a state, with its mirror port UP and the partner seated. -/
def pairSt (x : Nat) : State :=
  let s := hostSt []
  setFld (setFld { s with pins := { s.pins with pairPresent := false } } Reg.mrStatusState x) (Reg.lkPortStatusState 16) 2

theorem wit_PairCommandsAndTimers :
    let s := pairSt 0
    let t := pairSt 3
    let h := { s with mirror := { s.mirror with hello := some (natBytes 80 0) } }
    s.pins.powered = true ∧ s.pins.resetN = true ∧ mState s = 0 ∧ s.pins.pairPresent = false ∧ portUp s 16 = true ∧ s.mirror.hello = none ∧
    h.mirror.hello = some (natBytes 80 0) ∧ mState t = 3 ∧ alive t = true ∧ t.mirror.lastBeat + 300 ≤ max t.tk 300 ∧
    mState (pairSt 4) = 4 ∧ max t.tk 299 < t.mirror.lastBeat + 300 ∧ t.mirror.queued = [] ∧ creditIn (getPort t 16).credits 12 = 0 ∧
    creditIn (getPort { t with links := { t.links with ports := [(16, { credits := [(12, 1)] })] } } 16).credits 12 ≠ 0 ∧
    (getPort t 16).unacked.length < 1024 ∧
    (({ t.mirror with unacked := [(⟨1, 0, 0, 1, 0, 0, 0, 0, 0, []⟩, 0)] } : Mirror).unacked.any fun p => decide (p.2 + 200 ≤ 200)) = true := by
  decide

/-- A leader, and a follower before its first pulse, locked, slewing and long without a pulse. -/
theorem wit_TickAlignment :
    let s := State.reset
    let f := { s with align := { follower := true, firstLock := true, diff := 1 } }
    alive s = true ∧ s.align.follower = false ∧ f.align.follower = true ∧ f.align.firstLock = true ∧
    flag f Reg.tkStatusHoldover = false ∧ f.align.lastPulse + 4096 ≤ max f.tk 4096 ∧ (max f.tk 1024) % 1024 = 0 ∧
    flag (setFld f Reg.tkStatusSlewing 1) Reg.tkStatusSlewing = true ∧ flag f Reg.tkStatusSlewing = false := by decide

/-- Port 16 and a peer port in each state, at the tick their time is up and the tick before. -/
theorem wit_PortsChangeState :
    let s := fun (p x : Nat) => setFld (setFld State.reset (Reg.lkPortStatusState p) x) (Reg.lkPortStatusLanesUp p) 63
    alive (s 16 1) = true ∧ [0, 1, 2, 3, 4].map (fun x => portState (s 15 x) 15) = [0, 1, 2, 3, 4] ∧
    lanesMin (s 16 1) ≤ laneCount (lanesOn (s 16 1) 16 63) ∧ 1 % 1024 ≠ ownId (s 16 1) ∧ 0 % 1024 = ownId (s 16 1) ∧
    laneCount (lanesOn (s 16 1) 16 0) < lanesMin (s 16 1) ∧ bit (fld (s 15 2) (Reg.lkPortStatusLanesUp 15)) 5 = true ∧
    (getPort (s 15 3) 15).since + 200000 ≤ max (s 15 3).tk 200000 ∧ max (s 15 3).tk 199999 < (getPort (s 15 3) 15).since + 200000 ∧
    flag (setFld (s 15 0) (Reg.lkExpCtrlValid 15) 1) (Reg.lkExpCtrlValid 15) = true ∧ exportInUse (s 15 0) 15 = false := by decide

/-- A port UP with the frame it expects: empty, one RPUT line into a segment of the last export, a heartbeat; a frame with too
many symbols in error, one with a bad CRC and one out of order; replay and collective pieces that are due. -/
theorem wit_FramesAndRetries :
    let s0 := setFld (setFld State.reset (Reg.lkPortStatusState 15) 2) (Reg.lkPortStatusState 16) 2
    let s1 := [(Reg.lkExpCtrlValid 15, 1), (Reg.lkExpCtrlWrite 15, 1), (Reg.lkExpCtrlIdHi 15, 1023), (Reg.lkExpSize 15, 1)].foldl
      (fun s (p : Fld × Nat) => setFld s p.1 p.2) s0
    let x : Slot := ⟨1, 0, 0, 1, 7, 0xF00000000, 0, 0, 1, []⟩
    let c : CollSent := ⟨1, 0, 0, 0, [], 0, true, true⟩
    let e : DotEntry := { state := .active, kind := 4, coll := some { unacked := [c] } }
    let s := { s1 with cells := [(7, { value := 0, cfg := 0x40000000#32, deadline := 0 })], dot := [(4095, e)] }
    alive s = true ∧ portUp s 15 = true ∧ portUp s 16 = true ∧ portUp s 0 = false ∧ 1 = ((getPort s 15).rxSeq + 1) % 4096 ∧
    s.links.reads = [] ∧ s.bar2Reads = [] ∧ (getPort s 15).queued = [] ∧ s.mirror.queued = [] ∧ s.mirror.gated = [] ∧
    x.dest.toNat % 1024 = ownId s ∧ x.cell.toNat % 32768 = 7 ∧ exportOk s x.offset.toNat 256 x.src.toNat true = true ∧
    guarded s (servedAt s x.offset.toNat) 256 = false ∧ s.links.rputs = [] ∧ (getCell s 7).kind = 2 ∧
    (getDot s 4095).state = .active ∧ (getDot s 4095).coll = some { unacked := [c] } ∧ c.sentAt + 5000 ≤ max s.tk 5000 ∧
    (getDot s 0).state ≠ .active ∧ ({ unacked := [{ seq := 1, slots := [], mslots := [], sentAt := 0 }] } : Port).unacked ≠ [] ∧ 0 + 200 ≤ max s.tk 200 ∧
    routePorts s 1 = [] ∧ mState s ≠ 5 := by decide

/-- Range 15 and zone 15, in each state the clauses name. -/
theorem wit_GuardedRangesAndZones :
    let s := State.reset
    let g := fun x => setFld s (Reg.mcGrState 15) x
    alive s = true ∧ bootNow s ≠ 4 ∧ grState s 15 = 0 ∧ sealLayoutOk s 15 = true ∧ sealLayoutOk (setFld s (Reg.mcGrSize 15) 1) 15 = false ∧ grState (g 1) 15 = 1 ∧ grState (g 2) 15 = 2 ∧
    s.links.reads = [] ∧ s.bar2Reads = [] ∧ (sealBlocks s 15 0 0).2 = none ∧ zoneBusy s 15 = false ∧
    flag s (Reg.mcTzStatusInitialising 15) = false ∧ flag s (Reg.mcTzCtrlEnable 15) = false := by decide

theorem wit_PagingChecksAndModes :
    let s := State.reset
    alive s = true ∧ bootNow s ≠ 4 ∧ flag s Reg.kvCtrlEnable = false ∧ kvLayoutOk s = false ∧ liveRcs s = [] ∧
    liveRcs (hostSt [(0, 2)]) = [0] ∧ flag s Reg.kvInvBusy = false ∧ flag (setFld s Reg.kvInvBusy 1) Reg.kvInvBusy = true ∧
    flag (setFld s Reg.kvCtrlEnable 1) Reg.kvCtrlEnable = true ∧ (1#32).getLsbD 0 = true ∧ (0#32).getLsbD 0 = false := by decide

/-- A module with nothing to do: a step of no member on core 0 in progress and ended, not ended, and formed. -/
def quietSt (cur formed : Option Step) (phase : CorePhase) : State :=
  let s := setFld (hostSt []) Reg.sqStatusHalted 0
  { s with cores := [(0, { phase := phase })], sched := { s.sched with cur := cur, formed := formed } }

def emptyStep : Step := { running 0 with members := [] }

theorem quiet_of {s : State} (h1 : liveRcs s = [] ∧ s.reqs = [] ∧ s.sched.cmds = [] ∧ s.sched.freeing = [])
    (h2 : s.integ.checks = [] ∧ s.integ.waiting = [] ∧ s.integ.postponed = [] ∧ s.integ.passed = [] ∧ s.integ.losing = [] ∧
      s.integ.target = none ∧ s.integ.received = [] ∧ s.integ.spareLost = false ∧ s.integ.checkPending = false)
    (h3 : s.power.profileReq = none ∧ s.power.modeDirty = false ∧ s.kolwin.publish = 0 ∧ s.kolwin.powerState = 0)
    (h4 : s.loads = [] ∧ s.sched.landed = [] ∧ s.retrainDue = []) (hm : s.mem = [])
    (h5 : mState s = 0 ∧ s.mirror.adopting = false ∧ s.mirror.partner = [] ∧ s.mirror.gated = []) (h6 : s.clusters = []) :
    Safety.quiet s := by
  have hz : ∀ a w, readNat s.mem a w = 0 := by
    intro a w
    rw [hm]
    induction w generalizing a with
    | zero => rfl
    | succ n ih => exact (congrArg (fun x => 0 + 256 * x) (ih (a + 1)) : _)
  refine ⟨h1, h2, h3, ⟨h4.1, h4.2.1, h4.2.2, fun v _ => ?_⟩, fun n _ => ?_, h5, by rw [h6]; nofun⟩
  · simp [adState, adGet, hz]
  · simp [tenGet, hz]

theorem wit_StepsFormLaunchAndEnd :
    Safety.quiet (quietSt (some emptyStep) none .ended) ∧ Safety.quiet (quietSt none none .idle) ∧
    (let s := quietSt (some emptyStep) none .ended
     alive s = true ∧ partsEnded s emptyStep = true ∧ partsEnded (quietSt (some emptyStep) none .yielded) emptyStep = false ∧
      emptyStep.members = [] ∧ emptyStep.dups = [] ∧ emptyStep.faulted = false ∧ emptyStep.ueHit = false) ∧
    (let s := setFld (setFld (setFld (quietSt none (some emptyStep) .idle) Reg.sqCtrlEnable 1) Reg.kvStatusEnabled 1) Reg.clStatusValid 1
     s.sched.formed = some emptyStep ∧ s.sched.cur = none ∧ mayLaunch s 7 = true ∧ fld s Reg.kwStatusBoot = 3) ∧
    mayLaunch State.reset 7 = false ∧ emptyStep.cores.Nodup :=
  ⟨quiet_of (by decide) (by decide) (by decide) (by decide) rfl (by decide) rfl,
   quiet_of (by decide) (by decide) (by decide) (by decide) rfl (by decide) rfl, by decide, by decide, by decide, by decide⟩

theorem wit_StepsFormLaunchAndEnd_waits : ∀ j, (getCore (quietSt (some emptyStep) none .ended) j).wait = .none := by
  intro j
  simp only [quietSt, getCore, smGet]
  split <;> rfl

/-- A page of context 0, to spill and to restore; a frame of HBM; publication and the figure-of-merit window. -/
theorem wit_PagesMoveAndTablesPublish :
    let s := State.reset
    let r : Req := { pages := [(0, 0, 0), (0, 0, 1)] }
    let b := { s with reqs := [(65535, r)] }
    let k := { s with kolwin := { s.kolwin with publishing := true } }
    alive s = true ∧ (getReq b 65535).pages.contains (0, 0, 0) = true ∧ (getReq b 65535).restoring = false ∧
    ((getReq b 65535).pages.filter fun x => decide (x ≠ (0, 0, 0))) ≠ [] ∧ (getReq s 65535).pages.contains (0, 0, 0) = false ∧
    mirrored s 65535 = false ∧ s.mirror.adoptQueue = [] ∧ mState s ≠ 6 ∧ fld s Reg.kvSpillFreeCount = 0 ∧ unreserved s = 0 ∧
    unreserved (setFld s Reg.kvFreeCount 1) ≠ 0 ∧ k.kolwin.publishing = true ∧ k.pins.resetPin = true ∧ s.kolwin.publishing = false ∧
    s.sched.fomStart < max s.tk (2 ^ 27) / 2 ^ 27 * 2 ^ 27 ∧ max s.tk (2 ^ 27 - 1) / 2 ^ 27 * 2 ^ 27 ≤ s.sched.fomStart ∧
    s.sched.fomStart % 2 ^ 27 = 0 := by decide

/-- No page of context 0 after reset. -/
theorem wit_PagesMoveAndTablesPublish_empty : findPte State.reset 0 0 0 0 = none := by decide

/-- Power above the cap and well below it, rails at both ends, a temperature above the throttle point and one that is not; running,
shut down and FATAL. -/
theorem wit_PowerEventsAndFatalState :
    let s := State.reset
    let d := { s with power := { s.power with shutdown := true } }
    s.pins.powered = true ∧ s.pins.resetN = true ∧ s.power.shutdown = false ∧ d.power.shutdown = true ∧ s.kolwin.fatal = false ∧
    s.power.emergency = [] ∧ 100000 * capNow s < 100000 * capNow s + 1 ∧ 100 * 0 ≤ 97 * 100000 * capNow s ∧
    throttle s < throttle s + 1 ∧ pFloor s < thermalOf s 7 ∧ 0 + 3 ≤ throttle s ∧ s.power.headroom < 99 := by decide

/-- The last byte of HBM, the last channel with a window open and closed, a test due, a core in test, a disagreement first in its
order, and repairs at their limit and before it. -/
theorem wit_MemoryErrorsTestsAndRepairs :
    let s0 := hostSt []
    let d : Disagreement := ⟨4, 383, 0, 1, 0⟩
    let r : Repair := ⟨15, 2 ^ 32 - 1, 3, some 15, 10, 0, []⟩
    let s := setFld { s0 with retraining := [(191, true)], repairs := [r],
                              integ := { s0.integ with disagree := [d], due := [(543, 5)] } } Reg.inCtrlCicadaEn 1
    alive s = true ∧ 0x47FFFFFFFF < hbmBytes ∧ smGet boolDefault s.retraining 191 = true ∧ smGet boolDefault s.retraining 0 = false ∧
    s.retrainDue.find? (fun p => decide (p.1 = 191)) = none ∧ s.integ.due.find? (fun p => decide (p.1 = 543)) = some (543, 5) ∧
    5 ≤ max s.tk 5 ∧ max s.tk 4 < 5 ∧ flag s Reg.inCtrlCicadaEn = true ∧ retired s 543 = false ∧ coreState s 0 ≠ 2 ∧
    383 < treeUnits 4 ∧ s.integ.disagree.find? (fun d => decide (d.kind = 4 ∧ d.index = 383)) = some d ∧
    isFirst s d = true ∧ s.integ.disagree.any (fun d => decide (d.kind = 1 ∧ d.index = 0)) = false ∧ s.links.reads = [] ∧
    s.bar2Reads = [] ∧ findRepair s 15 (2 ^ 32 - 1) = some r ∧ findRepair s 0 0 = none ∧ r.limit ≤ max s.tk 10 ∧
    max s.tk 9 < r.limit ∧ s.repairs.find? (fun r => decide (r.slot = some 15)) = some r := by decide

theorem wit_MemoryErrorsTestsAndRepairs_inTest : ∃ s : State, coreState s 543 = 2 :=
  ⟨setFld State.reset (Reg.inCoreState 543) 2, by decide⟩

/-- Unpowered, held in reset, released, with the deassertion taken at its 1 ms and not before; boot in ROM and in STARTING. -/
theorem wit_ResetsAndBootStages :
    let s := State.reset
    let off := { s with pins := { s.pins with powered := false, resetN := false } }
    let held := { s with pins := { s.pins with resetN := false, resetPin := false } }
    let b2 := setFld s Reg.kwStatusBoot 2
    let up := { b2 with power := { b2.power with railsUp := true }, kolwin := { b2.kolwin with hbmTrained := true, tier2Trained := true } }
    off.pins.powered = false ∧ held.pins.powered = true ∧ held.pins.pwrgd = true ∧ held.pins.resetN = false ∧
    held.power.shutdown = false ∧ held.pins.resetPin = false ∧ s.pins.resetPin = true ∧ held.pins.risenAt + 100000 ≤ max held.tk 100000 ∧
    max held.tk 99999 < held.pins.risenAt + 100000 ∧ s.kolwin.resetting = false ∧ alive s = true ∧ bootNow s < 2 ∧
    verifyImage s s.kolwin.flash ≠ 0 ∧ bootNow b2 = 2 ∧ up.power.railsUp = true ∧ b2.power.railsUp = false ∧
    up.kolwin.hbmTrained = true ∧ up.kolwin.tier2Trained = true ∧ up.table = [] ∧ up.kolwin.publishing = false ∧
    retired up 543 = false := by decide

/-- Slot 1 is the first free one, and the repair is in stage 2 with no partner to ask. -/
theorem wit_RepairStageThreeOpensSlot :
    let r : Repair := ⟨15, 1, 2, none, 5, 0, []⟩
    let s := setFld (setFld { hostSt [] with repairs := [r] } Reg.mcCtrlRepairHostEn 1) (Reg.kwRepairRequest 0) 1
    alive s = true ∧ findRepair s 15 1 = some r ∧ r.limit ≤ max s.tk 5 ∧ r.slot = none ∧ r.stage < 3 ∧
    flag s Reg.mcCtrlRepairHostEn = true ∧ 2 ≤ r.stage ∧ fld s (Reg.kwRepairRequest 1) = 0 ∧ fld s (Reg.kwRepairRequest 0) ≠ 0 := by decide

/-- The first and the last hardware-held cell. -/
theorem wit_HeldCellsRefuseChanges :
    let s := { st (regs [32512, 5, 32767]) with cells := [(32512, { value := 5, cfg := 0x2C000000#32, deadline := 0 })] }
    Safety.operator s 0 0 0 ∧ (readS (getCore s 0) 1).toNat = 32512 ∧ (readS (getCore s 0) 3).toNat = 32767 ∧
    infoScset.okT (tw 0 1 2 0 0 0) = true ∧ infoScadd.okT (tw 4 1 2 0 0 0) = true ∧ infoSccfg.okT (tw 0 1 2 3 0 0) = true ∧
    infoScdl.okT (tw 0 1 2 0 0 0) = true ∧ infoScrd.okT (tw 4 1 0 7 0 0) = true ∧ infoWait.okT (tw 1 1 2 0 0x0200 0) = true ∧
    modBits (tw 1 1 2 0 0x0200 0) 24 24 = 0 ∧ (getCell s 32512).kind ≠ 0 ∧ waitMet 1 1 5 5 = true ∧ waitMet 1 1 4 5 = false :=
  ⟨operator_of (by decide), by decide⟩

/-! ## Further clauses of the statements -/

/-- A device with range 0 of one block at 0, its CRC table at 4,096, in a state. -/
def rangeSt (c : Core) (x : Nat) : State :=
  setFld (setFld (setFld (st c) (Reg.mcGrState 0) x) (Reg.mcGrSize 0) 1) (Reg.mcGrCrcBase 0) (4096 / 2 ^ (Reg.mcGrCrcBase 0).lo)

theorem readByte_empty (a : Nat) : readByte [] a = 0 := rfl

theorem readBytes_empty (a n : Nat) : readBytes [] a n = List.replicate n 0 := by
  induction n generalizing a with
  | zero => rfl
  | succ n ih => rw [readBytes, readByte_empty, ih, List.replicate_succ]

/-- The CRC-64 of zeros is zero. -/
theorem crc64_zeros (n : Nat) : crc64 (List.replicate n 0) = 0 := by
  unfold crc64
  induction n with
  | zero => rfl
  | succ n ih => rw [List.replicate_succ, List.foldl_cons, show crc64Step 0 0 = 0 by decide]; exact ih

theorem readNat_empty (a n : Nat) : readNat [] a n = 0 := by
  induction n generalizing a with
  | zero => rfl
  | succ n ih => exact congrArg (fun x => 0 + 256 * x) (ih (a + 1))

/-- Every block of a memory of zeros with no bad word passes its check. -/
theorem blocks_of_zeros_pass {s : State} (hm : s.mem = []) (hb : s.badWords = []) (i b : Nat) : blockFails s i b = false := by
  unfold blockFails badIn
  simp only [hb, hm, readBytes_empty, crc64_zeros, readNat_empty]
  rfl

/-- A line of an ARMED range whose block passes, of a range being SEALED, of a block under repair, and of one with an
uncorrectable word. -/
theorem wit_LineLoadsDeliverLines_guarded :
    let s := rangeSt (regs [256, 0xFFF00]) 2
    (Safety.ready s 0 0 0 ∧ lineFault s (getCore s 0) false 256 0xFFF00 256 = none ∧ guardBlocks s 256 256 = [(0, 0)] ∧
      fetchBlocks s 0 256 1 true = [(0, 0)] ∧ inRepair s 0 0 = false ∧ grState s 0 ≠ 1 ∧ blockFails s 0 0 = false) ∧
    grState (rangeSt (regs [256, 0xFFF00]) 1) 0 = 1 ∧ inRepair { s with repairs := [⟨0, 0, 1, some 0, 10, 0, []⟩] } 0 0 = true ∧
    blockFails { s with badWords := [(16, true)] } 0 0 = true :=
  ⟨⟨ready_of (by decide), by decide, by decide, by decide, by decide, by decide, blocks_of_zeros_pass rfl rfl 0 0⟩, by decide, by decide,
    by unfold blockFails; rw [Bool.or_eq_true, Bool.or_eq_true]; exact .inl (.inl (by decide))⟩

/-- An uncorrectable word in the line, at operator and at guest privilege; a line dirty in the own cluster's cache. -/
theorem wit_LineLoadsDeliverLines_uncorrectable :
    let p : Core := regs [0x47FFFFFF00, 0xFFF00]
    let s := { st p with badWords := [(0x47FFFFFF0, true)] }
    let t : GuestCall := { call 1 with wkBase := 0xFFF00, tbBase := 0x4700000000, tbLen := 0x100000000 }
    Safety.ready s 0 0 0 ∧ lineFault s (getCore s 0) false 0x47FFFFFF00 0xFFF00 256 = none ∧ guardBlocks s 0x47FFFFFF00 256 = [] ∧
    badIn s 0x47FFFFFF00 256 = some 0x47FFFFFF00 ∧ (getCluster s (clusterOf 0)).cache = [] ∧
    Safety.ready (st { p with guest := some t }) 0 0 0 := ⟨ready_of (by decide), by decide, by decide, by decide, by decide, ready_of (by decide)⟩

set_option maxRecDepth 8192 in
theorem wit_LineLoadsDeliverLines_dirty :
    let s := { st (regs [256, 0xFFF00]) with clusters := [(0, { cache := [(1, ⟨true, List.replicate 256 7⟩)] })] }
    cacheGet (getCluster s (clusterOf 0)) 1 = some ⟨true, List.replicate 256 7⟩ ∧ (List.replicate 256 (7 : Byte)).length = 256 ∧
    guarded s 256 256 = false := by decide

/-- LDC at guest privilege with a table region of one frame that its tenant owns, and of a frame of another tenant. -/
theorem wit_LineStoresTakeLines_guest :
    let t : GuestCall := { call 1 with wkBase := 0, tbBase := 0, tbLen := 4096 }
    let s0 := st { regs [0, 256] with guest := some t }
    let s := { setFld (setFld s0 Reg.kvPoolFrames 1) Reg.kvFtBaseBase (4096 / 2 ^ Reg.kvFtBaseBase.lo) with mem := [(4096, 1), (4098, 0x70)] }
    Safety.ready s 0 0 0 ∧ infoLdc.okT (tw 0 1 2 0 0 0) = true ∧ runAt s 0 = some 0 ∧ (ftGet s 0).owner = 7 ∧ t.tenant = 7 ∧
    runAt s 4096 = none ∧ (ftGet { s with mem := [(4096, 1), (4098, 0x80)] } 0).owner = 8 ∧ 0 < 256 ∧ 256 + 256 ≤ t.wkLen + 256 :=
  ⟨ready_of (by decide), by decide⟩

/-- NBFNC with none of the core's operations open; entries FREE, DONE and FAILED, an index of 4,096, and a held memory queue. -/
theorem wit_NearBankWaitAndRead_entries :
    let e : DotEntry := { state := .done, kind := 3 }
    let s := { st { regs [0, 4096] with nbOps := [0] } with dot := [(0, e), (1, { e with state := .failed })] }
    Safety.operator s 0 0 0 ∧ infoNbrd.okT (tw 3 1 0 0 0 0) = true ∧ infoNbrd.okT (tw 3 2 0 0 0 0) = true ∧ (getDot s 0).state = .done ∧
    (getDot s 1).state = .failed ∧ (getDot s 2).state = .free ∧ (readS (getCore s 0) 2).toNat = 4096 ∧
    ((getCore s 0).nbOps.filter fun m => decide ((getDot s m).state = .active ∧ (getDot s m).kind = 3 ∧ (getDot s m).core = 0)) = [] ∧
    Safety.memoryQueue (.lds 0 (tw 0 0 0 0 0 0)) = true ∧ ({ memHold := .nbfnc [4095] } : Core).memHold ≠ .none :=
  ⟨operator_of (by decide), by decide⟩

/-- Two 16-lane heads of FP8 in one layer, context 0 in prefill with one root block, and cluster 0's translation buffer holding
page 0: in a frame, in tier 2, evicted. The descriptor asks both halves of `count` positions from 0 at scratchpad 256. -/
def kvBuf (count pte : Nat) (stg : List StgEntry) : State :=
  let s := kvState 0 [(6, 3), (12, BitVec.ofNat 8 count), (17, 1)]
  let flds : List (Fld × Nat) := [(Reg.kvGeomFormat, 2), (Reg.kvGeomHeads, 8), (Reg.kvGeomHeadDim, 16), (Reg.kvGeomLayers, 1), (Reg.kvGeomHeadGroups, 1)]
  { flds.foldl (fun s p => setFld s p.1 p.2) { s with mem := s.mem ++ [(32, 1)] } with
    clusters := [(0, { tb := [⟨0, 0, 0, 0, pte, 0⟩], stg := stg })],
    sched := { s.sched with cur := some { running 0 with members := [{ member 0 with c := 0, r := 16 }] } } }

/-- KVLD of a page in a frame, of an evicted one and of one in tier 2; KVAPP of the next position; KVCMT of a complete entry and
of half an entry; KVDROP. -/
theorem wit_KeyValueInstructions_pages :
    let e : StgEntry := ⟨0, 0, 0, 0, false, some [], some [], false, false⟩
    let f := 2 ^ 42 + 2 ^ 43
    let s := kvBuf 1 f []
    Safety.operator s 0 0 0 ∧ ctxStatus s 0 = none ∧ geometryOk s = true ∧ kvHalf s = 128 ∧ 0 + 1 ≤ rcRb s 0 * 8192 ∧ 256 + 32 * 128 ≤ 0x100000 ∧
    (match (translatePages s 0 0 0 0 1 0).2 with | .ok [p] => decide (p.evicted = false ∧ 0 < p.count) | _ => false) = true ∧
    (match (translatePages (kvBuf 1 (f + 2 ^ 38) []) 0 0 0 0 1 0).2 with | .ok [p] => p.evicted | _ => false) = true ∧
    kvInRange s 0 0 0 0 = true ∧ (pteOf (f + 2 ^ 40)).tier = true ∧ (pteOf (f + 2 ^ 40)).evicted = false ∧
    nextPos s 0 0 0 true = 0 ∧ nextPos s 0 0 0 false = 0 ∧ declared s 0 = (0, 16) ∧
    (match makePages s 0 0 0 0 1 0 with | some (_, .ok ()) => true | _ => false) = true ∧ 0 < layerHgs s 0 ∧
    stgWhole (kvBuf 1 f [e]) e = true ∧ stgWhole (kvBuf 1 f [{ e with val := none }]) { e with val := none } = false :=
  ⟨operator_of (by decide), by decide⟩

/-- A request that may generate 100 tokens with a budget: tables apart, metered and not, at its last token; Mayflies verified. -/
theorem wit_TokenInstructions_budget :
    let s0 := kvState 0 []
    let s1 := setFld { s0 with mem := [(0, 2), (0x34, 100), (0x10000, 1)] } Reg.sqTenantBaseBase (0x10000 / 2 ^ Reg.sqTenantBaseBase.lo)
    let s := { s1 with sched := { s0.sched with cur := some (running 0) }, reqs := [(0, { mayflies := [5, 6] })] }
    rcLive s 0 = true ∧ (getReq s 0).confirmed = false ∧ (getReq s 0).replay = [] ∧ s.badWords = [] ∧ s.softWords = [] ∧
    rcAddr s 0 + 256 ≤ tenAddr s (rcTenant s 0) ∧ tenAddr s (rcTenant s 0) + 64 ≤ hostBase ∧ rcGet s 0 0x34 4 = 100 ∧
    tenUnmetered s 0 = false ∧ tenBudget s 0 ≤ 256 ∧ allStg s = [] ∧ (getReq s 0).mayflies.length = 2 := by decide

/-- Words of core instructions from R91 and R123: the worked example of chapter 5, one of each class, and cells marked — . -/
theorem test_core_words :
    coreInstr 0 0x20D48531E0000000 = some (.vfma 0 ⟨2, 1, 4, 5, 6, 7, 0x2000, 0⟩) ∧ coreInstr 0 0 = some (.nop 0 (tw 0 0 0 0 0 0)) ∧
    coreInstr 0 0x004000000000FFFF = some (.br 0 (lw 0 0 0xFFFF)) ∧ coreInstr 0 0x100061002000FFFE = some (.add 0 (tw 3 1 0 0 0x2000 0xFFFE)) ∧
    coreInstr 0 0x14C3E00080000000 = some (.movi 0 (lw 31 0 0x80000000)) ∧ coreInstr 0 0x304061100600007F = some (.mma 0 (tw 3 1 2 0 0x0600 127)) ∧
    coreInstr 0 0x400021003800FFF8 = some (.lds 0 (tw 1 1 0 0 0x3800 0xFFF8)) ∧ coreInstr 0 0x5000600000000000 = some (.kvld 0 (tw 3 0 0 0 0 0)) ∧
    coreInstr 0 0x6040000000000000 = some (.nbfnc 0 (tw 0 0 0 0 0 0)) ∧ coreInstr 0 0x70000110C0000000 = some (.rput 0 (tw 0 1 2 3 0 0)) ∧
    coreInstr 0 0x8000443240000000 = some (.amrg 0 (tw 2 4 6 9 0 0)) ∧ coreInstr 0 0x9000611020000000 = some (.temit 0 (tw 3 1 2 0 0x2000 0)) ∧
    coreInstr 0 0xA0C0611000000000 = some (.scadd 0 (tw 3 1 2 0 0 0)) ∧
    [0x01C0000000000000, 0x1600000000000000, 0x7080000000000000, 0xB000000000000000, 0x0000000000000001].map (coreInstr 0) = List.replicate 5 none := by
  decide

/-- Before a word that is no encoding ENCODING is raised whichever instruction is named. -/
theorem wit_IssueChecksInOrder_word : wordOk { st {} with imem := [(7, 0xB0)] } 0 = false ∧ wordOk (st {}) 0 = true := by decide

/-- A range that lies in the tier 2 of every variant. -/
theorem row_tier2 {s : State} {a n : Nat} (h : tier2Base ≤ a ∧ a + n ≤ tier2Base + 0x8000000000) (hn : 0 < n) : rowOf s a n = .tier2 := by
  have ht : 0x8000000000 ≤ tier2Bytes := by unfold tier2Bytes; split <;> omega
  have h2 : ¬ a + n ≤ hbmBytes := by simp only [tier2Base, hbmBytes] at *; omega
  rw [rowOf, if_neg h2, if_pos ⟨h.1, by omega⟩]

/-- Held memory queues: an NBFNC that waits for the entry and for another, an NBRD of the entry and of another. -/
theorem wit_EntryLeavesActive_held :
    let f : Core := { memHold := .nbfnc [4095, 7] }
    let r : Core := { memHold := .nbrd 4095 3 1 256 }
    let s := { st f with dot := [(4095, { state := .active, kind := 3, dst := 0x47FFFFFF00 })] }
    (getCore s 0).wait = .none ∧ (getCore s 0).memHold = .nbfnc [4095, 7] ∧ 4095 ∈ [4095, 7] ∧ [4095, 7].filter (fun o => o ≠ 4095) ≠ [] ∧
    (getCore (st r) 0).memHold = .nbrd 4095 3 1 256 ∧ (getDot s 4095).state = .active ∧ (getDot s 4095).dst + 256 * 1 ≤ 0x4800000000 ∧
    badIn s (getDot s 4095).dst 256 = none := by decide

/-- Transfers of one line: HBM to scratchpad and to HBM, with a word in error, and to no row; tier 2 to HBM and back, the tier not
answering. -/
theorem wit_OperationCompletionEvents_transfers :
    let d : DotEntry := { state := .active, kind := 1, src := 256, dst := 512, len := 256 }
    let s := { st {} with dot := [(4095, d)] }
    (s.badWords = [] ∧ guardBlocks s 256 256 = [] ∧ rowOf s 256 256 = .hbm ∧ (readReady (atTick s 0) 256 256).2 = true ∧ guarded s 512 256 = false ∧
      256 + 256 ≤ 512 ∧ d.cellEn = false ∧ (getCore s d.core).memHold = .none ∧ (badIn { s with badWords := [(16, true)] } 256 256).isSome = true ∧
      rowOf s 0x4800000000 256 = .none) ∧
    (rowOf s tier2Base 256 = .tier2 ∧ readFault s tier2Base 256 = none ∧ inTierRow tier2Base = true) ∧
    (readFault { s with kolwin := { s.kolwin with readFaults := [(tier2Base / 4096, 7)] } } tier2Base 256).isSome = true ∧
    (rowOf (hostSt []) hostBase 256 = .host) :=
  ⟨by decide, ⟨row_tier2 (by decide) (by decide), by decide, by decide⟩, by decide, row_host (by decide)⟩

/-- Zone 15 over tier 2, READY: a block read as its map has it, zeros; a block of zeros written where it had no sector, and where it
had two. -/
def zoneSt (mem : List Host.Cell) : State :=
  let flds : List (Fld × Nat) := [(Reg.mcTzStatusReady 15, 1), (Reg.mcTzLblocks 15, 1),
    (Reg.mcTzLbase 15, 0x108000000000 / 2 ^ (Reg.mcTzLbase 15).lo), (Reg.mcTzMapBase 15, tier2Base / 2 ^ (Reg.mcTzMapBase 15).lo),
    (Reg.mcTzBitmapBase 15, (tier2Base + 4096) / 2 ^ (Reg.mcTzBitmapBase 15).lo), (Reg.mcTzPoolBase 15, (tier2Base + 8192) / 2 ^ (Reg.mcTzPoolBase 15).lo),
    (Reg.mcTzPoolSectors 15, 8)]
  flds.foldl (fun s p => setFld s p.1 p.2) { st {} with mem := mem }

theorem zone_reads_zeros : zoneReadOne (zoneSt []) 15 0 = .ok (List.replicate 4096 0) := by
  have h : mapEntry (zoneSt []) 15 0 = ⟨0, 0, 0, 0⟩ := by decide
  have hf : readFault (zoneSt []) (tzMap (zoneSt []) 15 + 16 * 0) 16 = none := by decide
  have hg : readFault (zoneSt []) (tzPool (zoneSt []) 15 + 512 * 0) (512 * min 0 8) = none := by decide
  rw [zoneReadOne, h]
  simp only [hf, hg, expandBlock, crc64_zeros]
  rfl

theorem wit_OperationCompletionEvents_zones :
    let s := zoneSt []
    let e : DotEntry := { state := .active, kind := 2, compress := true, src := 0x108000000000, dst := 512, len := 256 }
    (inTierRow e.src = true ∧ dstTier e = false ∧ zonesWaiting s e = false ∧ tier2Base ≤ tzMap s 15 ∧ tier2Base ≤ tzPool s 15 ∧
      zoneOf s e.src = some (15, 0) ∧ draws s 15 = false) ∧
    (let w := { e with srcSp := true, src := 0, dst := 0x108000000000, len := 4096 }
     zonesWaiting s w = false ∧ zoneOf s w.dst = some (15, 0) ∧ tzTier s 15 = 2 ∧ tzSectors s 15 = 8 ∧
      overlaps (tzMap s 15) 16 (tzBitmap s 15) 1 = false ∧ overlaps (tzMap s 15) 16 (tzPool s 15) 4096 = false ∧
      overlaps (tzBitmap s 15) 1 (tzPool s 15) 4096 = false ∧ tzPool s 15 + 4096 ≤ 0x110000000000 ∧
      (mapEntry s 15 0).first + (mapEntry s 15 0).sectors ≤ 8 ∧ compressBlock false (List.replicate 4096 0) = (0, 0, []) ∧
      (mapEntry (zoneSt [(tier2Base + 7, 0x22)]) 15 0).sectors = 2 ∧ freeRun s 15 0 = some 0 ∧ freeRun s 15 8 = some 0 ∧
      freeRun (zoneSt [(tier2Base + 4096, 1)]) 15 8 = none) := by
  refine ⟨by decide, by decide, by decide, by decide, by decide, by decide, by decide, by decide, by decide, by decide, ?_, by decide,
    by decide, by decide, by decide⟩
  rw [compressBlock, if_neg (by decide), if_pos (List.all_eq_true.mpr fun b hb => decide_eq_true (List.eq_of_mem_replicate hb))]

set_option maxRecDepth 16384 in
/-- A one-page import from the start of the host window: a leaf block, a free run, an entry and a frame entry that lie apart. -/
theorem wit_OperationCompletionEvents_import :
    let e : DotEntry := { state := .active, kind := 5, src := hostBase, kw2 := 0x8000, imports := [natBytes 16 (2 ^ 96)] }
    let flds : List (Fld × Nat) := [(Reg.kvGeomFormat, 2), (Reg.kvGeomHeads, 1), (Reg.kvGeomHeadDim, 128), (Reg.kvGeomLayers, 1), (Reg.kvGeomHeadGroups, 1),
      (Reg.kvPoolFirst, 16), (Reg.kvPoolFrames, 4), (Reg.kvFtBaseBase, 8192 / 2 ^ Reg.kvFtBaseBase.lo),
      (Reg.kvFstackBase, 12288 / 2 ^ Reg.kvFstackBase.lo), (Reg.kvFreeCount, 1)]
    let s0 := hostSt [(0, 2), (9, 0x10), (32, 1), (4096, 1), (4097, 0x50), (12288, 17)]
    let s := flds.foldl (fun s p => setFld s p.1 p.2) { s0 with dot := [(4095, e)] }
    let r := impRec (natBytes 16 (2 ^ 96))
    (importHost e = true ∧ r = ⟨0, 0, 0, 0, 1, 0, 0⟩ ∧ importFault s e [r] = none ∧ leafBlock s 0 0 0 0 = some 0x5000 ∧ unreserved s = 1 ∧
      readNat s.mem (baseFld s Reg.kvFstackBase) 4 = 17 ∧ poolFirst s = 16 ∧ pageBytes s = 4096 ∧ ftAddr s 17 = 8196 ∧ pteIn 0x5000 0 = 0x5000 ∧
      rootAddr s 0 0 0 0 = 4096 ∧ rcAddr s 0 = 0 ∧ importRuns s 0 [r] = 1 ∧ rcTenant s 0 < 4096) ∧
    importReadable s e [r] = true := by
  refine ⟨by decide, ?_⟩
  simp only [importReadable, List.all_cons, List.all_nil, Bool.and_true]
  rw [if_pos (by decide)]
  exact decide_eq_true (row_host (by decide))

/-- Near-bank commands that have started: an MV of one FP8 row, a SCORE over one evicted page, a status area in a guarded range. -/
theorem wit_OperationFailuresAndDeadlines_commands :
    let mv := [1, 2, 1, 0, 0, 0, 0, 0, 0, 0, 1, 0, 0, 0, 0, 0] ++ natBytes 8 0 ++ natBytes 4 1 ++ natBytes 4 256 ++ natBytes 8 0 ++ natBytes 8 0x20000 ++
      natBytes 8 0x30000 ++ natBytes 8 0
    let f := nbFields mv
    let c : NbCmd := { bytes := mv, started := true }
    let e : DotEntry := { state := .active, kind := 3, dst := 0x40000, nb := [c] }
    let s := { st {} with dot := [(4095, e)] }
    e.nb[0]? = some c ∧ c.status = none ∧ nbFieldsOk s f = true ∧ f.kind = 1 ∧ f.pin = false ∧ f.rcEn = false ∧ f.source = 0x10000 ∧ f.kk = 256 ∧ f.rows = 1 ∧
    (nbUnitRanges f [] ++ nbDelivered f).all (fun r => decide (r.1 + r.2 ≤ 0x4800000000) && !guarded s r.1 r.2) = true ∧
    nbResultBytes f = 256 ∧ guarded s f.result 256 = false ∧ overlaps f.result 256 0x40000 8 = false ∧ 0x40000 % 8 = 0 ∧
    guarded s 0x40000 8 = false ∧ guarded (rangeSt {} 2) 0 8 = true ∧ s.badWords = [] ∧ s.softWords = [] ∧ endsNow s 4095 = false ∧
    endsNow { s with pending := [.nearBankDone 0 4095] } 4095 = true := by decide

theorem wit_OperationFailuresAndDeadlines_attention :
    let f := nbFields ([2, 2, 1, 1] ++ natBytes 20 0 ++ natBytes 4 1 ++ natBytes 12 0 ++ natBytes 8 0x20000 ++ natBytes 8 0x30000 ++ natBytes 8 0)
    let flds : List (Fld × Nat) := [(Reg.kvGeomFormat, 2), (Reg.kvGeomHeads, 1), (Reg.kvGeomHeadDim, 128), (Reg.kvGeomLayers, 1), (Reg.kvGeomHeadGroups, 1),
      (Reg.kvStatusEnabled, 1)]
    let s := flds.foldl (fun s p => setFld s p.1 p.2) { st {} with mem := [(0, 2), (32, 1)],
                                                                     clusters := [(0, { tb := [⟨0, 0, 0, 0, 2 ^ 42 + 2 ^ 43, 0⟩] })] }
    nbFieldsOk s f = true ∧ f.kind = 2 ∧ f.rcEn = true ∧ ctxStatus s f.rc = none ∧ (f.rows + 15) / 16 = 1 ∧
    (match (translatePages s 0 0 0 0 1 0).2 with | .ok es => nbPagesOk f es | _ => false) = true ∧ (translatePages s 0 0 0 0 1 0).1.mem = s.mem ∧
    poolFrames s = 0 := by decide

/-- Timer 2 due with one core whose part has not ended, and the last tick before an end. -/
theorem wit_PartEndsAndDeviceTimers_watchdog :
    let s := { st {} with timer2 := 5 }
    (∀ j, j ≠ 0 → (getCore s j).phase ≠ .issuing ∧ (getCore s j).phase ≠ .yielded) ∧ (getCore s 0).phase = .issuing ∧ s.timer2 ≤ reach s.tk 5 ∧
    (getCore { s with cores := [(0, { phase := .yielded, memHold := .nbfnc [1] })] } 0).memHold ≠ .none := by
  refine ⟨fun j hj => ?_, by decide⟩
  simp only [st, getCore, smGet]
  rw [if_neg (fun h => hj h.symm)]
  simp [coreDefault]

/-- The pages of a request that `findPte` gives, in the blocks it has, are among its pages, and their frames are 32-bit numbers. -/
theorem page_listed {s : State} {n l g b i : Nat} {e : Nat × Pte} (hl : (l, g) ∈ kvPairs s) (hb : b < rcRb s n) (hi : i < 512)
    (hf : findPte s n l g (512 * b + i) = some e) : (l, g, 512 * b + i, e.1, e.2) ∈ allPages s n := by
  have h : leafBlock s n l g (8192 * b) ≠ none := by
    intro h
    have h' : leafBlock s n l g (16 * (512 * b + i)) = leafBlock s n l g (8192 * b) := by
      rw [leafBlock, leafBlock, rootAddr, rootAddr, rootIndex, rootIndex, show 16 * (512 * b + i) / 8192 = 8192 * b / 8192 by omega]
    rw [findPte, h', h] at hf
    cases hf
  refine List.mem_flatMap.mpr ⟨(l, g), hl, List.mem_flatMap.mpr ⟨b, List.mem_range.mpr hb, ?_⟩⟩
  obtain ⟨x, hx⟩ := Option.ne_none_iff_exists'.mp h
  rw [hx]
  exact List.mem_filterMap.mpr ⟨i, List.mem_range.mpr hi, by rw [hf]; rfl⟩

theorem frame_listed {s : State} {n : Nat} : ∀ p ∈ allPages s n, p.2.2.2.2.frame < 2 ^ 32 := by
  intro p hp
  obtain ⟨q, -, hp⟩ := List.mem_flatMap.mp hp
  obtain ⟨b, -, hp⟩ := List.mem_flatMap.mp hp
  split at hp
  · obtain ⟨i, -, hi⟩ := List.mem_filterMap.mp hp
    obtain ⟨e, he, rfl⟩ := Option.map_eq_some_iff.mp hi
    rw [findPte] at he
    split at he
    · dsimp only at he
      split at he
      · cases he
        exact Nat.mod_lt _ (by decide)
      · cases he
    · cases he
  · exact absurd hp List.not_mem_nil

/-- Context 0 in a state with one page, of 4 KiB in frame 17 of the pool or elsewhere as the entry's byte 5 says; a spill stack; context 1
in prefill without a page. -/
def pageSt (state b5 : Byte) : State :=
  let flds : List (Fld × Nat) := [(Reg.kvGeomFormat, 2), (Reg.kvGeomHeads, 1), (Reg.kvGeomHeadDim, 128), (Reg.kvGeomLayers, 1), (Reg.kvGeomHeadGroups, 1),
    (Reg.kvPoolFirst, 16), (Reg.kvPoolFrames, 4), (Reg.kvFtBaseBase, 8192 / 2 ^ Reg.kvFtBaseBase.lo), (Reg.kvStatusEnabled, 1),
    (Reg.kvSpillBase, 12288 / 2 ^ Reg.kvSpillBase.lo), (Reg.kvFstackBase, 16384 / 2 ^ Reg.kvFstackBase.lo)]
  flds.foldl (fun s p => setFld s p.1 p.2) (hostSt [(0, state), (9, 0x10), (32, 1), (48, 16), (256, 2), (265, 0x11), (288, 1), (292, 16), (4096, 1), (4097, 0x50),
    (8196, 1), (0x5000, 17), (0x5005, b5)])

/-- Its entry. -/
def pageE (b5 : Nat) : Pte := pteOf (17 + b5 * 2 ^ 40)

theorem page_there (x : Byte) (hf : findPte (pageSt x 0x84) 0 0 0 (512 * 0 + 0) = some (0x5000, pageE 0x84)) (hr : 0 < rcRb (pageSt x 0x84) 0)
    (hl : (0, 0) ∈ kvPairs (pageSt x 0x84)) : (0, 0, 0, 0x5000, pageE 0x84) ∈ allPages (pageSt x 0x84) 0 :=
  page_listed (e := (0x5000, pageE 0x84)) hl hr (by decide) hf

set_option maxRecDepth 16384 in
/-- PARK with SPILL of a request whose page may be spilled; SHARE_PREFIX of that page to a request that has none. -/
theorem wit_HostCommandsOnRequests_pages :
    let s := pageSt 3 0x84
    (0, 0, 0, 0x5000, pageE 0x84) ∈ allPages s 0 ∧ (∀ p ∈ allPages s 0, ftAddr s p.2.2.2.2.frame + 4 ≤ hostBase) ∧
    (maySpill s (pageE 0x84) = true ∧ spillStack s ≠ 0 ∧ rcState s 1 = 2 ∧ rcPos s 1 = 0 ∧ rcPos s 0 = 16 ∧ rcGet s 1 0x24 4 = 16 ∧
      rcTenant s 0 = rcTenant s 1 ∧ sharable s (pageE 0x84) = true ∧ sharable s (pageE 0x85) = false ∧ unreserved s = 0 ∧
      unreserved (setFld s Reg.kvFreeCount 1) = 1) ∧ allPages s 1 = [] ∧
    (∃ p ∈ allPages (pageSt 4 0x85) 0, p.2.2.2.2.tier = true) := by
  refine ⟨page_there 3 (by decide) (by decide) (by decide), fun p hp => ?_, by decide, by decide, (0, 0, 0, 0x5000, pageE 0x85), ?_, by decide⟩
  · have h := frame_listed p hp
    have hb : baseFld (pageSt 3 0x84) Reg.kvFtBaseBase = 8192 := by decide
    rw [ftAddr, hb, hostBase]
    omega
  · exact page_listed (e := (0x5000, pageE 0x85)) (b := 0) (i := 0) (by decide) (by decide) (by decide) (by decide)

/-- An admission image: one root block, a prompt of one token at 0x4000 or a list of pages at 0, an output ring of 256 entries. -/
def admission (flags prompt pages : Nat) : List Byte :=
  let put := fun (off n v : Nat) (x : List Byte) => patch x off (natBytes n v)
  put 2 2 flags <| put 8 8 0x10000 <| put 16 8 0x20000 <| put 0x20 1 1 <| put 0x24 4 1 <| put 0x28 8 prompt <| put 0x34 4 100 <|
    put 0x5C 4 0x3F800000 <| put 0x80 8 (hostBase + 0x8000) <| put 0x88 4 256 <|
    put 0xF8 4 pages (natBytes 256 0)

set_option maxRecDepth 16384 in
/-- The other clauses of ADMIT: SUCCESS, with an import, and a version that may be pinned. -/
theorem wit_HostCommandsOnTables_admit :
    let s := setFld (hostSt []) Reg.kvStatusEnabled 1
    rcState s 0 = 0 ∧ kvEnabled s = true ∧ pairPermits s 0 = true ∧ fieldAt (admission 0 0x4000 0) 4 2 = 0 ∧ guestBarred s (admission 0 0x4000 0) = false ∧
    promptFieldsOk (admission 0 0x4000 0) = true ∧ guestFieldsOk (admission 0 0x4000 0) = true ∧ promptFieldsOk (admission 4 0 1) = true ∧ bit (fieldAt (admission 4 0 1) 2 2) 2 = true ∧
    guardBlocks s (fieldAt (admission 4 0 1) 0xC8 8) (16 * fieldAt (admission 4 0 1) 0xF8 4) = [] ∧
    adGet { s with mem := [(0, 2)] } 0 0 1 = 2 := by decide

set_option maxRecDepth 16384 in
theorem wit_HostCommandsOnTables_admitFields : admitFieldsOk (setFld (hostSt []) Reg.kvStatusEnabled 1) (admission 0 0x4000 0) = true := by
  rw [admitFieldsOk]
  simp only [Bool.and_eq_true, decide_eq_true_eq]
  refine ⟨?_, row_host (by decide)⟩
  decide

/-- Doorbells of two commands of queue 255 that are not fetched, of different ticks. -/
theorem wit_QueuesAndDoorbells_bells :
    Safety.bellsLeft [(1, 5), (3, 9)] 1 = [(3, 9)] ∧ Safety.bellsLeft [(1, 5), (3, 9)] 0 = [(1, 5), (3, 9)] ∧
    (let s := setFld (hostSt []) (Reg.hqSqCoalTime 255) 1
     let qu : Queue := { unsent := 1, firstAt := 3 }
     fld s (Reg.hqSqCoalTime 255) ≠ 0 ∧ qu.firstAt + 100 * 1 ≤ reach s.tk 103) ∧ mState (pairSt 5) = 5 := by decide

/-- BAR2 at its last byte and past it, a SEALING block, part of an uncorrectable word; a WC bit that hardware has set in the tick. -/
theorem wit_HostAccessToRegistersAndMemory_bar2 :
    let s := rangeSt {} 1
    2 ^ State.reset.pcie.bar2Log = 0x1000000000 ∧ guardBlocks s 256 4 = [(0, 0)] ∧ grState s 0 = 1 ∧
    smGet boolDefault ({ s with badWords := [(256, true)] } : State).badWords (4096 / 16) = true ∧ 4096 / 16 = (4096 + 4 - 1) / 16 ∧
    heldBits { s with hwSet := [(0x30010, 5)] } 0x30010 = 5 ∧ heldBits { s with hwSet := [(0x30010, 5)], tk := 1 } 0x30010 = 0 := by decide

/-- A frame with an opcode that Table 17-3 does not list, and the static address of slot 31. -/
theorem wit_KolwinTurnsAwayAndEvents_frames :
    let c : KwCmd := { kc with board := false, code := some 0x20 }
    pecOk 1 c = true ∧ (0x20#8).toNat = 0x20 ∧ 13 < 0x20 ∧ rowCode c = true ∧ rowCode { c with code := some 13 } = false ∧
    (let s := setFld State.reset Reg.kwStatusI3cMode 1
     flag s Reg.kwStatusI3cMode = true ∧ (0x5F : BitVec 7) = BitVec.ofNat 7 (0x40 + s.pins.slotId % 32)) ∧
    mState (pairSt 5) = msFenced := by decide

/-- Device timer 0 due and not; a mirrored request with no ring entry kept, two CONFIRM frames for it and no IMAGE or RELEASE. -/
theorem wit_PairCommandsAndTimers_adoption :
    let s := { pairSt 3 with timer0 := 100 }
    let f : MFrame := ⟨0x11, 0, 0, 0, 0, 0, 0, 0, 0, natBytes 16 1 ++ natBytes 4 7⟩
    let m : MirrorReq := { rc := 5, slot := 0, later := [f, f], ring := [], written := 0, tail := 0, tokens := [], unseen := 0, verifies := 0,
                           evicted := [], mirroredAt := true }
    s.timer0 ≠ 0 ∧ s.timer0 ≤ reach s.tk 100 ∧ reach s.tk 99 < s.timer0 ∧ (∀ f ∈ m.later, f.type ≠ 0x12#8) ∧ m.ring = [] ∧
    fieldAt (readBytes [(mimg s 5 + 6, 0xFF), (mimg s 5 + 7, 0xFF)] (mimg s 5) 256) 6 2 = 0xFFFF ∧ rcAddr s 5 + 256 ≤ hostBase ∧
    mState (pairSt 6) ∉ [1, 2, 3, 4, 7] := by decide

/-- A correction that is due, and one made less than 1,024 ticks ago; a first pulse with the leader ahead. -/
theorem wit_TickAlignment_due :
    let a : Align := { follower := true, slewAt := some 5 }
    a.slewAt.all (fun n => decide (n + 1024 ≤ 1029)) = true ∧ a.slewAt.all (fun n => decide (n + 1024 ≤ 1028)) = false ∧ a.firstLock = false ∧
    (3 : Nat) < 8 := by decide

set_option maxRecDepth 16384 in
/-- Training at its last tick and one past it. -/
theorem wit_PortsChangeState_times :
    let s := setFld State.reset (Reg.lkPortStatusState 15) 1
    reach s.tk 10000000 ≤ (getPort s 15).since + 10000000 ∧ (getPort s 15).since + 10000000 < reach s.tk 10000001 ∧ portState s 15 = 1 := by decide

/-- A frame whose CRC matches. -/
def frame (slots : List Slot) (ms : List MFrame) (idle nak : Bool) : LinkFrame :=
  let f : LinkFrame := { noise := [], crc := 0, seq := 1, ack := 0, nak := nak, idle := idle, credits := [], slots := slots, mslots := ms }
  { f with crc := crc64 (arrivedBody f) }

theorem frame_crc (xs : List Slot) (ms : List MFrame) (idle nak : Bool) : frameCrcOk (frame xs ms idle nak) = true := by
  unfold frameCrcOk frame
  dsimp only [arrivedBody]
  simp only [decide_true]

/-- Ports 15 and 16 UP, device 1 beyond port 15, the last export segment open to every device; two members of a collective and a read
of device 1 in progress; a slot for mirrored requests. -/
def linkSt : State :=
  let flds : List (Fld × Nat) := [(Reg.lkPortStatusState 15, 2), (Reg.lkPortStatusState 16, 2), (Reg.lkRoutePorts 1, 0x8000), (Reg.lkExpCtrlValid 15, 1),
    (Reg.lkExpCtrlWrite 15, 1), (Reg.lkExpCtrlRead 15, 1), (Reg.lkExpCtrlIdHi 15, 1023), (Reg.lkExpSize 15, 1), (Reg.mrSlotSlots, 1), (Reg.mrSlotSlotBytes, 4096)]
  let c : Coll := { tag := 9, members := [0, 1], op := 1, begun := true, scratch := 0x100000, unacked := [⟨1, 0, 0, 0, [], 0, false, false⟩] }
  flds.foldl (fun s p => setFld s p.1 p.2) { State.reset with
    dot := [(1, { state := .active, kind := 4, len := 256, coll := some c }),
            (2, { state := .active, kind := 1, src := 0xC01000000000, len := 256, readTag := 77 })] }

set_option maxRecDepth 16384 in
theorem accepts (p : Nat) (xs : List Slot) (ms : List MFrame) (h : portUp linkSt p = true) (ho : 1 = ((getPort linkSt p).rxSeq + 1) % 4096) :
    Safety.acceptsFrame linkSt p (frame xs ms false false) :=
  ⟨h, show codewordDecodes [] = true by decide, frame_crc _ _ _ _, rfl, rfl, ho, rfl, rfl, fun q hq => by
    have : q = _ ∨ q ∈ [_] := List.mem_cons.mp hq
    rcases this with rfl | h
    · rfl
    · rw [List.mem_singleton.mp h]⟩

set_option maxRecDepth 16384 in
/-- Frames accepted at a peer port and at port M; one to be discarded for its CRC, its order and its noise; IDLE with NAK. -/
theorem wit_FramesAndRetries_frames :
    (∀ xs ms, Safety.acceptsFrame linkSt 15 (frame xs ms false false)) ∧ (∀ xs ms, Safety.acceptsFrame linkSt 16 (frame xs ms false false)) ∧
    frameCrcOk { frame [] [] false false with crc := (frame [] [] false false).crc + 1 } = false ∧
    frameCrcOk (frame [] [] true true) = true ∧ codewordDecodes [] = true ∧
    codewordDecodes ((List.range 30).map fun i => (i, 1)) = true ∧ codewordDecodes ((List.range 31).map fun i => (i, 1)) = false ∧
    Safety.clean linkSt := by
  refine ⟨fun xs ms => accepts 15 xs ms (by decide) (by decide), fun xs ms => accepts 16 xs ms (by decide) (by decide), decide_eq_false ?_,
    frame_crc _ _ _ _, by decide, by decide, by decide, rfl, rfl⟩
  unfold frame
  dsimp only [arrivedBody]
  generalize crc64 _ = v
  bv_omega

set_option maxRecDepth 16384 in
/-- A slot of each type at the member it names: an unknown type, one to be forwarded and one that may not be, a read, an answer to the
read in progress and to none, pieces of the collective in progress, of another, of one completed here and of one sent early, and refusals. -/
theorem wit_FramesAndRetries_slots :
    let s := linkSt
    let x : Slot := ⟨1, 0, 0, 1, 7, 0xF00000000, 9, 0, 1, []⟩
    let e := getDot s 1
    let c := collOf e
    ownId s = 0 ∧ x.dest.toNat % 1024 = 0 ∧ x.src.toNat = 1 ∧ (1 : Half).toNat % 1024 ≠ ownId s ∧ sidePort s 1 = some 15 ∧ sidePort s 2 = none ∧
    slotHop x = 0 ∧ slotHop { x with flags := 12 } = 3 ∧ s.links.routed = [] ∧
    exportOk s x.offset.toNat 256 1 true = true ∧ exportOk s x.offset.toNat 256 1 false = true ∧ exportOk s 0 256 1 false = false ∧
    guarded s (servedAt s x.offset.toNat) 256 = false ∧ readOf s 77 = some (2, 0) ∧ readOf s 78 = none ∧ ({ x with flags := 2 } : Slot).flags.getLsbD 1 = true ∧
    findColl s 9 = some 1 ∧ findColl s 10 = none ∧ (expected s e c).any (fun y => decide (y.1 = 1 ∧ y.2.1 = 0 ∧ 0 < y.2.2)) = true ∧
    havePiece c 1 0 0 = false ∧ havePiece { c with pieces := [⟨0, 1, 0, 0, [], true⟩] } 1 0 0 = true ∧ s.links.early.contains (1, 9, 0, 0) = false ∧
    ({ s.links with early := [(1, 9, 0, 0)] }).early.contains (1, 9, 0, 0) = true ∧ ({ s.links with held := [10] }).held.contains 10 = true ∧
    c.unacked.any (sentIs 1 0 0) = true ∧ (3 : Half).toNat % 256 = 3 ∧ peers s c = [1] := by decide

set_option maxRecDepth 16384 in
/-- Mirror frames: an unknown type, a heartbeat, HELLO, DYING, and sequenced frames in and out of order for a request with and without a slot. -/
theorem wit_FramesAndRetries_mirror :
    let s := setFld linkSt Reg.mrStatusState 3
    let m : MirrorReq := { rc := 5, slot := 0, later := [], ring := [], written := 0, tail := 0, tokens := [], unseen := 0, verifies := 0,
                           evicted := [], mirroredAt := false }
    let t := { s with mirror := { s.mirror with partner := [m] } }
    mKnown 0 = false ∧ mKnown 1 = true ∧ mKnown 2 = true ∧ mState s = 3 ∧ mSequenced 0x10 = true ∧ mSequenced 0x13 = true ∧ mSequenced 0x21 = true ∧
    (1 : Word32).toNat = (s.mirror.accepted + 1) % 2 ^ 32 ∧ (2 : Word32).toNat ≠ (s.mirror.accepted + 1) % 2 ^ 32 ∧ mreq t 5 = some m ∧ mreq s 5 = none ∧
    freeSlot s = some 0 ∧ reg64 s Reg.mrPartnerStep.off < 1 ∧ fieldAt [2] 0 1 ≠ 0 ∧ s.mirror.gated = [] ∧ s.mirror.queued = [] := by decide

set_option maxRecDepth 16384 in
/-- Reads that wait for a route, before and at their 10 µs, with a port to take and without. -/
theorem wit_FramesAndRetries_routes :
    let e : DotEntry := { state := .active, kind := 1, src := 0xC01000000000, len := 256, waitRoute := true }
    e.routeTried + 1000 ≤ reach 0 1000 ∧ reach 0 999 < e.routeTried + 1000 ∧ (e.src - peerBase) / peerBytes = 1 ∧ routePorts linkSt 1 = [15] ∧
    routePorts State.reset 1 = [] := by decide

/-- One request, ready, on a module where a step may be formed. -/
def formSt : State :=
  ([(Reg.sqCtrlEnable, 1), (Reg.kvStatusEnabled, 1), (Reg.sqWorkBytesBytes, 0xFFFFFFFF)] : List (Fld × Nat)).foldl
    (fun s p => setFld s p.1 p.2) { quietSt none none .idle with mem := [(0, 3), (6, 0xFF), (7, 0xFF), (0x88, 16)] }

/-- It fits, whatever the cores: with no layer it takes no run and no staging entry. -/
theorem form_fits {cores : List Nat} (h : cores.length ≤ 512) :
    batchFits formSt cores (segNow formSt) [memberOf formSt 0 1] = true := by
  have hk : kvPairs formSt = [] := by decide +kernel
  have hg : heldGroups formSt = 0 := by decide +kernel
  have hh : heldHgs formSt = [] := by decide +kernel
  have hp : (planOf formSt (segNow formSt) (memberOf formSt 0 1)).length = 1 := by decide +kernel
  have hw : fld formSt Reg.sqWorkBytesBytes = 0xFFFFFFFF := by decide +kernel
  have hs : stagingFits formSt cores [memberOf formSt 0 1] = true := by
    simp only [stagingFits, appendsIn, hk, List.map_cons, List.map_nil, List.filter_nil, List.sum_nil, List.sum_cons]
    decide +kernel
  simp only [batchFits, hs, batchRuns, memberRuns, hk, plansOf, workLayout, mergeBytes, hg, hh, hp, hw, List.map_cons, List.map_nil,
    List.sum_nil, List.sum_cons, List.length_cons, List.length_nil, roundUp, Bool.and_true, Bool.and_eq_true, decide_eq_true_eq]
  omega

theorem form_prepared : setFld { formSt with sched := { formSt.sched with formed := none } } Reg.kvReservedCount 0 = formSt := by decide +kernel

/-- The batch of one candidate that fits as it is. -/
theorem batch_of_one {s : State} {fit : List Member → Bool} {idx cap rc : Nat} {m : Member} (hc : cap ≠ 0)
    (hr : ringFit s 32 (memberOf s rc idx) = (m, 0)) (hf : fit [m] = true) : buildBatch s fit idx cap [rc] [] = ([m], 0, 0) := by
  rw [buildBatch, if_neg (by simpa using hc)]
  simp only [hr, List.nil_append, List.length_nil]
  rw [show 9 * (0 + 3) = 26 + 1 by rfl, fitLoop, if_pos hf]
  rfl

/-- A candidate, and the step formed with it alone. -/
theorem wit_StepsFormLaunchAndEnd_formed :
    candidates (bringAll formSt) = [0] ∧ formationOff formSt = false ∧ participants formSt ≠ [] ∧ formSt.sched.rerunQ = [] ∧
    checkOnlyDue formSt formSt.sched.nextStep = false ∧ ∃ q, (form formSt).sched.formed = some q := by
  have hb : bringAll formSt = formSt := by decide +kernel
  have hc : candidates formSt = [0] := by decide +kernel
  have ho : formationOff formSt = false := by decide +kernel
  have hn : participants formSt ≠ [] := by decide +kernel
  have hq : formSt.sched.rerunQ = [] := by decide
  have hk : checkOnlyDue formSt formSt.sched.nextStep = false := by decide +kernel
  refine ⟨by rw [hb]; exact hc, ho, hn, hq, hk, ?_⟩
  have hl : (participants formSt).length ≤ 512 := Nat.le_trans (List.length_filterMap_le _ _) (by simp)
  have hi : formSt.sched.nextStep + 1 = 1 := by decide +kernel
  have hm : maxBatch formSt ≠ 0 := by simp only [maxBatch]; omega
  have hr : ringFit formSt 32 (memberOf formSt 0 1) = (memberOf formSt 0 1, 0) := by
    rw [ringFit, if_pos (by decide +kernel)]
  have hbb : buildBatch formSt (batchFits formSt (participants formSt) (segNow formSt)) 1 (maxBatch formSt) [0] [] =
      ([memberOf formSt 0 1], 0, 0) := batch_of_one hm hr (form_fits hl)
  have he : (participants formSt).isEmpty = false := by
    cases h : participants formSt with
    | nil => exact absurd h hn
    | cons _ _ => rfl
  unfold form
  simp only [form_prepared, ho, he, Bool.or_self, Bool.false_eq_true, if_false]
  rw [hq]
  simp only [hk, Bool.false_eq_true, if_false, hb, hc, hi, hbb, List.isEmpty_cons]
  exact ⟨_, by simp only [reserve, setFld_sched]; rfl⟩
/-- A recorded step to rerun; a check to place four steps after its own; no candidate. -/
theorem wit_StepsFormLaunchAndEnd_other :
    let k : Check := ⟨0, 0, 0, 0, .recorded, [], [], [], 0, 0, 0, 0, 0, 0, false⟩
    let r := { formSt with sched := { formSt.sched with rerunQ := [emptyStep] } }
    let c := setFld { formSt with sched := { formSt.sched with nextStep := 4 }, integ := { formSt.integ with checks := [k] } } Reg.inCheckDups 1
    let n := { formSt with mem := [] }
    (formationOff r = false ∧ participants r ≠ []) ∧ (formationOff c = false ∧ participants c ≠ [] ∧ checkOnlyDue c c.sched.nextStep = true) ∧
    (formationOff n = false ∧ participants n ≠ [] ∧ checkOnlyDue n n.sched.nextStep = false ∧ candidates (bringAll n) = []) := by
  refine ⟨?_, ?_, ?_⟩ <;> decide +kernel

set_option maxRecDepth 16384 in
/-- A boundary of step 7 with a page to commit, two targets, a digest logged, a journal, an end, a token to hold, a refill and the
mirror. -/
theorem wit_StepsFormLaunchAndEnd_orders :
    let s0 := hostSt [(0, 3), (32, 1), (0x10014, 1), (0x10024, 0)]
    let b := natBytes 264 0
    let s1 := setFld { s0 with integ := { s0.integ with target := some 5 }, reqs := [(0, { codes := [0x12], tokens := [9], journal := [(5, b)] })] }
      (Reg.sqTenantBaseBase) (0x10000 / 2 ^ Reg.sqTenantBaseBase.lo)
    let s := { s1 with links := { s1.links with digests := [(BitVec.ofNat 64 (6 * 2 ^ 16), 0, 0, 0, [])] }
                       sched := { s1.sched with retraction := some { g := 5, last := 7, flags := 0, named := [] } } }
    findPte (pageSt 3 0x84) 0 0 0 0 = some (0x5000, pageE 0x84) ∧ (member 0).gone = false ∧ rcLive s 0 = true ∧ rcState s 0 ≠ 6 ∧
    rollCause s (running 0) = some ⟨5, false, none⟩ ∧ rollCause { s with integ := { s.integ with target := none } } (running 0) = none ∧
    s.kolwin.fatal = false ∧ (s.links.digests.any fun d => decide (5 % 2 ^ 48 < d.1.toNat / 2 ^ 16 ∧ d.1.toNat / 2 ^ 16 ≤ 7 % 2 ^ 48)) = true ∧
    (s1.links.digests.any fun d => decide (5 % 2 ^ 48 < d.1.toNat / 2 ^ 16 ∧ d.1.toNat / 2 ^ 16 ≤ 7 % 2 ^ 48)) = false ∧
    journalAt (getReq s 0) 5 = some (5, b) ∧ (running 0).idx = 7 ∧ endCode [0x12] = some 0x12 ∧ withdraws 0x12 = true ∧ withdraws 0x01 = false ∧
    endCode [] = none ∧ (getReq s 0).covered = 0 ∧ 100 * tenGet s 0 0x14 4 ≠ 0 ∧ tenGet s 0 0x18 8 ≤ s.tk ∧ Safety.clean s ∧
    tenAddr s 0 + 64 ≤ hostBase ∧ mState (pairSt 3) = 3 := by
  refine ⟨by decide, by decide, by decide, by decide, by decide, by decide, by decide, by decide, by decide, by decide, by decide, by decide, by decide,
    by decide, by decide, by decide, by decide, by decide, ⟨by decide, by decide⟩, by decide, by decide⟩

/-- The page of `pageSt` to spill to zone 15, or to restore from it, with the spill stack and the frames' free stack in use. -/
def pagerSt (b5 : Byte) (back : Bool) : State :=
  let flds : List (Fld × Nat) := [(Reg.mcTzStatusReady 15, 1), (Reg.mcTzLblocks 15, 32), (Reg.mcTzMapBase 15, tier2Base / 2 ^ (Reg.mcTzMapBase 15).lo),
    (Reg.mcTzBitmapBase 15, (tier2Base + 4096) / 2 ^ (Reg.mcTzBitmapBase 15).lo), (Reg.mcTzPoolBase 15, (tier2Base + 8192) / 2 ^ (Reg.mcTzPoolBase 15).lo),
    (Reg.mcTzPoolSectors 15, 8), (Reg.kvSpillZone, 15), (Reg.kvSpillFreeCount, 1), (Reg.kvFreeCount, 1)]
  let s := pageSt 4 b5
  flds.foldl (fun s p => setFld s p.1 p.2) { s with reqs := [(0, { pages := [(0, 0, 0)], restoring := back })] }

/-- Bytes that no cell lists are zeros. -/
theorem readBytes_clear {m : List Host.Cell} {a n : Nat} (h : ∀ c ∈ m, c.1 < a ∨ a + n ≤ c.1) : readBytes m a n = List.replicate n 0 := by
  have hb : ∀ x, a ≤ x → x < a + n → readByte m x = 0 := by
    intro x h1 h2
    rw [readByte]
    induction m with
    | nil => rfl
    | cons c cs ih =>
      have hc := h c List.mem_cons_self
      rw [smGet, if_neg (by omega)]
      exact ih fun d hd => h d (List.mem_cons_of_mem _ hd)
  clear h
  induction n generalizing a with
  | zero => rfl
  | succ n ih =>
    rw [readBytes, List.replicate_succ, hb a (Nat.le_refl a) (by omega), ih fun x h1 h2 => hb x (by omega) (by omega)]

theorem spill_of_zeros {s : State} {z j a : Nat} (h1 : mapEntry s z j = ⟨0, 0, 0, 0⟩) (h2 : decide (bits (regGet s 0xA0010).toNat 7 6 = 0) = false)
    (h3 : physRead s a 4096 = List.replicate 4096 0) : (zoneWrite s z j (physRead s a 4096)).2 = true := by
  have hc : compressBlock false (List.replicate 4096 0) = (0, 0, []) := by
    rw [compressBlock, if_neg (by decide), if_pos (List.all_eq_true.mpr fun b hb => decide_eq_true (List.eq_of_mem_replicate hb))]
  rw [h3]
  simp only [zoneWrite, h1, h2, hc, if_true]

theorem spill_one {s : State} {n f j : Nat} (hn : n = 1) (hk : kvPf s = 1)
    (h : (zoneWrite s (spillZone s) j (physRead s (4096 * f) 4096)).2 = true) : (spillFrames s f j n 0).2 = true := by
  subst hn
  simp only [spillFrames, hk, Nat.mul_one, Nat.add_zero, h, if_true]

theorem wit_PagesMoveAndTablesPublish_spill :
    let s := pagerSt 0x84 false
    findPte s 0 0 0 0 = some (0x5000, pageE 0x84) ∧ (getReq s 0).pages.contains (0, 0, 0) = true ∧ Safety.clean s ∧
    overlaps 0x5000 8 (ftAddr s 17) 4 = false ∧ ftAddr s 17 + 4 ≤ hbmBytes ∧ popSpill (atTick s 0) = some (0, setFld (atTick s 0) Reg.kvSpillFreeCount 0) ∧
    hbmBytes ≤ tzMap s (spillZone s) ∧ hbmBytes ≤ tzBitmap s (spillZone s) ∧ hbmBytes ≤ tzPool s (spillZone s) ∧
    overlaps 0x5000 8 (baseFld s Reg.kvFstackBase + 4 * fld s Reg.kvFreeCount) 4 = false ∧ (ftGet s 17).refs = 1 ∧ (ftGet s 17).poisoned = false ∧
    (spillFrames (setFld (atTick s 0) Reg.kvSpillFreeCount 0) 17 0 (kvPf s) 0).2 = true := by
  refine ⟨by decide +kernel, by decide +kernel, ⟨by decide +kernel, by decide +kernel⟩, by decide +kernel, by decide +kernel, by decide +kernel,
    by decide +kernel, by decide +kernel, by decide +kernel, by decide +kernel, by decide +kernel, by decide +kernel, ?_⟩
  refine spill_one (by decide +kernel) (by decide +kernel) (spill_of_zeros (by decide +kernel) (by decide +kernel) ?_)
  rw [physRead, if_neg (by decide), readBytes_clear]
  exact of_decide_eq_true (by decide +kernel)

theorem restore_one {s : State} {n j : Nat} {bs : List Byte} (hn : n = 1) (hk : kvPf s = 1) (hd : draws s (spillZone s) = false)
    (hz : zoneReadOne s (spillZone s) j = .ok bs) : (restoreFrames s j n).2 = .ok bs := by
  subst hn
  simp only [restoreFrames, hk, Nat.mul_one, Nat.add_zero, zoneRead, zoneBlock, hd, Bool.false_eq_true, false_and, if_false, hz, List.nil_append]

/-- A block whose map entry is zero reads as zeros. -/
theorem zone_of_zeros {s : State} {z j : Nat} (h : mapEntry s z j = ⟨0, 0, 0, 0⟩) (hf : readFault s (tzMap s z + 16 * j) 16 = none)
    (hg : readFault s (tzPool s z + 512 * 0) (512 * min 0 8) = none) : zoneReadOne s z j = .ok (List.replicate 4096 0) := by
  rw [zoneReadOne, h]
  simp only [hf, hg, expandBlock, crc64_zeros]
  rfl

/-- The restore of a page whose block reads as zeros, and of one whose tier does not answer. -/
theorem wit_PagesMoveAndTablesPublish_restore :
    let s := pagerSt 0x85 true
    findPte s 0 0 0 0 = some (0x5000, pageE 0x85) ∧ unreserved s ≠ 0 ∧ (getReq s 0).restoring = true ∧ s.mirror.adoptQueue = [] ∧ mState s ≠ 6 ∧
    (restoreFrames (atTick s 0) 17 (kvPf s)).2 = .ok (List.replicate 4096 0) ∧
    readNat s.mem (baseFld s Reg.kvFstackBase + 4 * (fld s Reg.kvFreeCount - 1)) 4 = 0 ∧
    overlaps 0 4096 0x5000 8 = false ∧ overlaps 0 4096 (spillStack s + 4 * 1) 4 = false ∧ overlaps 0x5000 8 (spillStack s + 4 * 1) 4 = false := by
  refine ⟨by decide +kernel, by decide +kernel, by decide +kernel, by decide +kernel, by decide +kernel, ?_, by decide +kernel, by decide, by decide +kernel,
    by decide +kernel⟩
  exact restore_one (by decide +kernel) (by decide +kernel) (by decide +kernel)
    (zone_of_zeros (by decide +kernel) (by decide +kernel) (by decide +kernel))

/-- Of two pages that may be taken, the one of the lower SCORE is, where one page is to stay. -/
theorem wit_PagesMoveAndTablesPublish_eviction :
    let s := { pageSt 4 0x84 with sched := { (pageSt 4 0x84).sched with evict := 2 ^ 32 } }
    pairVictims s 0 0 0 [(0, 0, 0, 0, { pageE 0x84 with count := 16, score := 9 }), (0, 0, 1, 8, { pageE 0x84 with count := 16, score := 5 })] = [(0, 0, 1)] ∧
    modeWindowed s = false ∧ evKeep s = 1 := by decide +kernel

/-- A layout that paging can be turned on with; zone 15 over tier 2 and over the host window; a zone taken, and one to leave service. -/
theorem wit_PagingChecksAndModes_layout :
    let flds : List (Fld × Nat) := [(Reg.kvGeomFormat, 2), (Reg.kvGeomHeads, 1), (Reg.kvGeomHeadDim, 128), (Reg.kvGeomLayers, 1), (Reg.kvGeomHeadGroups, 1),
      (Reg.kvPoolFirst, 16), (Reg.kvPoolFrames, 4), (Reg.kvFtBaseBase, 8192 / 2 ^ Reg.kvFtBaseBase.lo), (Reg.kvFstackBase, 16384 / 2 ^ Reg.kvFstackBase.lo)]
    kvLayoutOk (flds.foldl (fun s p => setFld s p.1 p.2) State.reset) = true := by decide +kernel

/-- Zone 15 of `zoneSt`, with its tier and its areas in the host window. -/
def hostZone : State :=
  let flds : List (Fld × Nat) := [(Reg.mcTzLblocks 15, 1), (Reg.mcTzLbase 15, hostBase / 2 ^ (Reg.mcTzLbase 15).lo),
    (Reg.mcTzMapBase 15, hostBase / 2 ^ (Reg.mcTzMapBase 15).lo), (Reg.mcTzBitmapBase 15, (hostBase + 4096) / 2 ^ (Reg.mcTzBitmapBase 15).lo),
    (Reg.mcTzPoolBase 15, (hostBase + 8192) / 2 ^ (Reg.mcTzPoolBase 15).lo), (Reg.mcTzPoolSectors 15, 8), (Reg.mcTzCtrlTier 15, 1)]
  flds.foldl (fun s p => setFld s p.1 p.2) (hostSt [])

theorem wit_GuardedRangesAndZones_layout :
    (zoneLayoutOk (zoneSt []) 15 = true ∧ tzTier (zoneSt []) 15 = 2) ∧ (zoneLayoutOk hostZone 15 = true ∧ tzTier hostZone 15 ≠ 2) ∧
    zoneLayoutOk State.reset 15 = false := by
  have h1 : tzMap (zoneSt []) 15 = tier2Base ∧ tzBitmap (zoneSt []) 15 = tier2Base + 4096 ∧ tzPool (zoneSt []) 15 = tier2Base + 8192 ∧
      tzBlocks (zoneSt []) 15 = 1 ∧ tzSectors (zoneSt []) 15 = 8 ∧ tzTier (zoneSt []) 15 = 2 ∧
      ((List.range 16).filter fun y => decide (y ≠ 15) && flag (zoneSt []) (Reg.mcTzCtrlEnable y)) = [] ∧
      baseFld (zoneSt []) (Reg.mcTzLbase 15) = 0x108000000000 := by decide +kernel
  have h2 : tzMap hostZone 15 = hostBase ∧ tzBitmap hostZone 15 = hostBase + 4096 ∧ tzPool hostZone 15 = hostBase + 8192 ∧
      tzBlocks hostZone 15 = 1 ∧ tzSectors hostZone 15 = 8 ∧ tzTier hostZone 15 = 3 ∧
      ((List.range 16).filter fun y => decide (y ≠ 15) && flag hostZone (Reg.mcTzCtrlEnable y)) = [] ∧
      baseFld hostZone (Reg.mcTzLbase 15) = hostBase := by decide +kernel
  obtain ⟨a1, a2, a3, a4, a5, a6, a7, a8⟩ := h1
  obtain ⟨b1, b2, b3, b4, b5, b6, b7, b8⟩ := h2
  have r1 : rowOf (zoneSt []) tier2Base (16 * 1) = .tier2 := row_tier2 (by decide) (by decide)
  have r2 : rowOf (zoneSt []) (tier2Base + 4096) ((8 + 7) / 8) = .tier2 := row_tier2 (by decide) (by decide)
  have r3 : rowOf (zoneSt []) (tier2Base + 8192) (512 * 8) = .tier2 := row_tier2 (by decide) (by decide)
  have t1 : rowOf hostZone hostBase (16 * 1) = .host := row_host (by decide +kernel)
  have t2 : rowOf hostZone (hostBase + 4096) ((8 + 7) / 8) = .host := row_host (by decide +kernel)
  have t3 : rowOf hostZone (hostBase + 8192) (512 * 8) = .host := row_host (by decide +kernel)
  refine ⟨⟨?_, a6⟩, ⟨?_, by rw [b6]; decide⟩, by decide +kernel⟩
  · simp only [zoneLayoutOk, a1, a2, a3, a4, a5, a6, a7, a8, r1, r2, r3, if_true, List.all_cons, List.all_nil]
    decide
  · simp only [zoneLayoutOk, b1, b2, b3, b4, b5, b6, b7, b8, t1, t2, t3, show (3 : Nat) ≠ 2 by decide, if_false, List.all_cons, List.all_nil]
    decide

/-- A rail at its limit and one below it, a sample that a forward step cut, a setpoint above the nominal voltage, an excursion already
raised, a rail to warm, an emergency's end. -/
theorem wit_PowerEventsAndFatalState_levers :
    let s := State.reset
    let b := { s with power := { s.power with setpoint := 900, sampleCut := some 3, raised := true } }
    atLimit 0 3200 = true ∧ atLimit 0 3199 = false ∧ pNominal b < b.power.setpoint ∧ b.power.emergency = [] ∧ b.power.sampleCut = some 3 ∧ b.power.raised = true ∧
    (let h := { s with power := { s.power with thermal := [(7, pFloor s)] } }
     pFloor h = thermalOf h 7 ∧ 3 + 3 ≤ throttle h ∧ thermalOf h 7 < pCeiling h) ∧ s.power.setpoint ≤ pNominal s ∧ mState s ≠ 5 ∧
    s.integ.raisedAt = 0 ∧ s.integ.raised.contains (1, 16) = false := by decide +kernel

/-- The three outcomes of a word's code; a stage-1 repair whose golden block is there and matches, and does not; a block that waits in
quarantine; a check with equal digests and one with others; a core with a spare; trees that disagree on each kind of unit. -/
theorem wit_MemoryErrorsTestsAndRepairs_golden :
    (wordOutcome (wordSymbols 0 0 0) = .asRead ∧ wordOutcome (wordSymbols 1 0 0) = .corrected 0 ∧ wordOutcome (wordSymbols 0x101 0 0) = .uncorrectable) ∧
    (let r : Repair := ⟨15, 0, 1, none, 10, 0, []⟩
     let g := fun (mem : List Host.Cell) => setFld (setFld { zoneSt mem with repairs := [r] } (Reg.mcGrGolden 15) (0x108000000000 / 2 ^ (Reg.mcGrGolden 15).lo))
       (Reg.mcGrCrcBase 15) (0x4000 / 2 ^ (Reg.mcGrCrcBase 15).lo)
     alive (g []) = true ∧ findRepair (g []) 15 0 = some r ∧ r.stage = 1 ∧ goldenOf (g []) 15 0 = some (15, 0) ∧ expectedCrc (g []) 15 0 = some 0 ∧
      expectedCrc (g [(0x4000, 1)]) 15 0 = some 1 ∧ goldenOf State.reset 15 0 = none ∧ inRepair (g []) 15 1 = false ∧ (g []).repairs.length < 16) ∧
    (let full := { State.reset with repairs := (List.range 16).map fun i => ⟨15, i, 1, none, 10, 0, []⟩ }
     inRepair full 15 16 = false ∧ 16 ≤ full.repairs.length) ∧
    (let k : Check := ⟨3, 0, 0, 0, .duplicating, [], [1], [2], 17, 34, 0, 16, 32, 4, false⟩
     let s := setFld { State.reset with integ := { State.reset.integ with checks := [k, { k with state := .arbitrating }] } } Reg.inCheckDups 2
     s.integ.checks[0]? = some k ∧ k.core < 544 ∧ k.dup < 544 ∧ k.arb < 544 ∧ k.rolled = false ∧ ([1] : List Byte) = k.d0 ∧ ([9] : List Byte) ≠ k.d0 ∧ ([2] : List Byte) = k.d1 ∧
      (placeChecks s [0, 17, 34] 7).map (·.1) = [0, 1]) ∧
    (let s := setFld State.reset (Reg.inCoreState 16) 5
     spareOf s 0 = some 16 ∧ serving s 0 = true ∧ retired s 0 = false ∧ spareOf State.reset 17 = none) := by
  refine ⟨by decide +kernel, by decide +kernel, by decide +kernel, by decide +kernel, by decide +kernel⟩

theorem wit_MemoryErrorsTestsAndRepairs_trees :
    let s0 := hostSt []
    let ds : List Disagreement := [⟨1, 3, 0, 4, 0⟩, ⟨2, 1, 0, 1, 0⟩, ⟨3, 5, 0, 4, 0⟩, ⟨4, 383, 0, 1, 0⟩]
    let s := setFld { s0 with integ := { s0.integ with disagree := ds } } (Reg.lkPortStatusState 5) 3
    ds.all (fun d => decide ((s.integ.disagree.find? fun e => decide (e.kind = d.kind ∧ e.index = d.index)) = some d)) = true ∧
    ds.all (fun d => isFirst { s with integ := { s.integ with disagree := [d] } } d) = true ∧ portState s 5 = 3 ∧ retired s 3 = false ∧ serving s 3 = true ∧
    (s.integ.disagree.any fun d => decide (d.kind = 1 ∧ d.index = 4)) = false := by decide +kernel

/-- The boot stage that a trained link ends, and one it leaves; a repair in the host's stage on a module that is no pair. -/
theorem wit_ResetsAndBootStages_link :
    let r : Repair := ⟨15, 1, 3, some 15, 10, 0, []⟩
    State.reset.pins.powered = true ∧ State.reset.pins.resetN = true ∧ bootNow State.reset = 0 ∧ bootNow (hostSt []) = 3 ∧ 1 ≤ r.stage ∧
    pairRole { hostSt [] with repairs := [r] } = false ∧ fld (hostSt []) Reg.kwStatusBoot = 3 := by decide +kernel

end Sys2Proof.Tests
end

section
/-! Fields of registers: the bits a write of a field leaves, and what the operations that write registers leave alone. -/
namespace Sys2Proof.Machine

/-! ## Bit fields of numbers -/

theorem bits_setBits (v x : Nat) {hi lo : Nat} (h : lo ≤ hi) :
    bits (setBits v hi lo x) hi lo = x % 2 ^ (hi + 1 - lo) := by
  have hsplit : (2 : Nat) ^ (hi + 1) = 2 ^ (hi + 1 - lo) * 2 ^ lo := by rw [← pow_add]; congr 1; omega
  have hlow : v % 2 ^ lo < 2 ^ lo := Nat.mod_lt _ (by positivity)
  have hdiv : setBits v hi lo x / 2 ^ lo = x % 2 ^ (hi + 1 - lo) + v / 2 ^ (hi + 1) * 2 ^ (hi + 1 - lo) := by
    unfold setBits
    rw [show v % 2 ^ lo + x % 2 ^ (hi + 1 - lo) * 2 ^ lo + v / 2 ^ (hi + 1) * 2 ^ (hi + 1) =
        v % 2 ^ lo + (x % 2 ^ (hi + 1 - lo) + v / 2 ^ (hi + 1) * 2 ^ (hi + 1 - lo)) * 2 ^ lo by rw [hsplit]; ring,
      Nat.add_mul_div_right _ _ (by positivity), Nat.div_eq_of_lt hlow, Nat.zero_add]
  rw [bits, hdiv, Nat.add_mul_mod_self_right, Nat.mod_mod]

theorem setBits_lt (v x : Nat) {hi lo n : Nat} (h : lo ≤ hi) (hn : hi < n) (hv : v < 2 ^ n) : setBits v hi lo x < 2 ^ n := by
  have hlow : v % 2 ^ lo + x % 2 ^ (hi + 1 - lo) * 2 ^ lo < 2 ^ (hi + 1) := by
    have h1 : v % 2 ^ lo < 2 ^ lo := Nat.mod_lt _ (by positivity)
    have h2 : x % 2 ^ (hi + 1 - lo) + 1 ≤ 2 ^ (hi + 1 - lo) := Nat.mod_lt _ (by positivity)
    calc v % 2 ^ lo + x % 2 ^ (hi + 1 - lo) * 2 ^ lo
        < (x % 2 ^ (hi + 1 - lo) + 1) * 2 ^ lo := by rw [Nat.add_mul]; omega
      _ ≤ 2 ^ (hi + 1 - lo) * 2 ^ lo := Nat.mul_le_mul_right _ h2
      _ = 2 ^ (hi + 1) := by rw [← pow_add]; congr 1; omega
  have htop : 2 ^ n = 2 ^ (n - (hi + 1)) * 2 ^ (hi + 1) := by rw [← pow_add]; congr 1; omega
  have hq : v / 2 ^ (hi + 1) + 1 ≤ 2 ^ (n - (hi + 1)) := by
    rw [htop] at hv
    exact (Nat.div_lt_iff_lt_mul (by positivity)).mpr hv
  calc setBits v hi lo x < (v / 2 ^ (hi + 1) + 1) * 2 ^ (hi + 1) := by unfold setBits; rw [Nat.add_mul]; omega
    _ ≤ 2 ^ (n - (hi + 1)) * 2 ^ (hi + 1) := Nat.mul_le_mul_right _ hq
    _ = 2 ^ n := htop.symm

theorem bits_all {v : Nat} {n : Nat} (h : v < 2 ^ (n + 1)) : bits v n 0 = v := by
  simp [bits, Nat.mod_eq_of_lt h]

theorem testBit_bits (v hi lo i : Nat) : (bits v hi lo).testBit i = (decide (i < hi + 1 - lo) && v.testBit (lo + i)) := by
  rw [bits, Nat.testBit_mod_two_pow, Nat.testBit_div_two_pow, Nat.add_comm i]

/-- The two words of a 64-bit register, bit by bit. -/
theorem testBit_words (l h : Word32) (j : Nat) :
    (l.toNat + 2 ^ 32 * h.toNat).testBit j = if j < 32 then l.getLsbD j else h.getLsbD (j - 32) := by
  rw [Nat.add_comm, Nat.testBit_two_pow_mul_add _ l.isLt]; rfl

/-! ## Fields of the registers -/

variable (s : State)

@[simp] theorem fld_atTick (t : Nat) (f : Fld) : fld (atTick s t) f = fld s f := rfl
@[simp] theorem flag_atTick (t : Nat) (f : Fld) : flag (atTick s t) f = flag s f := rfl
@[simp] theorem baseFld_atTick (t : Nat) (f : Fld) : baseFld (atTick s t) f = baseFld s f := rfl
@[simp] theorem bootNow_atTick (t : Nat) : bootNow (atTick s t) = bootNow s := rfl

variable {s}

/-- A field is read off its word, and off the next one when it reaches beyond bit 31. -/
theorem fld_congr {v : State} {f : Fld} (h : regGet v f.off = regGet s f.off)
    (h4 : 32 ≤ f.hi → regGet v (f.off + 4) = regGet s (f.off + 4)) : fld v f = fld s f := by
  unfold fld reg64
  split
  · rw [h]
  · rw [h, h4 (by omega)]

theorem regGet_congr {v : State} (h : v.regs = s.regs) (o : Nat) : regGet v o = regGet s o := by
  unfold regGet; rw [h]

variable (s)

@[simp] theorem regGet_noteSet (f : Fld) (x o : Nat) : regGet (noteSet s f x) o = regGet s o :=
  regGet_congr (noteSet_regs s f x) o

theorem regGet_setFld_same {f : Fld} (h : f.hi < 32) (x : Nat) :
    regGet (setFld s f x) f.off = BitVec.ofNat 32 (setBits (regGet s f.off).toNat f.hi f.lo x) := by
  unfold setFld
  rw [if_pos h, regGet_regPut_same]

theorem regGet_setFld_ne {f : Fld} {o : Nat} (h : o ≠ f.off) (h4 : 32 ≤ f.hi → o ≠ f.off + 4) (x : Nat) :
    regGet (setFld s f x) o = regGet s o := by
  unfold setFld
  split
  · rw [regGet_regPut_ne _ _ h, regGet_noteSet]
  · rw [setReg64, regGet_regPut_ne _ _ (h4 (by omega)), regGet_regPut_ne _ _ h]

theorem fld_setFld_same {f : Fld} (h : f.hi < 32) (hl : f.lo ≤ f.hi) (x : Nat) :
    fld (setFld s f x) f = x % 2 ^ (f.hi + 1 - f.lo) := by
  have hlt := setBits_lt (regGet s f.off).toNat x hl h (regGet s f.off).isLt
  unfold fld
  rw [if_pos h, regGet_setFld_same s h, BitVec.toNat_ofNat, Nat.mod_eq_of_lt hlt, bits_setBits _ _ hl]

theorem regGet_setReg64_ne {a o : Nat} (h : o ≠ a) (h4 : o ≠ a + 4) (x : Nat) : regGet (setReg64 s a x) o = regGet s o := by
  rw [setReg64, regGet_regPut_ne _ _ h4, regGet_regPut_ne _ _ h]

theorem regGet_setBit_ne {f : Fld} {o i : Nat} (h : o ≠ f.off) (hi : f.lo + i < 32) : regGet (setBit s f i) o = regGet s o :=
  regGet_setFld_ne (f := ⟨f.off, f.lo + i, f.lo + i⟩) s h (fun h4 => absurd hi (Nat.not_lt.mpr h4)) 1

theorem regGet_countUp_ne {ctr ovf : Fld} {o : Nat} (hc : o ≠ ctr.off) (hc4 : 32 ≤ ctr.hi → o ≠ ctr.off + 4) (ho : o ≠ ovf.off)
    {b : Nat} (hb : ovf.lo + b < 32) (n : Nat) : regGet (countUp s ctr ovf b n) o = regGet s o := by
  unfold countUp
  dsimp only
  split
  · rw [regGet_setBit_ne _ ho hb, regGet_setFld_ne s hc hc4]
  · exact regGet_setFld_ne s hc hc4 _

/-- A saturating counter after a count (R367). -/
theorem fld_countUp_same {ctr ovf : Fld} (hh : ctr.hi = 31) (hl : ctr.lo = 0) (ho : ctr.off ≠ ovf.off) {b : Nat}
    (hb : ovf.lo + b < 32) (n : Nat) : fld (countUp s ctr ovf b n) ctr = min 0xFFFFFFFF (fld s ctr + n) := by
  have hset : ∀ x < 2 ^ 32, fld (setFld s ctr x) ctr = x := fun x hx => by
    rw [fld_setFld_same s (by omega) (by omega), hh, hl]; exact Nat.mod_eq_of_lt hx
  unfold countUp
  dsimp only
  split
  · rw [fld_congr (s := setFld s ctr 0xFFFFFFFF) (regGet_setBit_ne _ ho hb) (by omega), hset _ (by omega)]
    omega
  · rw [hset _ (by omega)]; omega

end Sys2Proof.Machine
end

section
/-! What an operation on registers, and the forming of an error record, leave unchanged. -/
namespace Sys2Proof.Machine

/-! ## Operations on registers -/

/-- `v` is `s` but for its registers and the note of the bits that hardware has set. -/
def RegsOnly (s v : State) : Prop := ∃ r a h, v = { s with regs := r, hwSetAt := a, hwSet := h }

namespace RegsOnly
variable {s v w : State}

theorem refl (s : State) : RegsOnly s s := ⟨_, _, _, rfl⟩

theorem trans (h : RegsOnly s v) (g : RegsOnly v w) : RegsOnly s w := by
  obtain ⟨r, a, n, rfl⟩ := h
  obtain ⟨r', a', n', rfl⟩ := g
  exact ⟨r', a', n', rfl⟩

theorem regPut (s : State) (o : Nat) (x : Word32) : RegsOnly s (regPut s o x) := ⟨_, _, _, rfl⟩

theorem ite {p : Prop} [Decidable p] (hv : RegsOnly s v) (hw : RegsOnly s w) : RegsOnly s (if p then v else w) := by
  split <;> assumption

theorem noteSet (s : State) (f : Fld) (x : Nat) : RegsOnly s (noteSet s f x) := ite (refl s) ⟨_, _, _, rfl⟩

theorem setReg64 (s : State) (o x : Nat) : RegsOnly s (setReg64 s o x) := ⟨_, _, _, rfl⟩

theorem setFld (s : State) (f : Fld) (x : Nat) : RegsOnly s (setFld s f x) := by
  unfold Machine.setFld
  split
  · exact (noteSet s f x).trans (regPut _ _ _)
  · exact setReg64 s _ _

theorem setBit (s : State) (f : Fld) (i : Nat) : RegsOnly s (setBit s f i) := setFld s _ 1

theorem countUp (s : State) (ctr ovf : Fld) (b n : Nat) : RegsOnly s (countUp s ctr ovf b n) :=
  ite ((setFld s _ _).trans (setBit _ _ _)) (setFld s _ _)

theorem foldl {α : Type} {f : State → α → State} (h : ∀ u x, RegsOnly u (f u x)) (l : List α) (s : State) :
    RegsOnly s (l.foldl f s) := by
  induction l generalizing s with
  | nil => exact refl s
  | cons x l ih => exact (h s x).trans (ih _)

theorem regPutBytes (s : State) (off : Nat) (bs : List Byte) : RegsOnly s (regPutBytes s off bs) :=
  foldl (fun u _ => regPut u _ _) _ s

end RegsOnly

/-! ## Error records -/

/-- The state once IN_LAST and SEQ have taken a record (R365, R425). -/
def lastRecord (s : State) (r : ErrRec) : State :=
  let v := regPutBytes (noteRaised s r) 0x900C0 (recordBytes (noteRaised s r) r)
  { v with integ := { v.integ with recordSeq := (v.integ.recordSeq + 1) % 2 ^ 32 } }

theorem errorRecord_discarded {s : State} {r : ErrRec} (h : s.kolwin.fatal = true ∨ alreadyRaised s r = true) :
    errorRecord s r = s := if_pos h

/-- A record that is formed goes to IN_LAST; then the log ring takes it, or counts it as lost, or stays as it is. -/
theorem errorRecord_cases {s : State} {r : ErrRec} (h : ¬ (s.kolwin.fatal = true ∨ alreadyRaised s r = true)) :
    ∃ v, errorRecord s r = sendIf v Reg.inCtrlLogIrqEn 263 ∧ (v = lastRecord s r ∨
      (∃ rs, v = logPut (lastRecord s r) (logEntries (lastRecord s r)) rs) ∨
      v = setFld (countUp (lastRecord s r) Reg.inCountLogLost Reg.inCountOvf 8 1) Reg.inStatusLogFull 1) := by
  unfold errorRecord
  rw [if_neg h]
  refine ⟨_, rfl, ?_⟩
  split
  · exact .inl rfl
  · split
    · exact .inr (.inl ⟨_, rfl⟩)
    · exact .inr (.inr rfl)

/-- `v` is `s` but for its registers, host memory, the integrity engine's state and the interrupts sent: what an error record
and the class 4 event of an uncorrectable word write. -/
def LogOnly (s v : State) : Prop :=
  ∃ r a h hm ig ms, v = { s with regs := r, hwSetAt := a, hwSet := h, hostMem := hm, integ := ig, msix := ms }

theorem RegsOnly.log {s v : State} (h : RegsOnly s v) : LogOnly s v := by
  obtain ⟨r, a, n, rfl⟩ := h
  exact ⟨r, a, n, _, _, _, rfl⟩

namespace LogOnly
variable {s v w : State}

theorem refl (s : State) : LogOnly s s := (RegsOnly.refl s).log

theorem trans (h : LogOnly s v) (g : LogOnly v w) : LogOnly s w := by
  obtain ⟨r, a, n, hm, ig, ms, rfl⟩ := h
  obtain ⟨r', a', n', hm', ig', ms', rfl⟩ := g
  exact ⟨r', a', n', hm', ig', ms', rfl⟩

theorem mem (h : LogOnly s v) : v.mem = s.mem := by obtain ⟨_, _, _, _, _, _, rfl⟩ := h; rfl
theorem tk (h : LogOnly s v) : v.tk = s.tk := by obtain ⟨_, _, _, _, _, _, rfl⟩ := h; rfl
theorem badWords (h : LogOnly s v) : v.badWords = s.badWords := by obtain ⟨_, _, _, _, _, _, rfl⟩ := h; rfl
theorem kolwin (h : LogOnly s v) : v.kolwin = s.kolwin := by obtain ⟨_, _, _, _, _, _, rfl⟩ := h; rfl

theorem foldl {α : Type} {f : State → α → State} (h : ∀ u x, LogOnly u (f u x)) (l : List α) (s : State) :
    LogOnly s (l.foldl f s) := by
  induction l generalizing s with
  | nil => exact refl s
  | cons x l ih => exact (h s x).trans (ih _)

theorem sendIf (s : State) (en : Fld) (n : Nat) : LogOnly s (sendIf s en n) := by
  unfold Machine.sendIf sendVector
  split
  · split
    · exact refl s
    · exact ⟨_, _, _, _, _, _, rfl⟩
  · exact refl s

theorem noteRaised (s : State) (r : ErrRec) : LogOnly s (noteRaised s r) := by
  unfold Machine.noteRaised
  split
  · exact refl s
  · exact ⟨_, _, _, _, _, _, rfl⟩

theorem logPut (e : Nat) (rs : List (List Byte)) : ∀ s : State, LogOnly s (logPut s e rs) := by
  induction rs with
  | nil => exact refl
  | cons r rs ih =>
    intro s
    have hstore : LogOnly s (hostStore s (baseFld s Reg.inLogBaseBase + 64 * (fld s Reg.inLogTailTail % e)) r) :=
      ⟨_, _, _, _, _, _, rfl⟩
    exact (hstore.trans (RegsOnly.setFld _ _ _).log).trans (ih _)

theorem lastRecord (s : State) (r : ErrRec) : LogOnly s (lastRecord s r) := by
  have hseq : ∀ (x : State) (n : Nat), LogOnly x { x with integ := { x.integ with recordSeq := n } } :=
    fun x n => ⟨_, _, _, _, _, _, rfl⟩
  exact ((noteRaised s r).trans (RegsOnly.regPutBytes _ _ _).log).trans (hseq _ _)

theorem errorRecord (s : State) (r : ErrRec) : LogOnly s (errorRecord s r) := by
  by_cases h : s.kolwin.fatal = true ∨ alreadyRaised s r = true
  · rw [errorRecord_discarded h]; exact refl s
  · obtain ⟨v, he, hv⟩ := errorRecord_cases h
    rw [he]
    refine LogOnly.trans ?_ (sendIf v _ _)
    rcases hv with rfl | ⟨rs, rfl⟩ | rfl
    · exact lastRecord s r
    · exact (lastRecord s r).trans (logPut _ _ _)
    · exact (lastRecord s r).trans ((RegsOnly.countUp _ _ _ _ _).trans (RegsOnly.setFld _ _ _)).log

theorem dropWrite (s : State) (a : Nat) : LogOnly s (dropWrite s a) := errorRecord s _

theorem ueEvent (s : State) (addr kind rc : Nat) : LogOnly s (ueEvent s addr kind rc) :=
  ((((RegsOnly.countUp s _ _ _ _).trans (RegsOnly.setReg64 _ _ _)).trans (RegsOnly.setFld _ _ _)).log.trans
    (errorRecord _ _)).trans (sendIf _ _ _)

end LogOnly

/-! ## The record in IN_LAST -/

/-- The registers after consecutive words have been put from `off` on. -/
theorem regGet_putWords (s : State) (off : Nat) (f : Nat → Word32) (n o : Nat) :
    regGet ((List.range n).foldl (fun st i => regPut st (off + 4 * i) (f i)) s) o =
      if off ≤ o ∧ (o - off) % 4 = 0 ∧ (o - off) / 4 < n then f ((o - off) / 4) else regGet s o := by
  induction n with
  | zero => simp
  | succ n ih =>
    rw [List.range_succ, List.foldl_append, List.foldl_cons, List.foldl_nil]
    by_cases ho : o = off + 4 * n
    · subst ho
      rw [regGet_regPut_same, if_pos (by omega), show (off + 4 * n - off) / 4 = n by omega]
    · rw [regGet_regPut_ne _ _ ho, ih]
      exact if_congr (by omega) rfl rfl

theorem regGet_regPutBytes (s : State) (off : Nat) (bs : List Byte) (o : Nat) :
    regGet (regPutBytes s off bs) o = if off ≤ o ∧ (o - off) % 4 = 0 ∧ (o - off) / 4 < (bs.length + 3) / 4
      then BitVec.ofNat 32 (fieldAt bs (4 * ((o - off) / 4)) 4) else regGet s o :=
  regGet_putWords s off (fun i => BitVec.ofNat 32 (fieldAt bs (4 * i) 4)) _ o

@[simp] theorem regGet_sendIf (s : State) (en : Fld) (n o : Nat) : regGet (sendIf s en n) o = regGet s o := by
  unfold sendIf sendVector
  split
  · split <;> rfl
  · rfl

theorem regGet_logPut {e o : Nat} (ho : o ≠ Reg.inLogTailTail.off) (rs : List (List Byte)) :
    ∀ s : State, regGet (logPut s e rs) o = regGet s o := by
  induction rs with
  | nil => exact fun _ => rfl
  | cons r rs ih =>
    intro s
    rw [logPut, ih, regGet_setFld_ne _ ho (fun h => absurd h (by decide))]
    rfl

/-- The first word of a record: its type in the first byte (Table 15-8). -/
theorem recordBytes_type (s : State) (r : ErrRec) : fieldAt (recordBytes s r) 0 4 % 256 = r.type % 256 := by
  simp [fieldAt, recordBytes, natBytes, leNat]

theorem regGet_lastRecord (s : State) (r : ErrRec) :
    regGet (lastRecord s r) 0x900C0 = BitVec.ofNat 32 (fieldAt (recordBytes (noteRaised s r) r) 0 4) := by
  have hlen : 0 < ((recordBytes (noteRaised s r) r).length + 3) / 4 := by
    simp [recordBytes, natBytes]
  change regGet (regPutBytes (noteRaised s r) 0x900C0 _) 0x900C0 = _
  rw [regGet_regPutBytes, if_pos (by omega)]

/-- An error record that is formed stands in IN_LAST, its type in the first byte (R365). -/
theorem errorRecord_type {s : State} {r : ErrRec} (hf : s.kolwin.fatal = false) (hr : alreadyRaised s r = false) :
    fld (errorRecord s r) ⟨0x900C0, 7, 0⟩ = r.type % 256 := by
  obtain ⟨v, he, hv⟩ := errorRecord_cases (s := s) (r := r) (by simp [hf, hr])
  have hword : regGet v 0x900C0 = regGet (lastRecord s r) 0x900C0 := by
    rcases hv with rfl | ⟨rs, rfl⟩ | rfl
    · rfl
    · exact regGet_logPut (by decide) rs _
    · rw [regGet_setFld_ne _ (by decide) (fun h => absurd h (by decide)),
        regGet_countUp_ne _ (by decide) (fun h => absurd h (by decide)) (by decide) (by decide)]
  have hfld : fld (errorRecord s r) ⟨0x900C0, 7, 0⟩ = fieldAt (recordBytes (noteRaised s r) r) 0 4 % 2 ^ 32 % 256 := by
    rw [he, fld_congr (s := v) (regGet_sendIf v _ _ _) (fun h => absurd h (by decide))]
    simp [fld, hword, regGet_lastRecord, bits]
  rw [hfld, Nat.mod_mod_of_dvd _ (by decide), recordBytes_type]

theorem dropWrite_type {s : State} (hf : s.kolwin.fatal = false) (a : Nat) : fld (dropWrite s a) ⟨0x900C0, 7, 0⟩ = 0x0A :=
  errorRecord_type hf (by simp [alreadyRaised])

end Sys2Proof.Machine
end

section
/-! Host writes of registers: what a write of a plain word, of an OVF word and of the host window's size leaves. -/
namespace Sys2Proof.Machine

/-! ## The access codes of Table 0-3 -/

theorem getLsbD_writeWord (w : RegWord) (old held v : Word32) {i : Nat} (hi : i < 32) :
    (writeWord w old held v).getLsbD i = ((old.getLsbD i && !w.rw.testBit i && !(w.wc.testBit i && v.getLsbD i && !held.getLsbD i)) ||
      (v.getLsbD i && w.rw.testBit i)) := by
  simp only [writeWord, BitVec.getLsbD_or, BitVec.getLsbD_and, BitVec.getLsbD_not, BitVec.getLsbD_ofNat, hi, decide_true, Bool.true_and]

/-- A word none of whose bits answers a write stays as it is. -/
theorem writeWord_fixed {w : RegWord} (hr : w.rw = 0) (hc : w.wc = 0) (old held v : Word32) : writeWord w old held v = old := by
  apply BitVec.eq_of_getLsbD_eq
  intro i hi
  simp [getLsbD_writeWord w old held v hi, hr, hc]

theorem testBit_complement {n i : Nat} (hn : n < 2 ^ 32) : (0xFFFFFFFF - n).testBit i = (decide (i < 32) && !n.testBit i) := by
  rw [← Nat.testBit_two_pow_sub_succ hn, show (2 : Nat) ^ 32 - (n + 1) = 0xFFFFFFFF - n by omega]

theorem writeWord_eq_ofNat (w : RegWord) (old held v : Word32) :
    writeWord w old held v = BitVec.ofNat 32 ((old.toNat &&& (0xFFFFFFFF - (w.rw ||| (w.wc &&& v.toNat &&& (0xFFFFFFFF - held.toNat))) % 2 ^ 32)) |||
      (v.toNat &&& w.rw)) := by
  apply BitVec.eq_of_getLsbD_eq
  intro i hi
  rw [getLsbD_writeWord w old held v hi, BitVec.getLsbD_ofNat, Nat.testBit_or, Nat.testBit_and, Nat.testBit_and,
    testBit_complement (Nat.mod_lt _ (by decide)), Nat.testBit_mod_two_pow, Nat.testBit_or, Nat.testBit_and, Nat.testBit_and,
    testBit_complement held.isLt]
  simp [hi, BitVec.testBit_toNat, Bool.and_assoc]

/-! ## A write of a word with no behaviour of its own -/

/-- `v` is `s` but for its registers and the mark that the configuration digest has been formed. -/
def DigestRegsOnly (s v : State) : Prop := ∃ r b, v = { s with regs := r, mirror := { s.mirror with digestFormed := b } }

namespace DigestRegsOnly
variable {s v w : State}

theorem refl (s : State) : DigestRegsOnly s s := ⟨_, _, rfl⟩

theorem trans (h : DigestRegsOnly s v) (g : DigestRegsOnly v w) : DigestRegsOnly s w := by
  obtain ⟨r, b, rfl⟩ := h
  obtain ⟨r', b', rfl⟩ := g
  exact ⟨r', b', rfl⟩

theorem regPut (s : State) (o : Nat) (x : Word32) : DigestRegsOnly s (regPut s o x) := ⟨_, _, rfl⟩

theorem kolwin (h : DigestRegsOnly s v) : v.kolwin = s.kolwin := by obtain ⟨_, _, rfl⟩ := h; rfl
theorem mem (h : DigestRegsOnly s v) : v.mem = s.mem := by obtain ⟨_, _, rfl⟩ := h; rfl
theorem tk (h : DigestRegsOnly s v) : v.tk = s.tk := by obtain ⟨_, _, rfl⟩ := h; rfl

theorem heldBits (h : DigestRegsOnly s v) (o : Nat) : heldBits v o = heldBits s o := by obtain ⟨_, _, rfl⟩ := h; rfl

theorem foldl {α : Type} {f : State → α → State} (h : ∀ u x, DigestRegsOnly u (f u x)) (l : List α) (s : State) :
    DigestRegsOnly s (l.foldl f s) := by
  induction l generalizing s with
  | nil => exact refl s
  | cons x l ih => exact (h s x).trans (ih _)

end DigestRegsOnly

/-- What a 32-bit write of `x` leaves in the word at an offset. -/
def writtenWord (s : State) (off : Nat) (x : Word32) : Word32 :=
  (regWord off).elim (regGet s off) fun w => writeWord w (regGet s off) (heldBits s off) x

variable {s : State} {off : Nat}

theorem writtenWord_of_some {w : RegWord} (h : regWord off = some w) (x : Word32) :
    writtenWord s off x = writeWord w (regGet s off) (heldBits s off) x := by simp [writtenWord, h]

theorem writtenWord_of_none (h : regWord off = none) (x : Word32) : writtenWord s off x = regGet s off := by
  simp [writtenWord, h]

theorem plainWrite_none (h : regWord off = none) (x : Word32) : plainWrite s off x = s := by
  unfold plainWrite; rw [h]

theorem plainWrite_some {w : RegWord} (h : regWord off = some w) (x : Word32) :
    plainWrite s off x = if (writtenWord s off x ^^^ regGet s off) &&& digestMask off = 0
      then regPut s off (writtenWord s off x) else formDigest (regPut s off (writtenWord s off x)) := by
  rw [writtenWord_of_some h]; unfold plainWrite; rw [h]

variable (s off)

theorem regGet_plainWrite (x : Word32) (o : Nat) :
    regGet (plainWrite s off x) o = if o = off then writtenWord s off x else regGet s o := by
  cases h : regWord off with
  | none =>
    rw [plainWrite_none h, writtenWord_of_none h]
    split
    · next e => rw [e]
    · rfl
  | some w =>
    have hform : ∀ v, regGet (if (writtenWord s off x ^^^ regGet s off) &&& digestMask off = 0 then v else formDigest v) o = regGet v o :=
      fun v => by split <;> rfl
    rw [plainWrite_some h, hform]
    split
    · next e => rw [e, regGet_regPut_same]
    · next e => rw [regGet_regPut_ne _ _ e]

theorem regGet_plainWrite_ne {o : Nat} (h : o ≠ off) (x : Word32) : regGet (plainWrite s off x) o = regGet s o := by
  rw [regGet_plainWrite, if_neg h]

theorem plainWrite_frame (x : Word32) : DigestRegsOnly s (plainWrite s off x) := by
  cases h : regWord off with
  | none => rw [plainWrite_none h]; exact .refl s
  | some w =>
    rw [plainWrite_some h]
    split
    · exact .regPut s _ _
    · exact ⟨_, _, rfl⟩

/-- The configuration digest is formed anew only where the write changed what it covers (R334). -/
theorem plainWrite_digest (x : Word32) : (plainWrite s off x).mirror = s.mirror ∨
    (regGet (plainWrite s off x) off ^^^ regGet s off) &&& digestMask off ≠ 0 := by
  rw [regGet_plainWrite, if_pos rfl]
  cases h : regWord off with
  | none => exact .inl (by rw [plainWrite_none h])
  | some w =>
    rw [plainWrite_some h]
    split
    · exact .inl rfl
    · next hd => exact .inr hd

/-- No write reaches the boot state, which only Kolwin sets (Table 17-15). -/
theorem bootNow_plainWrite (x : Word32) : bootNow (plainWrite s off x) = bootNow s := by
  refine fld_congr ?_ (fun h => absurd h (by decide))
  rw [regGet_plainWrite]
  split
  · next e =>
    rw [writtenWord_of_some (show regWord off = some ⟨0xC0000, 0x0, 0x0, 0x10⟩ by rw [← e]; decide), writeWord_fixed rfl rfl, e]
  · rfl

/-! ## How a host write reaches a word -/

/-- A BAR0 word with no behaviour of its own. -/
def PlainOffset (off : Nat) : Prop :=
  off % 4 = 0 ∧ ovfCounters off = [] ∧ ((0x10000 ≤ off ∧ off < 0x31000 ∧ off ≠ 0x2000C) ∨
    (0x40004 ≤ off ∧ off < 0x50000) ∨ (0x60000 ≤ off ∧ off < 0x60018) ∨ (0x60040 ≤ off ∧ off < 0x70000) ∨
    (0xC0000 ≤ off ∧ off < 0xD0000 ∧ off ≠ 0xC0030))

variable {s off}

/-- A write outside the recovery loader, and not a command to an engine of a FATAL device, acts on its word. -/
theorem hostWrite_acts (hb : bootNow s ≠ bootRecovery) (hf : s.kolwin.fatal = true → isControl off = false) (x : Word32) :
    hostWrite s off x = writeReg s off x := by
  unfold hostWrite
  rw [if_neg (fun h => hb h.1), if_neg (fun h => by simp [hf h.1] at h)]

theorem PlainOffset.not_control (h : PlainOffset off) : isControl off = false := by
  obtain ⟨-, -, hr⟩ := h
  simp [isControl]
  omega

theorem PlainOffset.writeReg (h : PlainOffset off) (x : Word32) : writeReg s off x = plainWrite s off x := by
  obtain ⟨-, hovf, hr⟩ := h
  have hno : ¬ ((!(ovfCounters off).isEmpty) = true) := by simp [hovf]
  unfold Machine.writeReg
  simp (disch := omega) only [if_neg, hno, Bool.false_eq_true, if_false]

theorem PlainOffset.hostWrite (h : PlainOffset off) (hb : bootNow s ≠ bootRecovery) (x : Word32) :
    hostWrite s off x = plainWrite s off x := by
  rw [hostWrite_acts hb (fun _ => h.not_control), h.writeReg]

/-! ## OVF words -/

/-- An OVF word follows its counters. -/
theorem ovfCounters_eq (off : Nat) : ovfCounters off = [] ∨
    ∃ n ≤ 9, 4 * n ≤ off ∧ ovfCounters off = (List.range n).map fun i => off - 4 * n + 4 * i := by
  unfold ovfCounters
  dsimp only
  split_ifs with h1 h2 h3 h4 h5 h6 h7 h8 h9
  · exact .inr ⟨5, by omega, by omega, by rw [h1]⟩
  · exact .inr ⟨7, by omega, by omega, by rw [h2]⟩
  · exact .inr ⟨7, by omega, by omega, by rw [h3]⟩
  · exact .inr ⟨7, by omega, by omega, by rw [h4]⟩
  · exact .inr ⟨7, by omega, by omega, by rw [h5]⟩
  · exact .inr ⟨9, by omega, by omega, by rw [h6]⟩
  · exact .inr ⟨5, by omega, by omega, by rw [h7]⟩
  · exact .inr ⟨4, by omega, by omega, rfl⟩
  · exact .inr ⟨6, by omega, by omega, rfl⟩
  · exact .inl rfl

/-- Where the OVF words stand: one in each block, one in each stack's registers and one in each port's (R367). -/
def ovfOffsets : List Nat := [0x40024, 0x5006C, 0x6005C, 0x7002C, 0x8009C, 0x900A4, 0xA0094] ++
  (List.range 12).map (fun k => 0x30114 + 0x20 * k) ++ (List.range 17).map (fun k => 0x70120 + 0x40 * k)

theorem mem_ovfOffsets (h : ovfCounters off ≠ []) : off ∈ ovfOffsets := by
  have hstack : ∀ k < 12, 0x30114 + 0x20 * k ∈ ovfOffsets := by decide
  have hport : ∀ k < 17, 0x70120 + 0x40 * k ∈ ovfOffsets := by decide
  unfold ovfCounters at h
  dsimp only at h
  split_ifs at h with h1 h2 h3 h4 h5 h6 h7 h8 h9
  · simp [ovfOffsets, h1]
  · simp [ovfOffsets, h2]
  · simp [ovfOffsets, h3]
  · simp [ovfOffsets, h4]
  · simp [ovfOffsets, h5]
  · simp [ovfOffsets, h6]
  · simp [ovfOffsets, h7]
  · rw [show off = 0x30114 + 0x20 * ((off - 0x30114) / 0x20) by omega]
    exact hstack _ (by omega)
  · rw [show off = 0x70120 + 0x40 * ((off - 0x70120) / 0x40) by omega]
    exact hport _ (by omega)
  · exact absurd rfl h

/-- Each bit of an OVF word is cleared by a 1, and none takes the value written. -/
theorem regWord_ovf (h : ovfCounters off ≠ []) : ∃ w, regWord off = some w ∧ w.rw = 0 ∧ w.wc = 0xFFFFFFFF := by
  have hall : ∀ o ∈ ovfOffsets, (regWord o).map (fun w => (w.rw, w.wc)) = some (0, 0xFFFFFFFF) := by decide
  obtain ⟨w, hw, he⟩ := Option.map_eq_some_iff.mp (hall off (mem_ovfOffsets h))
  exact ⟨w, hw, congrArg Prod.fst he, congrArg Prod.snd he⟩

theorem hostWrite_ovf (h : ovfCounters off ≠ []) (hb : bootNow s ≠ bootRecovery) (x : Word32) :
    hostWrite s off x = ovfWrite s off x := by
  have hall : ∀ o ∈ ovfOffsets, 0x10000 ≤ o ∧ isControl o = false := by decide
  obtain ⟨hoff, hctl⟩ := hall off (mem_ovfOffsets h)
  rw [hostWrite_acts hb fun _ => hctl]
  unfold writeReg
  rw [if_neg (Nat.not_lt.mpr hoff), if_pos (by simpa using h)]

/-- The OVF bit at `i` is set, and the write clears it. -/
def ovfCleared (s : State) (off : Nat) (x : Word32) (i : Nat) : Bool :=
  (regGet s off).getLsbD i && x.getLsbD i && !(heldBits s off).getLsbD i

theorem regGet_zeroed (q : Nat → Bool) (l : List (Nat × Nat)) (s : State) (o : Nat) :
    regGet (l.foldl (fun st p => if q p.1 then regPut st p.2 0 else st) s) o =
      if ∃ p ∈ l, q p.1 = true ∧ p.2 = o then 0 else regGet s o := by
  induction l generalizing s with
  | nil => simp
  | cons p l ih =>
    rw [List.foldl_cons, ih]
    by_cases hl : ∃ p ∈ l, q p.1 = true ∧ p.2 = o
    · have hpl : ∃ r ∈ p :: l, q r.1 = true ∧ r.2 = o := by
        obtain ⟨r, hr, h⟩ := hl
        exact ⟨r, List.mem_cons_of_mem _ hr, h⟩
      rw [if_pos hl, if_pos hpl]
    · rw [if_neg hl]
      by_cases hp : q p.1 = true ∧ p.2 = o
      · rw [if_pos hp.1, hp.2, regGet_regPut_same, if_pos ⟨p, List.mem_cons_self, hp⟩]
      · have hpl : ¬ ∃ r ∈ p :: l, q r.1 = true ∧ r.2 = o := by
          rintro ⟨r, hr, h⟩
          rcases List.mem_cons.mp hr with rfl | hr
          · exact hp h
          · exact hl ⟨r, hr, h⟩
        rw [if_neg hpl]
        split
        · next hq => exact regGet_regPut_ne _ _ fun e => hp ⟨hq, e.symm⟩
        · rfl

theorem regGet_ovfWrite (s : State) (off : Nat) (x : Word32) (o : Nat) :
    regGet (ovfWrite s off x) o = if ∃ p ∈ List.zip (List.range (ovfCounters off).length) (ovfCounters off),
      ovfCleared s off x p.1 = true ∧ p.2 = o then 0 else regGet (plainWrite s off x) o :=
  regGet_zeroed (ovfCleared s off x) _ _ _

/-- The counter of a bit that the write clears reads 0 (R367). -/
theorem regGet_ovfWrite_cleared {i c : Nat} (hi : (ovfCounters off)[i]? = some c) {x : Word32} (hc : ovfCleared s off x i = true) :
    regGet (ovfWrite s off x) c = 0 := by
  have hlt : i < (ovfCounters off).length := (List.getElem?_eq_some_iff.mp hi).1
  have hz : (List.zip (List.range (ovfCounters off).length) (ovfCounters off))[i]? = some (i, c) :=
    List.getElem?_zip_eq_some.mpr ⟨by simp [hlt], hi⟩
  rw [regGet_ovfWrite, if_pos ⟨(i, c), List.mem_iff_getElem?.mpr ⟨i, hz⟩, hc, rfl⟩]

/-- Every other word is as the plain write leaves it. -/
theorem regGet_ovfWrite_kept {x : Word32} {o : Nat} (h : ∀ i, (ovfCounters off)[i]? = some o → ovfCleared s off x i = false) :
    regGet (ovfWrite s off x) o = regGet (plainWrite s off x) o := by
  rw [regGet_ovfWrite, if_neg]
  rintro ⟨⟨i, c⟩, hm, hc, rfl⟩
  obtain ⟨j, hj⟩ := List.mem_iff_getElem?.mp hm
  obtain ⟨hr, hcs⟩ := List.getElem?_zip_eq_some.mp hj
  have hji : j = i := by
    obtain ⟨_, e⟩ := List.getElem?_eq_some_iff.mp hr
    simpa using e
  rw [hji] at hcs
  simp [h i hcs] at hc

theorem ovfWrite_frame (s : State) (off : Nat) (x : Word32) : DigestRegsOnly s (ovfWrite s off x) := by
  refine (plainWrite_frame s off x).trans (DigestRegsOnly.foldl (fun u p => ?_) _ _)
  split
  · exact .regPut u _ _
  · exact .refl u

/-- The counter at place `i` stands below its OVF word, at an offset of its own. -/
theorem ovfCounters_place {i c : Nat} (h : (ovfCounters off)[i]? = some c) :
    c < off ∧ i < 32 ∧ ∀ j, (ovfCounters off)[j]? = some c → j = i := by
  rcases ovfCounters_eq off with he | ⟨n, hn, h4, he⟩
  · simp [he] at h
  · have hplace : ∀ {j d}, (ovfCounters off)[j]? = some d → j < n ∧ d = off - 4 * n + 4 * j := by
      intro j d hj
      rw [he, List.getElem?_map, Option.map_eq_some_iff] at hj
      obtain ⟨k, hk, rfl⟩ := hj
      obtain ⟨hjn, rfl⟩ := List.getElem?_eq_some_iff.mp hk
      simp at hjn ⊢
      exact hjn
    obtain ⟨hi, hc⟩ := hplace h
    refine ⟨by omega, by omega, fun j hj => ?_⟩
    obtain ⟨-, hd⟩ := hplace hj
    omega

end Sys2Proof.Machine
end

section
/-! The host's accesses to registers, as commands: register writes, the clearing of OVF bits, the read of the tick counter's low
word, and the write of the host window's size. -/
namespace Sys2Proof.Machine
variable {s : State} {t : Nat}

/-- `v` is `s` in the tick of the access but for its registers and the mark that the configuration digest has been formed. -/
def HostWriteFrame (s : State) (t : Nat) (v : State) : Prop :=
  { v with regs := s.regs, hwSet := s.hwSet, hwSetAt := s.hwSetAt, mirror := s.mirror, tk := s.tk } = s ∧
    v.tk = reach s.tk t ∧ v.mirror = { s.mirror with digestFormed := v.mirror.digestFormed }

theorem DigestRegsOnly.hostWriteFrame {v : State} (h : DigestRegsOnly (atTick s t) v) : HostWriteFrame s t v := by
  obtain ⟨r, b, rfl⟩ := h
  exact ⟨rfl, rfl, rfl⟩

theorem RegsOnly.hostWriteFrame {v : State} (h : RegsOnly (atTick s t) v) : HostWriteFrame s t v ∧ v.mirror = s.mirror := by
  obtain ⟨r, a, n, rfl⟩ := h
  exact ⟨⟨rfl, rfl, rfl⟩, rfl⟩

/-! ## Register writes -/

theorem barAccessOk_iff {b : Bar} {off : Nat} {wide : Bool} : barAccessOk b off wide = true ↔
    off % (if wide then 8 else 4) = 0 ∧ off + (if wide then 8 else 4) ≤ barSize b := by
  simp [barAccessOk]

theorem exec_registerWrite_refused {b : Bar} {off : Nat} {wide : Bool} (h : barAccessOk b off wide = false) (x : Word) :
    exec (.registerWrite t b off wide x) s = .fault .noSuchUnit := by
  change execRegisterWrite t b off wide x s = _
  unfold execRegisterWrite
  rw [if_neg (by simp [h])]

theorem exec_registerWrite {b : Bar} {off : Nat} {wide : Bool} (hp : s.pins.powered = true) (hr : s.pins.resetN = true)
    (h : barAccessOk b off wide = true) (x : Word) :
    exec (.registerWrite t b off wide x) s = .next (hostWriteWide (atTick s t) (barBase b + off) wide x) := by
  change execRegisterWrite t b off wide x s = _
  unfold execRegisterWrite
  rw [if_pos h, presentAlways_powered hp hr]

theorem PlainOffset.barAccessOk {off : Nat} (h : PlainOffset off) : barAccessOk .bar0 off false = true := by
  obtain ⟨ha, -, hr⟩ := h
  refine barAccessOk_iff.mpr ⟨ha, ?_⟩
  simp only [barSize, Bool.false_eq_true, if_false]
  omega

/-- A 32-bit write of a plain word (R5). -/
theorem exec_registerWrite_plain {off : Nat} (hp : s.pins.powered = true) (hr : s.pins.resetN = true)
    (hb : bootNow s ≠ bootRecovery) (h : PlainOffset off) (x : Word) :
    exec (.registerWrite t .bar0 off false x) s = .next (plainWrite (atTick s t) off (BitVec.truncate 32 x)) := by
  rw [exec_registerWrite hp hr h.barAccessOk]
  simp only [hostWriteWide, barBase, Nat.zero_add, Bool.false_eq_true, if_false]
  rw [h.hostWrite (s := atTick s t) hb]

/-- A 64-bit write of two plain words, the low one first (R5). -/
theorem exec_registerWrite_plainWide {off : Nat} (hp : s.pins.powered = true) (hr : s.pins.resetN = true)
    (hb : bootNow s ≠ bootRecovery) (h : PlainOffset off) (h4 : PlainOffset (off + 4)) (ha : off % 8 = 0) (x : Word) :
    exec (.registerWrite t .bar0 off true x) s =
      .next (plainWrite (plainWrite (atTick s t) off (BitVec.truncate 32 x)) (off + 4) (BitVec.truncate 32 (x >>> 32))) := by
  have hin : off + 8 ≤ barSize .bar0 := by
    obtain ⟨-, -, hrange⟩ := h
    simp only [barSize]
    omega
  rw [exec_registerWrite hp hr (barAccessOk_iff.mpr ⟨ha, hin⟩)]
  simp only [hostWriteWide, barBase, Nat.zero_add, if_true]
  rw [h.hostWrite (s := atTick s t) hb, h4.hostWrite (by rw [bootNow_plainWrite]; exact hb)]

/-! ## OVF words -/

theorem exec_ovfClear {off : Nat} (hp : s.pins.powered = true) (hr : s.pins.resetN = true) (hb : bootNow s ≠ bootRecovery)
    (ho : ovfCounters off ≠ []) (ha : off % 4 = 0) (hl : off < 0x100000) (x : Word32) :
    exec (.ovfClear t off x) s = .next (ovfWrite (atTick s t) off x) := by
  change execOvfClear t off x s = _
  unfold execOvfClear
  have hin : off + 4 ≤ barSize .bar0 := by simp only [barSize]; omega
  rw [if_pos (barAccessOk_iff.mpr ⟨ha, hin⟩), presentAlways_powered hp hr, hostWrite_ovf ho (s := atTick s t) hb]

/-- An OVF bit after a write: cleared by a 1 unless hardware holds it (R5, R367). -/
theorem getLsbD_ovfWrite {off i c : Nat} (hi : (ovfCounters off)[i]? = some c) (x : Word32) :
    (regGet (ovfWrite s off x) off).getLsbD i =
      ((regGet s off).getLsbD i && (!x.getLsbD i || (heldBits s off).getLsbD i)) := by
  have hne : ovfCounters off ≠ [] := fun e => by simp [e] at hi
  obtain ⟨w, hw, hrw, hwc⟩ := regWord_ovf hne
  obtain ⟨-, hlt, -⟩ := ovfCounters_place hi
  have hself : ∀ j, (ovfCounters off)[j]? = some off → ovfCleared s off x j = false := fun j hj =>
    absurd (ovfCounters_place hj).1 (Nat.lt_irrefl _)
  have hones : (0xFFFFFFFF : Nat).testBit i = true := by
    rw [show (0xFFFFFFFF : Nat) = 2 ^ 32 - 1 by rfl, Nat.testBit_two_pow_sub_one]
    exact decide_eq_true hlt
  rw [regGet_ovfWrite_kept hself, regGet_plainWrite, if_pos rfl, writtenWord_of_some hw, getLsbD_writeWord _ _ _ _ hlt, hrw, hwc, hones]
  simp [Nat.zero_testBit]

/-- A counter after a write of its OVF word (R367). -/
theorem regGet_ovfWrite_counter {off i c : Nat} (hi : (ovfCounters off)[i]? = some c) (x : Word32) :
    regGet (ovfWrite s off x) c =
      if (regGet s off).getLsbD i = true ∧ x.getLsbD i = true ∧ (heldBits s off).getLsbD i = false then 0#32 else regGet s c := by
  obtain ⟨hlt, -, honly⟩ := ovfCounters_place hi
  split
  · next h => exact regGet_ovfWrite_cleared hi (by simp [ovfCleared, h])
  · next h =>
    rw [regGet_ovfWrite_kept, regGet_plainWrite_ne s off (Nat.ne_of_lt hlt)]
    intro j hj
    rw [honly j hj]
    simpa [ovfCleared, and_assoc] using h

/-! ## The tick counter's low word -/

/-- The low bytes of a number are those of its remainder. -/
theorem natBytes_mod (n v : Nat) : natBytes n (v % 256 ^ n) = natBytes n v := by
  induction n generalizing v with
  | zero => rfl
  | succ n ih =>
    have hlow : BitVec.ofNat 8 (v % 256 ^ (n + 1)) = BitVec.ofNat 8 v := by
      apply BitVec.eq_of_toNat_eq
      simp only [BitVec.toNat_ofNat]
      exact Nat.mod_mod_of_dvd v (Dvd.intro_left (256 ^ n) rfl)
    have hrest : v % 256 ^ (n + 1) / 256 = v / 256 % 256 ^ n := by
      rw [Nat.pow_succ, Nat.mul_comm, Nat.mod_mul_right_div_self]
    rw [natBytes, natBytes, hlow, hrest, ih]

theorem readWords_tkCount (hb : bootNow s ≠ bootRecovery) : readWords s 0x20000 1 = natBytes 4 s.tk := by
  have hword : readWord s 0x20000 = BitVec.ofNat 32 s.tk := by
    unfold readWord
    rw [if_neg (fun h => hb h.1)]
    simp [liveWord]
  simp only [readWords, List.range_one, List.flatMap_cons, List.flatMap_nil, List.append_nil, Nat.mul_zero, Nat.add_zero, hword,
    BitVec.toNat_ofNat]
  exact natBytes_mod 4 s.tk

/-- A read of TK_COUNT's low word latches the high one (R54). -/
theorem exec_tkCountLowRead (hp : s.pins.powered = true) (hr : s.pins.resetN = true) (hb : bootNow s ≠ bootRecovery) :
    exec (.tkCountLowRead t) s = .next { atTick s t with
      tkLatch := some (BitVec.ofNat 32 (reach s.tk t / 2 ^ 32)), readOut := some (natBytes 4 (reach s.tk t)) } := by
  change presentAlways s t tkLowRead = _
  rw [presentAlways_powered hp hr, tkLowRead, readWords_tkCount (s := atTick s t) hb]
  rfl

/-! ## The host window (R405) -/

theorem exec_hostwinSize (ha : alive s = true) (x : Word) :
    exec (.hostwinSize t x) s = .next (hostWriteWide (atTick s t) 0xB0008 true x) :=
  present_alive (f := fun v => hostWriteWide v 0xB0008 true x) ha

/-- The two words of HQ_HOSTWIN. -/
theorem hostWrite_hostwin {off : Nat} (ho : off = 0xB0008 ∨ off = 0xB000C) (hb : bootNow s ≠ bootRecovery)
    (hf : s.kolwin.fatal = false) (x : Word32) : hostWrite s off x = hostWindow s off x := by
  rw [hostWrite_acts hb (fun h => by simp [hf] at h)]
  have hovf : ovfCounters off = [] := by rcases ho with rfl | rfl <;> decide
  rcases ho with rfl | rfl <;> simp [writeReg, queueRegs, hovf]

theorem hostWindow_enabled (he : flag s Reg.hqCtrlEnable = true) (off : Nat) (x : Word32) : hostWindow s off x = s := if_pos he

/-- What a publication's start and a write of the host window's registers leave unchanged: the window in force, memory, the tick,
and the registers above CL_STATUS that the write itself does not reach. -/
structure WindowKept (s v : State) : Prop where
  regs    : ∀ o, 0x10008 < o → regGet v o = regGet s o
  hostWin : v.kolwin.hostWin = s.kolwin.hostWin
  fatal   : v.kolwin.fatal = s.kolwin.fatal
  mem     : v.mem = s.mem
  tk      : v.tk = s.tk

theorem beginPublication_kept (s : State) (mask : Nat) : WindowKept s (beginPublication s mask) := by
  have hgen : ∀ (x : State) (g o : Nat), 0x10008 < o → regGet (setFld (putGen x g) Reg.clStatusUpdating 1) o = regGet x o := by
    intro x g o ho
    rw [regGet_setFld_ne _ (by simp only [Reg.clStatusUpdating]; omega) (fun h => absurd h (by decide))]
    exact regGet_setReg64_ne x (by simp only [Reg.clGenGen]; omega) (by simp only [Reg.clGenGen]; omega) _
  unfold beginPublication
  dsimp only
  split
  · exact ⟨fun _ _ => rfl, rfl, rfl, rfl, rfl⟩
  · refine ⟨fun o ho => (hgen _ _ o ho).trans ?_, ?_, ?_, ?_, ?_⟩
    · split <;> rfl
    all_goals
      simp only [setFld_kolwin, setFld_mem, setFld_tk, putGen, setReg64_kolwin, setReg64_mem, setReg64_tk]
      split <;> rfl

theorem owePublication_kept (s : State) (mask : Nat) : WindowKept s (owePublication s mask) :=
  ⟨fun _ _ => rfl, rfl, rfl, rfl, rfl⟩

/-- With the queues off, the write takes its word, and the window in force stands until it is published (R37, R405). -/
theorem hostWindow_taken (he : flag s Reg.hqCtrlEnable = false) (hb : bootNow s ≠ bootRecovery) (off : Nat) (x : Word32) :
    WindowKept (plainWrite s off x) (hostWindow s off x) := by
  unfold hostWindow
  rw [if_neg (by simp [he])]
  dsimp only
  split
  · exact ⟨fun _ _ => rfl, rfl, rfl, rfl, rfl⟩
  · rw [if_neg (by rw [bootNow_plainWrite]; exact hb)]
    split
    · exact beginPublication_kept _ _
    · exact owePublication_kept _ _

/-- A write of HQ_HOSTWIN while the queues are enabled takes nothing. -/
theorem exec_hostwinSize_enabled (ha : alive s = true) (hb : bootNow s ≠ bootRecovery) (hf : s.kolwin.fatal = false)
    (he : flag s Reg.hqCtrlEnable = true) (x : Word) : exec (.hostwinSize t x) s = .next (atTick s t) := by
  have htake : ∀ off y, off = 0xB0008 ∨ off = 0xB000C → hostWrite (atTick s t) off y = atTick s t := fun off y ho => by
    rw [hostWrite_hostwin ho (s := atTick s t) hb hf, hostWindow_enabled (s := atTick s t) he]
  rw [exec_hostwinSize ha]
  simp only [hostWriteWide, if_true]
  rw [htake 0xB0008 _ (.inl rfl), htake (0xB0008 + 4) _ (.inr rfl)]

/-- With the queues off, its two words take the value, and the rest of the host window's state stands. -/
theorem exec_hostwinSize_taken (ha : alive s = true) (hb : bootNow s ≠ bootRecovery) (hf : s.kolwin.fatal = false)
    (he : flag s Reg.hqCtrlEnable = false) (x : Word) : ∃ v v1, exec (.hostwinSize t x) s = .next v ∧
      WindowKept (plainWrite (atTick s t) 0xB0008 (BitVec.truncate 32 x)) v1 ∧
      WindowKept (plainWrite v1 0xB000C (BitVec.truncate 32 (x >>> 32))) v := by
  let u := plainWrite (atTick s t) 0xB0008 (BitVec.truncate 32 x)
  have hu : WindowKept u (hostWindow (atTick s t) 0xB0008 (BitVec.truncate 32 x)) :=
    hostWindow_taken (s := atTick s t) he hb _ _
  generalize hv1 : hostWindow (atTick s t) 0xB0008 (BitVec.truncate 32 x) = v1 at hu
  have hb1 : bootNow v1 ≠ bootRecovery := by
    have hv : bootNow v1 = bootNow u := fld_congr (hu.regs _ (by decide)) fun h => absurd h (by decide)
    rw [hv, bootNow_plainWrite]; exact hb
  have hf1 : v1.kolwin.fatal = false := by rw [hu.fatal, (plainWrite_frame _ _ _).kolwin]; exact hf
  have he1 : flag v1 Reg.hqCtrlEnable = false := by
    have hv : fld v1 Reg.hqCtrlEnable = fld s Reg.hqCtrlEnable := by
      refine fld_congr ?_ fun h => absurd h (by decide)
      rw [hu.regs _ (by decide), regGet_plainWrite_ne _ _ (by decide)]
      rfl
    unfold flag at he ⊢
    rw [hv]; exact he
  refine ⟨hostWindow v1 0xB000C (BitVec.truncate 32 (x >>> 32)), v1, ?_, hu, hostWindow_taken he1 hb1 _ _⟩
  rw [exec_hostwinSize ha]
  simp only [hostWriteWide, if_true]
  rw [hostWrite_hostwin (.inl rfl) (s := atTick s t) hb hf, hv1, hostWrite_hostwin (.inr rfl) hb1 hf1]

/-- A word whose bits are writable or fixed takes the value written in its writable bits. -/
theorem getLsbD_writtenWord {off : Nat} {w : RegWord} (hw : regWord off = some w) (x : Word32) {i : Nat} (hi : i < 32)
    (hrw : w.rw.testBit i = true) : (writtenWord s off x).getLsbD i = x.getLsbD i := by
  rw [writtenWord_of_some hw, getLsbD_writeWord _ _ _ _ hi, hrw]
  simp

/-- SIZE as the two words of a write of HQ_HOSTWIN leave it. -/
theorem bits_hostwinWords (s v : State) (x : Word) :
    bits ((writtenWord s 0xB0008 (BitVec.truncate 32 x)).toNat + 2 ^ 32 * (writtenWord v 0xB000C (BitVec.truncate 32 (x >>> 32))).toNat) 46 12 =
      bits x.toNat 46 12 := by
  apply Nat.eq_of_testBit_eq
  intro i
  rw [testBit_bits, testBit_bits, testBit_words]
  by_cases hi : i < 35
  · have hlow : ∀ j < 32, 12 ≤ j → (0xFFFFF000 : Nat).testBit j = true := by decide
    have hhigh : ∀ j < 15, (0x7FFF : Nat).testBit j = true := by decide
    have hword : (if 12 + i < 32 then (writtenWord s 0xB0008 (BitVec.truncate 32 x)).getLsbD (12 + i)
        else (writtenWord v 0xB000C (BitVec.truncate 32 (x >>> 32))).getLsbD (12 + i - 32)) = x.getLsbD (12 + i) := by
      split
      · next h =>
        rw [getLsbD_writtenWord (w := ⟨0xB0008, 0xFFFFF000, 0x0, 0x0⟩) (by decide) _ h (hlow _ h (by omega))]
        simp [h]
      · next h =>
        have h32 : 12 + i - 32 < 32 := by omega
        rw [getLsbD_writtenWord (w := ⟨0xB000C, 0x7FFF, 0x0, 0x0⟩) (by decide) _ h32 (hhigh _ (by omega))]
        simp [h32, show 32 + (12 + i - 32) = 12 + i by omega]
    rw [hword, BitVec.testBit_toNat]
  · simp [hi]

/-- What a write of HQ_HOSTWIN leaves (R405). -/
theorem hostwinSize_answers (ha : alive s = true) (hb : bootNow s ≠ bootRecovery) (hf : s.kolwin.fatal = false)
    (he : flag s Reg.hqCtrlEnable = false) (x : Word) : Safety.answers (.hostwinSize t x) s fun v =>
      fld v Reg.hqHostwinSize = bits x.toNat 46 12 ∧ fld v Reg.hqHostwinBaseBase = fld s Reg.hqHostwinBaseBase ∧
        v.kolwin.hostWin = s.kolwin.hostWin ∧ v.mem = s.mem ∧ v.tk = reach s.tk t := by
  obtain ⟨v, v1, hx, h1, h2⟩ := exec_hostwinSize_taken (t := t) ha hb hf he x
  have f1 := plainWrite_frame (atTick s t) 0xB0008 (BitVec.truncate 32 x)
  have f2 := plainWrite_frame v1 0xB000C (BitVec.truncate 32 (x >>> 32))
  have hother : ∀ o, 0x10008 < o → o ≠ 0xB0008 → o ≠ 0xB000C → regGet v o = regGet s o := fun o ho h8 hC => by
    rw [h2.regs o ho, regGet_plainWrite_ne _ _ hC, h1.regs o ho, regGet_plainWrite_ne _ _ h8]
    rfl
  have hlow : regGet v 0xB0008 = writtenWord (atTick s t) 0xB0008 (BitVec.truncate 32 x) := by
    rw [h2.regs _ (by decide), regGet_plainWrite_ne _ _ (by decide), h1.regs _ (by decide), regGet_plainWrite, if_pos rfl]
  have hhigh : regGet v 0xB000C = writtenWord v1 0xB000C (BitVec.truncate 32 (x >>> 32)) := by
    rw [h2.regs _ (by decide), regGet_plainWrite, if_pos rfl]
  refine ⟨v, hx, ?_, ?_, ?_, ?_, ?_⟩
  · have hfld : fld v Reg.hqHostwinSize = bits ((regGet v 0xB0008).toNat + 2 ^ 32 * (regGet v 0xB000C).toNat) 46 12 := rfl
    rw [hfld, hlow, hhigh, bits_hostwinWords]
  · exact fld_congr (hother _ (by decide) (by decide) (by decide)) fun _ => hother _ (by decide) (by decide) (by decide)
  · rw [h2.hostWin, f2.kolwin, h1.hostWin, f1.kolwin]; rfl
  · rw [h2.mem, f2.mem, h1.mem, f1.mem]; rfl
  · rw [h2.tk, f2.tk, h1.tk, f1.tk]; rfl

end Sys2Proof.Machine
end

section
/-! Host accesses to HBM through BAR2: the bytes a read returns, and what a write stores, drops or counts. -/
namespace Sys2Proof.Machine

/-! ## Reads at the point of coherence -/

theorem readBytes_eq_map (m : List Host.Cell) (a n : Nat) : readBytes m a n = (List.range n).map fun i => readByte m (a + i) := by
  induction n generalizing a with
  | zero => rfl
  | succ n ih =>
    rw [readBytes, ih, List.range_succ_eq_map, List.map_cons, List.map_map]
    refine congrArg₂ _ rfl (List.map_congr_left fun i _ => ?_)
    simp only [Function.comp_apply, Nat.succ_eq_add_one]
    rw [show a + 1 + i = a + (i + 1) by omega]

@[simp] theorem readBytes_length (m : List Host.Cell) (a n : Nat) : (readBytes m a n).length = n := by
  simp [readBytes_eq_map]

/-- An index that the table does not list reads its default. -/
theorem smGet_unlisted {α : Type} (d : Nat → α) {m : List (Nat × α)} {k : Nat} (h : ∀ c ∈ m, c.1 ≠ k) : smGet d m k = d k := by
  induction m with
  | nil => rfl
  | cons c m ih =>
    obtain ⟨j, v⟩ := c
    rw [smGet, if_neg (h (j, v) List.mem_cons_self), ih fun c hc => h c (List.mem_cons_of_mem _ hc)]

variable {s : State} {t a n : Nat}

theorem physRead_hbm (h : a + n ≤ hbmBytes) : physRead s a n = readBytes s.mem a n := by
  have hlow : ¬ (hostBase ≤ a ∧ a < peerBase) := by simp only [hostBase, hbmBytes] at *; omega
  unfold physRead
  rw [if_neg hlow]

/-- No byte of a range without an uncorrectable word lies in one. -/
theorem badWords_outside (h : badIn s a n = none) {i : Nat} (hi : i < n) : smGet boolDefault s.badWords ((a + i) / 16) = false := by
  refine smGet_unlisted boolDefault fun c hc e => ?_
  rw [badIn, Option.map_eq_none_iff, List.find?_eq_none] at h
  have := h c hc
  simp only [Bool.and_eq_true, decide_eq_true_eq] at this
  omega

/-- A reader receives the bytes, those of an uncorrectable word as zero (R153). -/
theorem pocRead_eq_map (h : a + n ≤ hbmBytes) : pocRead s a n =
    (List.range n).map fun i => if smGet boolDefault s.badWords ((a + i) / 16) then 0 else readByte s.mem (a + i) := by
  unfold pocRead
  dsimp only
  rw [physRead_hbm h, readBytes_eq_map]
  split
  · next hn =>
    refine List.map_congr_left fun i hi => ?_
    rw [badWords_outside (Option.isNone_iff_eq_none.mp hn) (List.mem_range.mp hi), if_neg Bool.false_ne_true]
  · apply List.ext_getElem
    · simp
    · intro i h1 h2
      simp

theorem badIn_none_of_badWordsIn (h : badWordsIn s a n = []) : badIn s a n = none := by
  rw [badWordsIn, List.map_eq_nil_iff, List.filter_eq_nil_iff] at h
  rw [badIn, Option.map_eq_none_iff, List.find?_eq_none]
  exact h

theorem readSoft_none (h : softWordsIn s a n = []) : readSoft s a n = s := by
  rw [readSoft, h]; rfl

theorem pocReadEvents_frame (h : softWordsIn s a n = []) (kind rc : Nat) : LogOnly s (pocReadEvents s a n kind rc).1 := by
  unfold pocReadEvents
  rw [readSoft_none h]
  exact LogOnly.foldl (fun u w => LogOnly.ueEvent u _ kind rc) _ s

theorem pocReadEvents_none (h : softWordsIn s a n = []) (hb : badWordsIn s a n = []) (kind rc : Nat) :
    (pocReadEvents s a n kind rc).1 = s := by
  unfold pocReadEvents
  rw [readSoft_none h]
  dsimp only
  rw [hb]; rfl

theorem bar2Deliver_unguarded (h : guardBlocks s a n = []) :
    bar2Deliver s (a, n) = { (pocReadEvents s a n 7 0xFFFF).1 with readOut := some (pocRead s a n) } := by
  simp only [bar2Deliver, readReady, h, checkBlocks, if_true]

/-- A read of a block of a SEALING range waits (R155). -/
theorem bar2Deliver_sealing {b : Nat × Nat} (h : guardBlocks s a n = [b]) (hg : grState s b.1 = 1) :
    bar2Deliver s (a, n) = { s with bar2Reads := s.bar2Reads ++ [(a, n)] } := by
  simp [bar2Deliver, readReady, h, checkBlocks, checkBlock, hg]

/-! ## Writes of memory -/

theorem store_mem (s : State) (a : Nat) (bs : List Byte) : (store s a bs).mem = writeBytes s.mem a bs := rfl

/-- Writing back what a memory holds changes no byte of it. -/
theorem readByte_writeBytes_self (m : List Host.Cell) (a n x : Nat) : readByte (writeBytes m a (readBytes m a n)) x = readByte m x := by
  by_cases hx : a ≤ x ∧ x < a + n
  · obtain ⟨i, rfl⟩ := Nat.exists_eq_add_of_le hx.1
    rw [readByte_writeBytes_in _ _ _ i (by simp; omega)]
    simp [readBytes_eq_map]
  · exact readByte_writeBytes_out _ _ _ _ (by simp; omega)

theorem physWrite_clean (hc : Safety.clean s) (ha : ¬ (hostBase ≤ a ∧ a < peerBase)) (bs : List Byte) :
    physWrite s a bs = store s a bs := by
  obtain ⟨hb, hs⟩ := hc
  unfold physWrite
  rw [if_neg ha]
  simp [hb, hs, smGet, boolDefault]

/-- A write of part of one word covers that word in part. -/
theorem partWords_one (hn : n ≠ 0) (h16 : n < 16) (hw : a / 16 = (a + n - 1) / 16) : partWords a n = [a / 16] := by
  unfold partWords
  rw [if_neg hn, if_pos hw, List.filter_cons_of_pos (by simp; omega), List.filter_nil]

theorem freshWords_part (m : List (Nat × Bool)) (h16 : n < 16) : freshWords m a n = m := by
  unfold freshWords
  refine List.filter_eq_self.mpr fun c _ => ?_
  simp
  omega

/-- What a write leaves of an uncorrectable word that it covers in part: the word's own bytes (R152). -/
theorem mergedBytes_bad {bs : List Byte} (hin : ∀ i < bs.length, (a + i) / 16 = a / 16)
    (hbad : smGet boolDefault s.badWords (a / 16) = true) : mergedBytes s a [a / 16] bs = readBytes s.mem a bs.length := by
  rw [readBytes_eq_map]
  apply List.ext_getElem
  · simp [mergedBytes]
  · intro i h1 h2
    have hi : i < bs.length := by simpa using h2
    simp [mergedBytes, hin i hi, hbad]

theorem mergeRead_bad (hbad : smGet boolDefault s.badWords (a / 16) = true) :
    mergeRead s a (a / 16) = dropWrite (ueEvent s (16 * (a / 16)) 8 0xFFFF) (max a (16 * (a / 16))) := by
  unfold mergeRead
  rw [if_pos hbad]

/-- A write of part of an uncorrectable word (R152): the state once the read has recorded its errors, with the word as it was. -/
theorem physWrite_bad {bs : List Byte} (hne : bs ≠ []) (ha : ¬ (hostBase ≤ a ∧ a < peerBase)) (h16 : bs.length < 16)
    (hw : a / 16 = (a + bs.length - 1) / 16) (hbad : smGet boolDefault s.badWords (a / 16) = true) :
    ∃ sw, physWrite s a bs =
      { store (dropWrite (ueEvent s (16 * (a / 16)) 8 0xFFFF) (max a (16 * (a / 16)))) a (readBytes s.mem a bs.length) with
        softWords := sw } := by
  have hlen : bs.length ≠ 0 := fun h => hne (List.length_eq_zero_iff.mp h)
  have hws : ((partWords a bs.length).filter fun w => smGet boolDefault s.badWords w || smGet boolDefault s.softWords w) = [a / 16] := by
    rw [partWords_one hlen h16 hw, List.filter_cons_of_pos (by simp [hbad]), List.filter_nil]
  have hin : ∀ i < bs.length, (a + i) / 16 = a / 16 := fun i hi => by omega
  unfold physWrite
  rw [if_neg ha]
  dsimp only
  rw [hws, if_neg (by simp), mergedBytes_bad hin hbad, List.foldl_cons, List.foldl_nil, mergeRead_bad hbad]
  exact ⟨_, rfl⟩

/-! ## The commands -/

theorem inBar2_atTick (off : Nat) : inBar2 (atTick s t) off n = true ↔ off + n ≤ 2 ^ s.pcie.bar2Log := by
  unfold inBar2
  rw [decide_eq_true_eq]
  rfl

/-- BAR2 reaches HBM that is populated, trained and powered (R404). -/
theorem bar2Reaches_atTick (hb : bootNow s ≠ bootRecovery) (off : Nat) : bar2Reaches (atTick s t) off n = true ↔
    baseFld s Reg.hqBar2BaseBase + off + n ≤ hbmBytes ∧ s.kolwin.hbmTrained = true ∧ s.power.railsUp = true := by
  unfold bar2Reaches
  rw [Bool.and_eq_true, Bool.and_eq_true, Bool.and_eq_true, decide_eq_true_eq, decide_eq_true_eq, and_assoc, and_assoc]
  exact ⟨fun ⟨h1, h2, h3, _⟩ => ⟨h1, h2, h3⟩, fun ⟨h1, h2, h3⟩ => ⟨h1, h2, h3, hb⟩⟩

theorem exec_bar2Read (hp : s.pins.powered = true) (hr : s.pins.resetN = true) (off n : Nat) :
    exec (.bar2Read t off n) s = .next (bar2Get (atTick s t) off n) := 
  presentAlways_powered (f := fun v => bar2Get v off n) hp hr

theorem exec_bar2Write (hp : s.pins.powered = true) (hr : s.pins.resetN = true) (off : Nat) (bs : List Byte) :
    exec (.bar2Write t off bs) s = .next (bar2Put (atTick s t) off bs) := 
  presentAlways_powered (f := fun v => bar2Put v off bs) hp hr

section
variable (hp : s.pins.powered = true) (hr : s.pins.resetN = true) (hb : bootNow s ≠ bootRecovery)

/-- BAR2 reaches `[a, a + n)`, `a` the HBM address of an offset: within its size, and HBM populated, trained and powered there. -/
def Bar2Access (s : State) (off n : Nat) : Prop :=
  off + n ≤ 2 ^ s.pcie.bar2Log ∧ baseFld s Reg.hqBar2BaseBase + off + n ≤ hbmBytes ∧ s.kolwin.hbmTrained = true ∧ s.power.railsUp = true

theorem bar2Access_iff (hb : bootNow s ≠ bootRecovery) (t off n : Nat) :
    Bar2Access s off n ↔ (inBar2 (atTick s t) off n && bar2Reaches (atTick s t) off n) = true := by
  rw [Bool.and_eq_true, inBar2_atTick, bar2Reaches_atTick hb]
  rfl

include hp hr hb

/-- A read that BAR2 does not reach is an unsupported request (R404). -/
theorem exec_bar2Read_unreached {off n : Nat} (h : ¬ Bar2Access s off n) :
    exec (.bar2Read t off n) s = .next { atTick s t with readOut := none } := by
  rw [exec_bar2Read hp hr, bar2Get, if_neg (by rwa [bar2Access_iff hb t] at h)]

theorem exec_bar2Read_reached {off n : Nat} (h : Bar2Access s off n) :
    exec (.bar2Read t off n) s = .next (bar2Deliver (atTick s t) (baseFld s Reg.hqBar2BaseBase + off, n)) := by
  rw [exec_bar2Read hp hr, bar2Get, if_pos (by rwa [bar2Access_iff hb t] at h)]
  rfl

/-- A read of unguarded words none of which needs correction (R153, R200). -/
theorem bar2Read_answers {off n : Nat} (h : Bar2Access s off n) (hg : guardBlocks s (baseFld s Reg.hqBar2BaseBase + off) n = [])
    (hs : softWordsIn s (baseFld s Reg.hqBar2BaseBase + off) n = []) : Safety.answers (.bar2Read t off n) s fun v => v.mem = s.mem ∧
      v.tk = reach s.tk t ∧ v.readOut = some ((List.range n).map fun i =>
        if smGet boolDefault s.badWords ((baseFld s Reg.hqBar2BaseBase + off + i) / 16) then 0
        else readByte s.mem (baseFld s Reg.hqBar2BaseBase + off + i)) := by
  have hev := pocReadEvents_frame (s := atTick s t) hs 7 0xFFFF
  refine ⟨_, exec_bar2Read_reached hp hr hb h, ?_⟩
  rw [bar2Deliver_unguarded (s := atTick s t) hg, pocRead_eq_map (s := atTick s t) h.2.1]
  exact ⟨hev.mem, hev.tk, rfl⟩

/-- A read that meets no word in error changes nothing but what the host receives. -/
theorem exec_bar2Read_clean {off n : Nat} (h : Bar2Access s off n) (hg : guardBlocks s (baseFld s Reg.hqBar2BaseBase + off) n = [])
    (hs : softWordsIn s (baseFld s Reg.hqBar2BaseBase + off) n = []) (hw : badWordsIn s (baseFld s Reg.hqBar2BaseBase + off) n = []) :
    exec (.bar2Read t off n) s =
      .next { atTick s t with readOut := some (readBytes s.mem (baseFld s Reg.hqBar2BaseBase + off) n) } := by
  have hread : pocRead (atTick s t) (baseFld s Reg.hqBar2BaseBase + off) n = readBytes s.mem (baseFld s Reg.hqBar2BaseBase + off) n := by
    unfold pocRead
    rw [if_pos (by rw [badIn_none_of_badWordsIn (s := atTick s t) hw]; rfl), physRead_hbm (s := atTick s t) h.2.1]
    rfl
  rw [exec_bar2Read_reached hp hr hb h, bar2Deliver_unguarded (s := atTick s t) hg, pocReadEvents_none (s := atTick s t) hs hw, hread]

theorem exec_bar2Read_sealing {off n : Nat} {b : Nat × Nat} (h : Bar2Access s off n)
    (hg : guardBlocks s (baseFld s Reg.hqBar2BaseBase + off) n = [b]) (h1 : grState s b.1 = 1) :
    exec (.bar2Read t off n) s =
      .next { atTick s t with bar2Reads := s.bar2Reads ++ [(baseFld s Reg.hqBar2BaseBase + off, n)] } := by
  rw [exec_bar2Read_reached hp hr hb h, bar2Deliver_sealing (s := atTick s t) hg h1]
  rfl

omit hb in
/-- A write beyond BAR2's size is not the function's (Table 17-9). -/
theorem exec_bar2Write_outside {off : Nat} {bs : List Byte} (h : ¬ off + bs.length ≤ 2 ^ s.pcie.bar2Log) :
    exec (.bar2Write t off bs) s = .next (atTick s t) := by
  rw [exec_bar2Write hp hr, bar2Put, if_pos]
  exact .inr (Bool.eq_false_iff.mpr (by rwa [Ne, inBar2_atTick]))

omit hp hr in
/-- A write in BAR2 beyond what BAR2 reaches, or to a guarded range, is dropped (R157, R201). -/
theorem bar2Put_dropped {off : Nat} {bs : List Byte} (hne : bs ≠ []) (hin : off + bs.length ≤ 2 ^ s.pcie.bar2Log)
    (h : ¬ Bar2Access s off bs.length ∨ guarded s (baseFld s Reg.hqBar2BaseBase + off) bs.length = true) :
    bar2Put (atTick s t) off bs = dropWrite (atTick s t) (baseFld s Reg.hqBar2BaseBase + off) := by
  have hin' : inBar2 (atTick s t) off bs.length = true := (inBar2_atTick off).mpr hin
  unfold bar2Put
  dsimp only
  rw [if_neg (by simp [hne, hin'])]
  split
  · rfl
  · next hreach =>
    have hacc : Bar2Access s off bs.length := (bar2Access_iff hb t off _).mpr (by simpa [hin'] using hreach)
    exact if_pos (h.resolve_left (not_not_intro hacc))

omit hp hr in
/-- A write that BAR2 takes to unguarded HBM: counted and dropped where it touches a protected table (R279), else made. -/
theorem bar2Put_reached {off : Nat} {bs : List Byte} (hne : bs ≠ []) (h : Bar2Access s off bs.length)
    (hg : guarded s (baseFld s Reg.hqBar2BaseBase + off) bs.length = false) :
    bar2Put (atTick s t) off bs = if touchesTables (atTick s t) (baseFld s Reg.hqBar2BaseBase + off) bs.length = true
      then countUp (atTick s t) Reg.sqCountBar2Dropped Reg.sqCountOvf 5 1
      else physWrite (atTick s t) (baseFld s Reg.hqBar2BaseBase + off) bs := by
  have hacc := (bar2Access_iff hb t off bs.length).mp h
  rw [Bool.and_eq_true] at hacc
  obtain ⟨hin, hreach⟩ := hacc
  have hg' : ¬ guarded (atTick s t) (baseFld s Reg.hqBar2BaseBase + off) bs.length = true := by
    rw [Bool.not_eq_true]; exact hg
  unfold bar2Put
  dsimp only
  rw [if_neg (by simp [hne, hin]), if_neg (by simp [hreach])]
  exact if_neg hg'

theorem bar2Write_dropped {off : Nat} {bs : List Byte} (hne : bs ≠ []) (hin : off + bs.length ≤ 2 ^ s.pcie.bar2Log)
    (h : ¬ Bar2Access s off bs.length ∨ guarded s (baseFld s Reg.hqBar2BaseBase + off) bs.length = true) :
    Safety.answers (.bar2Write t off bs) s fun v => v.mem = s.mem ∧ v.tk = reach s.tk t ∧
      (s.kolwin.fatal = false → fld v ⟨0x900C0, 7, 0⟩ = 0x0A) := by
  have hlog := LogOnly.dropWrite (atTick s t) (baseFld s Reg.hqBar2BaseBase + off)
  refine ⟨_, exec_bar2Write hp hr off bs, ?_⟩
  rw [bar2Put_dropped hb hne hin h]
  exact ⟨hlog.mem, hlog.tk, fun hf => dropWrite_type (s := atTick s t) hf _⟩

/-- A write to a table of a live scheduler only counts (R279). -/
theorem bar2Write_counted {off : Nat} {bs : List Byte} (hne : bs ≠ []) (h : Bar2Access s off bs.length)
    (hg : guarded s (baseFld s Reg.hqBar2BaseBase + off) bs.length = false)
    (ht : touchesTables (atTick s t) (baseFld s Reg.hqBar2BaseBase + off) bs.length = true) :
    Safety.answers (.bar2Write t off bs) s fun v => HostWriteFrame s t v ∧ v.mirror = s.mirror ∧
      fld v Reg.sqCountBar2Dropped = min 0xFFFFFFFF (fld s Reg.sqCountBar2Dropped + 1) := by
  obtain ⟨hframe, hmirror⟩ := (RegsOnly.countUp (atTick s t) Reg.sqCountBar2Dropped Reg.sqCountOvf 5 1).hostWriteFrame
  refine ⟨_, exec_bar2Write hp hr off bs, ?_⟩
  rw [bar2Put_reached hb hne h hg, if_pos ht]
  exact ⟨hframe, hmirror, fld_countUp_same _ rfl rfl (by decide) (by decide) 1⟩

omit hp hr hb in
theorem Bar2Access.below_host {off n : Nat} (h : Bar2Access s off n) :
    ¬ (hostBase ≤ baseFld s Reg.hqBar2BaseBase + off ∧ baseFld s Reg.hqBar2BaseBase + off < peerBase) := by
  have h2 := h.2.1
  simp only [hbmBytes, hostBase] at *
  omega

theorem exec_bar2Write_made {off : Nat} {bs : List Byte} (hne : bs ≠ []) (h : Bar2Access s off bs.length)
    (hg : guarded s (baseFld s Reg.hqBar2BaseBase + off) bs.length = false)
    (ht : touchesTables (atTick s t) (baseFld s Reg.hqBar2BaseBase + off) bs.length = false) :
    exec (.bar2Write t off bs) s = .next (physWrite (atTick s t) (baseFld s Reg.hqBar2BaseBase + off) bs) := by
  rw [exec_bar2Write hp hr, bar2Put_reached hb hne h hg, if_neg (by simp [ht])]

/-- A write of memory without a word in error stores its bytes. -/
theorem bar2Write_stored {off : Nat} {bs : List Byte} (hne : bs ≠ []) (h : Bar2Access s off bs.length)
    (hg : guarded s (baseFld s Reg.hqBar2BaseBase + off) bs.length = false)
    (ht : touchesTables (atTick s t) (baseFld s Reg.hqBar2BaseBase + off) bs.length = false) (hc : Safety.clean s) :
    Safety.answers (.bar2Write t off bs) s fun v => v.mem = writeBytes s.mem (baseFld s Reg.hqBar2BaseBase + off) bs ∧
      v.tk = reach s.tk t ∧ v.cores = s.cores ∧ v.hostMem = s.hostMem ∧ v.clusters = s.clusters := by
  refine ⟨_, exec_bar2Write_made hp hr hb hne h hg ht, ?_⟩
  rw [physWrite_clean (s := atTick s t) hc h.below_host]
  exact ⟨rfl, rfl, rfl, rfl, rfl⟩

/-- A write of part of an uncorrectable word changes no byte, and is recorded as dropped (R152). -/
theorem bar2Write_bad {off : Nat} {bs : List Byte} (hne : bs ≠ []) (h : Bar2Access s off bs.length)
    (hg : guarded s (baseFld s Reg.hqBar2BaseBase + off) bs.length = false)
    (ht : touchesTables (atTick s t) (baseFld s Reg.hqBar2BaseBase + off) bs.length = false) (h16 : bs.length < 16)
    (hw : (baseFld s Reg.hqBar2BaseBase + off) / 16 = (baseFld s Reg.hqBar2BaseBase + off + bs.length - 1) / 16)
    (hbad : smGet boolDefault s.badWords ((baseFld s Reg.hqBar2BaseBase + off) / 16) = true) :
    Safety.answers (.bar2Write t off bs) s fun v => (∀ x, readByte v.mem x = readByte s.mem x) ∧ v.badWords = s.badWords ∧
      (s.kolwin.fatal = false → fld v ⟨0x900C0, 7, 0⟩ = 0x0A) := by
  obtain ⟨sw, he⟩ := physWrite_bad (s := atTick s t) hne h.below_host h16 hw hbad
  have hue := LogOnly.ueEvent (atTick s t) (16 * ((baseFld s Reg.hqBar2BaseBase + off) / 16)) 8 0xFFFF
  have hlog := hue.trans (LogOnly.dropWrite _ (max (baseFld s Reg.hqBar2BaseBase + off) (16 * ((baseFld s Reg.hqBar2BaseBase + off) / 16))))
  refine ⟨_, exec_bar2Write_made hp hr hb hne h hg ht, ?_⟩
  rw [he]
  refine ⟨fun x => ?_, ?_, fun hf => dropWrite_type (by rw [hue.kolwin]; exact hf) _⟩
  · dsimp only
    rw [store_mem, hlog.mem]
    exact readByte_writeBytes_self s.mem _ _ x
  · change freshWords _ _ _ = _
    rw [freshWords_part _ (by rwa [readBytes_length]), hlog.badWords]
    rfl

end

end Sys2Proof.Machine
end

section
/-! The statement about the host's accesses to registers and memory. -/
open Sys2Proof Sys2Proof.Machine

/-- Settles O45: each access is presented at once outside the recovery loader, and its clause is what the write or read of the
word, or of HBM through BAR2, leaves. -/
theorem hostAccessToRegistersAndMemory : Obligations.HostAccessToRegistersAndMemory := by
  intro s t hp hr hb u plain written only
  have hwritten : ∀ off x, written off x = writtenWord u off x := by
    intro off x
    simp only [written, writtenWord]
    cases regWord off with
    | none => rfl
    | some w => exact (writeWord_eq_ofNat w _ _ x).symm
  refine ⟨?_, ?_, ?_, ?_, ?_, ?_, ?_, ?_⟩
  · intro off x hoff
    refine ⟨_, exec_registerWrite_plain hp hr hb hoff x, (plainWrite_frame u off _).hostWriteFrame, fun o => ?_, plainWrite_digest u off _⟩
    rw [regGet_plainWrite, hwritten]
    rfl
  · intro off x hoff hoff4 ha
    refine ⟨_, exec_registerWrite_plainWide hp hr hb hoff hoff4 ha x,
      ((plainWrite_frame u off _).trans (plainWrite_frame _ (off + 4) _)).hostWriteFrame, fun o => ?_⟩
    have hhigh : writtenWord (plainWrite u off (BitVec.truncate 32 x)) (off + 4) (BitVec.truncate 32 (x >>> 32)) =
        writtenWord u (off + 4) (BitVec.truncate 32 (x >>> 32)) := by
      unfold writtenWord
      rw [regGet_plainWrite_ne _ _ (by omega), (plainWrite_frame u off _).heldBits]
    rw [regGet_plainWrite, regGet_plainWrite, hhigh, hwritten, hwritten]
    by_cases h4 : o = off + 4
    · rw [if_pos h4, if_neg (by omega), if_pos h4]
    · rw [if_neg h4, if_neg h4]
      rfl
  · intro b off wide x h
    refine exec_registerWrite_refused (Bool.eq_false_iff.mpr fun hok => ?_) x
    obtain ⟨ha, hin⟩ := barAccessOk_iff.mp hok
    rcases h with h | h
    · exact h ha
    · cases b <;> simp only [barSize, reduceCtorEq, if_true, if_false] at h hin <;> omega
  · intro off x ho ha hl
    exact ⟨_, exec_ovfClear hp hr hb ho ha hl x, (ovfWrite_frame u off x).hostWriteFrame,
      fun i c hi => ⟨getLsbD_ovfWrite hi x, regGet_ovfWrite_counter hi x⟩, fun o hne hout => by
        rw [regGet_ovfWrite_kept fun i hi => absurd (List.mem_of_getElem? hi) hout, regGet_plainWrite_ne _ _ hne]
        rfl⟩
  · exact ⟨_, exec_tkCountLowRead hp hr hb, rfl, rfl, rfl, rfl⟩
  · intro x hf
    have ha : alive s = true := by simp [alive, hp, hr, hf]
    exact ⟨fun he => exec_hostwinSize_enabled ha hb hf he x, fun he => hostwinSize_answers ha hb hf he x⟩
  · intro off n a reaches
    exact ⟨exec_bar2Read_unreached hp hr hb, bar2Read_answers hp hr hb, exec_bar2Read_clean hp hr hb,
      fun b => exec_bar2Read_sealing hp hr hb⟩
  · intro off bs hne a inside reaches
    exact ⟨exec_bar2Write_outside hp hr, bar2Write_dropped hp hr hb hne, bar2Write_counted hp hr hb hne,
      bar2Write_stored hp hr hb hne, bar2Write_bad hp hr hb hne⟩
end

section
/-! The state after reset: the tables of units are empty, and a register word that reset does not list holds its reset value. -/
namespace Sys2Proof.Machine

/-! ## The tables of units -/

theorem getCell_reset (n : Nat) : getCell State.reset n = { value := 0, cfg := 0, deadline := 0 } := rfl

theorem getDot_reset (m : Nat) : getDot State.reset m = dotDefault m := rfl

theorem getCore_reset (k : Nat) : getCore State.reset k = coreDefault k := rfl

/-- A FREE entry reads zero (Table 4-10). -/
theorem dotWord_of_free {e : DotEntry} (h : e.state = .free) (i : Nat) : dotWord e i = 0 := if_pos h

/-- Every entry of the device operation table is FREE and reads zero (R83). -/
theorem reset_dot_free (m : Nat) :
    getDot State.reset m = dotDefault m ∧ (getDot State.reset m).state = .free ∧ ∀ i < 4, dotWord (getDot State.reset m) i = 0 := by
  have hfree : (getDot State.reset m).state = .free := by rw [getDot_reset]; rfl
  exact ⟨getDot_reset m, hfree, fun i _ => dotWord_of_free hfree i⟩

/-! ## Registers -/

theorem regGet_reset {off : Nat} (h : ∀ c ∈ State.reset.regs, c.1 ≠ off) : regGet State.reset off = regReset off :=
  smGet_unlisted regReset h

/-- A field of a word that reset does not list is read off the word's reset value. -/
theorem fld_reset {f : Fld} {x : Nat} (h : ∀ c ∈ State.reset.regs, c.1 ≠ f.off) (hf : f.hi < 32)
    (hx : bits (regReset f.off).toNat f.hi f.lo = x) : fld State.reset f = x := by
  rw [fld, if_pos hf, regGet_reset h, hx]

theorem reg64_reset {off : Nat} (h : ∀ c ∈ State.reset.regs, c.1 ≠ off ∧ c.1 ≠ off + 4) :
    reg64 State.reset off = (regReset off).toNat + 2 ^ 32 * (regReset (off + 4)).toNat := by
  rw [reg64, regGet_reset fun c hc => (h c hc).1, regGet_reset fun c hc => (h c hc).2]

/-- BOOT reads ROM. -/
theorem bootNow_reset : bootNow State.reset = 0 :=
  fld_reset (f := Reg.kwStatusBoot) (by decide) (by decide) (by decide)

theorem generation_reset : generation State.reset = 0 :=
  (reg64_reset (off := Reg.clGenGen.off) (by decide)).trans (by decide)

theorem mState_reset : mState State.reset = msSolo :=
  fld_reset (f := Reg.mrStatusState) (by decide) (by decide) (by decide)

end Sys2Proof.Machine
end

section
/-! The statement about the state after reset. -/
open Sys2Proof Sys2Proof.Machine

/-- Settles O4: the tables of units are empty after reset, and each register named holds the reset value of its word. -/
theorem resetState : Obligations.ResetState := by
  have hvalid : fld State.reset Reg.clStatusValid = 0 := fld_reset (by decide) (by decide) (by decide)
  have hsw : fld State.reset Reg.nbCtrlSwLimit = 2048 := fld_reset (by decide) (by decide) (by decide)
  have hlimit : fld State.reset Reg.nbStatusLimit = 2048 := fld_reset (by decide) (by decide) (by decide)
  have hdecay : fld State.reset Reg.kvEvictDecay = 1 := fld_reset (by decide) (by decide) (by decide)
  have hidle : ∀ k, (getCore State.reset k).phase = .idle := fun k => by rw [getCore_reset]; rfl
  exact ⟨reset_canonical, rfl, rfl, getCell_reset, reset_dot_free, hidle, bootNow_reset, generation_reset, hvalid, mState_reset,
    rfl, hsw, hlimit, hdecay⟩
end

section
/-! The statement about a step of the machine. -/
open Sys2Proof Sys2Proof.Machine

/-- Settles O1: a step looks at its queue alone to choose between the front command and one idle tick. -/
theorem stepRunsFrontCommand : Obligations.StepRunsFrontCommand := by
  intro s c rest
  refine ⟨rfl, ?_⟩
  change Host.Outcome.next (idleTick { s with pending := [] }) = _
  unfold idleTick
  by_cases hp : s.pins.powered = true
  · rw [if_pos hp, if_pos hp]
  · rw [if_neg hp, if_neg hp]
end

section
/-! Fields that share no bit, fields of 64-bit registers, and the registers after a chain of writes. -/
namespace Sys2Proof.Machine

/-! ## Bits of a number with a field replaced -/

theorem setBits_eq (v x : Nat) {hi lo : Nat} (h : lo ≤ hi) :
    setBits v hi lo x = v % 2 ^ lo + 2 ^ lo * (x % 2 ^ (hi + 1 - lo) + 2 ^ (hi + 1 - lo) * (v / 2 ^ (hi + 1))) := by
  have hsplit : (2 : Nat) ^ (hi + 1) = 2 ^ lo * 2 ^ (hi + 1 - lo) := by rw [← pow_add]; congr 1; omega
  unfold setBits
  rw [hsplit]; ring

theorem testBit_setBits (v x : Nat) {hi lo : Nat} (h : lo ≤ hi) (i : Nat) :
    (setBits v hi lo x).testBit i = if lo ≤ i ∧ i ≤ hi then x.testBit (i - lo) else v.testBit i := by
  rw [setBits_eq v x h, Nat.add_comm, Nat.testBit_two_pow_mul_add _ (Nat.mod_lt _ (by positivity))]
  split
  · next hi' => rw [if_neg (by omega), Nat.testBit_mod_two_pow]; simp [hi']
  · next hlo =>
    rw [Nat.add_comm (x % _), Nat.testBit_two_pow_mul_add _ (Nat.mod_lt _ (by positivity))]
    split
    · next hin => rw [if_pos (by omega), Nat.testBit_mod_two_pow]; simp [hin]
    · next hout =>
      rw [if_neg (by omega), Nat.testBit_div_two_pow]
      congr 1; omega

theorem bits_setBits_apart (v x : Nat) {hi lo hi' lo' : Nat} (h : lo ≤ hi) (ha : hi < lo' ∨ hi' < lo) :
    bits (setBits v hi lo x) hi' lo' = bits v hi' lo' := by
  apply Nat.eq_of_testBit_eq
  intro i
  rw [testBit_bits, testBit_bits, testBit_setBits v x h]
  by_cases hi : i < hi' + 1 - lo'
  · rw [if_neg (by omega)]
  · simp [hi]

theorem bits_lt (v hi lo : Nat) : bits v hi lo < 2 ^ (hi + 1 - lo) := Nat.mod_lt _ (by positivity)

/-! ## 64-bit registers -/

theorem reg64_setReg64_same (s : State) (o x : Nat) : reg64 (setReg64 s o x) o = x % 2 ^ 64 := by
  unfold reg64 setReg64
  rw [regGet_regPut_ne _ _ (by omega), regGet_regPut_same, regGet_regPut_same, BitVec.toNat_ofNat, BitVec.toNat_ofNat]
  omega

theorem reg64_setReg64_ne (s : State) {o p : Nat} (h : p ≠ o) (h4 : p ≠ o + 4) (h4' : p + 4 ≠ o) (x : Nat) :
    reg64 (setReg64 s o x) p = reg64 s p := by
  unfold reg64
  rw [regGet_setReg64_ne _ h h4, regGet_setReg64_ne _ h4' (by omega)]

theorem reg64_lt (s : State) (o : Nat) : reg64 s o < 2 ^ 64 := by
  have hl := (regGet s o).isLt
  have hh := (regGet s (o + 4)).isLt
  unfold reg64
  omega

/-- A field is read off the 64-bit register at its offset. -/
theorem fld_eq_bits (s : State) (f : Fld) : fld s f = bits (reg64 s f.off) f.hi f.lo := by
  unfold fld
  split
  · next h =>
    apply Nat.eq_of_testBit_eq
    intro i
    unfold reg64
    rw [testBit_bits, testBit_bits, testBit_words]
    by_cases hi : i < f.hi + 1 - f.lo
    · rw [if_pos (show f.lo + i < 32 by omega)]; rfl
    · simp [hi]
  · rfl

theorem reg64_setFld_same (s : State) {f : Fld} (hl : f.lo ≤ f.hi) (hh : f.hi < 64) (x : Nat) :
    reg64 (setFld s f x) f.off = setBits (reg64 s f.off) f.hi f.lo x := by
  by_cases h : f.hi < 32
  · have hlt := setBits_lt (regGet s f.off).toNat x hl h (regGet s f.off).isLt
    have hhigh : regGet (setFld s f x) (f.off + 4) = regGet s (f.off + 4) := regGet_setFld_ne s (by omega) (by omega) x
    apply Nat.eq_of_testBit_eq
    intro i
    rw [testBit_setBits _ _ hl]
    unfold reg64
    rw [hhigh, regGet_setFld_same s h, testBit_words, testBit_words, ← BitVec.testBit_toNat, BitVec.toNat_ofNat, Nat.mod_eq_of_lt hlt,
      testBit_setBits _ _ hl]
    by_cases hi : i < 32
    · rw [if_pos hi, if_pos hi]; rfl
    · rw [if_neg hi, if_neg hi, if_neg (by omega)]
  · unfold setFld
    rw [if_neg h, reg64_setReg64_same, Nat.mod_eq_of_lt (setBits_lt _ x hl hh (reg64_lt s _))]

/-- A write of a field of one word leaves the other words. -/
theorem regGet_setFld_word (s : State) {f : Fld} {o : Nat} (hf : f.hi < 32) (h : o ≠ f.off) (x : Nat) :
    regGet (setFld s f x) o = regGet s o := regGet_setFld_ne s h (fun h4 => absurd hf (Nat.not_lt.mpr h4)) x

/-- A field after a write of it. -/
theorem fld_setFld_self (s : State) {f : Fld} (hl : f.lo ≤ f.hi) (hh : f.hi < 64) (x : Nat) :
    fld (setFld s f x) f = x % 2 ^ (f.hi + 1 - f.lo) := by
  rw [fld_eq_bits, reg64_setFld_same s hl hh, bits_setBits _ _ hl]

/-! ## Fields that share no bit -/

/-- No word of field `g` is a word of field `f`. -/
def Fld.elsewhere (f g : Fld) : Bool :=
  decide (g.off ≠ f.off ∧ (32 ≤ f.hi → g.off ≠ f.off + 4) ∧ (32 ≤ g.hi → g.off + 4 ≠ f.off))

/-- A write of field `f` leaves field `g` as it is: they lie in other words, or at other bits of one register. -/
def Fld.apart (f g : Fld) : Bool :=
  f.elsewhere g || decide (f.off = g.off ∧ f.lo ≤ f.hi ∧ f.hi < 64 ∧ (f.hi < g.lo ∨ g.hi < f.lo))

theorem Fld.elsewhere_iff {f g : Fld} : f.elsewhere g = true ↔
    g.off ≠ f.off ∧ (32 ≤ f.hi → g.off ≠ f.off + 4) ∧ (32 ≤ g.hi → g.off + 4 ≠ f.off) := decide_eq_true_iff

theorem fld_setFld_elsewhere (s : State) {f g : Fld} (h : f.elsewhere g = true) (x : Nat) : fld (setFld s f x) g = fld s g := by
  obtain ⟨h1, h2, h3⟩ := Fld.elsewhere_iff.mp h
  exact fld_congr (regGet_setFld_ne s h1 h2 x) fun h4 => regGet_setFld_ne s (h3 h4) (by omega) x

theorem fld_setFld_apart (s : State) {f g : Fld} (h : f.apart g = true) (x : Nat) : fld (setFld s f x) g = fld s g := by
  rw [Fld.apart, Bool.or_eq_true, decide_eq_true_eq] at h
  rcases h with h | ⟨ho, hl, hh, hbits⟩
  · exact fld_setFld_elsewhere s h x
  · rw [fld_eq_bits, fld_eq_bits, ← ho, reg64_setFld_same s hl hh, bits_setBits_apart _ _ hl hbits]

/-- A state whose registers are those of another has its fields. -/
theorem fld_of_regs {s v : State} (h : v.regs = s.regs) (f : Fld) : fld v f = fld s f :=
  fld_congr (regGet_congr h _) fun _ => regGet_congr h _

theorem flag_of_fld {s v : State} {f : Fld} (h : fld v f = fld s f) : flag v f = flag s f := by unfold flag; rw [h]

/-! ## The words that an operation on registers writes -/

/-- `v` is `s` but for register words among `os`, and the notes on them. -/
structure RegsAt (os : List Nat) (s v : State) : Prop where
  only  : RegsOnly s v
  words : ∀ o, o ∉ os → regGet v o = regGet s o

namespace RegsAt
variable {os : List Nat} {s v w : State}

theorem refl (os : List Nat) (s : State) : RegsAt os s s := ⟨.refl s, fun _ _ => rfl⟩

theorem trans (h : RegsAt os s v) (g : RegsAt os v w) : RegsAt os s w :=
  ⟨h.only.trans g.only, fun o ho => (g.words o ho).trans (h.words o ho)⟩

theorem mono {ps : List Nat} (h : RegsAt os s v) (hs : ∀ o ∈ os, o ∈ ps) : RegsAt ps s v :=
  ⟨h.only, fun o ho => h.words o fun hm => ho (hs o hm)⟩

theorem ite {p : Prop} [Decidable p] (hv : RegsAt os s v) (hw : RegsAt os s w) : RegsAt os s (if p then v else w) := by
  split <;> assumption

theorem regPut (s : State) {o : Nat} (h : o ∈ os) (x : Word32) : RegsAt os s (regPut s o x) :=
  ⟨.regPut s o x, fun _ hp => regGet_regPut_ne _ _ fun e => hp (e ▸ h)⟩

theorem setReg64 (s : State) {o : Nat} (h : o ∈ os) (h4 : o + 4 ∈ os) (x : Nat) : RegsAt os s (setReg64 s o x) :=
  ⟨.setReg64 s o x, fun _ hp => regGet_setReg64_ne s (fun e => hp (by rw [e]; exact h)) (fun e => hp (by rw [e]; exact h4)) x⟩

theorem setFld (s : State) {f : Fld} (h : f.off ∈ os) (h4 : 32 ≤ f.hi → f.off + 4 ∈ os) (x : Nat) : RegsAt os s (setFld s f x) :=
  ⟨.setFld s f x, fun _ hp => regGet_setFld_ne s (fun e => hp (by rw [e]; exact h)) (fun hh e => hp (by rw [e]; exact h4 hh)) x⟩

/-- A field of one word. -/
theorem setFldWord (s : State) {f : Fld} (hf : f.hi < 32) (h : f.off ∈ os) (x : Nat) : RegsAt os s (Machine.setFld s f x) :=
  setFld s h (fun h4 => absurd hf (Nat.not_lt.mpr h4)) x

theorem foldl {α : Type} {f : State → α → State} {l : List α} (h : ∀ u, ∀ x ∈ l, RegsAt os u (f u x)) (s : State) :
    RegsAt os s (l.foldl f s) := by
  induction l generalizing s with
  | nil => exact refl os s
  | cons x l ih => exact (h s x List.mem_cons_self).trans (ih (fun u y hy => h u y (List.mem_cons_of_mem _ hy)) _)

theorem fld (h : RegsAt os s v) {g : Fld} (hg : g.off ∉ os) (hg4 : 32 ≤ g.hi → g.off + 4 ∉ os) : fld v g = fld s g :=
  fld_congr (h.words _ hg) fun h4 => h.words _ (hg4 h4)

theorem reg64 (h : RegsAt os s v) {o : Nat} (ho : o ∉ os) (ho4 : o + 4 ∉ os) : reg64 v o = reg64 s o := by
  unfold Machine.reg64
  rw [h.words o ho, h.words _ ho4]

theorem flag (h : RegsAt os s v) {g : Fld} (hg : g.off ∉ os) (hg4 : 32 ≤ g.hi → g.off + 4 ∉ os) : flag v g = flag s g :=
  flag_of_fld (h.fld hg hg4)

end RegsAt

end Sys2Proof.Machine
end

section
/-! What writes of memory, and the forward step of the tick counter (R47), leave unchanged. -/
namespace Sys2Proof.Machine

/-- A relation that every step of a fold keeps holds of the fold. -/
theorem foldl_rel {α : Type} {R : State → State → Prop} (hr : ∀ s, R s s) (ht : ∀ {s v w}, R s v → R v w → R s w)
    {f : State → α → State} (h : ∀ u x, R u (f u x)) (l : List α) (s : State) : R s (l.foldl f s) := by
  induction l generalizing s with
  | nil => exact hr s
  | cons x l ih => exact ht (h s x) (ih _)

/-! ## Writes of memory -/

/-- `v` is `s` but for memory with its words in error, and for what an error record writes. -/
def MemLogOnly (s v : State) : Prop :=
  ∃ m b w r a h hm ig ms, v = { s with mem := m, badWords := b, softWords := w, regs := r, hwSetAt := a, hwSet := h, hostMem := hm, integ := ig, msix := ms }

theorem LogOnly.memLog {s v : State} (h : LogOnly s v) : MemLogOnly s v := by
  obtain ⟨r, a, n, hm, ig, ms, rfl⟩ := h
  exact ⟨_, _, _, r, a, n, hm, ig, ms, rfl⟩

namespace MemLogOnly
variable {s v w : State}

theorem refl (s : State) : MemLogOnly s s := (LogOnly.refl s).memLog

theorem trans (h : MemLogOnly s v) (g : MemLogOnly v w) : MemLogOnly s w := by
  obtain ⟨m, b, c, r, a, n, hm, ig, ms, rfl⟩ := h
  obtain ⟨m', b', c', r', a', n', hm', ig', ms', rfl⟩ := g
  exact ⟨m', b', c', r', a', n', hm', ig', ms', rfl⟩

theorem foldl {α : Type} {f : State → α → State} (h : ∀ u x, MemLogOnly u (f u x)) (l : List α) (s : State) :
    MemLogOnly s (l.foldl f s) := foldl_rel refl trans h l s

theorem countSoft (s : State) (a n : Nat) : MemLogOnly s (countSoft s a n) :=
  foldl (fun u _ => (RegsOnly.countUp u _ _ 0 1).log.memLog) _ s

theorem mergeRead (s : State) (a w : Nat) : MemLogOnly s (mergeRead s a w) := by
  unfold Machine.mergeRead
  split
  · exact ((LogOnly.ueEvent s _ _ _).trans (LogOnly.dropWrite _ _)).memLog
  · exact countSoft s _ _

theorem store (s : State) (a : Nat) (bs : List Byte) : MemLogOnly s (store s a bs) := ⟨_, _, _, _, _, _, _, _, _, rfl⟩

theorem physWrite (s : State) (a : Nat) (bs : List Byte) : MemLogOnly s (physWrite s a bs) := by
  have hsoft : ∀ (u : State) (l : List (Nat × Bool)), MemLogOnly u { u with softWords := l } := fun u l => ⟨_, _, _, _, _, _, _, _, _, rfl⟩
  unfold Machine.physWrite
  dsimp only
  split
  · exact ⟨_, _, _, _, _, _, _, _, _, rfl⟩
  · split
    · exact store s a bs
    · exact ((foldl (fun u w => mergeRead u a w) _ s).trans (store _ a _)).trans (hsoft _ _)

theorem physPut (s : State) (a n v : Nat) : MemLogOnly s (physPut s a n v) := physWrite s a _

end MemLogOnly

/-! ## The forward step -/

theorem shiftRc_frame (d : Nat) (s : State) (rc : Nat) : MemLogOnly s (shiftRc d s rc) :=
  MemLogOnly.foldl (fun u _ => MemLogOnly.physPut u _ _ _) _ s

theorem shiftTenant_frame (d : Nat) (s : State) (n : Nat) : MemLogOnly s (shiftTenant d s n) := by
  unfold shiftTenant
  dsimp only
  split
  · exact .refl s
  · exact .physPut s _ _ _

theorem shiftSlot_frame (d : Nat) (s : State) (i : Nat) : MemLogOnly s (shiftSlot d s i) :=
  (RegsOnly.ite (.refl s) (.setReg64 s _ _)).log.memLog

/-- `v` is `s` but for the device operation table, the cells, the requests and the queues. -/
def UnitsOnly (s v : State) : Prop := ∃ d c r q, v = { s with dot := d, cells := c, reqs := r, queues := q }

namespace UnitsOnly
variable {s v w : State}

theorem refl (s : State) : UnitsOnly s s := ⟨_, _, _, _, rfl⟩

theorem trans (h : UnitsOnly s v) (g : UnitsOnly v w) : UnitsOnly s w := by
  obtain ⟨d, c, r, q, rfl⟩ := h
  obtain ⟨d', c', r', q', rfl⟩ := g
  exact ⟨d', c', r', q', rfl⟩

theorem foldl {α : Type} {f : State → α → State} (h : ∀ u x, UnitsOnly u (f u x)) (l : List α) (s : State) :
    UnitsOnly s (l.foldl f s) := foldl_rel refl trans h l s

end UnitsOnly

/-- The ticks that memory and the open repair slots hold, moved by `d`. -/
def memoryTicks (d : Nat) (s : State) : State :=
  (List.range 16).foldl (shiftSlot d) ((List.range numTenants).foldl (shiftTenant d) ((liveRcs s).foldl (shiftRc d) s))

/-- The ticks of operations, cells, requests and queues, moved by `d`. -/
def unitTicks (d : Nat) (s : State) : State :=
  let s4 := (s.dot.map (·.1)).foldl (fun st m => setDot st m (shiftOp d (getDot st m))) s
  let s5 := (s4.cells.map (·.1)).foldl (fun st n => setCell st n (shiftCell d (getCell st n))) s4
  let s6 := (s5.reqs.map (·.1)).foldl (fun st n => setReq st n (shiftReq d (getReq st n))) s5
  (s6.queues.map (·.1)).foldl (fun st n => setQueue st n (shiftQueue d (getQueue st n))) s6

/-- The scheduler and the counter in the new count. -/
def counterMoved (d now : Nat) (s : State) : State :=
  { s with tk := now, sched := shiftSched d now (reg64 s Reg.pwEnergyUj.off) s.sched }

theorem stepForward_eq (s : State) (d : Nat) : stepForward s d = setReg64 (setReg64
    (counterMoved d ((s.tk + d) % 2 ^ 64) (unitTicks d (shiftEngines d (memoryTicks d s)))) 0x20010 ((s.tk + d) % 2 ^ 64)) 0x20018 d := rfl

theorem memoryTicks_frame (d : Nat) (s : State) : MemLogOnly s (memoryTicks d s) :=
  ((MemLogOnly.foldl (shiftRc_frame d) _ s).trans (MemLogOnly.foldl (shiftTenant_frame d) _ _)).trans
    (MemLogOnly.foldl (shiftSlot_frame d) _ _)

theorem unitTicks_frame (d : Nat) (s : State) : UnitsOnly s (unitTicks d s) :=
  (((UnitsOnly.foldl (fun _ _ => ⟨_, _, _, _, rfl⟩) _ s).trans (UnitsOnly.foldl (fun _ _ => ⟨_, _, _, _, rfl⟩) _ _)).trans
    (UnitsOnly.foldl (fun _ _ => ⟨_, _, _, _, rfl⟩) _ _)).trans (UnitsOnly.foldl (fun _ _ => ⟨_, _, _, _, rfl⟩) _ _)

/-- The counter, the alignment state and the timers after the forward step (R47, Table 3-8). -/
structure SteppedForward (s : State) (d : Nat) (v : State) : Prop where
  tk     : v.tk = (s.tk + d) % 2 ^ 64
  align  : v.align = { s.align with slewAt := s.align.slewAt.map (· + d) }
  cores  : v.cores = s.cores
  timers : v.timer0 = shiftTick d s.timer0 ∧ v.timer1 = shiftTick d s.timer1 ∧ v.timer2 = shiftTick d s.timer2
  sample : v.power.sampleCut = some (s.power.sampleCut.getD (s.tk / 1000 * 1000) + d)
  count  : reg64 v 0x20010 = (s.tk + d) % 2 ^ 64
  lead   : reg64 v 0x20018 = d % 2 ^ 64

theorem stepForward_spec (s : State) (d : Nat) : SteppedForward s d (stepForward s d) := by
  obtain ⟨m, b, c, r, a, n, hm, ig, ms, hu⟩ := memoryTicks_frame d s
  obtain ⟨d', c', r', q', hv⟩ := unitTicks_frame d (shiftEngines d (memoryTicks d s))
  rw [hu] at hv
  rw [stepForward_eq, hu, hv]
  refine ⟨rfl, rfl, rfl, ⟨rfl, rfl, rfl⟩, rfl, ?_, reg64_setReg64_same _ _ _⟩
  rw [reg64_setReg64_ne _ (by decide) (by decide) (by decide), reg64_setReg64_same, Nat.mod_mod]

end Sys2Proof.Machine
end

section
/-! The alignment commands (R45 to R49): what a pulse, its loss and a correction leave. -/
namespace Sys2Proof.Machine
variable {s : State} {t : Nat}

/-- LOCKED, SLEWING and HOLDOVER as a pulse or a correction leaves them. -/
theorem showAlign_fields (s : State) (agree : Bool) : fld (showAlign s agree) Reg.tkStatusLocked = b2n agree ∧
    fld (showAlign s agree) Reg.tkStatusSlewing = b2n !agree ∧
    ∀ g, Reg.tkStatusLocked.apart g = true → Reg.tkStatusSlewing.apart g = true → fld (showAlign s agree) g = fld s g := by
  unfold showAlign
  refine ⟨?_, ?_, fun g h1 h2 => ?_⟩
  · rw [fld_setFld_apart _ (by decide), fld_setFld_self _ (by decide) (by decide)]
    cases agree <;> rfl
  · rw [fld_setFld_self _ (by decide) (by decide)]
    cases agree <;> rfl
  · rw [fld_setFld_apart _ h2, fld_setFld_apart _ h1]

theorem showAlign_frame (s : State) (agree : Bool) : RegsAt [Reg.tkStatusLocked.off] s (showAlign s agree) :=
  (RegsAt.setFldWord s (by decide) (by decide) _).trans (RegsAt.setFldWord _ (by decide) (by decide) _)

/-! ## The leader's pulse -/

theorem exec_ffSyncOut (ha : alive s = true) : exec (.ffSyncOut t) s = .next (syncPulse (atTick s t)) := present_alive ha

/-! ## A pulse received -/

/-- What is left of the lead once the first pulse has stepped the counter (R47). -/
def leadLeft (a : Align) (t n : Nat) : Int := if a.firstLock = false ∧ t < n then 0 else (n : Int) - (t : Int)

/-- The state in which a follower has taken the leader's lead, at its first pulse. -/
def leadTaken (s : State) (t n : Nat) : State := if s.align.firstLock = false ∧ t < n then stepForward s (n - t) else s

/-- The alignment state after a follower's pulse. -/
def alignPulsed (s : State) (t n : Nat) (ok : Bool) : State :=
  let u := leadTaken s t n
  { u with align := { u.align with
      locked := ok && decide (leadLeft s.align t n = 0), firstLock := true, lastPulse := u.tk, diff := leadLeft s.align t n } }

theorem syncIn_follower (h : s.align.follower = true) (n : Nat) (ok : Bool) : syncIn t n ok s =
    showAlign (setFld (alignPulsed s t n ok) Reg.tkStatusHoldover 0) (ok && decide (leadLeft s.align t n = 0)) := by
  have hlead : (s.align.firstLock = false ∧ (0 : Int) < (n : Int) - (t : Int)) ↔ (s.align.firstLock = false ∧ t < n) := by
    rw [Int.sub_pos, Int.ofNat_lt]
  have hd : ((n : Int) - (t : Int)).toNat = n - t := by omega
  unfold syncIn alignPulsed leadTaken leadLeft
  rw [if_neg (by simp [h])]
  simp only [hlead, hd]

theorem exec_ffSyncIn (ha : alive s = true) (n : Nat) (ok : Bool) :
    exec (.ffSyncIn t n ok) s = .next (syncIn t n ok (atTick s t)) := present_alive (f := syncIn t n ok) ha

/-- LOCKED, SLEWING and HOLDOVER after a follower's pulse. -/
theorem syncIn_status (h : s.align.follower = true) (n : Nat) (ok : Bool) :
    fld (syncIn t n ok s) Reg.tkStatusLocked = b2n (ok && decide (leadLeft s.align t n = 0)) ∧
    fld (syncIn t n ok s) Reg.tkStatusSlewing = b2n !(ok && decide (leadLeft s.align t n = 0)) ∧
    fld (syncIn t n ok s) Reg.tkStatusHoldover = 0 := by
  rw [syncIn_follower h]
  obtain ⟨hlocked, hslewing, hother⟩ := showAlign_fields
    (setFld (alignPulsed s t n ok) Reg.tkStatusHoldover 0) (ok && decide (leadLeft s.align t n = 0))
  refine ⟨hlocked, hslewing, ?_⟩
  rw [hother _ (by decide) (by decide)]
  exact fld_setFld_self _ (by decide) (by decide) 0

/-- The registers that a follower's pulse writes are TK_STATUS's once the lead has been taken. -/
theorem syncIn_frame (h : s.align.follower = true) (n : Nat) (ok : Bool) :
    RegsAt [Reg.tkStatusLocked.off] (alignPulsed s t n ok) (syncIn t n ok s) := by
  rw [syncIn_follower h]
  exact (RegsAt.setFldWord _ (by decide) (by decide) _).trans (showAlign_frame _ _)

/-- What a follower's pulse leaves where it steps the counter forward (R47): as the step leaves it. -/
theorem syncIn_step (h : s.align.follower = true) {n : Nat} (hs : s.align.firstLock = false ∧ t < n) (ok : Bool) :
    ∃ v, SteppedForward s (n - t) v ∧ RegsAt [Reg.tkStatusLocked.off]
      { v with align := { v.align with locked := ok, firstLock := true, lastPulse := v.tk, diff := 0 } } (syncIn t n ok s) := by
  have hframe := syncIn_frame h (t := t) n ok
  have hleft : leadLeft s.align t n = 0 := if_pos hs
  rw [alignPulsed, hleft, leadTaken, if_pos hs, decide_eq_true rfl, Bool.and_true] at hframe
  exact ⟨_, stepForward_spec s (n - t), hframe⟩

/-- What any other pulse of a follower leaves: the counter and every tick stand. -/
theorem syncIn_keep (h : s.align.follower = true) {n : Nat} (hs : ¬ (s.align.firstLock = false ∧ t < n)) (ok : Bool) :
    RegsAt [Reg.tkStatusLocked.off] { s with align := { s.align with
      locked := ok && decide ((n : Int) - (t : Int) = 0), firstLock := true, lastPulse := s.tk, diff := (n : Int) - (t : Int) } }
      (syncIn t n ok s) := by
  have hframe := syncIn_frame h (t := t) n ok
  have hleft : leadLeft s.align t n = (n : Int) - (t : Int) := if_neg hs
  rwa [alignPulsed, hleft, leadTaken, if_neg hs] at hframe

/-! ## Pulses that fail to come -/

/-- Four periods have passed without a pulse after the first lock (R48). -/
def pulsesLost (s : State) : Prop :=
  s.align.follower = true ∧ s.align.firstLock = true ∧ flag s Reg.tkStatusHoldover = false ∧ s.align.lastPulse + 4096 ≤ s.tk

theorem exec_holdover (ha : alive s = true) : exec (.holdover t) s = .next (loseSync (atTick s t)) := present_alive ha

theorem loseSync_kept (h : ¬ pulsesLost s) : loseSync s = s := if_neg h

/-- The registers and the alignment state in HOLDOVER, before the interrupt. -/
def heldOver (s : State) : State :=
  setFld (setFld (setFld (setFld { s with align := { s.align with locked := false } } Reg.tkStatusHoldover 1) Reg.tkStatusLocked 0)
    Reg.tkStatusSlewing 0) Reg.tkStatusSyncLost 1

theorem loseSync_lost (h : pulsesLost s) : loseSync s = sendIf (heldOver s) Reg.tkCtrlSyncIrqEn 258 := if_pos h

theorem heldOver_frame (s : State) : RegsAt [Reg.tkStatusLocked.off] { s with align := { s.align with locked := false } } (heldOver s) :=
  (((RegsAt.setFldWord _ (by decide) (by decide) _).trans (.setFldWord _ (by decide) (by decide) _)).trans
    (.setFldWord _ (by decide) (by decide) _)).trans (.setFldWord _ (by decide) (by decide) _)

theorem heldOver_status (s : State) : fld (heldOver s) Reg.tkStatusHoldover = 1 ∧ fld (heldOver s) Reg.tkStatusLocked = 0 ∧
    fld (heldOver s) Reg.tkStatusSlewing = 0 ∧ fld (heldOver s) Reg.tkStatusSyncLost = 1 := by
  unfold heldOver
  simp (disch := decide) only [fld_setFld_apart, fld_setFld_self]
  decide

/-- An interrupt that its field enables, of a device neither FATAL nor FENCED (R342, R409, R410). -/
theorem sendIf_running {v : State} (hf : v.kolwin.fatal = false) (en : Fld) (n : Nat) : sendIf v en n =
    { v with msix := if flag v en = true ∧ mState v ≠ 5 then n :: v.msix else v.msix } := by
  have hfence : fenced v = true ↔ mState v = 5 := decide_eq_true_iff
  unfold sendIf sendVector
  by_cases he : flag v en = true
  · by_cases h5 : mState v = 5
    · rw [if_pos he, if_pos (.inr (hfence.mpr h5)), if_neg (by simp [h5])]
    · rw [if_pos he, if_neg (by simp [hf, hfence, h5]), if_pos ⟨he, h5⟩]
  · rw [if_neg he, if_neg (fun h => he h.1)]

/-! ## Slewing -/

/-- A correction is due (R48). -/
def correctionDue (s : State) : Prop := flag s Reg.tkStatusSlewing = true ∧ slewDue s = true

theorem exec_slewing (ha : alive s = true) (ok : Bool) : exec (.slewing t ok) s = .next (slew ok (atTick s t)) :=
  present_alive (f := slew ok) ha

theorem slew_kept (h : flag s Reg.tkStatusSlewing = false ∨ slewDue s = false) (ok : Bool) : slew ok s = s := if_pos h

/-- The difference one closer to 0. -/
def closer (d : Int) : Int := if 0 < d then d - 1 else if d < 0 then d + 1 else 0

/-- The count and the alignment state after a correction of the count. -/
def corrected (s : State) : State :=
  { s with tk := if 0 < s.align.diff then (s.tk + 1) % 2 ^ 64 else s.tk
           align := { s.align with slewAt := some s.tk, diff := closer s.align.diff, locked := decide (closer s.align.diff = 0) } }

theorem slew_edge (h : correctionDue s) : slew false s = { s with align := { s.align with slewAt := some s.tk } } := by
  obtain ⟨hs, hd⟩ := h
  unfold slew
  rw [if_neg (by simp [hs, hd]), if_pos rfl]

theorem slew_count (h : correctionDue s) :
    slew true s = if closer s.align.diff = 0 then showAlign (corrected s) true else corrected s := by
  obtain ⟨hs, hd⟩ := h
  unfold slew corrected closer
  rw [if_neg (by simp [hs, hd]), if_neg (by simp)]
  simp only [decide_eq_true_eq]

end Sys2Proof.Machine
end

section
/-! The statement about the alignment of the tick. -/
open Sys2Proof Sys2Proof.Machine

/-- Settles O49: each alignment command is presented to a running device, and its clause is what the pulse, its loss or the
correction leaves. -/
theorem tickAlignment : Obligations.TickAlignment := by
  intro s t ha u now a
  refine ⟨?_, ?_, ?_, ?_, ?_⟩
  · rw [exec_ffSyncOut ha]
    rfl
  · intro n ok hf
    rw [exec_ffSyncIn ha]
    exact congrArg _ (if_pos hf)
  · intro n ok hf step d agree
    obtain ⟨hlocked, hslewing, hholdover⟩ := syncIn_status (s := u) (t := t) hf n ok
    have hframe := syncIn_frame (s := u) (t := t) hf n ok
    refine ⟨_, exec_ffSyncIn ha n ok, ?_⟩
    have hone : ∀ b : Bool, b2n b = if b then 1 else 0 := fun b => rfl
    have hzero : ∀ b : Bool, b2n (!b) = if b then 0 else 1 := fun b => by cases b <;> rfl
    rw [hone] at hlocked
    rw [hzero] at hslewing
    by_cases hs : step
    · obtain ⟨w, hw, hregs⟩ := syncIn_step (s := u) (t := t) hf hs ok
      obtain ⟨htk, halign, hcores, ⟨h0, h1, h2⟩, hsample, hcount, hlead⟩ := hw
      have hgo : reg64 (syncIn t n ok u) 0x20010 = reg64 w 0x20010 := hregs.reg64 (by decide) (by decide)
      have hgl : reg64 (syncIn t n ok u) 0x20018 = reg64 w 0x20018 := hregs.reg64 (by decide) (by decide)
      rw [hcount] at hgo
      rw [hlead] at hgl
      have hd : d = 0 := if_pos hs
      have hagree : agree = ok := by simp [agree, hd]
      obtain ⟨r, b, m, he⟩ := hregs.only
      rw [he] at hgo hgl hlocked hslewing hholdover ⊢
      refine ⟨?_, ?_, hlocked, hslewing, hholdover, hcores, fun _ => ⟨?_, hgl, h0, hsample, h1, h2⟩, fun h => absurd hs h⟩
      · rw [hagree, hd, halign, if_pos hs]
        rfl
      · rw [if_pos hs]
        exact htk
      · exact hgo.trans htk.symm
    · have hregs := syncIn_keep (s := u) (t := t) hf hs ok
      have hd : d = (n : Int) - (t : Int) := if_neg hs
      obtain ⟨r, b, m, he⟩ := hregs.only
      rw [he] at hlocked hslewing hholdover ⊢
      refine ⟨?_, ?_, hlocked, hslewing, hholdover, rfl, fun h => absurd h hs, fun _ => rfl⟩
      · rw [if_neg hs]
        simp only [agree, hd]
        rfl
      · rw [if_neg hs]
        rfl
  · intro lost
    refine ⟨fun h => ?_, fun h => ?_⟩
    · rw [exec_holdover ha, loseSync_kept (s := u) h]
    · obtain ⟨hh, hl, hsl, hlost⟩ := heldOver_status u
      have hframe := heldOver_frame u
      have hfatal : (heldOver u).kolwin.fatal = false := by
        obtain ⟨r, b, m, he⟩ := hframe.only
        rw [he]
        simp only [alive, Bool.and_eq_true, Bool.not_eq_true'] at ha
        exact ha.2
      have hen : flag (heldOver u) Reg.tkCtrlSyncIrqEn = flag s Reg.tkCtrlSyncIrqEn := hframe.flag (by decide) (by decide)
      have hst : mState (heldOver u) = mState s := hframe.fld (by decide) (by decide)
      refine ⟨_, by rw [exec_holdover ha, loseSync_lost (s := u) h, sendIf_running hfatal], ?_⟩
      obtain ⟨r, b, m, he⟩ := hframe.only
      rw [hen, hst]
      refine ⟨?_, hh, hl, hsl, hlost, ?_, ?_, ?_⟩ <;> rw [he] <;> rfl
  · intro due w
    refine ⟨fun ok h => ?_, fun h1 h2 => ?_, fun h1 h2 => ?_⟩
    · rw [exec_slewing ha, slew_kept (s := u) h]
    · rw [exec_slewing ha, slew_edge (s := u) ⟨h1, h2⟩]
      rfl
    · by_cases hc : closer u.align.diff = 0
      · refine ⟨_, by rw [exec_slewing ha, slew_count (s := u) ⟨h1, h2⟩, if_pos hc], ?_⟩
        obtain ⟨hl, hsl, -⟩ := showAlign_fields (corrected u) true
        obtain ⟨r, b, m, he⟩ := (showAlign_frame (corrected u) true).only
        rw [he] at hl hsl ⊢
        exact ⟨rfl, rfl, rfl, fun _ => ⟨hl, hsl⟩, fun hne => absurd hc hne, rfl⟩
      · refine ⟨_, by rw [exec_slewing ha, slew_count (s := u) ⟨h1, h2⟩, if_neg hc], ?_⟩
        exact ⟨rfl, rfl, rfl, fun h0 => absurd h0 hc, fun _ => rfl, rfl⟩
end

section
/-! The two resets (R401, R421, Table 17-8): what a power-on reset and a device reset leave. -/
namespace Sys2Proof.Machine
variable {s : State} {t : Nat}

/-! ## The power-on reset -/

/-- What a reset starts from: the reset state, with what lies outside the device, flash and fuses. -/
def resetBase (s : State) : State :=
  { State.reset with
    pending := s.pending, hostMem := s.hostMem, msix := s.msix, readOut := s.readOut, free := s.free, kolwin := keptKolwin s
    pins := { s.pins with alertN := true, syncOut := none } }

/-- KW_RESET_CAUSE and the fuse's copy: the words that a reset writes. -/
def resetWords : List Nat := [0xC0008, 0xC0018]

theorem cleared_words (s : State) (cause : Nat) : RegsAt resetWords (resetBase s) (cleared s cause) :=
  (RegsAt.setFldWord _ (f := Reg.kwResetCause) (by decide) (by decide) cause).trans
    (.setFldWord _ (f := Reg.kwSvFuseMinimum) (by decide) (by decide) s.kolwin.svFuse)

theorem cleared_cause (s : State) {cause : Nat} (hc : cause < 8) : fld (cleared s cause) Reg.kwResetCause = cause := by
  unfold cleared
  rw [fld_setFld_apart _ (by decide), fld_setFld_self _ (by decide) (by decide)]
  exact Nat.mod_eq_of_lt hc

theorem regGet_cleared (s : State) (cause : Nat) {o : Nat} (h : o ∉ resetWords) : regGet (cleared s cause) o = regGet State.reset o :=
  (cleared_words s cause).words o h

/-- The device after a power-on reset of `s`: everything at its reset value but flash, profiles, fuses and what lies outside. -/
def Fresh (s : State) (cause : Nat) (v : State) : Prop :=
  v.tk = 0 ∧ v.mem = [] ∧ v.imem = [] ∧ v.cores = [] ∧ v.clusters = [] ∧ v.cells = [] ∧
  v.gids = [] ∧ v.dot = [] ∧ v.reqs = [] ∧ v.queues = [] ∧ v.images = [] ∧ v.table = [] ∧ v.pcie = {} ∧ v.kolwin.fatal = false ∧
  fld v Reg.kwResetCause = cause ∧ fld v Reg.kwStatusBoot = 0 ∧
  (∀ off, off ≠ 0xC0008 → off ≠ 0xC0018 → regGet v off = regGet State.reset off) ∧ v.hostMem = s.hostMem ∧ v.msix = s.msix ∧
  v.kolwin.profiles = s.kolwin.profiles ∧ v.kolwin.svFuse = s.kolwin.svFuse ∧ (s.kolwin.writing = [] → v.kolwin.flash = s.kolwin.flash)

theorem powerOnReset_fresh (s : State) {cause : Nat} (hc : cause < 8) (p : Pins) :
    Fresh s cause { powerOnReset s cause with pins := p } := by
  have hregs : ∀ off, off ≠ 0xC0008 → off ≠ 0xC0018 → regGet (cleared s cause) off = regGet State.reset off := fun off h8 h18 =>
    regGet_cleared s cause (by simp [resetWords, h8, h18])
  have hcause := cleared_cause s hc
  have hboot : fld (cleared s cause) Reg.kwStatusBoot = 0 :=
    (fld_congr (hregs _ (by decide) (by decide)) fun h => absurd h (by decide)).trans bootNow_reset
  obtain ⟨r, a, n, he⟩ := (cleared_words s cause).only
  unfold powerOnReset
  rw [he] at hregs hcause hboot ⊢
  exact ⟨rfl, rfl, rfl, rfl, rfl, rfl, rfl, rfl, rfl, rfl, rfl, rfl, rfl, rfl, hcause, hboot, hregs, rfl, rfl, rfl, rfl,
    fun h => if_pos (by simp [h])⟩

@[simp] theorem regGet_modPower (s : State) (f : Power → Power) (o : Nat) : regGet (modPower s f) o = regGet s o := rfl

/-- An operation on registers that meets another governor's state. -/
theorem RegsAt.modPower {os : List Nat} {v : State} (h : RegsAt os s v) (f : Power → Power) :
    RegsAt os (modPower s f) (modPower v f) := by
  refine ⟨?_, h.words⟩
  obtain ⟨r, a, n, rfl⟩ := h.only
  exact ⟨r, a, n, rfl⟩

/-! ## The profile that a reset starts with (R381, R386) -/

/-- PW_PROFILE and PW_MODE_ACTIVE. -/
def profileWords : List Nat := [0xA0008, 0xA0010]

theorem startProfile_words (s : State) (pins active : Nat) (record : List Byte) :
    RegsAt profileWords (modPower s fun p => { p with record := record }) (startProfile s pins active record) :=
  (((RegsAt.setFldWord _ (f := Reg.pwProfilePins) (by decide) (by decide) _).trans
    (.setFldWord _ (f := Reg.pwProfileActive) (by decide) (by decide) _)).trans (.regPut _ (by decide) _)).trans
    (.setFldWord _ (f := Reg.pwActiveProfile) (by decide) (by decide) _)

theorem startProfile_fields (s : State) {pins active : Nat} (hp : pins < 4) (ha : active < 4) (record : List Byte) :
    fld (startProfile s pins active record) Reg.pwProfilePins = pins ∧
    fld (startProfile s pins active record) Reg.pwProfileActive = active := by
  have hput : ∀ (x : State) (w : Word32) (y : Nat) (g : Fld), g.off = 0xA0008 → g.hi < 32 →
      fld (setFld (regPut x 0xA0010 w) Reg.pwActiveProfile y) g = fld x g := by
    intro x w y g ho hh
    have hword : regGet (setFld (regPut x 0xA0010 w) Reg.pwActiveProfile y) g.off = regGet x g.off := by
      rw [regGet_setFld_word _ (by decide) (by rw [ho]; decide), regGet_regPut_ne _ _ (by rw [ho]; decide)]
    exact fld_congr hword fun h => absurd h (by omega)
  unfold startProfile
  dsimp only
  rw [hput _ _ _ _ rfl (by decide), hput _ _ _ _ rfl (by decide), fld_setFld_apart _ (by decide),
    fld_setFld_self _ (by decide) (by decide), fld_setFld_self _ (by decide) (by decide)]
  exact ⟨Nat.mod_eq_of_lt hp, Nat.mod_eq_of_lt ha⟩

/-! ## Core states -/

/-- The registers of the physical cores. -/
def coreWords : List Nat := (List.range 1088).map fun i => 0x91000 + 4 * i

theorem mem_coreWords {o : Nat} : o ∈ coreWords ↔ 0x91000 ≤ o ∧ o < 0x92100 ∧ o % 4 = 0 := by
  simp only [coreWords, List.mem_map, List.mem_range]
  constructor
  · rintro ⟨i, hi, rfl⟩; omega
  · rintro ⟨h1, h2, h3⟩; exact ⟨(o - 0x91000) / 4, by omega, by omega⟩

theorem coreState_setFld_same (s : State) (k : Nat) {x : Nat} (hx : x < 16) : coreState (setFld s (Reg.inCoreState k) x) k = x := by
  rw [coreState, fld_setFld_self _ (by simp [Reg.inCoreState]) (by simp [Reg.inCoreState])]
  exact Nat.mod_eq_of_lt hx

theorem coreState_setFld_ne (s : State) {k j : Nat} (h : j ≠ k) (x : Nat) :
    coreState (setFld s (Reg.inCoreState k) x) j = coreState s j :=
  fld_setFld_elsewhere s (Fld.elsewhere_iff.mpr (by simp only [Reg.inCoreState]; omega)) x

theorem retired_iff {s : State} {k : Nat} : retired s k = true ↔ coreState s k = icRetired := decide_eq_true_iff

theorem setFld_inCore_words (s : State) {k : Nat} (hk : k < numCores) (x : Nat) : RegsAt coreWords s (setFld s (Reg.inCoreState k) x) := by
  unfold numCores at hk
  exact .setFld s (mem_coreWords.mpr (by simp only [Reg.inCoreState]; omega)) (fun _ => mem_coreWords.mpr (by simp only [Reg.inCoreState]; omega)) x

/-- The cores of a list retired: each reads RETIRED, the others as they did. -/
theorem coreState_retireAll (l : List Nat) : ∀ (s : State) (k : Nat),
    coreState (l.foldl (fun st k => setFld st (Reg.inCoreState k) icRetired) s) k = if k ∈ l then icRetired else coreState s k := by
  induction l with
  | nil => intro s k; rfl
  | cons j l ih =>
    intro s k
    rw [List.foldl_cons, ih]
    by_cases hl : k ∈ l
    · rw [if_pos hl, if_pos (List.mem_cons_of_mem _ hl)]
    · by_cases hj : k = j
      · rw [if_neg hl, if_pos (by simp [hj]), hj, coreState_setFld_same _ _ (by decide)]
      · rw [if_neg hl, if_neg (by simp [hj, hl]), coreState_setFld_ne _ hj]

/-! ## The device reset -/

/-- A read of an index that a fold of writes does not reach. -/
theorem smGet_foldl_smSet {α : Type} [DecidableEq α] (d : Nat → α) {k : Nat} (l : List (Nat × α)) (h : ∀ c ∈ l, k ≠ c.1) :
    ∀ m : List (Nat × α), smGet d (l.foldl (fun m c => smSet d m c.1 c.2) m) k = smGet d m k := by
  induction l with
  | nil => exact fun _ => rfl
  | cons c l ih =>
    intro m
    rw [List.foldl_cons, ih fun c hc => h c (List.mem_cons_of_mem _ hc), smGet_smSet_ne _ _ _ (h c List.mem_cons_self)]

/-- The device reset before the retirements, the tick's alignment and the profile are put back. -/
def deviceCleared (s : State) (cause : Nat) : State :=
  let s1 := cleared s cause
  { s1 with
    tk := s.tk, gids := s.gids
    regs := (s.regs.filter fun r => decide (0x20000 ≤ r.1 ∧ r.1 < 0x30000)).foldl (fun m r => smSet regReset m r.1 r.2) s1.regs
    mem := s.mem.filter fun c => inTier2 c.1
    badWords := s.badWords.filter fun w => inTier2 (16 * w.1)
    softWords := s.softWords.filter fun w => inTier2 (16 * w.1)
    power := { s1.power with tier2Up := s.power.tier2Up }
    kolwin := { s1.kolwin with tier2Trained := s.kolwin.tier2Trained, resetting := true }
    sched := { s1.sched with fomStart := s.tk } }

/-- The cores that stay retired, and the device its own leader again. -/
def retirementsKept (s v : State) : State :=
  let v1 := ((List.range numCores).filter (retired s)).foldl (fun st k => setFld st (Reg.inCoreState k) icRetired) v
  setFld (setFld (setFld (setFld v1 Reg.tkStatusLeader 1) Reg.tkStatusLocked 0) Reg.tkStatusHoldover 0) Reg.tkStatusSlewing 0

theorem clearedDevice_eq (s : State) (cause : Nat) : clearedDevice s cause =
    startProfile (retirementsKept s (deviceCleared s cause)) (fld s Reg.pwProfilePins) (fld s Reg.pwProfileActive) s.power.record := rfl

theorem regGet_deviceCleared (s : State) (cause : Nat) {o : Nat} (h : o < 0x20000 ∨ 0x30000 ≤ o) :
    regGet (deviceCleared s cause) o = regGet (cleared s cause) o := by
  refine smGet_foldl_smSet regReset _ (fun c hc => ?_) _
  have := (List.mem_filter.mp hc).2
  simp only [decide_eq_true_eq] at this
  omega

theorem retirementsKept_words (s v : State) : RegsAt (0x20008 :: coreWords) v (retirementsKept s v) := by
  have hcores : RegsAt coreWords v (((List.range numCores).filter (retired s)).foldl (fun st k => setFld st (Reg.inCoreState k) icRetired) v) :=
    .foldl (fun u k hk => setFld_inCore_words u (List.mem_range.mp (List.mem_filter.mp hk).1) _) v
  refine (hcores.mono fun o ho => List.mem_cons_of_mem _ ho).trans ?_
  exact (((RegsAt.setFldWord _ (f := Reg.tkStatusLeader) (by decide) List.mem_cons_self _).trans
    (.setFldWord _ (f := Reg.tkStatusLocked) (by decide) List.mem_cons_self _)).trans
    (.setFldWord _ (f := Reg.tkStatusHoldover) (by decide) List.mem_cons_self _)).trans
    (.setFldWord _ (f := Reg.tkStatusSlewing) (by decide) List.mem_cons_self _)

/-- A retired core stays retired through the words that follow. -/
theorem retired_retirementsKept (s v : State) {k : Nat} (hk : k < numCores) (h : retired s k = true) :
    retired (retirementsKept s v) k = true := by
  rw [retired_iff]
  have hne : ∀ (x : State) (f : Fld) (y : Nat), f.hi < 32 → f.off = 0x20008 → coreState (setFld x f y) k = coreState x k := fun x f y hf ho =>
    fld_setFld_elsewhere x (Fld.elsewhere_iff.mpr (by simp only [Reg.inCoreState]; omega)) y
  unfold retirementsKept
  dsimp only
  rw [hne _ _ _ (by decide) rfl, hne _ _ _ (by decide) rfl, hne _ _ _ (by decide) rfl, hne _ _ _ (by decide) rfl, coreState_retireAll,
    if_pos (List.mem_filter.mpr ⟨List.mem_range.mpr hk, h⟩)]

/-- The words that a device reset writes after clearing, but for HQ_STATUS and KW_STATUS. -/
def deviceWords : List Nat := 0x20008 :: coreWords ++ profileWords

theorem clearedDevice_words (s : State) (cause : Nat) :
    RegsAt deviceWords (modPower (deviceCleared s cause) fun p => { p with record := s.power.record }) (clearedDevice s cause) := by
  rw [clearedDevice_eq]
  have hkept : RegsAt deviceWords (deviceCleared s cause) (retirementsKept s (deviceCleared s cause)) :=
    (retirementsKept_words s _).mono fun o ho => List.mem_append_left _ ho
  have hstart := (startProfile_words (retirementsKept s (deviceCleared s cause)) (fld s Reg.pwProfilePins)
    (fld s Reg.pwProfileActive) s.power.record).mono (ps := deviceWords) fun o ho => List.mem_append_right _ ho
  exact (hkept.modPower _).trans hstart

theorem not_mem_deviceWords {o : Nat} (h1 : o ≠ 0x20008) (h2 : o < 0x91000 ∨ 0x92100 ≤ o) (h3 : o ≠ 0xA0008) (h4 : o ≠ 0xA0010) :
    o ∉ deviceWords := by
  simp only [deviceWords, profileWords, List.cons_append, List.mem_cons, List.mem_append, mem_coreWords, List.not_mem_nil, or_false]
  omega

theorem regGet_clearedDevice (s : State) (cause : Nat) {o : Nat} (h : 0xB0000 ≤ o) :
    regGet (clearedDevice s cause) o = regGet (cleared s cause) o := by
  rw [(clearedDevice_words s cause).words o (not_mem_deviceWords (by omega) (by omega) (by omega) (by omega)), regGet_modPower,
    regGet_deviceCleared s cause (.inr (by omega))]

theorem clearedDevice_profile (s : State) (cause : Nat) :
    fld (clearedDevice s cause) Reg.pwProfilePins = fld s Reg.pwProfilePins ∧
    fld (clearedDevice s cause) Reg.pwProfileActive = fld s Reg.pwProfileActive := by
  rw [clearedDevice_eq]
  have hlt : ∀ f : Fld, f.hi + 1 - f.lo = 2 → fld s f < 4 := fun f hf => by
    have h := bits_lt (reg64 s f.off) f.hi f.lo
    rw [hf] at h
    rw [fld_eq_bits]
    exact h
  exact startProfile_fields _ (hlt _ rfl) (hlt _ rfl) _

theorem clearedDevice_retired (s : State) (cause : Nat) {k : Nat} (hk : k < numCores) (h : retired s k = true) :
    retired (clearedDevice s cause) k = true := by
  have hcore : ∀ o ∈ coreWords, o ∉ profileWords := fun o ho => by
    have := mem_coreWords.mp ho
    simp only [profileWords, List.mem_cons, List.not_mem_nil, or_false]
    omega
  have hmem : ∀ i < 2, 0x91000 + 0x8 * k + 4 * i ∈ coreWords := fun i hi => by
    unfold numCores at hk
    exact mem_coreWords.mpr (by omega)
  have hfld := (startProfile_words (retirementsKept s (deviceCleared s cause)) (fld s Reg.pwProfilePins)
    (fld s Reg.pwProfileActive) s.power.record).fld (g := Reg.inCoreState k) (hcore _ (hmem 0 (by decide))) (fun _ => hcore _ (hmem 1 (by decide)))
  have hkept := retired_retirementsKept s (deviceCleared s cause) hk h
  rw [clearedDevice_eq, retired_iff, coreState, hfld]
  rw [retired_iff] at hkept
  exact hkept

theorem deviceReset_acts {cause : Nat} (hr : s.kolwin.resetting = false) (hs : s.power.shutdown = false) :
    deviceReset s cause = if cause = 3 then clearedDevice s cause else linkKept s (clearedDevice s cause) := by
  unfold deviceReset
  rw [if_neg (by simp [hr, hs])]

theorem deviceReset_absorbed {cause : Nat} (h : s.kolwin.resetting = true ∨ s.power.shutdown = true) : deviceReset s cause = s := if_pos h

/-- HQ_STATUS and KW_STATUS. -/
def linkWords : List Nat := [0xB0004, 0xC0000]

theorem linkKept_words (s v : State) : RegsAt linkWords v (linkKept s v) :=
  .ite (.refl _ v) (((RegsAt.setFldWord _ (f := Reg.hqStatusSpeed) (by decide) (by decide) _).trans
    (.setFldWord _ (f := Reg.hqStatusWidth) (by decide) (by decide) _)).trans
    (.setFldWord _ (f := Reg.kwStatusBoot) (by decide) (by decide) _))

theorem linkKept_boot (s v : State) : fld (linkKept s v) Reg.kwStatusBoot = if fld s Reg.hqStatusWidth = 0 then fld v Reg.kwStatusBoot else 1 := by
  unfold linkKept
  split
  · rfl
  · exact fld_setFld_self _ (by decide) (by decide) 1

theorem deviceReset_words {cause : Nat} (hr : s.kolwin.resetting = false) (hs : s.power.shutdown = false) :
    RegsAt linkWords (clearedDevice s cause) (deviceReset s cause) := by
  rw [deviceReset_acts hr hs]
  exact .ite (.refl _ _) (linkKept_words _ _)

/-- A device reset (R401, Table 17-8). -/
theorem deviceReset_wasReset {cause : Nat} (hc : cause < 8) (hr : s.kolwin.resetting = false) (hs : s.power.shutdown = false) :
    Safety.wasReset s cause (deviceReset s cause) := by
  have hwords := deviceReset_words (cause := cause) hr hs
  have hlow : ∀ {g : Fld}, g.off ∉ linkWords → (32 ≤ g.hi → g.off + 4 ∉ linkWords) →
      fld (deviceReset s cause) g = fld (clearedDevice s cause) g := fun h h4 => hwords.fld h h4
  have hboot0 : fld (clearedDevice s cause) Reg.kwStatusBoot = 0 :=
    (fld_congr ((regGet_clearedDevice s cause (by decide)).trans (regGet_cleared s cause (by decide))) fun h => absurd h (by decide)).trans
      bootNow_reset
  have hcause : fld (deviceReset s cause) Reg.kwResetCause = cause := by
    rw [hlow (by decide) (by decide), fld_congr (regGet_clearedDevice s cause (by decide)) fun h => absurd h (by decide)]
    exact cleared_cause s hc
  have hboot : fld (deviceReset s cause) Reg.kwStatusBoot = if cause ≠ 3 ∧ fld s Reg.hqStatusWidth ≠ 0 then 1 else 0 := by
    rw [deviceReset_acts hr hs]
    by_cases h3 : cause = 3
    · rw [if_pos h3, if_neg (fun h => h.1 h3), hboot0]
    · rw [if_neg h3, linkKept_boot, hboot0]
      by_cases hw : fld s Reg.hqStatusWidth = 0
      · rw [if_pos hw, if_neg (fun h => h.2 hw)]
      · rw [if_neg hw, if_pos ⟨h3, hw⟩]
  have hretired : ∀ k < 544, retired s k = true → retired (deviceReset s cause) k = true := fun k hk h => by
    rw [retired_iff, coreState, hlow (by simp [linkWords, Reg.inCoreState]; omega) (by simp [linkWords, Reg.inCoreState]; omega)]
    exact retired_iff.mp (clearedDevice_retired s cause hk h)
  obtain ⟨hpins, hactive⟩ := clearedDevice_profile s cause
  have hprofile : fld (deviceReset s cause) Reg.pwProfileActive = fld s Reg.pwProfileActive ∧
      fld (deviceReset s cause) Reg.pwProfilePins = fld s Reg.pwProfilePins := by
    rw [hlow (by decide) (by decide), hlow (by decide) (by decide)]
    exact ⟨hactive, hpins⟩
  obtain ⟨r, a, n, he⟩ := hwords.only
  obtain ⟨r', a', n', he'⟩ := (clearedDevice_words s cause).only
  obtain ⟨r'', a'', n'', he''⟩ := (cleared_words s cause).only
  rw [he', deviceCleared, he''] at he
  rw [he] at hcause hboot hretired hprofile ⊢
  exact ⟨⟨rfl, rfl, rfl, rfl, rfl, rfl, rfl, rfl, rfl, rfl, rfl, rfl, rfl, rfl⟩, rfl, ⟨rfl, rfl, rfl, rfl, rfl, rfl, rfl⟩, rfl, hretired,
    hboot, hcause, hprofile⟩

/-- The counter, the vectors sent and the board's last response stand through a device reset. -/
theorem deviceReset_kept {cause : Nat} (hr : s.kolwin.resetting = false) (hs : s.power.shutdown = false) :
    (deviceReset s cause).tk = s.tk ∧ (deviceReset s cause).msix = s.msix ∧
    (deviceReset s cause).kolwin.boardResp = s.kolwin.boardResp := by
  obtain ⟨r, a, n, he⟩ := (deviceReset_words (cause := cause) hr hs).only
  obtain ⟨r', a', n', he'⟩ := (clearedDevice_words s cause).only
  obtain ⟨r'', a'', n'', he''⟩ := (cleared_words s cause).only
  rw [he', deviceCleared, he''] at he
  rw [he]
  exact ⟨rfl, rfl, rfl⟩

end Sys2Proof.Machine
end

section
/-! Power-up, RESET_N and the boot stages up to the training of tier 2 (R394 to R396, R420 to R422). -/
namespace Sys2Proof.Machine
variable {s : State} {t : Nat}

/-! ## The pins -/

theorem heldInReset_iff : heldInReset s = true ↔
    s.pins.powered = true ∧ s.pins.pwrgd = true ∧ s.pins.resetN = false ∧ s.power.shutdown = false := by
  simp [heldInReset, and_assoc]

/-- The device once the pins have been sampled (R381): PINS shows PROF, and the profile is PROF's, or P0 where its record is invalid. -/
structure PinsSampled (s : State) (p slot : Nat) (v : State) : Prop where
  pins    : v.pins = { s.pins with resetN := true, prof := p, slotId := slot }
  shown   : fld v Reg.pwProfilePins = p
  valid   : recordOk (storedRecord s p) = true → fld v Reg.pwProfileActive = p
  invalid : recordOk (storedRecord s p) = false → fld v Reg.pwProfileActive = 0 ∧ fld v Reg.pwProfileResult = 2
  mem     : v.mem = s.mem
  tk      : v.tk = s.tk

theorem samplePins_sampled {p : Nat} (hp : p < 4) (slot : Nat) : PinsSampled s p slot (samplePins s p slot) := by
  let s1 : State := { s with pins := { s.pins with resetN := true, prof := p, slotId := slot } }
  by_cases hok : recordOk (storedRecord s p) = true
  · have he : samplePins s p slot = startProfile s1 p p (storedRecord s1 p) := if_pos hok
    obtain ⟨hpins, hactive⟩ := startProfile_fields s1 hp hp (storedRecord s1 p)
    obtain ⟨r, a, n, hv⟩ := (startProfile_words s1 p p (storedRecord s1 p)).only
    rw [← he] at hpins hactive hv
    exact ⟨by rw [hv]; rfl, hpins, fun _ => hactive, fun h => absurd hok (by simp [h]), by rw [hv]; rfl, by rw [hv]; rfl⟩
  · have he : samplePins s p slot = setFld (startProfile s1 p 0 (shippedRecord 0)) Reg.pwProfileResult 2 := if_neg hok
    obtain ⟨hpins, hactive⟩ := startProfile_fields s1 hp (show 0 < 4 by decide) (shippedRecord 0)
    obtain ⟨r, a, n, hv⟩ := ((startProfile_words s1 p 0 (shippedRecord 0)).trans
      (.setFldWord _ (f := Reg.pwProfileResult) (by decide) (by decide) 2)).only
    rw [← he] at hv
    refine ⟨by rw [hv]; rfl, ?_, fun h => absurd h hok, fun _ => ⟨?_, ?_⟩, by rw [hv]; rfl, by rw [hv]; rfl⟩
    · rw [he, fld_setFld_apart _ (by decide), hpins]
    · rw [he, fld_setFld_apart _ (by decide), hactive]
    · rw [he]; exact fld_setFld_self _ (by decide) (by decide) 2

theorem exec_resetNDeasserted {p slot : Nat} (hp : p < 4) (hs : slot < 32) :
    exec (.resetNDeasserted t p slot) s = .next (resetHigh (atTick s t) p slot) := if_pos ⟨hp, hs⟩

theorem exec_resetNDeassertionTaken {p slot : Nat} (hp : p < 4) (hs : slot < 32) :
    exec (.resetNDeassertionTaken t p slot) s = .next (resetTaken (atTick s t) p slot) := if_pos ⟨hp, hs⟩

/-! ## The PCIe link -/

theorem exec_pcieReset (hp : s.pins.powered = true) (hr : s.pins.resetN = true) :
    exec (.pcieReset t) s = .next (deviceReset (atTick s t) 3) := presentAlways_powered (f := fun v => deviceReset v 3) hp hr

theorem exec_pcieLinkTrained (hp : s.pins.powered = true) (hr : s.pins.resetN = true) {g w : Nat} (hg : 1 ≤ g ∧ g ≤ 6) (hw : 1 ≤ w ∧ w ≤ 16) :
    exec (.pcieLinkTrained t g w) s = .next (linkTrained (atTick s t) g w) := by
  change (if 1 ≤ g ∧ g ≤ 6 ∧ 1 ≤ w ∧ w ≤ 16 then _ else _) = _
  rw [if_pos ⟨hg.1, hg.2, hw.1, hw.2⟩]
  exact presentAlways_powered (f := fun v => linkTrained v g w) hp hr

theorem bootNow_setBoot (s : State) {b : Nat} (h : b < 16) : bootNow (setBoot s b) = b := by
  rw [bootNow, setBoot, fld_setFld_self _ (by decide) (by decide)]
  exact Nat.mod_eq_of_lt h

/-- Speed and width of a trained link, and the stage that it ends (R403, Table 17-6). -/
theorem linkTrained_fields (s : State) {g w : Nat} (hg : g < 16) (hw : w < 64) :
    fld (linkTrained s g w) Reg.hqStatusSpeed = g ∧ fld (linkTrained s g w) Reg.hqStatusWidth = w ∧
    bootNow (linkTrained s g w) = if bootNow s = 0 then 1 else bootNow s := by
  let s1 := setFld (setFld s Reg.hqStatusSpeed g) Reg.hqStatusWidth w
  have hspeed : fld s1 Reg.hqStatusSpeed = g := by
    rw [fld_setFld_apart _ (by decide), fld_setFld_self _ (by decide) (by decide)]
    exact Nat.mod_eq_of_lt hg
  have hwidth : fld s1 Reg.hqStatusWidth = w := by
    rw [fld_setFld_self _ (by decide) (by decide)]
    exact Nat.mod_eq_of_lt hw
  have hboot : bootNow s1 = bootNow s := by
    rw [bootNow, fld_setFld_apart _ (by decide), fld_setFld_apart _ (by decide)]
    rfl
  by_cases h0 : bootNow s1 = bootRom
  · rw [show linkTrained s g w = setBoot s1 bootVerifying from if_pos h0, if_pos (hboot ▸ h0), bootNow_setBoot _ (by decide)]
    have hb : ∀ g, Reg.kwStatusBoot.apart g = true → fld (setBoot s1 bootVerifying) g = fld s1 g := fun g h => fld_setFld_apart s1 h _
    exact ⟨(hb _ (by decide)).trans hspeed, (hb _ (by decide)).trans hwidth, rfl⟩
  · rw [show linkTrained s g w = s1 from if_neg h0, if_neg (hboot ▸ h0)]
    exact ⟨hspeed, hwidth, hboot⟩

theorem linkTrained_words (s : State) (g w : Nat) : RegsAt linkWords s (linkTrained s g w) :=
  ((RegsAt.setFldWord s (f := Reg.hqStatusSpeed) (by decide) (by decide) g).trans
    (.setFldWord _ (f := Reg.hqStatusWidth) (by decide) (by decide) w)).trans
    (.ite (.setFldWord _ (f := Reg.kwStatusBoot) (by decide) (by decide) _) (.refl _ _))

/-! ## The end of verification (R394, R395) -/

theorem exec_imageVerificationEnd (ha : alive s = true) :
    exec (.imageVerificationEnd t) s = .next (verificationEnd (atTick s t)) := present_alive ha

theorem verificationEnd_passed (h : 2 ≤ bootNow s) : verificationEnd s = s :=
  if_pos ⟨by simp only [bootRom]; omega, by simp only [bootVerifying]; omega⟩

theorem verificationEnd_valid (h : bootNow s < 2) (hv : verifyImage s s.kolwin.flash = 0) :
    verificationEnd s = startFirmware s s.kolwin.flash := by
  unfold verificationEnd
  rw [if_neg (by simp only [bootRom, bootVerifying]; omega), if_pos hv]

theorem verificationEnd_invalid (h : bootNow s < 2) (hv : verifyImage s s.kolwin.flash ≠ 0) : verificationEnd s = startRecovery s := by
  unfold verificationEnd
  rw [if_neg (by simp only [bootRom, bootVerifying]; omega), if_neg hv]

/-- A measurement register after an extension: its own takes the digest, the others stand (R399). -/
theorem measure_extendM (s : State) (i j : Nat) (x : List Byte) :
    measure (extendM s i x) j = if j = i then shake256 (measure s i ++ x) 64 else measure s j := by
  by_cases h : j = i
  · rw [if_pos h, h]
    simp only [measure, extendM, List.find?_cons, decide_true, Option.map_some, Option.getD_some]
  · unfold measure extendM
    have hne : ¬ i = j := fun e => h e.symm
    rw [if_neg h]
    simp only [List.find?_cons, hne, decide_false]
    rw [List.find?_filter]
    congr 3
    funext p
    by_cases hp : p.1 = j <;> simp [hp, h]

theorem leNat_lt (bs : List Byte) : leNat bs < 256 ^ bs.length := by
  induction bs with
  | nil => simp [leNat]
  | cons b bs ih =>
    have hb := b.isLt
    rw [leNat, List.length_cons, Nat.pow_succ]
    omega

theorem fieldAt_lt (bs : List Byte) (off n : Nat) : fieldAt bs off n < 256 ^ n := by
  refine (leNat_lt _).trans_le (Nat.pow_le_pow_right (by decide) ?_)
  simp

theorem measure_congr {v : State} (h : v.kolwin.measures = s.kolwin.measures) (i : Nat) : measure v i = measure s i := by
  unfold measure; rw [h]

/-- The measurements taken as firmware starts: the image's digest in M0, then the suite's and the profiles' (R399). -/
def firmwareMeasured (s : State) (b : List Byte) : State :=
  let s1 := extendM s 0 ((b.drop 0x20).take 64)
  let s2 := extendM s1 1 (Config.suiteDigest (imgBody b))
  extendM s2 2 (shake256 ((List.range 4).flatMap (storedRecord s2)) 64)

theorem measure_firmwareMeasured (s : State) (b : List Byte) :
    measure (firmwareMeasured s b) 0 = shake256 (measure s 0 ++ (b.drop 0x20).take 64) 64 := by
  unfold firmwareMeasured
  dsimp only
  rw [measure_extendM, if_neg (by decide), measure_extendM, if_neg (by decide), measure_extendM, if_pos rfl]

/-- The firmware's version and security version in KW_FW. -/
def versionShown (s : State) (b : List Byte) : State :=
  setFld (setFld s Reg.kwFwVersion (fieldAt b 8 4)) Reg.kwFwSecurity (fieldAt b 0x0C 4)

/-- The tick at which firmware started. -/
def startNoted (n : Nat) (s : State) : State := { s with kolwin := { s.kolwin with startedAt := n } }

theorem fld_startNoted (n : Nat) (s : State) (f : Fld) : fld (startNoted n s) f = fld s f := rfl

theorem startFirmware_eq (s : State) (b : List Byte) :
    startFirmware s b = setBoot (startNoted s.tk (versionShown (firmwareMeasured s b) b)) bootStarting := rfl

theorem versionShown_fields (s : State) (b : List Byte) : fld (versionShown s b) Reg.kwFwVersion = fieldAt b 8 4 ∧
    fld (versionShown s b) Reg.kwFwSecurity = fieldAt b 0x0C 4 := by
  have hfit : ∀ o, fieldAt b o 4 % 2 ^ 32 = fieldAt b o 4 := fun o => Nat.mod_eq_of_lt (fieldAt_lt b o 4)
  unfold versionShown
  rw [fld_setFld_apart _ (by decide), fld_setFld_self _ (by decide) (by decide), fld_setFld_self _ (by decide) (by decide)]
  exact ⟨hfit 8, hfit 0x0C⟩

/-- The firmware has started (R394, R399). -/
structure FirmwareStarted (s : State) (b : List Byte) (v : State) : Prop where
  boot     : bootNow v = 2
  version  : fld v Reg.kwFwVersion = fieldAt b 8 4
  security : fld v Reg.kwFwSecurity = fieldAt b 0x0C 4
  started  : v.kolwin.startedAt = s.tk
  image    : measure v 0 = shake256 (measure s 0 ++ (b.drop 0x20).take 64) 64
  mem      : v.mem = s.mem

theorem firmwareMeasured_mem (s : State) (b : List Byte) : (firmwareMeasured s b).mem = s.mem := rfl

theorem startNoted_kolwin (n : Nat) (s : State) : (startNoted n s).kolwin = { s.kolwin with startedAt := n } := rfl

theorem startNoted_mem (n : Nat) (s : State) : (startNoted n s).mem = s.mem := rfl

theorem startFirmware_measures (s : State) (b : List Byte) :
    (startFirmware s b).kolwin.measures = (firmwareMeasured s b).kolwin.measures := by
  rw [startFirmware_eq, setBoot, setFld_kolwin, startNoted_kolwin, versionShown, setFld_kolwin, setFld_kolwin]

theorem startFirmware_started (s : State) (b : List Byte) : FirmwareStarted s b (startFirmware s b) := by
  obtain ⟨hversion, hsecurity⟩ := versionShown_fields (firmwareMeasured s b) b
  refine ⟨?_, ?_, ?_, ?_, ?_, ?_⟩
  · rw [startFirmware_eq]
    exact bootNow_setBoot _ (by decide)
  · rw [startFirmware_eq, setBoot, fld_setFld_apart _ (by decide), fld_startNoted, hversion]
  · rw [startFirmware_eq, setBoot, fld_setFld_apart _ (by decide), fld_startNoted, hsecurity]
  · rw [startFirmware_eq, setBoot, setFld_kolwin, startNoted_kolwin]
  · rw [measure_congr (startFirmware_measures s b), measure_firmwareMeasured]
  · rw [startFirmware_eq, setBoot, setFld_mem, startNoted_mem, versionShown, setFld_mem, setFld_mem, firmwareMeasured_mem]

/-! ## Rails and alerts -/

/-- The registers of the rails. -/
def railWords : List Nat := (List.range 20).map fun i => 0xA0100 + 4 * i

theorem mem_railWords {o : Nat} : o ∈ railWords ↔ 0xA0100 ≤ o ∧ o < 0xA0150 ∧ o % 4 = 0 := by
  simp only [railWords, List.mem_map, List.mem_range]
  constructor
  · rintro ⟨i, hi, rfl⟩; omega
  · rintro ⟨h1, h2, h3⟩; exact ⟨(o - 0xA0100) / 4, by omega, by omega⟩

theorem setFld_setpoint_words (s : State) {r : Nat} (hr : r < 10) (x : Nat) : RegsAt railWords s (setFld s (Reg.pwRailSetpoint r) x) :=
  .setFldWord s (by simp [Reg.pwRailSetpoint]) (mem_railWords.mpr (by simp only [Reg.pwRailSetpoint]; omega)) x

theorem setFld_measured_words (s : State) {r : Nat} (hr : r < 10) (x : Nat) : RegsAt railWords s (setFld s (Reg.pwRailMeasured r) x) :=
  .setFld s (mem_railWords.mpr (by simp only [Reg.pwRailMeasured]; omega)) (fun _ => mem_railWords.mpr (by simp only [Reg.pwRailMeasured]; omega)) x

theorem railsOff_words (s : State) {rails : List Nat} (h : ∀ r ∈ rails, r < 10) : RegsAt railWords s (railsOff s rails) :=
  .foldl (fun u _ hr => (setFld_setpoint_words u (h _ hr) 0).trans (setFld_measured_words _ (h _ hr) 0)) s

theorem railsDown_words (s : State) (keep : Bool) :
    RegsAt railWords (modPower s fun p => { p with railsUp := false, tier2Up := p.tier2Up && keep }) (railsDown s keep) := by
  have hrails : ∀ r ∈ (if s.power.tier2Up && keep then coreRails else List.range 9), r < 10 := by
    split
    · decide
    · decide
  exact (railsOff_words s hrails).modPower _

/-- A bit of a field after it has been set. -/
theorem bit_setBit (s : State) {f : Fld} {i : Nat} (hi : f.lo + i ≤ f.hi) (hf : f.hi < 64) : bit (fld (setBit s f i) f) i = true := by
  have hreg : reg64 (setBit s f i) f.off = setBits (reg64 s f.off) (f.lo + i) (f.lo + i) 1 :=
    reg64_setFld_same s (f := ⟨f.off, f.lo + i, f.lo + i⟩) (le_refl _) (by simp only; omega) 1
  rw [bit, fld_eq_bits, hreg, testBit_bits, testBit_setBits _ _ (le_refl _), if_pos ⟨le_refl _, le_refl _⟩, Nat.sub_self]
  simp
  omega

/-- `v` is `s` but for ALERT_N and the in-band interrupts sent. -/
def AlertOnly (s v : State) : Prop := ∃ n i, v = { s with pins := { s.pins with alertN := n }, kolwin := { s.kolwin with ibis := i } }

/-- A cause set: its bit in KW_ALERT, ALERT_N, and an in-band interrupt at most (R392). -/
theorem setAlert_alertOnly (s : State) (i : Nat) : AlertOnly (setBit s Reg.kwAlertCause i) (setAlert s i) := by
  unfold setAlert
  dsimp only
  split
  · exact ⟨_, _, rfl⟩
  · exact ⟨_, _, rfl⟩

theorem setAlert_frame (s : State) (i : Nat) : ∃ v, RegsOnly s v ∧ AlertOnly v (setAlert s i) :=
  ⟨_, .setBit s _ i, setAlert_alertOnly s i⟩

@[simp] theorem setAlert_power (s : State) (i : Nat) : (setAlert s i).power = s.power := by
  obtain ⟨_, ⟨_, _, _, rfl⟩, _, _, he⟩ := setAlert_frame s i
  rw [he]

@[simp] theorem setAlert_mem (s : State) (i : Nat) : (setAlert s i).mem = s.mem := by
  obtain ⟨_, ⟨_, _, _, rfl⟩, _, _, he⟩ := setAlert_frame s i
  rw [he]

@[simp] theorem setAlert_resetPin (s : State) (i : Nat) : (setAlert s i).pins.resetPin = s.pins.resetPin := by
  obtain ⟨_, ⟨_, _, _, rfl⟩, _, _, he⟩ := setAlert_frame s i
  rw [he]

theorem fld_setAlert (s : State) (i : Nat) (f : Fld) : fld (setAlert s i) f = fld (setBit s Reg.kwAlertCause i) f := by
  obtain ⟨_, _, he⟩ := setAlert_alertOnly s i
  exact fld_of_regs (by rw [he]) f

theorem setAlert_cause (s : State) {i : Nat} (hi : i ≤ 5) : bit (fld (setAlert s i) Reg.kwAlertCause) i = true := by
  rw [fld_setAlert]
  exact bit_setBit s (by simpa [Reg.kwAlertCause] using hi) (by decide)

/-- The recovery loader has started (R395). -/
structure RecoveryStarted (s v : State) : Prop where
  boot  : bootNow v = 4
  rails : v.power.railsUp = false
  tier2 : v.power.tier2Up = s.power.tier2Up
  alert : bit (fld v Reg.kwAlertCause) 5 = true
  ended : v.kolwin.resetting = false
  mem   : v.mem = s.mem

/-- The state before the end of the reset that recovery concludes. -/
def recoveryAlerted (s : State) : State := setAlert (railsDown (setBoot s bootRecovery) true) 5

theorem resetDone_high (h : s.pins.resetPin = true) :
    resetDone s = { s with kolwin := { s.kolwin with resetting := false } } := if_pos h

theorem recoveryAlerted_kept (s : State) : (recoveryAlerted s).power = { s.power with railsUp := false } ∧
    (recoveryAlerted s).mem = s.mem ∧ (recoveryAlerted s).pins.resetPin = s.pins.resetPin := by
  unfold recoveryAlerted
  rw [setAlert_power, setAlert_mem, setAlert_resetPin]
  obtain ⟨r, a, n, he⟩ := (railsDown_words (setBoot s bootRecovery) true).only
  rw [he]
  refine ⟨?_, setFld_mem s _ _, by rw [modPower, setBoot, setFld_pins]⟩
  rw [modPower, setBoot, setFld_power]
  simp only [Bool.and_true]

theorem bootNow_recoveryAlerted (s : State) : bootNow (recoveryAlerted s) = 4 := by
  rw [bootNow, recoveryAlerted, fld_setAlert, setBit, fld_setFld_apart _ (by decide),
    (railsDown_words (setBoot s bootRecovery) true).fld (g := Reg.kwStatusBoot) (by rw [mem_railWords]; decide) (by decide)]
  exact bootNow_setBoot s (by decide)

theorem startRecovery_started (h : s.pins.resetPin = true) : RecoveryStarted s (startRecovery s) := by
  obtain ⟨hpower, hmem, hpin⟩ := recoveryAlerted_kept s
  have hboot := bootNow_recoveryAlerted s
  have hcause : bit (fld (recoveryAlerted s) Reg.kwAlertCause) 5 = true := setAlert_cause _ (le_refl 5)
  rw [show startRecovery s = resetDone (recoveryAlerted s) from rfl, resetDone_high (hpin.trans h)]
  exact ⟨hboot, by rw [hpower], by rw [hpower], hcause, rfl, hmem⟩

/-! ## The rails come up (R396) -/

theorem exec_firmwareStart (ha : alive s = true) : exec (.firmwareStart t) s = .next (firmwareUp (atTick s t)) := present_alive ha

/-- `v` is `s` but for its registers, the vectors sent and the near-bank commands of the operation table. -/
def RailsOnly (s v : State) : Prop := ∃ r a h ms d, v = { s with regs := r, hwSetAt := a, hwSet := h, msix := ms, dot := d }

theorem RegsOnly.rails {v : State} (h : RegsOnly s v) : RailsOnly s v := by
  obtain ⟨r, a, n, rfl⟩ := h
  exact ⟨r, a, n, _, _, rfl⟩

namespace RailsOnly
variable {v w : State}

theorem trans (h : RailsOnly s v) (g : RailsOnly v w) : RailsOnly s w := by
  obtain ⟨r, a, n, ms, d, rfl⟩ := h
  obtain ⟨r', a', n', ms', d', rfl⟩ := g
  exact ⟨r', a', n', ms', d', rfl⟩

theorem sendIf (s : State) (en : Fld) (n : Nat) : RailsOnly s (sendIf s en n) := by
  unfold Machine.sendIf sendVector
  split
  · split
    · exact (RegsOnly.refl s).rails
    · exact ⟨_, _, _, _, _, rfl⟩
  · exact (RegsOnly.refl s).rails

theorem startNear (s : State) : RailsOnly s (startNear s) := by
  unfold Machine.startNear
  split
  · exact (RegsOnly.refl s).rails
  · exact ⟨_, _, _, _, _, rfl⟩

theorem showNbLimit (s : State) : RailsOnly s (showNbLimit s) := (RegsOnly.setFld s Reg.nbStatusLimit _).rails.trans (startNear _)

theorem applyRails (s : State) : RailsOnly s (applyRails s) := by
  unfold Machine.applyRails
  dsimp only
  refine .trans ?_ (showNbLimit _)
  refine .trans ?_ (((RegsOnly.setFld _ _ _).trans (.setFld _ _ _)).trans ((RegsOnly.setFld _ _ _).trans (.setFld _ _ _))).rails
  have hset : RegsOnly s (setFld (setFld (coreRails.foldl (fun st v => setFld st (Reg.pwRailSetpoint v)
      (if s.power.railsUp then railSetpoint s v else 0)) s) (Reg.pwRailSetpoint 8) (if s.power.railsUp || s.power.tier2Up then 1100 else 0))
      (Reg.pwRailSetpoint 9) 750) :=
    ((RegsOnly.foldl (fun _ _ => .setFld _ _ _) _ s).trans (.setFld _ _ _)).trans (.setFld _ _ _)
  split
  · exact hset.rails.trans (sendIf _ _ _)
  · exact hset.rails

end RailsOnly

/-- Each rail's measured voltage follows its setpoint. -/
def railsMeasured (n : Nat) (s : State) : State :=
  (List.range n).foldl (fun st v => setFld st (Reg.pwRailMeasured v) (fld st (Reg.pwRailSetpoint v))) s

theorem railsMeasured_only (n : Nat) (s : State) : RegsOnly s (railsMeasured n s) := .foldl (fun _ _ => .setFld _ _ _) _ s

theorem railsMeasured_succ (n : Nat) (s : State) : railsMeasured (n + 1) s =
    setFld (railsMeasured n s) (Reg.pwRailMeasured n) (fld (railsMeasured n s) (Reg.pwRailSetpoint n)) := by
  rw [railsMeasured, List.range_succ, List.foldl_append]
  rfl

theorem measured_elsewhere {i j : Nat} (h : i ≠ j) : (Reg.pwRailMeasured i).elsewhere (Reg.pwRailMeasured j) = true ∧
    (Reg.pwRailMeasured i).elsewhere (Reg.pwRailSetpoint j) = true := by
  simp only [Fld.elsewhere_iff, Reg.pwRailMeasured, Reg.pwRailSetpoint]
  omega

theorem measured_apart_setpoint (i j : Nat) : (Reg.pwRailMeasured i).apart (Reg.pwRailSetpoint j) = true := by
  by_cases h : i = j
  · subst h
    simp [Fld.apart, Reg.pwRailMeasured, Reg.pwRailSetpoint]
  · rw [Fld.apart, (measured_elsewhere h).2, Bool.true_or]

theorem setpoint_railsMeasured (n r : Nat) (s : State) : fld (railsMeasured n s) (Reg.pwRailSetpoint r) = fld s (Reg.pwRailSetpoint r) := by
  induction n with
  | zero => rfl
  | succ n ih => rw [railsMeasured_succ, fld_setFld_apart _ (measured_apart_setpoint n r), ih]

theorem measured_railsMeasured {n r : Nat} (hr : r < n) (s : State) :
    fld (railsMeasured n s) (Reg.pwRailMeasured r) = fld s (Reg.pwRailSetpoint r) := by
  induction n with
  | zero => omega
  | succ n ih =>
    rw [railsMeasured_succ]
    by_cases h : r = n
    · have hlt : fld s (Reg.pwRailSetpoint n) < 2 ^ 16 := by rw [fld_eq_bits]; exact bits_lt _ 31 16
      rw [h, fld_setFld_self _ (by simp [Reg.pwRailMeasured]) (by simp [Reg.pwRailMeasured]), setpoint_railsMeasured]
      exact Nat.mod_eq_of_lt hlt
    · rw [fld_setFld_elsewhere _ (measured_elsewhere (Ne.symm h)).1, ih (by omega)]

/-- A held cell as it stands once the rails are up. -/
def heldCell (cfg : Nat) : SyncCell := { value := 0, cfg := BitVec.ofNat 32 cfg, deadline := 0 }

theorem heldCells_eq (s : State) : heldCells s = (List.range 128).foldl (fun st i => setCell st (32640 + i) (heldCell 0x54000000))
    (setCell (setCell s 32512 (heldCell 0x2C000000)) 32513 (heldCell 0x2C000000)) := rfl

theorem getCell_setRange (n : Nat) (c : SyncCell) (s : State) (m : Nat) :
    getCell ((List.range n).foldl (fun st i => setCell st (32640 + i) c) s) m =
      if 32640 ≤ m ∧ m < 32640 + n then c else getCell s m := by
  induction n with
  | zero => rw [if_neg (by omega)]; rfl
  | succ n ih =>
    rw [List.range_succ, List.foldl_append, List.foldl_cons, List.foldl_nil]
    by_cases h : m = 32640 + n
    · rw [h, getCell_setCell_same, if_pos (by omega)]
    · rw [getCell_setCell_ne _ _ h, ih]
      exact if_congr (by omega) rfl rfl

theorem heldCells_units (s : State) : UnitsOnly s (heldCells s) := by
  rw [heldCells_eq]
  exact .trans ⟨_, _, _, _, rfl⟩ (.foldl (fun _ _ => ⟨_, _, _, _, rfl⟩) _ _)

theorem getCell_heldCells (s : State) : (∀ n ∈ [32512, 32513], getCell (heldCells s) n = heldCell 0x2C000000) ∧
    ∀ i < 128, getCell (heldCells s) (32640 + i) = heldCell 0x54000000 := by
  rw [heldCells_eq]
  refine ⟨fun n hn => ?_, fun i hi => ?_⟩
  · rw [getCell_setRange]
    simp only [List.mem_cons, List.not_mem_nil, or_false] at hn
    rcases hn with rfl | rfl
    · rw [if_neg (by decide), getCell_setCell_ne _ _ (by decide), getCell_setCell_same]
    · rw [if_neg (by decide), getCell_setCell_same]
  · rw [getCell_setRange, if_pos (by omega)]

/-- The rails are up at the profile's nominal voltage, and the held cells configured (R296, R396). -/
structure RailsRaised (s v : State) : Prop where
  rails    : v.power.railsUp = true ∧ v.power.tier2Up = true
  setpoint : v.power.setpoint = pNominal s
  measured : ∀ r < 10, fld v (Reg.pwRailMeasured r) = fld v (Reg.pwRailSetpoint r)
  device   : ∀ n ∈ [32512, 32513], getCell v n = heldCell 0x2C000000
  domain   : ∀ i < 128, getCell v (32640 + i) = heldCell 0x54000000
  mem      : v.mem = s.mem

theorem firmwareUp_kept (h : bootNow s ≠ 2 ∨ s.power.railsUp = true) : firmwareUp s = s := if_pos h

/-- The rails' setpoints at the profile's nominal voltage. -/
def railsNominal (s : State) : State := applyRails (modPower s fun p => { p with setpoint := pNominal s, railsUp := true, tier2Up := true })

/-- The cells' configuration and the measured voltages leave the power state and memory as the setpoints left them. -/
theorem railsNominal_kept (s : State) :
    (heldCells (railsMeasured 10 (railsNominal s))).power = { s.power with setpoint := pNominal s, railsUp := true, tier2Up := true } ∧
    (heldCells (railsMeasured 10 (railsNominal s))).mem = s.mem := by
  obtain ⟨d, c, rq, q, hcells⟩ := heldCells_units (railsMeasured 10 (railsNominal s))
  obtain ⟨r, a, n, hmeasured⟩ := railsMeasured_only 10 (railsNominal s)
  obtain ⟨r', a', n', ms, d', hnominal⟩ := RailsOnly.applyRails (modPower s fun p => { p with setpoint := pNominal s, railsUp := true, tier2Up := true })
  rw [hcells, hmeasured]
  dsimp only
  rw [railsNominal, hnominal]
  exact ⟨rfl, rfl⟩

theorem firmwareUp_raised (hb : bootNow s = 2) (hr : s.power.railsUp = false) : RailsRaised s (firmwareUp s) := by
  have he : firmwareUp s = heldCells (railsMeasured 10 (railsNominal s)) := if_neg (by rw [hb, hr]; decide)
  obtain ⟨hdevice, hdomain⟩ := getCell_heldCells (railsMeasured 10 (railsNominal s))
  obtain ⟨hpower, hmem⟩ := railsNominal_kept s
  have hfld : ∀ f, fld (heldCells (railsMeasured 10 (railsNominal s))) f = fld (railsMeasured 10 (railsNominal s)) f := fun f => by
    obtain ⟨d, c, rq, q, hcells⟩ := heldCells_units (railsMeasured 10 (railsNominal s))
    exact fld_of_regs (by rw [hcells]) f
  rw [he]
  refine ⟨by rw [hpower]; exact ⟨rfl, rfl⟩, by rw [hpower], fun r hr => ?_, hdevice, hdomain, hmem⟩
  rw [hfld, hfld, measured_railsMeasured hr, setpoint_railsMeasured]

/-! ## The training of HBM and of tier 2 (R396) -/

theorem exec_hbmTrainingEnd (ha : alive s = true) : exec (.hbmTrainingEnd t) s = .next (hbmUp (atTick s t)) := present_alive ha

theorem exec_tier2TrainingEnd (ha : alive s = true) : exec (.tier2TrainingEnd t) s = .next (tier2Ready (atTick s t)) := present_alive ha

theorem hbmUp_kept (h : bootNow s ≠ 2 ∨ s.power.railsUp = false) : hbmUp s = s := by
  refine if_neg fun ⟨hb, hr⟩ => ?_
  rcases h with h | h
  · exact h hb
  · rw [h] at hr; exact absurd hr (by decide)

theorem hbmUp_zeroed (hb : bootNow s = 2) (hr : s.power.railsUp = true) : hbmUp s = hbmZeroed s := if_pos ⟨hb, hr⟩

/-- A read of a table of which the entries of some indices are gone. -/
theorem smGet_filter {α : Type} (d : Nat → α) (p : Nat → Bool) (m : List (Nat × α)) (k : Nat) :
    smGet d (m.filter fun c => p c.1) k = if p k then smGet d m k else d k := by
  induction m with
  | nil => simp [smGet]
  | cons c m ih =>
    obtain ⟨j, v⟩ := c
    by_cases hj : p j = true
    · rw [List.filter_cons_of_pos (p := fun c : Nat × α => p c.1) hj, smGet, smGet, ih]
      by_cases hk : j = k
      · rw [if_pos hk, if_pos hk, ← hk, if_pos hj]
      · rw [if_neg hk, if_neg hk]
    · rw [List.filter_cons_of_neg (p := fun c : Nat × α => p c.1) hj, ih]
      by_cases hk : j = k
      · rw [← hk, if_neg hj, if_neg hj]
      · rw [smGet, if_neg hk]

theorem readByte_hbmZeroed (s : State) (a : Nat) : readByte (hbmZeroed s).mem a = if a < hbmBytes then 0 else readByte s.mem a := by
  have hread : readByte (hbmZeroed s).mem a = if (!decide (a < hbmBytes)) = true then smGet byteDefault s.mem a else byteDefault a :=
    smGet_filter byteDefault (fun x => !decide (x < hbmBytes)) s.mem a
  rw [hread]
  by_cases h : a < hbmBytes
  · simp [h, byteDefault]
  · simp [h, readByte]

theorem badIn_hbmZeroed (s : State) {a n : Nat} (h : a + n ≤ hbmBytes) : badIn (hbmZeroed s) a n = none := by
  rw [badIn, Option.map_eq_none_iff, List.find?_eq_none]
  intro c hc
  have hout := (List.mem_filter.mp hc).2
  simp only [Bool.not_eq_true', decide_eq_false_iff_not] at hout
  simp only [Bool.and_eq_true, decide_eq_true_eq]
  omega

end Sys2Proof.Machine
end

section
/-! The start-up tests (R353, R354, R359, R396): what a failed test, a retirement and the first publication leave. -/
namespace Sys2Proof.Machine
variable {s : State} {t : Nat}

/-! ## What tests and retirements write -/

/-- `v` is `s` but for what tests and retirements write: registers, the log, cores with their global IDs, and what the next
publication owes; and the register words that differ are among `os`. -/
structure TestAt (os : List Nat) (s v : State) : Prop where
  only  : ∃ r a h hm ig ms c g p, v = { s with regs := r, hwSetAt := a, hwSet := h, hostMem := hm, integ := ig, msix := ms,
                                               cores := c, gids := g, kolwin := { s.kolwin with publish := p } }
  words : ∀ o, o ∉ os → regGet v o = regGet s o

namespace TestAt
variable {os : List Nat} {v w : State}

theorem trans (h : TestAt os s v) (g : TestAt os v w) : TestAt os s w := by
  refine ⟨?_, fun o ho => (g.words o ho).trans (h.words o ho)⟩
  obtain ⟨r, a, n, hm, ig, ms, c, gs, p, rfl⟩ := h.only
  obtain ⟨r', a', n', hm', ig', ms', c', gs', p', rfl⟩ := g.only
  exact ⟨r', a', n', hm', ig', ms', c', gs', p', rfl⟩

theorem mono {ps : List Nat} (h : TestAt os s v) (hs : ∀ o ∈ os, o ∈ ps) : TestAt ps s v :=
  ⟨h.only, fun o ho => h.words o fun hm => ho (hs o hm)⟩

theorem ofRegs (h : RegsAt os s v) : TestAt os s v := by
  refine ⟨?_, h.words⟩
  obtain ⟨r, a, n, rfl⟩ := h.only
  exact ⟨r, a, n, _, _, _, _, _, _, rfl⟩

theorem ofLog (h : LogOnly s v) (hw : ∀ o, o ∉ os → regGet v o = regGet s o) : TestAt os s v := by
  refine ⟨?_, hw⟩
  obtain ⟨r, a, n, hm, ig, ms, rfl⟩ := h
  exact ⟨r, a, n, hm, ig, ms, _, _, _, rfl⟩

theorem setInteg (s : State) (ig : Integ) : TestAt os s { s with integ := ig } := ⟨⟨_, _, _, _, _, _, _, _, _, rfl⟩, fun _ _ => rfl⟩

theorem setGid (s : State) (k g : Nat) : TestAt os s (setGid s k g) := ⟨⟨_, _, _, _, _, _, _, _, _, rfl⟩, fun _ _ => rfl⟩

theorem modCore (s : State) (k : Nat) (f : Core → Core) : TestAt os s (modCore s k f) := ⟨⟨_, _, _, _, _, _, _, _, _, rfl⟩, fun _ _ => rfl⟩

theorem owePublication (s : State) (mask : Nat) : TestAt os s (owePublication s mask) := ⟨⟨_, _, _, _, _, _, _, _, _, rfl⟩, fun _ _ => rfl⟩

theorem fld (h : TestAt os s v) {g : Fld} (hg : g.off ∉ os) (hg4 : 32 ≤ g.hi → g.off + 4 ∉ os) : fld v g = fld s g :=
  fld_congr (h.words _ hg) fun h4 => h.words _ (hg4 h4)

/-- The core states stand where the words of the cores do. -/
theorem coreState (h : TestAt os s v) (hos : ∀ o ∈ os, o ∉ coreWords) {k : Nat} (hk : k < numCores) : coreState v k = coreState s k := by
  unfold numCores at hk
  have hmem : ∀ i < 2, 0x91000 + 0x8 * k + 4 * i ∉ os := fun i hi hm => hos _ hm (mem_coreWords.mpr (by omega))
  exact h.fld (g := Reg.inCoreState k) (hmem 0 (by decide)) fun _ => hmem 1 (by decide)

end TestAt

/-! ## The words of an error record -/

/-- IN_STATUS, the log's tail, the counter of lost records, IN_COUNT's OVF word and IN_LAST: the words that an error record may write. -/
def recordWords : List Nat := [0x90004, 0x90034, 0x900A0, 0x900A4] ++ (List.range 16).map fun i => 0x900C0 + 4 * i

theorem mem_recordWords {o : Nat} : o ∈ recordWords ↔
    o = 0x90004 ∨ o = 0x90034 ∨ o = 0x900A0 ∨ o = 0x900A4 ∨ (0x900C0 ≤ o ∧ o < 0x90100 ∧ o % 4 = 0) := by
  simp only [recordWords, List.mem_append, List.mem_cons, List.not_mem_nil, or_false, List.mem_map, List.mem_range, or_assoc]
  refine or_congr_right (or_congr_right (or_congr_right (or_congr_right ?_)))
  constructor
  · rintro ⟨i, hi, rfl⟩; omega
  · rintro ⟨h1, h2, h3⟩; exact ⟨(o - 0x900C0) / 4, by omega, by omega⟩

theorem natBytes_length (n v : Nat) : (natBytes n v).length = n := by
  induction n generalizing v with
  | zero => rfl
  | succ n ih => rw [natBytes, List.length_cons, ih]

theorem recordBytes_length (s : State) (r : ErrRec) : (recordBytes s r).length = 64 := by
  simp [recordBytes, natBytes_length]

theorem noteRaised_regs (s : State) (r : ErrRec) : (noteRaised s r).regs = s.regs := by
  unfold noteRaised
  split <;> rfl

theorem regGet_lastRecord_ne (s : State) (r : ErrRec) {o : Nat} (h : o ∉ recordWords) : regGet (lastRecord s r) o = regGet s o := by
  rw [mem_recordWords] at h
  change regGet (regPutBytes (noteRaised s r) 0x900C0 _) o = _
  rw [regGet_regPutBytes, recordBytes_length, if_neg (by omega)]
  exact regGet_congr (noteRaised_regs s r) o

theorem regGet_errorRecord (s : State) (r : ErrRec) {o : Nat} (h : o ∉ recordWords) : regGet (errorRecord s r) o = regGet s o := by
  by_cases hd : s.kolwin.fatal = true ∨ alreadyRaised s r = true
  · rw [errorRecord_discarded hd]
  · obtain ⟨v, he, hv⟩ := errorRecord_cases hd
    have hn := h
    rw [mem_recordWords] at hn
    rw [he, regGet_sendIf, ← regGet_lastRecord_ne s r h]
    rcases hv with rfl | ⟨rs, rfl⟩ | rfl
    · rfl
    · exact regGet_logPut (by simp only [Reg.inLogTailTail]; omega) rs _
    · rw [regGet_setFld_word _ (by decide) (by simp only [Reg.inStatusLogFull]; omega),
        regGet_countUp_ne _ (by simp only [Reg.inCountLogLost]; omega) (fun h4 => absurd h4 (by decide))
          (by simp only [Reg.inCountOvf]; omega) (by decide)]

theorem errorRecord_testAt (s : State) (r : ErrRec) : TestAt recordWords s (errorRecord s r) :=
  .ofLog (.errorRecord s r) fun _ h => regGet_errorRecord s r h

/-! ## Core states -/

/-- IN_STATUS and the core registers. -/
def stateWords : List Nat := 0x90004 :: coreWords

theorem setCoreState_words (s : State) {k : Nat} (hk : k < numCores) (x : Nat) : RegsAt stateWords s (setCoreState s k x) :=
  ((setFld_inCore_words s hk x).mono fun _ h => List.mem_cons_of_mem _ h).trans
    (.setFldWord _ (f := Reg.inStatusTesting) (by decide) List.mem_cons_self _)

@[simp] theorem coreState_setGid (s : State) (j g k : Nat) : coreState (setGid s j g) k = coreState s k := rfl
@[simp] theorem coreState_modCore (s : State) (j : Nat) (f : Core → Core) (k : Nat) : coreState (modCore s j f) k = coreState s k := rfl
@[simp] theorem coreState_owePublication (s : State) (m k : Nat) : coreState (owePublication s m) k = coreState s k := rfl

theorem coreState_showTesting (s : State) (k : Nat) : coreState (showTesting s) k = coreState s k :=
  fld_setFld_elsewhere s (Fld.elsewhere_iff.mpr (by simp only [Reg.inStatusTesting, Reg.inCoreState]; omega)) _

theorem coreState_setCoreState_same (s : State) (k : Nat) {x : Nat} (hx : x < 16) : coreState (setCoreState s k x) k = x := by
  rw [setCoreState, coreState_showTesting, coreState_setFld_same _ _ hx]

theorem coreState_setCoreState_ne (s : State) {k j : Nat} (h : j ≠ k) (x : Nat) : coreState (setCoreState s k x) j = coreState s j := by
  rw [setCoreState, coreState_showTesting, coreState_setFld_ne _ h]

theorem coreState_setVerified (s : State) (j n k : Nat) : coreState (setVerified s j n) k = coreState s k := by
  refine fld_setFld_apart s ?_ _
  rw [Fld.apart, Bool.or_eq_true, Fld.elsewhere_iff, decide_eq_true_eq]
  simp only [Reg.inCoreVerified, Reg.inCoreState]
  omega

theorem setVerified_words (s : State) {j : Nat} (hj : j < numCores) (n : Nat) : RegsAt stateWords s (setVerified s j n) := by
  unfold numCores at hj
  exact .setFld s (List.mem_cons_of_mem _ (mem_coreWords.mpr (by simp only [Reg.inCoreVerified]; omega)))
    (fun _ => List.mem_cons_of_mem _ (mem_coreWords.mpr (by simp only [Reg.inCoreVerified]; omega))) _

/-! ## Retirement -/

/-- The words that a retirement writes: those of its record, its counter and the core states. -/
def retireWords : List Nat := recordWords ++ 0x90094 :: coreWords

theorem mem_retireWords {o : Nat} : o ∈ retireWords ↔ o ∈ recordWords ∨ o = 0x90094 ∨ o ∈ coreWords := by
  simp [retireWords]

theorem stateWords_retire {o : Nat} (h : o ∈ stateWords) : o ∈ retireWords := by
  rw [mem_retireWords]
  rcases List.mem_cons.mp h with rfl | h
  · exact .inl (mem_recordWords.mpr (.inl rfl))
  · exact .inr (.inr h)

theorem recordRetired_testAt (s : State) (k g : Nat) (b : Bool) : TestAt (recordWords ++ [0x90094]) s (recordRetired s k g b) := by
  refine ((errorRecord_testAt s _).mono fun _ h => List.mem_append_left _ h).trans (.ofRegs ⟨.countUp _ _ _ _ _, fun o ho => ?_⟩)
  simp only [List.mem_append, mem_recordWords, List.mem_cons, List.not_mem_nil, or_false] at ho
  exact regGet_countUp_ne _ (by simp only [Reg.inCountRetirements]; omega) (fun h4 => absurd h4 (by decide))
    (by simp only [Reg.inCountOvf]; omega) (by decide) 1

theorem recordRetired_words (s : State) (k g : Nat) (b : Bool) : TestAt retireWords s (recordRetired s k g b) :=
  (recordRetired_testAt s k g b).mono fun o ho => by
    rw [mem_retireWords]
    simp only [List.mem_append, List.mem_cons, List.not_mem_nil, or_false] at ho
    exact ho.imp_right .inl

theorem coreState_recordRetired (s : State) (k g : Nat) (b : Bool) {j : Nat} (hj : j < numCores) :
    coreState (recordRetired s k g b) j = coreState s j := by
  refine (recordRetired_testAt s k g b).coreState (fun o ho hc => ?_) hj
  simp only [List.mem_append, mem_recordWords, List.mem_cons, List.not_mem_nil, or_false] at ho
  rw [mem_coreWords] at hc
  omega

/-- A core has been retired: it reads RETIRED, and the cores of other clusters stand. -/
structure CoreRetired (s : State) (k : Nat) (v : State) : Prop where
  this   : coreState v k = icRetired
  others : ∀ j < numCores, j / 17 ≠ k / 17 → coreState v j = coreState s j
  rest   : TestAt retireWords s v

theorem spareOf_some {k j : Nat} (h : spareOf s k = some j) (hk : k < numCores) :
    j / 17 = k / 17 ∧ j < numCores ∧ coreState s j = icSpareIdle := by
  obtain ⟨hm, hp⟩ := And.intro (List.mem_of_find?_eq_some h) (List.find?_some h)
  simp only [List.mem_map, List.mem_range, clusterOf] at hm
  simp only [Bool.and_eq_true, decide_eq_true_eq] at hp
  unfold numCores at hk ⊢
  obtain ⟨i, hi, rfl⟩ := hm
  exact ⟨by omega, by omega, hp.1⟩

/-- The retirement of a drained core (R359). -/
theorem retireCore_retired {k : Nat} (hk : k < numCores) (h : coreState s k = icDrained) (n : Nat) :
    CoreRetired s k (retireCore s n k) := by
  have hnot : ¬ retired s k = true := fun hr => by rw [retired_iff, h] at hr; exact absurd hr (by decide)
  have hthis := coreState_setCoreState_same s k (show icRetired < 16 by decide)
  have hrest : TestAt retireWords s (setGid (setCoreState s k icRetired) k 512) :=
    ((TestAt.ofRegs (setCoreState_words s hk icRetired)).mono fun _ => stateWords_retire).trans (.setGid _ _ _)
  unfold retireCore
  rw [if_neg hnot]
  dsimp only
  cases hs : spareOf s k with
  | none =>
    dsimp only
    refine ⟨?_, fun j hj hne => ?_, (hrest.trans (recordRetired_words _ _ _ _)).trans (.owePublication _ _)⟩
    · rw [coreState_owePublication, coreState_recordRetired _ _ _ _ hk, coreState_setGid, hthis]
    · have hjk : j ≠ k := fun e => hne (by rw [e])
      rw [coreState_owePublication, coreState_recordRetired _ _ _ _ hj, coreState_setGid, coreState_setCoreState_ne s hjk]
  | some j =>
    obtain ⟨hcl, hj, hidle⟩ := spareOf_some hs hk
    have hkj : k ≠ j := fun e => by rw [e, hidle] at h; exact absurd h (by decide)
    dsimp only
    refine ⟨?_, fun i hi hne => ?_, ?_⟩
    · rw [coreState_owePublication, coreState_recordRetired _ _ _ _ hk, coreState_modCore, coreState_setVerified,
        coreState_setCoreState_ne _ hkj, coreState_setGid, coreState_setGid, hthis]
    · have hij : i ≠ j := fun e => hne (by rw [e, hcl])
      have hik : i ≠ k := fun e => hne (by rw [e])
      rw [coreState_owePublication, coreState_recordRetired _ _ _ _ hi, coreState_modCore, coreState_setVerified,
        coreState_setCoreState_ne _ hij, coreState_setGid, coreState_setGid, coreState_setCoreState_ne _ hik]
    · have hserve : ∀ u, TestAt retireWords u (setVerified (setCoreState u j icInService) j (n - 1)) := fun u =>
        (TestAt.ofRegs ((setCoreState_words u hj _).trans (setVerified_words _ hj _))).mono fun _ => stateWords_retire
      exact ((((hrest.trans (.setGid _ _ _)).trans (hserve _)).trans (.modCore _ _ _)).trans (recordRetired_words _ _ _ _)).trans
        (.owePublication _ _)

end Sys2Proof.Machine
end

section
/-! The end of the start-up tests (R396): what a failing core, the profile's modes and the first publication leave. -/
namespace Sys2Proof.Machine
variable {s : State} {t : Nat}

/-! ## A core that fails its start-up test -/

theorem LogOnly.gids {v : State} (h : LogOnly s v) : v.gids = s.gids := by obtain ⟨_, _, _, _, _, _, rfl⟩ := h; rfl

theorem serving_of_gids {v : State} (h : v.gids = s.gids) (k : Nat) : serving v k = serving s k := by
  unfold serving gidOf
  rw [h]

/-- The record of a failed test (R354). -/
def failRecord (s : State) (k x : Nat) : ErrRec :=
  { type := 0x10, cls := 4, src := clusterOf k, step := stepNow s, a0 := k, a1 := recordGid s k, a2 := x }

/-- The record and the counter of a failed test. -/
def failCounted (s : State) (k x : Nat) : State := countUp (errorRecord s (failRecord s k x)) Reg.inCountCicadaFails Reg.inCountOvf 1 1

theorem failCounted_log (s : State) (k x : Nat) : LogOnly s (failCounted s k x) :=
  (LogOnly.errorRecord s _).trans (RegsOnly.countUp _ _ _ _ _).log

theorem failCounted_testAt (s : State) (k x : Nat) : TestAt (0x90084 :: recordWords) s (failCounted s k x) := by
  refine .ofLog (failCounted_log s k x) fun o ho => ?_
  rw [List.mem_cons, not_or] at ho
  have ho4 := ho.2
  rw [mem_recordWords] at ho4
  refine (regGet_countUp_ne _ ho.1 (fun h4 => absurd h4 (by decide)) ?_ (by decide) 1).trans (regGet_errorRecord s _ ho.2)
  simp only [Reg.inCountOvf]; omega

theorem fails_failCounted (s : State) (k x : Nat) :
    fld (failCounted s k x) Reg.inCountCicadaFails = min 0xFFFFFFFF (fld s Reg.inCountCicadaFails + 1) := by
  rw [failCounted, fld_countUp_same _ rfl rfl (by decide) (by decide),
    (errorRecord_testAt s _).fld (by decide) (fun h4 => absurd h4 (by decide))]

theorem coreState_failCounted (s : State) (k x : Nat) {j : Nat} (hj : j < numCores) :
    coreState (failCounted s k x) j = coreState s j := by
  refine (failCounted_testAt s k x).coreState (fun o ho hc => ?_) hj
  simp only [List.mem_cons, mem_recordWords] at ho
  rw [mem_coreWords] at hc
  omega

theorem setCoreState_gids (s : State) (k x : Nat) : (setCoreState s k x).gids = s.gids :=
  (setFld_gids _ _ _).trans (setFld_gids _ _ _)

/-- The state with another integrity engine. -/
def withInteg (s : State) (ig : Integ) : State := { s with integ := ig }

theorem withInteg_gids (s : State) (ig : Integ) : (withInteg s ig).gids = s.gids := rfl
theorem coreState_withInteg (s : State) (ig : Integ) (k : Nat) : coreState (withInteg s ig) k = coreState s k := rfl
theorem TestAt.withInteg (os : List Nat) (s : State) (ig : Integ) : TestAt os s (withInteg s ig) := .setInteg s ig

/-- A core in service that failed is drained, and is to be retired. -/
def failDrained (s : State) (k x : Nat) : State :=
  let v := setCoreState (failCounted s k x) k icDrained
  withInteg v { v.integ with losing := v.integ.losing ++ [k] }

/-- A spare that failed is retired at once. -/
def failSpare (s : State) (k x : Nat) : State :=
  let v := recordSpareRetired (setCoreState (failCounted s k x) k icRetired) k
  withInteg v { v.integ with spareLost := true }

theorem testFails_serving {k : Nat} (h : serving s k = true) (x : Nat) : testFails s k x = failDrained s k x :=
  if_pos (c := serving (failCounted s k x) k = true) ((serving_of_gids (failCounted_log s k x).gids k).trans h)

theorem testFails_spare {k : Nat} (h : serving s k = false) (x : Nat) : testFails s k x = failSpare s k x :=
  if_neg (c := serving (failCounted s k x) k = true)
    (by rw [serving_of_gids (failCounted_log s k x).gids k, h]; exact Bool.false_ne_true)

theorem serving_failDrained (s : State) (k x j : Nat) : serving (failDrained s k x) j = serving s j :=
  serving_of_gids ((withInteg_gids _ _).trans ((setCoreState_gids _ _ _).trans (failCounted_log s k x).gids)) j

theorem recordRetired_log (s : State) (k g : Nat) (b : Bool) : LogOnly s (recordRetired s k g b) :=
  (LogOnly.errorRecord s _).trans (RegsOnly.countUp _ _ _ _ _).log

theorem serving_failSpare (s : State) (k x j : Nat) : serving (failSpare s k x) j = serving s j :=
  serving_of_gids ((withInteg_gids _ _).trans ((recordRetired_log _ _ _ _).gids.trans
    ((setCoreState_gids _ _ _).trans (failCounted_log s k x).gids))) j

/-- The words that a failed start-up test writes. -/
def failWords : List Nat := 0x90084 :: retireWords

theorem mem_failWords {o : Nat} (h : o ∈ failWords) : 0x90004 ≤ o ∧ o < 0x93000 ∧ o ≠ 0x90080 := by
  simp only [failWords, List.mem_cons, mem_retireWords, mem_recordWords, mem_coreWords] at h
  omega

theorem fails_notMem_retireWords : 0x90084 ∉ retireWords := by
  rw [mem_retireWords, mem_recordWords, mem_coreWords]
  omega

theorem failCounted_words (s : State) (k x : Nat) : TestAt failWords s (failCounted s k x) :=
  (failCounted_testAt s k x).mono fun o ho => by
    rcases List.mem_cons.mp ho with rfl | h
    · exact List.mem_cons_self
    · exact List.mem_cons_of_mem _ (mem_retireWords.mpr (.inl h))

/-- A core has failed its start-up test: it is retired, the failure is counted, and the cores of other clusters stand. -/
structure StartFailed (s : State) (k : Nat) (v : State) : Prop where
  this   : coreState v k = icRetired
  others : ∀ j < numCores, j / 17 ≠ k / 17 → coreState v j = coreState s j
  fails  : fld v Reg.inCountCicadaFails = min 0xFFFFFFFF (fld s Reg.inCountCicadaFails + 1)
  rest   : TestAt failWords s v

/-- What follows the count and retires the core. -/
theorem StartFailed.ofRetired {k x : Nat} {v : State} (h : CoreRetired (failCounted s k x) k v) : StartFailed s k v where
  this := h.this
  others j hj hne := (h.others j hj hne).trans (coreState_failCounted s k x hj)
  fails := (h.rest.fld fails_notMem_retireWords fun h4 => absurd h4 (by decide)).trans (fails_failCounted s k x)
  rest := (failCounted_words s k x).trans (h.rest.mono fun _ => List.mem_cons_of_mem _)

/-- The retirement of a spare. -/
theorem recordSpareRetired_retired {k : Nat} (hk : k < numCores) : CoreRetired s k (recordSpareRetired (setCoreState s k icRetired) k) where
  this := (coreState_recordRetired _ _ _ _ hk).trans (coreState_setCoreState_same s k (by decide))
  others j hj hne := (coreState_recordRetired _ _ _ _ hj).trans (coreState_setCoreState_ne s (fun e => hne (by rw [e])) _)
  rest := ((TestAt.ofRegs (setCoreState_words s hk icRetired)).mono fun _ => stateWords_retire).trans (recordRetired_words _ _ _ _)

theorem CoreRetired.withInteg {k : Nat} {v : State} (h : CoreRetired s k v) (ig : Integ) : CoreRetired s k (withInteg v ig) where
  this := (coreState_withInteg v ig k).trans h.this
  others j hj hne := (coreState_withInteg v ig j).trans (h.others j hj hne)
  rest := h.rest.trans (.withInteg _ _ _)

/-- The state before the retirement may differ in core `k`'s own state. -/
theorem CoreRetired.before {k : Nat} {u v : State} (h : CoreRetired u k v) (ho : ∀ j < numCores, j ≠ k → coreState u j = coreState s j)
    (hr : TestAt retireWords s u) : CoreRetired s k v where
  this := h.this
  others j hj hne := (h.others j hj hne).trans (ho j hj fun e => hne (by rw [e]))
  rest := hr.trans h.rest

/-- What the retirement at the start clears. -/
def noLosses (s : State) : State := withInteg s { s.integ with losing := [], spareLost := false }

theorem startUpFail_spare {k : Nat} (h : serving s k = false) (x : Nat) : startUpFail s (k, x) = noLosses (failSpare s k x) := by
  unfold startUpFail
  rw [testFails_spare h, if_neg (by rw [serving_failSpare, h]; exact Bool.false_ne_true)]
  rfl

theorem startUpFail_serving {k : Nat} (h : serving s k = true) (x : Nat) : startUpFail s (k, x) = retireCore (noLosses (failDrained s k x)) 1 k := by
  unfold startUpFail
  rw [testFails_serving h, if_pos (by rw [serving_failDrained, h])]
  rfl

theorem noLosses_words (os : List Nat) (s : State) : TestAt os s (noLosses s) := .withInteg _ _ _

theorem coreState_noLosses (s : State) (k : Nat) : coreState (noLosses s) k = coreState s k := coreState_withInteg _ _ _

theorem coreState_failDrained_same (s : State) (k x : Nat) : coreState (failDrained s k x) k = icDrained :=
  (coreState_withInteg _ _ _).trans (coreState_setCoreState_same _ k (by decide))

theorem coreState_failDrained_ne (s : State) {k j : Nat} (h : j ≠ k) (x : Nat) :
    coreState (failDrained s k x) j = coreState (failCounted s k x) j :=
  (coreState_withInteg _ _ _).trans (coreState_setCoreState_ne _ h _)

theorem failDrained_words {k : Nat} (hk : k < numCores) (x : Nat) : TestAt retireWords (failCounted s k x) (failDrained s k x) :=
  ((TestAt.ofRegs (setCoreState_words _ hk _)).mono fun _ => stateWords_retire).trans (.withInteg _ _ _)

theorem startUpFail_failed {k : Nat} (hk : k < numCores) (x : Nat) : StartFailed s k (startUpFail s (k, x)) := by
  cases hs : serving s k with
  | false =>
    rw [startUpFail_spare hs]
    exact .ofRetired ((recordSpareRetired_retired hk).withInteg _ |>.withInteg _)
  | true =>
    rw [startUpFail_serving hs]
    have hdr : coreState (noLosses (failDrained s k x)) k = icDrained := by rw [coreState_noLosses, coreState_failDrained_same]
    refine .ofRetired ((retireCore_retired hk hdr 1).before (s := failCounted s k x) (fun j _ hne => ?_) ?_)
    · rw [coreState_noLosses, coreState_failDrained_ne s hne]
    · exact (failDrained_words hk x).trans (noLosses_words _ _)

end Sys2Proof.Machine
end

section
/-! The end of the start-up tests (R396): the runs, the profile's modes and the first publication. -/
namespace Sys2Proof.Machine
variable {s : State} {t : Nat}

/-! ## The runs -/

/-- The cores that the start-up tests run on. -/
def testedCores (s : State) : List Nat := (List.range numCores).filter fun k => !retired s k

/-- The spares among them. -/
def testedSpares (s : State) : List Nat := (testedCores s).filter fun k => !serving s k

def idleSparesOf (s : State) (l : List Nat) : State := l.foldl (fun st k => setCoreState st k icSpareIdle) s

/-- The state once the spares read SPARE_IDLE and the runs are counted. -/
def testsRun (s : State) : State := countUp (idleSparesOf s (testedSpares s)) Reg.inCountCicadaRuns Reg.inCountOvf 0 (testedCores s).length

theorem mem_testedCores {k : Nat} : k ∈ testedCores s ↔ k < numCores ∧ retired s k = false := by
  simp [testedCores]

theorem mem_testedSpares {k : Nat} : k ∈ testedSpares s ↔ (k < numCores ∧ retired s k = false) ∧ serving s k = false := by
  simp [testedSpares, mem_testedCores]

theorem idleSparesOf_words {l : List Nat} (hl : ∀ k ∈ l, k < numCores) (s : State) : RegsAt stateWords s (idleSparesOf s l) :=
  .foldl (fun u k hk => setCoreState_words u (hl k hk) icSpareIdle) s

theorem coreState_idleSparesOf (s : State) (l : List Nat) (j : Nat) :
    coreState (idleSparesOf s l) j = if j ∈ l then icSpareIdle else coreState s j := by
  induction l generalizing s with
  | nil => rfl
  | cons k l ih =>
    rw [idleSparesOf, List.foldl_cons, ← idleSparesOf, ih]
    by_cases hl : j ∈ l
    · rw [if_pos hl, if_pos (List.mem_cons_of_mem _ hl)]
    · rw [if_neg hl]
      by_cases hk : j = k
      · rw [hk, if_pos List.mem_cons_self, coreState_setCoreState_same s k (by decide)]
      · rw [if_neg (by simp [hk, hl]), coreState_setCoreState_ne s hk]

theorem testsRun_words (s : State) : RegsAt (0x90080 :: 0x900A4 :: stateWords) s (testsRun s) := by
  refine ((idleSparesOf_words (fun k hk => (mem_testedSpares.mp hk).1.1) s).mono fun o ho => ?_).trans ⟨.countUp _ _ _ _ _, fun o ho => ?_⟩
  · exact List.mem_cons_of_mem _ (List.mem_cons_of_mem _ ho)
  · simp only [List.mem_cons, not_or] at ho
    exact regGet_countUp_ne _ ho.1 (fun h4 => absurd h4 (by decide)) ho.2.1 (by decide) _

theorem coreState_testsRun (s : State) {k : Nat} (hk : k < numCores) :
    coreState (testsRun s) k = if k ∈ testedSpares s then icSpareIdle else coreState s k := by
  rw [← coreState_idleSparesOf]
  refine (TestAt.ofRegs (os := [0x90080, 0x900A4]) ⟨.countUp _ _ _ _ _, fun o ho => ?_⟩).coreState (fun o ho hc => ?_) hk
  · simp only [List.mem_cons, not_or] at ho
    exact regGet_countUp_ne _ ho.1 (fun h4 => absurd h4 (by decide)) ho.2.1 (by decide) _
  · simp only [List.mem_cons, List.not_mem_nil, or_false] at ho
    rw [mem_coreWords] at hc
    omega

theorem notMem_stateWords {o : Nat} (h : o < 0x90004 ∨ (0x90004 < o ∧ o < 0x91000)) : o ∉ stateWords := by
  rw [stateWords, List.mem_cons, mem_coreWords]
  omega

theorem runs_testsRun (s : State) :
    fld (testsRun s) Reg.inCountCicadaRuns = min 0xFFFFFFFF (fld s Reg.inCountCicadaRuns + (testedCores s).length) := by
  rw [testsRun, fld_countUp_same _ rfl rfl (by decide) (by decide),
    (idleSparesOf_words (fun k hk => (mem_testedSpares.mp hk).1.1) s).fld (notMem_stateWords (.inr ⟨by decide, by decide⟩)) (fun h4 => absurd h4 (by decide))]

/-! ## The failing core -/

/-- The state once the failing cores are retired. -/
def testsFailed (s : State) (l : List (Nat × Nat)) : State :=
  let bad := l.filter fun f => decide (f.1 < numCores) && !retired s f.1
  (bad.filter fun f => serving s f.1).foldl startUpFail ((bad.filter fun f => !serving s f.1).foldl startUpFail (testsRun s))

theorem testsFailed_nil (s : State) : testsFailed s [] = testsRun s := by
  simp only [testsFailed, List.filter_nil, List.foldl_nil]

theorem testsFailed_one {k : Nat} (hk : k < numCores) (hr : retired s k = false) (x : Nat) :
    testsFailed s [(k, x)] = startUpFail (testsRun s) (k, x) := by
  unfold testsFailed
  cases hs : serving s k <;> simp [hk, hr, hs]

/-- What the tests leave before the modes are shown. -/
structure Tested (s : State) (l : List (Nat × Nat)) (v : State) : Prop where
  runs  : fld v Reg.inCountCicadaRuns = min 0xFFFFFFFF (fld s Reg.inCountCicadaRuns + (testedCores s).length)
  fails : ∀ p ∈ l, p.1 < 544 ∧ coreState v p.1 = icRetired ∧ fld v Reg.inCountCicadaFails = min 0xFFFFFFFF (fld s Reg.inCountCicadaFails + 1)
  idle  : ∀ k < numCores, serving s k = false → retired s k = false → (∀ p ∈ l, p.1 / 17 ≠ k / 17) → coreState v k = icSpareIdle
  rest  : TestAt (0x90080 :: failWords) s v

theorem testsRun_testAt (s : State) : TestAt (0x90080 :: failWords) s (testsRun s) :=
  (TestAt.ofRegs (testsRun_words s)).mono fun o ho => by
    rcases List.mem_cons.mp ho with rfl | ho
    · exact List.mem_cons_self
    · refine List.mem_cons_of_mem _ (List.mem_cons_of_mem _ ?_)
      rcases List.mem_cons.mp ho with rfl | ho
      · exact mem_retireWords.mpr (.inl (by decide))
      · exact stateWords_retire ho

theorem fails_notMem : Reg.inCountCicadaFails.off ∉ 0x90080 :: 0x900A4 :: stateWords := by
  rw [List.mem_cons, List.mem_cons, not_or, not_or]
  exact ⟨by decide, by decide, notMem_stateWords (.inr ⟨by decide, by decide⟩)⟩

theorem testsFailed_tested (s : State) {l : List (Nat × Nat)}
    (hl : l = [] ∨ ∃ k x, l = [(k, x)] ∧ k < 544 ∧ retired s k = false) : Tested s l (testsFailed s l) := by
  have hidle : ∀ k < numCores, serving s k = false → retired s k = false → coreState (testsRun s) k = icSpareIdle :=
    fun k hk hs hr => by rw [coreState_testsRun s hk, if_pos (mem_testedSpares.mpr ⟨⟨hk, hr⟩, hs⟩)]
  rcases hl with rfl | ⟨k, x, rfl, hk, hr⟩
  · rw [testsFailed_nil]
    exact ⟨runs_testsRun s, fun _ hp => (List.not_mem_nil hp).elim, fun k hk hs hr _ => hidle k hk hs hr, testsRun_testAt s⟩
  · rw [testsFailed_one hk hr]
    have hf := startUpFail_failed (s := testsRun s) hk x
    refine ⟨?_, fun p hp => ?_, fun j hj hs hrj hne => ?_, (testsRun_testAt s).trans (hf.rest.mono fun _ => List.mem_cons_of_mem _)⟩
    · rw [hf.rest.fld (fun hm => (mem_failWords hm).2.2 rfl) (fun h4 => absurd h4 (by decide)), runs_testsRun]
    · rw [List.mem_singleton.mp hp]
      refine ⟨hk, hf.this, hf.fails.trans ?_⟩
      rw [(testsRun_words s).fld (g := Reg.inCountCicadaFails) fails_notMem (fun h4 => absurd h4 (by decide))]
    · rw [hf.others j hj (Ne.symm (hne _ List.mem_cons_self)), hidle j hj hs hrj]

/-! ## The modes and the first publication -/

/-- The words that hold the crossovers and the modes in force. -/
def modeWords : List Nat := [0x40008, 0x60004, 0x50000, 0x60080, 0x40000, 0x90004]

/-- NB_CROSS and the modes are loaded from the profile (R225). -/
def modesLoaded (s : State) : State := showModes (regPut s Reg.nbCrossQkv.off (BitVec.ofNat 32 (prof s 0x28 2)))

theorem showModes_words (s : State) : RegsAt [0x60004, 0x50000, 0x60080, 0x40000, 0x90004] s (showModes s) := by
  unfold showModes
  exact ((((((RegsAt.setFldWord _ (by decide) (by decide) _).trans (.setFldWord _ (by decide) (by decide) _)).trans
    (.setFldWord _ (by decide) (by decide) _)).trans (.setFldWord _ (by decide) (by decide) _)).trans
    (.setFldWord _ (by decide) (by decide) _)).trans (.setFldWord _ (by decide) (by decide) _)).trans (.setFldWord _ (by decide) (by decide) _)

theorem modesLoaded_words (s : State) : RegsAt modeWords s (modesLoaded s) :=
  (RegsAt.regPut s (by decide) _).trans ((showModes_words _).mono fun _ ho => List.mem_cons_of_mem _ ho)

theorem crossQkv_modesLoaded (s : State) : fld (modesLoaded s) Reg.nbCrossQkv = prof s 0x28 2 % 2 ^ 4 := by
  rw [modesLoaded, (showModes_words _).fld (by decide) (fun h4 => absurd h4 (by decide)), fld, if_pos (by decide), regGet_regPut_same,
    BitVec.toNat_ofNat]
  simp [bits, Reg.nbCrossQkv]

/-- The publication is in progress, with the entries it owes. -/
def publicationNoted (s : State) (mask : Nat) : State := { s with kolwin := { s.kolwin with publish := s.kolwin.publish ||| mask, publishing := true } }

def tableMade (s : State) : State := if s.table.isEmpty then { s with table := blankTable } else s

/-- The odd generation and UPDATING. -/
def generationOpened (s : State) : State := setFld (putGen s (generation s + 1)) Reg.clStatusUpdating 1

theorem beginPublication_eq (h : s.kolwin.publishing = false) (mask : Nat) :
    beginPublication s mask = generationOpened (tableMade (publicationNoted s mask)) :=
  if_neg (by rw [h]; exact Bool.false_ne_true)

theorem generation_noted (s : State) (mask : Nat) : generation (publicationNoted s mask) = generation s := rfl

theorem tableMade_kept (s : State) : (tableMade s).kolwin = s.kolwin ∧ generation (tableMade s) = generation s := by
  unfold tableMade
  split <;> exact ⟨rfl, rfl⟩

theorem generationOpened_opened (s : State) : (generationOpened s).kolwin = s.kolwin ∧ fld (generationOpened s) Reg.clStatusUpdating = 1 ∧
    generation (generationOpened s) = (generation s + 1) % 2 ^ 64 := by
  refine ⟨?_, fld_setFld_same _ (by decide) (by decide) 1, ?_⟩
  · rw [generationOpened, setFld_kolwin, putGen]; rfl
  · rw [generation, generationOpened, (RegsAt.setFldWord (os := [0x10008]) _ (by decide) (by decide) 1).reg64 (by decide) (by decide)]
    exact (reg64_setReg64_same _ _ _).trans (Nat.mod_mod _ _)

/-- A publication begins (R38). -/
theorem beginPublication_begins (h : s.kolwin.publishing = false) (mask : Nat) :
    (beginPublication s mask).kolwin.publishing = true ∧ (beginPublication s mask).kolwin.publish = s.kolwin.publish ||| mask ∧
    fld (beginPublication s mask) Reg.clStatusUpdating = 1 ∧ generation (beginPublication s mask) = (generation s + 1) % 2 ^ 64 := by
  rw [beginPublication_eq h]
  obtain ⟨hk, hupd, hgen⟩ := generationOpened_opened (tableMade (publicationNoted s mask))
  obtain ⟨hkt, hgt⟩ := tableMade_kept (publicationNoted s mask)
  rw [hk, hkt, hgen, hgt, generation_noted]
  exact ⟨rfl, rfl, hupd, rfl⟩

/-! ## The whole -/

theorem prof_testAt {os : List Nat} {v : State} (h : TestAt os s v) (ho : 0xA0008 ∉ os) (off n : Nat) : prof v off n = prof s off n := by
  have hact : fld v Reg.pwProfileActive = fld s Reg.pwProfileActive := h.fld ho fun h4 => absurd h4 (by decide)
  unfold prof activeRecord
  rw [hact]
  obtain ⟨r, a, n, hm, ig, ms, c, gs, p, rfl⟩ := h.only
  rfl

theorem testsEnd_acts (hb : bootNow s = 2) (hh : s.kolwin.hbmTrained = true) (h2 : s.kolwin.tier2Trained = true) (ht : s.table = [])
    (l : List (Nat × Nat)) : testsEnd s l = beginPublication (modesLoaded (testsFailed s l)) allTypes :=
  if_neg (by simp [hb, bootStarting, hh, h2, ht])

theorem testsEnd_absorbed (h : ¬ (bootNow s = 2 ∧ s.kolwin.hbmTrained = true ∧ s.kolwin.tier2Trained = true ∧ s.table = []))
    (l : List (Nat × Nat)) : testsEnd s l = s := by
  refine if_pos ?_
  by_contra hn
  simp only [not_or, ne_eq, Decidable.not_not, Bool.not_eq_false, List.isEmpty_iff] at hn
  exact h hn

theorem TestAt.generation {os : List Nat} {v : State} (h : TestAt os s v) (ho : 0x10000 ∉ os) (ho4 : 0x10004 ∉ os) :
    generation v = generation s := by
  unfold Machine.generation Machine.reg64
  rw [h.words Reg.clGenGen.off ho, h.words (Reg.clGenGen.off + 4) ho4]

theorem mask_or_and (a m : Nat) : (a ||| m) &&& m = m := by
  refine Nat.eq_of_testBit_eq fun i => ?_
  rw [Nat.testBit_and, Nat.testBit_or]
  cases a.testBit i <;> cases m.testBit i <;> rfl

/-- The first publication begins once the tests are done. -/
structure PublicationBegun (s : State) (l : List (Nat × Nat)) (v : State) : Prop where
  publishing : v.kolwin.publishing = true
  updating   : fld v Reg.clStatusUpdating = 1
  generation : generation v = (generation s + 1) % 2 ^ 64
  runs       : fld v Reg.inCountCicadaRuns = min 0xFFFFFFFF (fld s Reg.inCountCicadaRuns + (testedCores s).length)
  fails      : ∀ p ∈ l, retired v p.1 = true ∧ fld v Reg.inCountCicadaFails = min 0xFFFFFFFF (fld s Reg.inCountCicadaFails + 1)
  idle       : ∀ k < 544, serving s k = false → retired s k = false → (∀ p ∈ l, p.1 / 17 ≠ k / 17) → coreState v k = 5
  crossQkv   : fld v Reg.nbCrossQkv = prof s 0x28 2 % 2 ^ 4
  publish    : v.kolwin.publish &&& 0xFFE = 0xFFE
  mem        : v.mem = s.mem

theorem TestAt.publishing {os : List Nat} {v : State} (h : TestAt os s v) : v.kolwin.publishing = s.kolwin.publishing := by
  obtain ⟨r, a, n, hm, ig, ms, c, gs, p, rfl⟩ := h.only; rfl

theorem TestAt.mem {os : List Nat} {v : State} (h : TestAt os s v) : v.mem = s.mem := by
  obtain ⟨r, a, n, hm, ig, ms, c, gs, p, rfl⟩ := h.only; rfl

/-- From the tests' results to the publication. -/
theorem Tested.begins {l : List (Nat × Nat)} {w : State} (h : Tested s l w) (hp : s.kolwin.publishing = false) :
    PublicationBegun s l (beginPublication (modesLoaded w) allTypes) := by
  have hm := modesLoaded_words w
  have hkept := beginPublication_kept (modesLoaded w) allTypes
  have hmp : (modesLoaded w).kolwin.publishing = false := (TestAt.ofRegs hm).publishing.trans (h.rest.publishing.trans hp)
  obtain ⟨hpub, hmask, hupd, hgen⟩ := beginPublication_begins hmp allTypes
  have hfld : ∀ g : Fld, 0x10008 < g.off → g.off ∉ modeWords → (32 ≤ g.hi → g.off + 4 ∉ modeWords) →
      fld (beginPublication (modesLoaded w) allTypes) g = fld w g := fun g h1 h2 h3 =>
    (fld_congr (hkept.regs _ h1) fun _ => hkept.regs _ (Nat.lt_add_right 4 h1)).trans (hm.fld h2 h3)
  have hcore : ∀ k < 544, coreState (beginPublication (modesLoaded w) allTypes) k = coreState w k := fun k _ =>
    hfld (Reg.inCoreState k) (by simp only [Reg.inCoreState]; omega)
      (by simp only [Reg.inCoreState, modeWords, List.mem_cons, List.not_mem_nil, or_false]; omega)
      (fun _ => by simp only [Reg.inCoreState, modeWords, List.mem_cons, List.not_mem_nil, or_false]; omega)
  have hgen' : generation (modesLoaded w) = generation s := by
    refine ((TestAt.ofRegs hm).generation (by decide) (by decide)).trans (h.rest.generation (fun hc => ?_) fun hc => ?_) <;>
      · rcases List.mem_cons.mp hc with hc | hc
        · exact absurd hc (by decide)
        · exact absurd (mem_failWords hc).1 (by decide)
  exact {
    publishing := hpub
    updating := hupd
    generation := by rw [hgen, hgen']
    runs := (hfld _ (by decide) (by decide) fun h4 => absurd h4 (by decide)).trans h.runs
    fails := fun p hpl => by
      obtain ⟨hk, hc, hf⟩ := h.fails p hpl
      exact ⟨retired_iff.mpr ((hcore _ hk).trans hc), (hfld _ (by decide) (by decide) fun h4 => absurd h4 (by decide)).trans hf⟩
    idle := fun k hk hs hr hl => (hcore k hk).trans (h.idle k hk hs hr hl)
    crossQkv := by
      rw [← prof_testAt h.rest (fun hc => ?_), ← crossQkv_modesLoaded]
      · exact fld_congr (hkept.regs _ (by decide)) fun h4 => absurd h4 (by decide)
      · rcases List.mem_cons.mp hc with hc | hc
        · exact absurd hc (by decide)
        · exact absurd (mem_failWords hc).2.1 (by decide)
    publish := by rw [hmask]; exact mask_or_and _ _
    mem := hkept.mem.trans ((TestAt.ofRegs hm).mem.trans h.rest.mem) }

theorem testsEnd_begins (hb : bootNow s = 2) (hh : s.kolwin.hbmTrained = true) (h2 : s.kolwin.tier2Trained = true) (ht : s.table = [])
    (hp : s.kolwin.publishing = false) {l : List (Nat × Nat)}
    (hl : l = [] ∨ ∃ k x, l = [(k, x)] ∧ k < 544 ∧ retired s k = false) : PublicationBegun s l (testsEnd s l) := by
  rw [testsEnd_acts hb hh h2 ht]
  exact (testsFailed_tested s hl).begins hp

end Sys2Proof.Machine
end

section
/-! O58: resets and boot stages (R394 to R396, R401, Table 17-8). -/
namespace Sys2Proof.Machine
variable {s : State} {t : Nat}

/-! ## The same state, in a later tick -/

theorem Fresh.ofTick {c : Nat} {v : State} (h : Fresh (atTick s t) c v) : Fresh s c v := h

theorem wasReset_ofTick {c : Nat} {v : State} (h : Safety.wasReset (atTick s t) c v) : Safety.wasReset s c v := by
  obtain ⟨h1, h2, h3, h4, h5, h6, h7, h8⟩ := h
  exact ⟨h1, h2, h3, h4, h5, h6, h7, h8⟩

/-! ## Power and RESET_N -/

theorem exec_inputApplied_powered (h : s.pins.powered = true) : exec (.inputApplied t) s = .next (atTick s t) :=
  congrArg Host.Outcome.next (if_pos h)

theorem inputApplied_fresh (h : s.pins.powered = false) :
    Safety.answers (.inputApplied t) s fun v => Fresh s 1 v ∧ v.pins.powered = true ∧ v.pins.resetN = false :=
  ⟨_, congrArg Host.Outcome.next (if_neg (by rw [atTick_pins, h]; decide)), (powerOnReset_fresh (atTick s t) (by decide) _).ofTick, rfl, rfl⟩

theorem inputRemoved_fresh : Safety.answers (.inputRemoved t) s fun v =>
    Fresh s 1 v ∧ v.pins.powered = false ∧ v.pins.pwrgd = false ∧ v.pins.resetN = false :=
  ⟨_, rfl, (powerOnReset_fresh (atTick s t) (by decide) _).ofTick, rfl, rfl, rfl⟩

theorem exec_pwrgdHigh (h : Bool) : exec (.pwrgdHigh t h) s =
    .next (if s.pins.powered = true ∧ s.pins.pwrgd = false ∧ s.power.shutdown = false
      then { atTick s t with pins := { s.pins with pwrgd := true, resetPin := h, risenAt := reach s.tk t } } else atTick s t) := by
  refine congrArg Host.Outcome.next ?_
  unfold pwrgdUp
  refine if_congr ?_ rfl rfl
  simp [and_assoc]

theorem exec_resetNAsserted_off (h : s.kolwin.resetting = true ∨ s.power.shutdown = true ∨ s.pins.resetN = false) :
    exec (.resetNAsserted t) s = .next { atTick s t with pins := { s.pins with resetPin := false } } :=
  congrArg Host.Outcome.next (if_pos h)

theorem powerOnReset_pins (s : State) (c : Nat) : (powerOnReset s c).pins = { s.pins with alertN := true, syncOut := none } := by
  obtain ⟨r, a, n, he⟩ := (cleared_words s c).only
  rw [powerOnReset, he]
  rfl

/-- The pin reads low. -/
def pinLow (s : State) : State := { s with pins := { s.pins with resetPin := false } }

/-- The device is held in reset. -/
def heldLow (s : State) : State := { s with pins := { s.pins with resetN := false } }

theorem resetLow_resets (h : ¬ (s.kolwin.resetting = true ∨ s.power.shutdown = true ∨ s.pins.resetN = false)) :
    resetLow s = heldLow (powerOnReset (pinLow s) 2) := if_neg h

theorem Fresh.ofPinLow {c : Nat} {v : State} (h : Fresh (pinLow s) c v) : Fresh s c v := h

theorem resetNAsserted_fresh (h : ¬ (s.kolwin.resetting = true ∨ s.power.shutdown = true ∨ s.pins.resetN = false)) :
    Safety.answers (.resetNAsserted t) s fun v => Fresh s 2 v ∧ v.pins.resetN = false ∧ v.pins.resetPin = false ∧
      v.pins.powered = s.pins.powered ∧ v.pins.pwrgd = s.pins.pwrgd := by
  have hpins : (heldLow (powerOnReset (pinLow (atTick s t)) 2)).pins = { s.pins with alertN := true, syncOut := none, resetPin := false, resetN := false } := by
    rw [heldLow, powerOnReset_pins]; rfl
  refine ⟨_, congrArg Host.Outcome.next (resetLow_resets (s := atTick s t) h), (powerOnReset_fresh _ (by decide) _).ofPinLow.ofTick, ?_⟩
  rw [hpins]
  exact ⟨rfl, rfl, rfl, rfl⟩

/-! ## RESET_N's deassertion -/

/-- The deassertion has been taken (R381, R386). -/
def DeassertionTaken (s : State) (t p slot : Nat) (v : State) : Prop :=
  v.pins.resetN = true ∧ v.pins.resetPin = true ∧ v.pins.prof = p ∧ v.pins.slotId = slot ∧
  fld v Reg.pwProfilePins = p ∧ (recordOk (storedRecord s p) = true → fld v Reg.pwProfileActive = p) ∧
  (recordOk (storedRecord s p) = false → fld v Reg.pwProfileActive = 0 ∧ fld v Reg.pwProfileResult = 2) ∧ v.mem = s.mem ∧
  v.tk = reach s.tk t

/-- A sample of the pins with the pin high. -/
theorem samplePins_taken {u : State} (hk : u.kolwin = s.kolwin) (hm : u.mem = s.mem) (ht : u.tk = reach s.tk t) (hh : u.pins.resetPin = true)
    {p : Nat} (hp : p < 4) (slot : Nat) : DeassertionTaken s t p slot (samplePins u p slot) := by
  have hrec : storedRecord u p = storedRecord s p := by unfold storedRecord; rw [hk]
  obtain ⟨hpins, hshown, hvalid, hinvalid, hmem, htk⟩ := samplePins_sampled (s := u) hp slot
  rw [hrec] at hvalid hinvalid
  refine ⟨?_, ?_, ?_, ?_, hshown, hvalid, hinvalid, hmem.trans hm, htk.trans ht⟩
  · rw [hpins]
  · rw [hpins]; exact hh
  · rw [hpins]
  · rw [hpins]

/-- The pin reads high. -/
def pinHigh (s : State) : State := { s with pins := { s.pins with resetPin := true } }

theorem resetHigh_eq (s : State) (p slot : Nat) :
    resetHigh s p slot = if heldInReset s && !s.pins.resetPin then samplePins (pinHigh s) p slot else pinHigh s := rfl

theorem resetNDeasserted_taken {p slot : Nat} (hp : p < 4) (hs : slot < 32) (hh : heldInReset s = true) (hl : s.pins.resetPin = false) :
    Safety.answers (.resetNDeasserted t p slot) s (DeassertionTaken s t p slot) := by
  have hh' : heldInReset (atTick s t) = true := hh
  refine ⟨_, exec_resetNDeasserted hp hs, ?_⟩
  rw [resetHigh_eq, if_pos (by rw [hh', atTick_pins, hl]; rfl)]
  exact samplePins_taken (s := s) (u := pinHigh (atTick s t)) rfl rfl rfl rfl hp slot

theorem exec_resetNDeasserted_kept {p slot : Nat} (hp : p < 4) (hs : slot < 32) (h : heldInReset s = false ∨ s.pins.resetPin = true) :
    exec (.resetNDeasserted t p slot) s = .next (pinHigh (atTick s t)) := by
  have hn : ¬ (heldInReset (atTick s t) && !(atTick s t).pins.resetPin) = true := by
    change ¬ (heldInReset s && !s.pins.resetPin) = true
    rcases h with h | h <;> simp [h]
  rw [exec_resetNDeasserted hp hs, resetHigh_eq, if_neg hn]

theorem resetNDeassertionTaken_taken {p slot : Nat} (hp : p < 4) (hs : slot < 32) (hh : heldInReset s = true)
    (hl : s.pins.resetPin = true) (hr : s.pins.risenAt + 100000 ≤ reach s.tk t) :
    Safety.answers (.resetNDeassertionTaken t p slot) s (DeassertionTaken s t p slot) := by
  have hh' : heldInReset (atTick s t) = true := hh
  refine ⟨_, exec_resetNDeassertionTaken hp hs, ?_⟩
  rw [resetTaken, if_pos (by rw [hh', atTick_pins, hl]; exact decide_eq_true hr)]
  exact samplePins_taken (s := s) (u := atTick s t) rfl rfl rfl hl hp slot

theorem exec_resetNDeassertionTaken_kept {p slot : Nat} (hp : p < 4) (hs : slot < 32)
    (h : heldInReset s = false ∨ s.pins.resetPin = false ∨ reach s.tk t < s.pins.risenAt + 100000) :
    exec (.resetNDeassertionTaken t p slot) s = .next (atTick s t) := by
  have hn : ¬ (heldInReset (atTick s t) && (atTick s t).pins.resetPin &&
      decide ((atTick s t).pins.risenAt + 100000 ≤ (atTick s t).tk)) = true := by
    change ¬ (heldInReset s && s.pins.resetPin && decide (s.pins.risenAt + 100000 ≤ reach s.tk t)) = true
    rcases h with h | h | h <;> simp [h]
  rw [exec_resetNDeassertionTaken hp hs, resetTaken, if_neg hn]

/-- A device that is not held in reset. -/
theorem heldInReset_eq_false : heldInReset s = false ↔
    ¬ (s.pins.powered = true ∧ s.pins.pwrgd = true ∧ s.pins.resetN = false ∧ s.power.shutdown = false) := by
  rw [← heldInReset_iff, Bool.not_eq_true]

/-! ## The PCIe link -/

theorem pcieReset_wasReset (hp : s.pins.powered = true) (hr : s.pins.resetN = true) (hk : s.kolwin.resetting = false)
    (hs : s.power.shutdown = false) : Safety.answers (.pcieReset t) s fun v => Safety.wasReset s 3 v ∧ v.tk = reach s.tk t :=
  ⟨_, exec_pcieReset hp hr, wasReset_ofTick (deviceReset_wasReset (by decide) hk hs), (deviceReset_kept (s := atTick s t) hk hs).1⟩

theorem exec_pcieReset_absorbed (hp : s.pins.powered = true) (hr : s.pins.resetN = true)
    (h : s.kolwin.resetting = true ∨ s.power.shutdown = true) : exec (.pcieReset t) s = .next (atTick s t) := by
  rw [exec_pcieReset hp hr, deviceReset_absorbed (s := atTick s t) h]

/-- What a trained link leaves. -/
theorem regsOnly_tick {v : State} (h : RegsOnly (atTick s t) v) : { v with regs := s.regs, hwSet := s.hwSet, hwSetAt := s.hwSetAt, tk := s.tk } = s := by
  obtain ⟨r, a, n, rfl⟩ := h
  rfl

theorem pcieLinkTrained_shown (hp : s.pins.powered = true) (hr : s.pins.resetN = true) {g w : Nat} (hg : 1 ≤ g ∧ g ≤ 6) (hw : 1 ≤ w ∧ w ≤ 16) :
    Safety.answers (.pcieLinkTrained t g w) s fun v =>
      fld v Reg.hqStatusSpeed = g ∧ fld v Reg.hqStatusWidth = w ∧ bootNow v = (if bootNow s = 0 then 1 else bootNow s) ∧
      { v with regs := s.regs, hwSet := s.hwSet, hwSetAt := s.hwSetAt, tk := s.tk } = s := by
  obtain ⟨hspeed, hwidth, hboot⟩ := linkTrained_fields (atTick s t) (g := g) (w := w) (by omega) (by omega)
  exact ⟨_, exec_pcieLinkTrained hp hr hg hw, hspeed, hwidth, hboot, regsOnly_tick (linkTrained_words _ _ _).only⟩

/-! ## The stages of a running device -/

theorem exec_tier2TrainingEnd_ready (ha : alive s = true) : exec (.tier2TrainingEnd t) s = .next
    (if bootNow s = 2 ∧ s.kolwin.hbmTrained = true then { atTick s t with kolwin := { s.kolwin with tier2Trained := true } } else atTick s t) :=
  exec_tier2TrainingEnd ha

theorem exec_startUpTestsEnd (ha : alive s = true) (l : List (Nat × Nat)) :
    exec (.startUpTestsEnd t l) s = .next (testsEnd (atTick s t) l) := present_alive (f := fun v => testsEnd v l) ha

theorem imageVerificationEnd_stages (ha : alive s = true) :
    let img := s.kolwin.flash
    (2 ≤ bootNow s → exec (.imageVerificationEnd t) s = .next (atTick s t)) ∧
    (bootNow s < 2 → verifyImage s img = 0 → Safety.answers (.imageVerificationEnd t) s fun v => bootNow v = 2 ∧
      fld v Reg.kwFwVersion = fieldAt img 8 4 ∧ fld v Reg.kwFwSecurity = fieldAt img 0x0C 4 ∧ v.kolwin.startedAt = reach s.tk t ∧
      measure v 0 = shake256 (measure s 0 ++ (img.drop 0x20).take 64) 64 ∧ v.mem = s.mem) ∧
    (bootNow s < 2 → verifyImage s img ≠ 0 → s.pins.resetPin = true → Safety.answers (.imageVerificationEnd t) s fun v =>
      bootNow v = 4 ∧ v.power.railsUp = false ∧ v.power.tier2Up = s.power.tier2Up ∧ bit (fld v Reg.kwAlertCause) 5 = true ∧
      v.kolwin.resetting = false ∧ v.mem = s.mem) := by
  intro img
  refine ⟨fun h => ?_, fun h hv => ?_, fun h hv hpin => ?_⟩
  · rw [exec_imageVerificationEnd ha, verificationEnd_passed (s := atTick s t) h]
  · obtain ⟨hboot, hversion, hsecurity, hstarted, himage, hmem⟩ := startFirmware_started (atTick s t) img
    exact ⟨_, (exec_imageVerificationEnd ha).trans (congrArg _ (verificationEnd_valid (s := atTick s t) h hv)),
      hboot, hversion, hsecurity, hstarted, himage, hmem⟩
  · obtain ⟨hboot, hrails, htier2, halert, hended, hmem⟩ := startRecovery_started (s := atTick s t) hpin
    exact ⟨_, (exec_imageVerificationEnd ha).trans (congrArg _ (verificationEnd_invalid (s := atTick s t) h hv)),
      hboot, hrails, htier2, halert, hended, hmem⟩

theorem firmwareStart_raised (ha : alive s = true) (hb : bootNow s = 2) (hr : s.power.railsUp = false) :
    Safety.answers (.firmwareStart t) s fun v => v.power.railsUp = true ∧
      v.power.tier2Up = true ∧ v.power.setpoint = pNominal s ∧
      (∀ r < 10, fld v (Reg.pwRailMeasured r) = fld v (Reg.pwRailSetpoint r)) ∧
      (∀ n ∈ [32512, 32513], getCell v n = { value := 0, cfg := 0x2C000000#32, deadline := 0 }) ∧
      (∀ i < 128, getCell v (32640 + i) = { value := 0, cfg := 0x54000000#32, deadline := 0 }) ∧ v.mem = s.mem := by
  obtain ⟨⟨hrails, htier2⟩, hset, hmeasured, hdevice, hdomain, hmem⟩ := firmwareUp_raised (s := atTick s t) hb hr
  exact ⟨_, exec_firmwareStart ha, hrails, htier2, hset, hmeasured, hdevice, hdomain, hmem⟩

theorem hbmTrainingEnd_zeroed (ha : alive s = true) (hb : bootNow s = 2) (hr : s.power.railsUp = true) :
    Safety.answers (.hbmTrainingEnd t) s fun v => v.kolwin.hbmTrained = true ∧
      (∀ a, readByte v.mem a = if a < hbmBytes then 0 else readByte s.mem a) ∧
      (∀ a n, a + n ≤ hbmBytes → badIn v a n = none) ∧ v.regs = s.regs :=
  ⟨_, (exec_hbmTrainingEnd ha).trans (congrArg _ (hbmUp_zeroed (s := atTick s t) hb hr)), rfl, readByte_hbmZeroed (atTick s t),
    fun _ _ h => badIn_hbmZeroed _ h, rfl⟩

theorem startUpTestsEnd_begins (ha : alive s = true) {l : List (Nat × Nat)}
    (hl : l = [] ∨ ∃ k x, l = [(k, x)] ∧ k < 544 ∧ retired s k = false)
    (hready : bootNow s = 2 ∧ s.kolwin.hbmTrained = true ∧ s.kolwin.tier2Trained = true ∧ s.table = [])
    (hp : s.kolwin.publishing = false) : Safety.answers (.startUpTestsEnd t l) s fun v => v.kolwin.publishing = true ∧
      fld v Reg.clStatusUpdating = 1 ∧ generation v = (generation s + 1) % 2 ^ 64 ∧
      fld v Reg.inCountCicadaRuns = min 0xFFFFFFFF (fld s Reg.inCountCicadaRuns +
        ((List.range 544).filter fun k => !retired s k).length) ∧
      (∀ p ∈ l, retired v p.1 = true ∧
        fld v Reg.inCountCicadaFails = min 0xFFFFFFFF (fld s Reg.inCountCicadaFails + 1)) ∧
      (∀ k < 544, serving s k = false → retired s k = false → (∀ p ∈ l, p.1 / 17 ≠ k / 17) → coreState v k = 5) ∧
      fld v Reg.nbCrossQkv = prof s 0x28 2 % 2 ^ 4 ∧ v.kolwin.publish &&& 0xFFE = 0xFFE ∧ v.mem = s.mem := by
  obtain ⟨hb, hh, h2, ht⟩ := hready
  obtain ⟨hpub, hupd, hgen, hruns, hfails, hidle, hcross, hmask, hmem⟩ := testsEnd_begins (s := atTick s t) hb hh h2 ht hp hl
  exact ⟨_, exec_startUpTestsEnd ha l, hpub, hupd, hgen, hruns, hfails, hidle, hcross, hmask, hmem⟩

end Sys2Proof.Machine
end

section
open Sys2Proof Sys2Proof.Machine

/-- Settles O58: the resets by what `cleared` leaves of the reset state, the stages by what each does in its turn. -/
theorem resetsAndBootStages : Obligations.ResetsAndBootStages := by
  unfold Obligations.ResetsAndBootStages
  intro s t u now fresh held taken
  have hheld : held ↔ heldInReset s = true := heldInReset_iff.symm
  have hfree : ¬ held ↔ heldInReset s = false := heldInReset_eq_false.symm
  refine ⟨exec_inputApplied_powered, inputApplied_fresh, inputRemoved_fresh, ?pwrgd, ?low, ?high, ?pcie, ?boot⟩
  case pwrgd =>
    intro h may
    exact ⟨fun hm => (exec_pwrgdHigh h).trans (congrArg _ (if_pos hm)), fun hm => (exec_pwrgdHigh h).trans (congrArg _ (if_neg hm))⟩
  case low => exact ⟨exec_resetNAsserted_off, resetNAsserted_fresh⟩
  case high =>
    intro p hp slot hs
    refine ⟨fun hh hl => resetNDeasserted_taken hp hs (hheld.mp hh) hl, fun h => ?_,
      fun hh hl hr => resetNDeassertionTaken_taken hp hs (hheld.mp hh) hl hr, fun h => ?_⟩
    · exact exec_resetNDeasserted_kept hp hs (h.imp_left hfree.mp)
    · exact exec_resetNDeassertionTaken_kept hp hs (h.imp_left hfree.mp)
  case pcie =>
    intro hp hr
    exact ⟨exec_pcieReset_absorbed hp hr, pcieReset_wasReset hp hr,
      fun g w hg hg' hw hw' => pcieLinkTrained_shown hp hr ⟨hg, hg'⟩ ⟨hw, hw'⟩⟩
  case boot =>
    intro ha
    refine ⟨imageVerificationEnd_stages ha, fun h => ?_, firmwareStart_raised ha, fun h => ?_, hbmTrainingEnd_zeroed ha,
      exec_tier2TrainingEnd_ready ha, fun l hn => ?_, fun l hl hready hp => ?_⟩
    · rw [exec_firmwareStart ha, firmwareUp_kept (s := atTick s t) h]
    · rw [exec_hbmTrainingEnd ha, hbmUp_kept (s := atTick s t) h]
    · rw [exec_startUpTestsEnd ha, testsEnd_absorbed (s := atTick s t) hn]
    · exact startUpTestsEnd_begins ha hl hready hp
end

section
/-! Kolwin's commands as they are served (R389, R390): the response that each gets, and what the response leaves. -/
namespace Sys2Proof.Machine
variable {s : State} {t : Nat}

/-! ## The service -/

theorem kwRun_served {op : Nat} {c : KwCmd} (h : Safety.kolwinServes s op c) (hop : 1 ≤ op ∧ op ≤ 13) (f : State → State × KwAnswer) :
    kwRun op c f (atTick s t) = respond op c (f (atTick s t)) := by
  have hcode : (opcodeByte op c).toNat = op := by
    rw [opcodeByte, h.row, Option.getD_none, BitVec.toNat_ofNat]
    omega
  have hboot : stateAccepts (atTick s t) op = true := h.boot
  unfold kwRun
  rw [if_neg (by simp [h.pec]), if_neg (by simp [hcode, listedOpcode, hop]), if_neg (by simp [h.port]), if_neg (by simp [hboot]),
    if_neg (by simp [h.zero])]

theorem kwCmd_served {op : Nat} {c : KwCmd} (h : Safety.kolwinServes s op c) (run : State → State) :
    kwCmd t op c s run = .next (run (atTick s t)) := by
  unfold kwCmd
  cases hb : c.board with
  | true => exact (if_pos rfl).trans (presentAlways_powered h.up.1 h.up.2)
  | false =>
    have halive : alive s = true := by simp [alive, h.up, h.host hb]
    have hfree : mbTaken (atTick s t) op c = false := h.free
    rw [if_neg Bool.false_ne_true, present_alive halive, if_neg (by rw [hfree]; exact Bool.false_ne_true)]

/-- A command that is served gets its response. -/
theorem kwCmd_responds {op : Nat} {c : KwCmd} (h : Safety.kolwinServes s op c) (hop : 1 ≤ op ∧ op ≤ 13) (f : State → State × KwAnswer) :
    kwCmd t op c s (kwRun op c f) = .next (respond op c (f (atTick s t))) := by
  rw [kwCmd_served h, kwRun_served h hop]

/-! ## The response -/

/-- `v` is `w` with a response given: the mailbox's STATUS, the vector and Kolwin's ports differ. -/
structure Responded (w v : State) : Prop where
  only  : ∃ r a h ms b m hd rs, v = { w with regs := r, hwSetAt := a, hwSet := h, msix := ms,
                                              kolwin := { w.kolwin with boardResp := b, mbCmd := m, mbHeld := hd, mbResp := rs } }
  words : ∀ o, o ≠ Reg.mbStatusDone.off → regGet v o = regGet w o

namespace Responded
variable {v w : State}

theorem tk (h : Responded w v) : v.tk = w.tk := by obtain ⟨r, a, n, ms, b, m, hd, rs, rfl⟩ := h.only; rfl
theorem mem (h : Responded w v) : v.mem = w.mem := by obtain ⟨r, a, n, ms, b, m, hd, rs, rfl⟩ := h.only; rfl
theorem hostMem (h : Responded w v) : v.hostMem = w.hostMem := by obtain ⟨r, a, n, ms, b, m, hd, rs, rfl⟩ := h.only; rfl
theorem power (h : Responded w v) : v.power = w.power := by obtain ⟨r, a, n, ms, b, m, hd, rs, rfl⟩ := h.only; rfl
theorem pins (h : Responded w v) : v.pins = w.pins := by obtain ⟨r, a, n, ms, b, m, hd, rs, rfl⟩ := h.only; rfl
theorem sched (h : Responded w v) : v.sched = w.sched := by obtain ⟨r, a, n, ms, b, m, hd, rs, rfl⟩ := h.only; rfl
theorem free (h : Responded w v) : v.free = w.free := by obtain ⟨r, a, n, ms, b, m, hd, rs, rfl⟩ := h.only; rfl
theorem tkLatch (h : Responded w v) : v.tkLatch = w.tkLatch := by obtain ⟨r, a, n, ms, b, m, hd, rs, rfl⟩ := h.only; rfl

theorem report (h : Responded w v) : v.kolwin.report = w.kolwin.report := by obtain ⟨r, a, n, ms, b, m, hd, rs, rfl⟩ := h.only; rfl

/-- Kolwin's own state but for its ports. -/
theorem kolwin (h : Responded w v) : ∃ b m hd rs, v.kolwin = { w.kolwin with boardResp := b, mbCmd := m, mbHeld := hd, mbResp := rs } := by
  obtain ⟨r, a, n, ms, b, m, hd, rs, rfl⟩ := h.only
  exact ⟨b, m, hd, rs, rfl⟩

theorem fld (h : Responded w v) {f : Fld} (hf : f.off ≠ Reg.mbStatusDone.off) (hf4 : f.off + 4 ≠ Reg.mbStatusDone.off) :
    fld v f = fld w f :=
  fld_congr (h.words _ hf) fun _ => h.words _ hf4

/-- What differs before the response and in it. -/
theorem onKolwin (h : Responded w v) {ch : List Nat} (hw : Safety.onKolwin s ch w) : Safety.onKolwin s ch v := by
  refine ⟨?_, fun off h1 h2 => (h.words off h1).trans (hw.2 off h1 h2)⟩
  rw [← hw.1]
  obtain ⟨r, a, n, ms, b, m, hd, rs, rfl⟩ := h.only
  rfl

end Responded

theorem responseBytes_row {op : Nat} {c : KwCmd} (h : c.code = none) (a : KwAnswer) :
    responseBytes op c a = natBytes 1 op ++ natBytes 1 a.status ++ natBytes 2 c.tag.toNat ++ natBytes 4 a.len ++ padTo 56 a.result := by
  unfold responseBytes opcodeByte
  rw [h]
  rfl

/-- The mailbox holds the command and its response. -/
def mailboxHeld (op : Nat) (c : KwCmd) (w : State) (bs : List Byte) : State :=
  { w with kolwin := { w.kolwin with mbCmd := writeBytes w.kolwin.mbCmd 0 (commandBytes op c), mbHeld := [], mbResp := bs } }

/-- The host's response before its vector. -/
def mailboxShown (op : Nat) (c : KwCmd) (w : State) (bs : List Byte) : State :=
  setFld (setFld (mailboxHeld op c w bs) Reg.mbStatusBusy 0) Reg.mbStatusDone 1

theorem respond_board {op : Nat} {c : KwCmd} (h : c.board = true) (w : State) (a : KwAnswer) : respond op c (w, a) =
    { w with kolwin := { w.kolwin with boardResp := responseBytes op c a ++ [pec (responseBytes op c a)] } } := if_pos h

theorem respond_host {op : Nat} {c : KwCmd} (h : c.board = false) (w : State) (a : KwAnswer) : respond op c (w, a) =
    sendIf (mailboxShown op c w (responseBytes op c a)) Reg.kwCtrlMbIrqEn 265 := if_neg (by simp [h])

theorem mailboxShown_only (op : Nat) (c : KwCmd) (w : State) (bs : List Byte) :
    RegsAt [Reg.mbStatusDone.off] (mailboxHeld op c w bs) (mailboxShown op c w bs) :=
  (RegsAt.setFldWord _ (f := Reg.mbStatusBusy) (by decide) (by decide) 0).trans (.setFldWord _ (f := Reg.mbStatusDone) (by decide) (by decide) 1)

theorem mailboxShown_status (op : Nat) (c : KwCmd) (w : State) (bs : List Byte) :
    fld (mailboxShown op c w bs) Reg.mbStatusDone = 1 ∧ fld (mailboxShown op c w bs) Reg.mbStatusBusy = 0 := by
  refine ⟨fld_setFld_self _ (by decide) (by decide) 1, ?_⟩
  rw [mailboxShown, fld_setFld_apart _ (by decide), fld_setFld_self _ (by decide) (by decide)]
  exact Nat.zero_mod _

theorem respond_responded (op : Nat) (c : KwCmd) (w : State) (a : KwAnswer) : Responded w (respond op c (w, a)) := by
  cases hb : c.board with
  | true => rw [respond_board hb]; exact ⟨⟨_, _, _, _, _, _, _, _, rfl⟩, fun _ _ => rfl⟩
  | false =>
    rw [respond_host hb]
    have hregs := mailboxShown_only op c w (responseBytes op c a)
    refine ⟨?_, fun o ho => (regGet_sendIf _ _ _ o).trans (hregs.words o (by simp [ho]))⟩
    obtain ⟨r, n, h, he⟩ := hregs.only
    unfold sendIf sendVector
    rw [he]
    split
    · split
      · exact ⟨_, _, _, _, _, _, _, _, rfl⟩
      · exact ⟨_, _, _, _, _, _, _, _, rfl⟩
    · exact ⟨_, _, _, _, _, _, _, _, rfl⟩

/-- The response as `Safety.answered` states it. -/
theorem respond_answered {op : Nat} {c : KwCmd} (hc : c.code = none) {w : State} (hf : c.board = false → w.kolwin.fatal = false) (a : KwAnswer) :
    Safety.answered w op c a.status a.len a.result (respond op c (w, a)) := by
  refine ⟨fun hb => ?_, fun hb => ?_⟩
  · rw [respond_board hb, ← responseBytes_row hc a]
    exact ⟨rfl, rfl, rfl⟩
  · have hregs := mailboxShown_only op c w (responseBytes op c a)
    obtain ⟨hdone, hbusy⟩ := mailboxShown_status op c w (responseBytes op c a)
    have hirq : flag (mailboxShown op c w (responseBytes op c a)) Reg.kwCtrlMbIrqEn = flag w Reg.kwCtrlMbIrqEn :=
      hregs.flag (by decide) (by decide)
    have hst : mState (mailboxShown op c w (responseBytes op c a)) = mState w := hregs.fld (by decide) (by decide)
    obtain ⟨r, n, h, he⟩ := hregs.only
    have hfatal : (mailboxShown op c w (responseBytes op c a)).kolwin.fatal = false := by rw [he]; exact hf hb
    rw [respond_host hb, ← responseBytes_row hc a, sendIf_running hfatal, hirq, hst]
    refine ⟨?_, hdone, hbusy, ?_, ?_⟩
    all_goals
      rw [he]
      rfl

/-! ## A command that is served -/

/-- `w` has what a response reads of `s`. -/
structure Answerable (s w : State) : Prop where
  msix      : w.msix = s.msix
  mbResp    : w.kolwin.mbResp = s.kolwin.mbResp
  boardResp : w.kolwin.boardResp = s.kolwin.boardResp
  fatal     : w.kolwin.fatal = s.kolwin.fatal
  irq       : fld w Reg.kwCtrlMbIrqEn = fld s Reg.kwCtrlMbIrqEn
  state     : mState w = mState s

namespace Answerable
variable {v w : State}

theorem tick (s : State) (t : Nat) : Answerable s (atTick s t) := ⟨rfl, rfl, rfl, rfl, rfl, rfl⟩

theorem regs (h : Answerable s w) {os : List Nat} (hv : RegsAt os w v) (h4 : 0xC0004 ∉ os) (h8 : 0x80004 ∉ os) : Answerable s v := by
  have hirq : Machine.fld v Reg.kwCtrlMbIrqEn = Machine.fld w Reg.kwCtrlMbIrqEn := hv.fld h4 fun hh => absurd hh (by decide)
  have hst : mState v = mState w := hv.fld h8 fun hh => absurd hh (by decide)
  obtain ⟨hmsix, hmb, hboard, hfatal, hi, hs⟩ := h
  refine ⟨?_, ?_, ?_, ?_, hirq.trans hi, hst.trans hs⟩
  all_goals
    obtain ⟨r, a, n, rfl⟩ := hv.only
    assumption

theorem answered (h : Answerable s w) {op status len : Nat} {c : KwCmd} {bs : List Byte} (ha : Safety.answered w op c status len bs v) :
    Safety.answered s op c status len bs v := by
  obtain ⟨hmsix, hmb, hboard, hfatal, hi, hs⟩ := h
  obtain ⟨hb, hh⟩ := ha
  rw [hmsix, hmb] at hb
  rw [hmsix, hboard, flag_of_fld hi, hs] at hh
  exact ⟨hb, hh⟩

end Answerable

theorem kolwin_answers {i : Instr} {op : Nat} {c : KwCmd} {f : State → State × KwAnswer} {w : State} {a : KwAnswer}
    (hi : exec i s = kwCmd t op c s (kwRun op c f)) (h : Safety.kolwinServes s op c) (hop : 1 ≤ op ∧ op ≤ 13)
    (hf : f (atTick s t) = (w, a)) (hw : Answerable s w) :
    Safety.answers i s fun v => Safety.answered s op c a.status a.len a.result v ∧ Responded w v := by
  refine ⟨_, (hi.trans (kwCmd_responds h hop f)).trans (congrArg _ (congrArg _ hf)), hw.answered ?_, respond_responded op c w a⟩
  exact respond_answered h.row (fun hb => hw.fatal.trans (h.host hb)) a

theorem onKolwin_tick (s : State) (t : Nat) (ch : List Nat) : Safety.onKolwin s ch (atTick s t) := ⟨rfl, fun _ _ _ => rfl⟩

theorem onKolwin_mono {ch ch' : List Nat} {v : State} (h : Safety.onKolwin s ch v) (hs : ∀ o ∈ ch, o ∈ ch') : Safety.onKolwin s ch' v :=
  ⟨h.1, fun o h1 h2 => h.2 o h1 fun hm => h2 (hs o hm)⟩

theorem onKolwin_regs {ch : List Nat} {w v : State} (h : Safety.onKolwin s ch w) (hv : RegsAt ch w v) : Safety.onKolwin s ch v := by
  refine ⟨?_, fun o h1 h2 => (hv.words o h2).trans (h.2 o h1 h2)⟩
  rw [← h.1]
  obtain ⟨r, a, n, rfl⟩ := hv.only
  rfl

/-- A command that does nothing but reply. -/
theorem kolwin_replies {i : Instr} {op : Nat} {c : KwCmd} {f : State → State × KwAnswer} {n : Nat}
    (hi : exec i s = kwCmd t op c s (kwRun op c f)) (h : Safety.kolwinServes s op c) (hop : 1 ≤ op ∧ op ≤ 13)
    (hf : f (atTick s t) = (atTick s t, { status := n })) :
    Safety.answers i s fun v => Safety.answered s op c n 0 [] v ∧ Safety.onKolwin s [] v ∧ v.tk = reach s.tk t := by
  obtain ⟨v, hx, ha, hr⟩ := kolwin_answers hi h hop hf (.tick s t)
  exact ⟨v, hx, ha, hr.onKolwin (onKolwin_tick s t []), hr.tk⟩

end Sys2Proof.Machine
end

section
/-! Kolwin's commands that read and report: IDENTITY, ATTEST, REG_READ (R54, R398 to R400). -/
namespace Sys2Proof.Machine
variable {s : State} {t : Nat} {c : KwCmd}

/-- The command is answered with a status and does nothing else. -/
def Replies (s : State) (t : Nat) (c : KwCmd) (i : Instr) (op status : Nat) : Prop :=
  Safety.answers i s fun v => Safety.answered s op c status 0 [] v ∧ Safety.onKolwin s [] v ∧ v.tk = reach s.tk t

/-- The command writes bytes to the host's address. -/
def WritesHost (s : State) (t : Nat) (c : KwCmd) (i : Instr) (op a : Nat) (bs : List Byte) : Prop :=
  (rowOf s a bs.length ≠ .host → Replies s t c i op 2) ∧
  (rowOf s a bs.length = .host → mState s = msFenced → Replies s t c i op 4) ∧
  (rowOf s a bs.length = .host → mState s ≠ msFenced → Safety.answers i s fun v =>
    Safety.answered s op c 0 bs.length [] v ∧ v.hostMem = writeBytes s.hostMem (busAddr s a) bs ∧ v.mem = s.mem)

theorem writesHost_of_toHost {i : Instr} {op a : Nat} {bs : List Byte} {f : State → State × KwAnswer}
    (hi : exec i s = kwCmd t op c s (kwRun op c f)) (h : Safety.kolwinServes s op c) (hop : 1 ≤ op ∧ op ≤ 13)
    (hb : c.board = false) (hf : f (atTick s t) = toHost (atTick s t) a bs) : WritesHost s t c i op a bs := by
  have hmay : mayWriteHost (atTick s t) = decide (mState s ≠ msFenced) := by
    have hfatal : (atTick s t).kolwin.fatal = false := h.host hb
    rw [mayWriteHost, hfatal]
    exact Bool.and_true _
  refine ⟨fun hr => ?_, fun hr hm => ?_, fun hr hm => ?_⟩
  · exact kolwin_replies hi h hop (hf.trans (if_pos hr))
  · refine kolwin_replies hi h hop (hf.trans ((if_neg (not_not_intro hr)).trans (if_pos ?_)))
    rw [hmay, hm]
    decide
  · have hput : toHost (atTick s t) a bs = (hostStore (atTick s t) a bs, { status := 0, len := bs.length }) := by
      have hgo : ¬ (!mayWriteHost (atTick s t)) = true := by rw [hmay]; simp [hm]
      exact (if_neg (not_not_intro hr)).trans ((if_neg hgo).trans (congrArg (·, _) (if_pos hr)))
    obtain ⟨v, hx, ha, hv⟩ := kolwin_answers hi h hop (hf.trans hput) ⟨rfl, rfl, rfl, rfl, rfl, rfl⟩
    exact ⟨v, hx, ha, hv.hostMem, hv.mem⟩

/-! ## IDENTITY -/

theorem identity_board (h : Safety.kolwinServes s 1 c) (hb : c.board = true) :
    ((certificates s).length ≤ 56 * fieldAt c.body 0 2 → Replies s t c (.identity t c) 1 2) ∧
    (56 * fieldAt c.body 0 2 < (certificates s).length → Safety.answers (.identity t c) s fun v => Safety.onKolwin s [] v ∧
      Safety.answered s 1 c 0 (certificates s).length (((certificates s).drop (56 * fieldAt c.body 0 2)).take 56) v) := by
  have hf : doIdentity c (atTick s t) = if (certificates s).length ≤ 56 * fieldAt c.body 0 2 then (atTick s t, { status := 2 })
      else (atTick s t, { status := 0, len := (certificates s).length, result := chunk56 (certificates s) (fieldAt c.body 0 2) }) := if_pos hb
  refine ⟨fun hl => kolwin_replies rfl h (by decide) (hf.trans (if_pos hl)), fun hl => ?_⟩
  obtain ⟨v, hx, ha, hv⟩ := kolwin_answers (i := .identity t c) rfl h (by decide) (hf.trans (if_neg (Nat.not_le.mpr hl))) (.tick s t)
  exact ⟨v, hx, hv.onKolwin (onKolwin_tick s t []), ha⟩

theorem identity_host (h : Safety.kolwinServes s 1 c) (hb : c.board = false) :
    WritesHost s t c (.identity t c) 1 (fieldAt c.body 0 8) (certificates s) :=
  writesHost_of_toHost rfl h (by decide) hb (if_neg (by simp [hb]))

/-! ## ATTEST -/

theorem report_ne_nil (s : State) (nonce : List Byte) : report s nonce ≠ [] := by
  simp [report, reportBody, natBytes]

theorem attest_first (h : Safety.kolwinServes s 2 c) (hb : c.board = true) (hi : fieldAt c.body 32 2 = 0) :
    Safety.answers (.attest t c) s fun v => v.kolwin.report = report (atTick s t) (c.body.take 32) ∧ Safety.onKolwin s [] v ∧
      Safety.answered s 2 c 0 ((report (atTick s t) (c.body.take 32)).take 56).length ((report (atTick s t) (c.body.take 32)).take 56) v := by
  have hne : ((report (atTick s t) (c.body.take 32)).take 56).isEmpty = false := by
    rw [List.isEmpty_eq_false_iff, ne_eq, List.take_eq_nil_iff]
    simp [report_ne_nil]
  have hf : doAttest c (atTick s t) = ({ atTick s t with kolwin := { s.kolwin with report := report (atTick s t) (c.body.take 32) } },
      { status := 0, len := ((report (atTick s t) (c.body.take 32)).take 56).length, result := (report (atTick s t) (c.body.take 32)).take 56 }) := by
    unfold doAttest
    dsimp only [kwField]
    rw [if_pos hb, hi, if_pos rfl, chunk56, Nat.mul_zero, List.drop_zero, hne]
    rfl
  obtain ⟨v, hx, ha, hv⟩ := kolwin_answers (i := .attest t c) rfl h (by decide) hf ⟨rfl, rfl, rfl, rfl, rfl, rfl⟩
  exact ⟨v, hx, hv.report, hv.onKolwin ⟨rfl, fun _ _ _ => rfl⟩, ha⟩

theorem attest_next (h : Safety.kolwinServes s 2 c) (hb : c.board = true) (hi : fieldAt c.body 32 2 ≠ 0) :
    let b := (s.kolwin.report.drop (56 * fieldAt c.body 32 2)).take 56
    (12 ≤ fieldAt c.body 32 2 ∨ b = [] → Replies s t c (.attest t c) 2 2) ∧
    (fieldAt c.body 32 2 < 12 → b ≠ [] → Safety.answers (.attest t c) s fun v => Safety.onKolwin s [] v ∧
      v.kolwin.report = s.kolwin.report ∧ Safety.answered s 2 c 0 b.length b v) := by
  intro b
  have hf : doAttest c (atTick s t) = if 12 ≤ fieldAt c.body 32 2 ∨ b.isEmpty then (atTick s t, { status := 2 })
      else (atTick s t, { status := 0, len := b.length, result := b }) := by
    unfold doAttest
    dsimp only [kwField]
    rw [if_pos hb, if_neg hi]
    rfl
  refine ⟨fun hbad => kolwin_replies rfl h (by decide) (hf.trans (if_pos (by simpa using hbad))), fun hl hne => ?_⟩
  obtain ⟨v, hx, ha, hv⟩ := kolwin_answers (i := .attest t c) rfl h (by decide)
    (hf.trans (if_neg (by simp [hne, Nat.not_le.mpr hl]))) (.tick s t)
  exact ⟨v, hx, hv.onKolwin (onKolwin_tick s t []), hv.report, ha⟩

theorem attest_host (h : Safety.kolwinServes s 2 c) (hb : c.board = false) :
    WritesHost s t c (.attest t c) 2 (fieldAt c.body 32 8) (report (atTick s t) (c.body.take 32)) :=
  writesHost_of_toHost rfl h (by decide) hb (if_neg (by simp [hb]))

/-! ## REG_READ -/

/-- The words that a command at hand reads, and what it leaves of TK_COUNT's latch. -/
def ReadsWords (s : State) (t : Nat) (c : KwCmd) (n : Nat) (bs : List Byte) (latch : Option Word32) : Prop :=
  Safety.answers (.regRead t c) s fun v =>
    Safety.answered s 3 c 0 n bs v ∧ v.tkLatch = latch ∧ Safety.onKolwin { s with tkLatch := latch, free := v.free } [] v

theorem regRead_reads {w : State} {n : Nat} {bs : List Byte} {latch : Option Word32} (h : Safety.kolwinServes s 3 c)
    (hw : ∃ m, w = { atTick s t with tkLatch := latch, free := m }) (hf : doRegRead c (atTick s t) = (w, { status := 0, len := n, result := bs })) :
    ReadsWords s t c n bs latch := by
  obtain ⟨m, rfl⟩ := hw
  obtain ⟨v, hx, ha, hv⟩ := kolwin_answers (i := .regRead t c) rfl h (by decide) hf ⟨rfl, rfl, rfl, rfl, rfl, rfl⟩
  refine ⟨v, hx, ha, hv.tkLatch, hv.onKolwin ?_⟩
  rw [hv.free]
  exact ⟨rfl, fun _ _ _ => rfl⟩

/-- A range that REG_READ refuses. -/
def BadRange (c : KwCmd) : Prop :=
  fieldAt c.body 0 4 % 4 ≠ 0 ∨ fieldAt c.body 4 1 % 4 ≠ 0 ∨ 48 < fieldAt c.body 4 1 ∨ 0x4000000 < fieldAt c.body 0 4 + fieldAt c.body 4 1

theorem doRegRead_low (hb : ¬ BadRange c) (ho : fieldAt c.body 0 4 = 0x20000) (hn : fieldAt c.body 4 1 = 4) (w : State) :
    doRegRead c w = ({ w with tkLatch := some (BitVec.ofNat 32 (w.tk / 2 ^ 32)) },
      { status := 0, len := 4, result := readWords w (fieldAt c.body 0 4) 1 }) :=
  (if_neg hb).trans (if_pos ⟨ho, hn⟩)

theorem doRegRead_latched (hb : ¬ BadRange c) (ho : fieldAt c.body 0 4 = 0x20004) (hn : fieldAt c.body 4 1 = 4) {w : State} {x : Word32}
    (hx : w.tkLatch = some x) : doRegRead c w = ({ w with tkLatch := none }, { status := 0, len := 4, result := natBytes 4 x.toNat }) := by
  refine (if_neg hb).trans ((if_neg (fun h => by rw [kwField, ho] at h; exact absurd h.1 (by decide))).trans ((if_pos ⟨ho, hn⟩).trans ?_))
  rw [hx]

theorem doRegRead_high (hb : ¬ BadRange c) (ho : fieldAt c.body 0 4 = 0x20004) (hn : fieldAt c.body 4 1 = 4) {w : State}
    (hx : w.tkLatch = none) : doRegRead c w = (w, { status := 0, len := 4, result := readWords w (fieldAt c.body 0 4) 1 }) := by
  refine (if_neg hb).trans ((if_neg (fun h => by rw [kwField, ho] at h; exact absurd h.1 (by decide))).trans ((if_pos ⟨ho, hn⟩).trans ?_))
  rw [hx]
  rfl

theorem doRegRead_other (hb : ¬ BadRange c) (ho : fieldAt c.body 0 4 ≠ 0x20000 ∧ fieldAt c.body 0 4 ≠ 0x20004 ∨ fieldAt c.body 4 1 ≠ 4)
    (w : State) : doRegRead c w = (tookFree w, { status := 0, len := fieldAt c.body 4 1, result := readWords w (fieldAt c.body 0 4) (fieldAt c.body 4 1 / 4) }) :=
  (if_neg hb).trans ((if_neg fun h => ho.elim (fun x => x.1 h.1) fun x => x h.2).trans
    (if_neg fun h => ho.elim (fun x => x.2 h.1) fun x => x h.2))

theorem regRead_words (h : Safety.kolwinServes s 3 c) :
    let off := fieldAt c.body 0 4
    let n := fieldAt c.body 4 1
    (BadRange c → Replies s t c (.regRead t c) 3 2) ∧
    (¬ BadRange c → off = 0x20000 → n = 4 → ReadsWords s t c n (readWords (atTick s t) off 1) (some (BitVec.ofNat 32 (reach s.tk t / 2 ^ 32)))) ∧
    (∀ w, ¬ BadRange c → off = 0x20004 → n = 4 → s.tkLatch = some w → ReadsWords s t c n (natBytes 4 w.toNat) none) ∧
    (¬ BadRange c → off = 0x20004 → n = 4 → s.tkLatch = none → ReadsWords s t c n (readWords (atTick s t) off 1) none) ∧
    (¬ BadRange c → (off ≠ 0x20000 ∧ off ≠ 0x20004 ∨ n ≠ 4) → ReadsWords s t c n (readWords (atTick s t) off (n / 4)) s.tkLatch) := by
  intro off n
  refine ⟨fun hb => kolwin_replies rfl h (by decide) (if_pos hb), fun hb ho hn => ?_, fun w hb ho hn hw => ?_,
    fun hb ho hn hw => ?_, fun hb hno => ?_⟩
  · rw [hn]; exact regRead_reads h ⟨s.free, rfl⟩ (doRegRead_low hb ho hn _)
  · rw [hn]; exact regRead_reads h ⟨s.free, rfl⟩ (doRegRead_latched (w := atTick s t) hb ho hn hw)
  · rw [hn]; exact regRead_reads h ⟨s.free, by rw [← hw]; rfl⟩ (doRegRead_high (w := atTick s t) hb ho hn hw)
  · exact regRead_reads h ⟨_, rfl⟩ (doRegRead_other hb hno _)

end Sys2Proof.Machine
end

section
/-! Kolwin's commands on profiles, modes, the pair, the fuse and alerts (R380 to R383, R392, R399). -/
namespace Sys2Proof.Machine
variable {s : State} {t : Nat} {c : KwCmd}

/-! ## PROFILE_SELECT -/

theorem requestProfile_words (w : State) (i : Nat) :
    RegsAt [0xA0008] (modPower w fun p => { p with profileReq := some i }) (requestProfile w i) :=
  .setFldWord _ (f := Reg.pwProfilePending) (by decide) (by decide) 1

theorem pending_requestProfile (w : State) (i : Nat) : fld (requestProfile w i) Reg.pwProfilePending = 1 :=
  fld_setFld_self _ (by decide) (by decide) 1

theorem requestProfile_power (w : State) (i : Nat) : (requestProfile w i).power = { w.power with profileReq := some i } := by
  rw [requestProfile, setFld_power]; rfl

theorem Answerable.modPower {w : State} (h : Answerable s w) (f : Power → Power) : Answerable s (modPower w f) :=
  ⟨h.msix, h.mbResp, h.boardResp, h.fatal, h.irq, h.state⟩

theorem onKolwin_modPower {w : State} {ch : List Nat} (h : Safety.onKolwin s ch w) (f : Power → Power) :
    Safety.onKolwin { s with power := f w.power } ch (modPower w f) := by
  refine ⟨?_, h.2⟩
  rw [← h.1]
  rfl

theorem profileSelect_requests (h : Safety.kolwinServes s 4 c) :
    (3 < fieldAt c.body 0 1 → Replies s t c (.profileSelect t c) 4 2) ∧
    (fieldAt c.body 0 1 ≤ 3 → Safety.answers (.profileSelect t c) s fun v => Safety.answered s 4 c 0 0 [] v ∧
      fld v Reg.pwProfilePending = 1 ∧ v.power = { s.power with profileReq := some (fieldAt c.body 0 1) } ∧
      Safety.onKolwin { s with power := v.power } [0xA0008] v) := by
  refine ⟨fun hi => kolwin_replies rfl h (by decide) (if_pos hi), fun hi => ?_⟩
  have hregs := requestProfile_words (atTick s t) (fieldAt c.body 0 1)
  have hpower := requestProfile_power (atTick s t) (fieldAt c.body 0 1)
  obtain ⟨v, hx, ha, hv⟩ := kolwin_answers (i := .profileSelect t c) rfl h (by decide) (if_neg (Nat.not_lt.mpr hi))
    (((Answerable.tick s t).modPower _).regs hregs (by decide) (by decide))
  have hpv : v.power = { s.power with profileReq := some (fieldAt c.body 0 1) } := hv.power.trans hpower
  refine ⟨v, hx, ha, ?_, hpv, hv.onKolwin ?_⟩
  · rw [hv.fld (by decide) (by decide)]
    exact pending_requestProfile _ _
  · rw [hpv]
    exact onKolwin_regs (onKolwin_modPower (onKolwin_tick s t _) _) hregs

/-! ## PROFILE_WRITE -/

/-- A record has taken a place in the store. -/
def recordStored (s : State) (i : Nat) (r : List Byte) : State :=
  { s with kolwin := { s.kolwin with profiles := (i, r) :: s.kolwin.profiles.filter fun p => decide (p.1 ≠ i) } }

theorem storedRecord_recordStored (s : State) (i : Nat) (r : List Byte) (j : Nat) :
    storedRecord (recordStored s i r) j = if j = i then r else storedRecord s j := by
  unfold storedRecord recordStored
  by_cases h : j = i
  · rw [if_pos h, h]
    simp only [List.find?_cons, decide_true]
  · have hfind : (s.kolwin.profiles.filter fun p => decide (p.1 ≠ i)).find? (fun p => decide (p.1 = j)) =
        s.kolwin.profiles.find? fun p => decide (p.1 = j) := by
      rw [List.find?_filter]
      congr 1
      funext p
      by_cases hp : p.1 = j <;> simp [hp, h]
    have hne : decide (i = j) = false := decide_eq_false (Ne.symm h)
    simp only [if_neg h, List.find?_cons, hne, hfind]

/-- The store's digest in M2 (R399). -/
def profilesMeasured (s : State) (i : Nat) (r : List Byte) : State :=
  extendM (recordStored s i r) 2 (shake256 ((List.range 4).flatMap (storedRecord (recordStored s i r))) 64)

/-- The active profile's new record is requested as a change to that profile. -/
def requestIfActive (s : State) (i : Nat) : State := if fld s Reg.pwProfileActive = i then requestProfile s i else s

theorem requestIfActive_words (w : State) (i : Nat) : RegsAt [0xA0008]
    (modPower w fun p => { p with profileReq := if fld w Reg.pwProfileActive = i then some i else p.profileReq }) (requestIfActive w i) := by
  unfold requestIfActive
  split
  · exact requestProfile_words w i
  · exact .refl _ w

theorem storedRecord_congr {v : State} (h : v.kolwin.profiles = s.kolwin.profiles) (j : Nat) : storedRecord v j = storedRecord s j := by
  unfold storedRecord; rw [h]

theorem profilesMeasured_tick (s : State) (t i : Nat) (r : List Byte) :
    Answerable s (profilesMeasured (atTick s t) i r) ∧ Safety.onKolwin s [0xA0008] (profilesMeasured (atTick s t) i r) :=
  ⟨⟨rfl, rfl, rfl, rfl, rfl, rfl⟩, rfl, fun _ _ _ => rfl⟩

theorem measure_profilesMeasured (s : State) (i : Nat) (r : List Byte) : measure (profilesMeasured s i r) 2 =
    shake256 (measure s 2 ++ shake256 ((List.range 4).flatMap fun j => if j = i then r else storedRecord s j) 64) 64 := by
  rw [profilesMeasured, measure_extendM, if_pos rfl]
  have hall : storedRecord (recordStored s i r) = fun j => if j = i then r else storedRecord s j := funext (storedRecord_recordStored s i r)
  rw [hall]
  rfl

/-- The record that PROFILE_WRITE carries. -/
def givenRecord (c : KwCmd) : List Byte := withCheck ((c.body.drop 8).take 48)

theorem doProfileWrite_stores {w : State} (hi : fieldAt c.body 0 1 ≤ 3) (h0 : fieldAt c.body 1 7 = 0) (hok : recordOk (givenRecord c) = true) :
    doProfileWrite c w = (requestIfActive (profilesMeasured w (fieldAt c.body 0 1) (givenRecord c)) (fieldAt c.body 0 1), { status := 0 }) :=
  (if_neg (not_or.mpr ⟨Nat.not_lt.mpr hi, not_not_intro h0⟩)).trans (if_neg (by rw [← givenRecord, hok]; decide))

theorem profileWrite_stores (h : Safety.kolwinServes s 5 c) (hi : fieldAt c.body 0 1 ≤ 3) (h0 : fieldAt c.body 1 7 = 0)
    (hok : recordOk (givenRecord c) = true) :
    let i := fieldAt c.body 0 1
    Safety.answers (.profileWrite t c) s fun v => Safety.answered s 5 c 0 0 [] v ∧
      (∀ j, storedRecord v j = if j = i then givenRecord c else storedRecord s j) ∧
      measure v 2 = shake256 (measure s 2 ++ shake256 ((List.range 4).flatMap fun j => if j = i then givenRecord c else storedRecord s j) 64) 64 ∧
      v.power.profileReq = (if fld s Reg.pwProfileActive = i then some i else s.power.profileReq) ∧
      Safety.onKolwin { s with power := v.power } [0xA0008] v := by
  intro i
  obtain ⟨hans, hon⟩ := profilesMeasured_tick s t i (givenRecord c)
  have hregs := requestIfActive_words (profilesMeasured (atTick s t) i (givenRecord c)) i
  obtain ⟨v, hx, ha, hv⟩ := kolwin_answers (i := .profileWrite t c) rfl h (by decide) (doProfileWrite_stores hi h0 hok)
    ((hans.modPower _).regs hregs (by decide) (by decide))
  obtain ⟨r, a, n, he⟩ := hregs.only
  obtain ⟨b, m, hd, rs, hk⟩ := hv.kolwin
  have hpower : v.power = { s.power with profileReq := if fld s Reg.pwProfileActive = i then some i else s.power.profileReq } := by
    rw [hv.power, he]; rfl
  refine ⟨v, hx, ha, fun j => ?_, ?_, by rw [hpower], ?_⟩
  · rw [← storedRecord_recordStored]
    exact storedRecord_congr (by rw [hk, he]; rfl) j
  · rw [← measure_profilesMeasured]
    exact measure_congr (by rw [hk, he]; rfl) 2
  · rw [hpower]
    exact hv.onKolwin (onKolwin_regs (onKolwin_modPower hon _) hregs)

theorem profileWrite_writes (h : Safety.kolwinServes s 5 c) :
    let i := fieldAt c.body 0 1
    let r := withCheck ((c.body.drop 8).take 48)
    let all := (List.range 4).flatMap fun j => if j = i then r else storedRecord s j
    (3 < i ∨ fieldAt c.body 1 7 ≠ 0 → Replies s t c (.profileWrite t c) 5 2) ∧
    (i ≤ 3 → fieldAt c.body 1 7 = 0 → recordOk r = false → Replies s t c (.profileWrite t c) 5 7) ∧
    (i ≤ 3 → fieldAt c.body 1 7 = 0 → recordOk r = true → Safety.answers (.profileWrite t c) s fun v => Safety.answered s 5 c 0 0 [] v ∧
      (∀ j, storedRecord v j = if j = i then r else storedRecord s j) ∧
      measure v 2 = shake256 (measure s 2 ++ shake256 all 64) 64 ∧
      v.power.profileReq = (if fld s Reg.pwProfileActive = i then some i else s.power.profileReq) ∧
      Safety.onKolwin { s with power := v.power } [0xA0008] v) := by
  intro i r all
  refine ⟨fun hb => kolwin_replies rfl h (by decide) (if_pos hb), fun hi h0 hok => ?_, profileWrite_stores h⟩
  refine kolwin_replies rfl h (by decide) ((if_neg (not_or.mpr ⟨Nat.not_lt.mpr hi, not_not_intro h0⟩)).trans (if_pos ?_))
  simpa [r] using hok

/-! ## MODE -/

theorem regWord_mode : ∃ w, regWord 0xA000C = some w := Option.isSome_iff_exists.mp (by decide)

theorem writeMode_writes (s : State) (x : Word32) : ∃ w, regWord 0xA000C = some w ∧
    writeMode s x = modPower (regPut s 0xA000C (writeWord w (regGet s 0xA000C) (heldBits s 0xA000C) x)) fun p => { p with modeDirty := true } := by
  obtain ⟨w, hw⟩ := regWord_mode
  have hmask : digestMask 0xA000C = 0 := by decide
  refine ⟨w, hw, ?_⟩
  rw [writeMode, plainWrite_some hw, writtenWord_of_some hw, hmask, if_pos (by simp)]

theorem modeCmd_writes (h : Safety.kolwinServes s 6 c) : Safety.answers (.modeCmd t c) s fun v => Safety.answered s 6 c 0 0 [] v ∧
    v.power = { s.power with modeDirty := true } ∧ Safety.onKolwin { s with power := v.power } [0xA000C] v ∧
    ∃ w, regWord 0xA000C = some w ∧
      regGet v 0xA000C = writeWord w (regGet s 0xA000C) (heldBits (atTick s t) 0xA000C) (BitVec.ofNat 32 (fieldAt c.body 0 4)) := by
  obtain ⟨w, hw, he⟩ := writeMode_writes (atTick s t) (BitVec.ofNat 32 (fieldAt c.body 0 4))
  let x := writeWord w (regGet (atTick s t) 0xA000C) (heldBits (atTick s t) 0xA000C) (BitVec.ofNat 32 (fieldAt c.body 0 4))
  have hregs : RegsAt [0xA000C] (atTick s t) (regPut (atTick s t) 0xA000C x) := .regPut _ (by decide) _
  obtain ⟨v, hx, ha, hv⟩ := kolwin_answers (i := .modeCmd t c) rfl h (by decide) (congrArg (·, _) he)
    (((Answerable.tick s t).regs hregs (by decide) (by decide)).modPower _)
  have hpower : v.power = { s.power with modeDirty := true } := hv.power
  refine ⟨v, hx, ha, hpower, ?_, w, hw, ?_⟩
  · rw [hpower]
    exact hv.onKolwin (onKolwin_modPower (onKolwin_regs (onKolwin_tick s t _) hregs) _)
  · rw [hv.words _ (by decide), regGet_modPower, regGet_regPut_same]
    rfl

/-! ## PAIR -/

theorem pairCmd_acts (h : Safety.kolwinServes s 7 c) {p : State → State} (hp : doPair c (atTick s t) = (p (atTick s t), { status := 0 })) :
    Safety.answers (.pairCmd t c) s fun v => Safety.answered (p (atTick s t)) 7 c 0 0 [] v ∧ Safety.onKolwin (p (atTick s t)) [] v := by
  have hb : c.board = true := h.port
  refine ⟨_, (kwCmd_responds h (by decide) _).trans (congrArg _ (congrArg _ hp)),
    respond_answered h.row (fun hf => absurd (hb.symm.trans hf) (by decide)) { status := 0 }, ?_⟩
  exact (respond_responded 7 c _ _).onKolwin ⟨rfl, fun _ _ _ => rfl⟩

theorem pairCmd_codes (h : Safety.kolwinServes s 7 c) :
    ∀ p ∈ ([(0, id), (1, mirrorPair), (2, mirrorUnpair), (3, mirrorFence), (4, mirrorTakeover)] : List (Nat × (State → State))),
      fieldAt c.body 0 4 % 16 = p.1 → Safety.answers (.pairCmd t c) s fun v =>
        Safety.answered (p.2 (atTick s t)) 7 c 0 0 [] v ∧ Safety.onKolwin (p.2 (atTick s t)) [] v := by
  intro p hp hn
  refine pairCmd_acts h ?_
  unfold doPair kwField
  rw [hn]
  simp only [List.mem_cons, List.not_mem_nil, or_false] at hp
  rcases hp with rfl | rfl | rfl | rfl | rfl <;> rfl

/-! ## COMMIT_SV -/

/-- The fuse is raised to a version. -/
def fuseRaised (s : State) (n : Nat) : State := { s with kolwin := { s.kolwin with svFuse := n } }

theorem commitSv_raises (h : Safety.kolwinServes s 9 c) : Safety.answers (.commitSv t c) s fun v => Safety.answered s 9 c 0 0 [] v ∧
    v.kolwin.svFuse = max s.kolwin.svFuse (fld s Reg.kwFwSecurity) ∧ fld v Reg.kwSvFuseMinimum = v.kolwin.svFuse % 2 ^ 32 ∧
    Safety.onKolwin s [Reg.kwSvFuseMinimum.off] v := by
  let n := max s.kolwin.svFuse (fld s Reg.kwFwSecurity)
  have hregs : RegsAt [Reg.kwSvFuseMinimum.off] (fuseRaised (atTick s t) n) (setFld (fuseRaised (atTick s t) n) Reg.kwSvFuseMinimum n) :=
    .setFldWord _ (by decide) (by decide) n
  have hans : Answerable s (fuseRaised (atTick s t) n) := ⟨rfl, rfl, rfl, rfl, rfl, rfl⟩
  have hon : Safety.onKolwin s [Reg.kwSvFuseMinimum.off] (fuseRaised (atTick s t) n) := ⟨rfl, fun _ _ _ => rfl⟩
  obtain ⟨v, hx, ha, hv⟩ := kolwin_answers (i := .commitSv t c) (f := doCommitSv) rfl h (by decide)
    (w := setFld (fuseRaised (atTick s t) n) Reg.kwSvFuseMinimum n) rfl (hans.regs hregs (by decide) (by decide))
  obtain ⟨b, m, hd, rs, hk⟩ := hv.kolwin
  have hfuse : v.kolwin.svFuse = n := by rw [hk, setFld_kolwin]; rfl
  refine ⟨v, hx, ha, hfuse, ?_, hv.onKolwin (onKolwin_regs hon hregs)⟩
  rw [hfuse, hv.fld (by decide) (by decide), fld_setFld_self _ (by decide) (by decide)]
  rfl

/-! ## ALERT_ACK -/

theorem alertAck_clears (h : Safety.kolwinServes s 13 c) : Safety.answers (.alertAck t c) s fun v => Safety.answered s 13 c 0 0 [] v ∧
    fld v Reg.kwAlertCause = fld s Reg.kwAlertCause - (fld s Reg.kwAlertCause &&& fieldAt c.body 0 2) ∧
    v.pins.alertN = decide (fld v Reg.kwAlertCause &&& fld s Reg.kwAlertEnable = 0) ∧
    Safety.onKolwin { s with pins := v.pins } [0xC0030] v := by
  let left := fld s Reg.kwAlertCause - (fld s Reg.kwAlertCause &&& fieldAt c.body 0 2)
  let w := setFld (atTick s t) Reg.kwAlertCause left
  have hlt : left < 2 ^ 6 := Nat.lt_of_le_of_lt (Nat.sub_le _ _) (bits_lt _ 5 0)
  have hregs : RegsAt [0xC0030] (atTick s t) w := .setFldWord _ (by decide) (by decide) left
  have hcause : fld w Reg.kwAlertCause = left := by
    rw [fld_setFld_self _ (by decide) (by decide)]
    exact Nat.mod_eq_of_lt hlt
  have henable : fld w Reg.kwAlertEnable = fld s Reg.kwAlertEnable := fld_setFld_apart (atTick s t) (by decide) left
  have hans := (Answerable.tick s t).regs hregs (by decide) (by decide)
  obtain ⟨v, hx, ha, hv⟩ := kolwin_answers (i := .alertAck t c) (f := doAlertAck c) rfl h (by decide) (w := driveAlert w) rfl
    ⟨hans.msix, hans.mbResp, hans.boardResp, hans.fatal, hans.irq, hans.state⟩
  have hvc : fld v Reg.kwAlertCause = left := (hv.fld (by decide) (by decide)).trans hcause
  refine ⟨v, hx, ha, hvc, ?_, hv.onKolwin ?_⟩
  · rw [hv.pins, hvc, ← henable, ← hcause]
    rfl
  · obtain ⟨hon, hwords⟩ := onKolwin_regs (onKolwin_tick s t [0xC0030]) hregs
    refine ⟨?_, hwords⟩
    rw [hv.pins, ← hon]
    rfl

end Sys2Proof.Machine
end

section
/-! Kolwin's commands FW_STAGE, RESET and POWER_STATE (R397, R401, R402). -/
namespace Sys2Proof.Machine
variable {s : State} {t : Nat} {c : KwCmd}

/-! ## Kolwin's own state -/

/-- The state with another state of Kolwin's. -/
def withKolwin (s : State) (k : Kolwin) : State := { s with kolwin := k }

theorem withKolwin_kolwin (s : State) (k : Kolwin) : (withKolwin s k).kolwin = k := rfl

theorem onKolwin_withKolwin (s : State) (t : Nat) (k : Kolwin) (ch : List Nat) : Safety.onKolwin s ch (withKolwin (atTick s t) k) :=
  ⟨rfl, fun _ _ _ => rfl⟩

theorem Answerable.withKolwin {k : Kolwin} (h1 : k.mbResp = s.kolwin.mbResp) (h2 : k.boardResp = s.kolwin.boardResp)
    (h3 : k.fatal = s.kolwin.fatal) : Answerable s (withKolwin (atTick s t) k) := ⟨rfl, h1, h2, h3, rfl, rfl⟩

/-! ## FW_STAGE -/

theorem verifyImage_congr {v : State} (h : v.kolwin.svFuse = s.kolwin.svFuse) (b : List Byte) : verifyImage v b = verifyImage s b := by
  unfold verifyImage; rw [h]

/-- Nothing is staged. -/
def notStaged (k : Kolwin) : Kolwin := { k with staged := [], stagedLen := 0 }

/-- An image is being written to flash. -/
def writingImage (k : Kolwin) (b : List Byte) : Kolwin := { k with staged := [], stagedLen := 0, writing := b }

/-- The write of an image to flash has begun. -/
def writeBegun (s : State) (k : Kolwin) (b : List Byte) : State := setFld (withKolwin s (writingImage k b)) Reg.kwStatusFwWriting 1

theorem stageImage_valid {k : Kolwin} {b : List Byte} (h : verifyImage (withKolwin s k) b = 0) :
    stageImage (withKolwin s k) b = (writeBegun s k b, { status := 0 }) := by
  unfold stageImage
  rw [h]
  rfl

theorem stageImage_invalid {k : Kolwin} {b : List Byte} (h : verifyImage (withKolwin s k) b ≠ 0) :
    stageImage (withKolwin s k) b = (withKolwin s (notStaged k), { status := verifyImage (withKolwin s k) b }) := by
  unfold stageImage
  split
  · next h0 => exact absurd h0 h
  · rfl

theorem writeBegun_words (s : State) (k : Kolwin) (b : List Byte) : RegsAt [0xC0000] (withKolwin s (writingImage k b)) (writeBegun s k b) :=
  .setFldWord _ (f := Reg.kwStatusFwWriting) (by decide) (by decide) 1

theorem fwWriting_writeBegun (s : State) (k : Kolwin) (b : List Byte) : fld (writeBegun s k b) Reg.kwStatusFwWriting = 1 :=
  fld_setFld_self _ (by decide) (by decide) 1

theorem writeBegun_kolwin (s : State) (k : Kolwin) (b : List Byte) : (writeBegun s k b).kolwin = writingImage k b := by
  rw [writeBegun, setFld_kolwin, withKolwin_kolwin]

/-- The chunks staged, of a length. -/
def staging (s : State) (m : List Host.Cell) (n : Nat) : Kolwin := { s.kolwin with staged := m, stagedLen := n }

/-- An image that passes: its write begins. -/
theorem stageImage_begins {i : Instr} {f : State → State × KwAnswer} {m : List Host.Cell} {n : Nat} {b : List Byte}
    (hi : exec i s = kwCmd t 8 c s (kwRun 8 c f)) (h : Safety.kolwinServes s 8 c)
    (hf : f (atTick s t) = stageImage (withKolwin (atTick s t) (staging s m n)) b) (hv : verifyImage s b = 0) :
    Safety.answers i s fun v => Safety.answered s 8 c 0 0 [] v ∧ Safety.onKolwin s [0xC0000] v ∧
      v.kolwin.writing = b ∧ v.kolwin.staged = [] ∧ v.kolwin.flash = s.kolwin.flash ∧ fld v Reg.kwStatusFwWriting = 1 := by
  have hok : verifyImage (withKolwin (atTick s t) (staging s m n)) b = 0 := (verifyImage_congr rfl b).trans hv
  have hregs := writeBegun_words (atTick s t) (staging s m n) b
  have hans : Answerable s (withKolwin (atTick s t) (writingImage (staging s m n) b)) := .withKolwin rfl rfl rfl
  obtain ⟨v, hx, ha, hr⟩ := kolwin_answers hi h (by decide) (hf.trans (stageImage_valid hok)) (hans.regs hregs (by decide) (by decide))
  obtain ⟨rb, rm, hd, rs, hk⟩ := hr.kolwin
  rw [writeBegun_kolwin] at hk
  refine ⟨v, hx, ha, hr.onKolwin (onKolwin_regs (onKolwin_withKolwin s t _ _) hregs), ?_, ?_, ?_, ?_⟩
  · rw [hk]; rfl
  · rw [hk]; rfl
  · rw [hk]; rfl
  · exact (hr.fld (by decide) (by decide)).trans (fwWriting_writeBegun _ _ b)

/-- An image that fails is answered with the reason. -/
theorem stageImage_refuses {i : Instr} {f : State → State × KwAnswer} {m : List Host.Cell} {n : Nat} {b : List Byte}
    (hi : exec i s = kwCmd t 8 c s (kwRun 8 c f)) (h : Safety.kolwinServes s 8 c)
    (hf : f (atTick s t) = stageImage (withKolwin (atTick s t) (staging s m n)) b) (hv : verifyImage s b ≠ 0) :
    Safety.answers i s fun v => Safety.answered s 8 c (verifyImage s b) 0 [] v ∧ Safety.onKolwin s [] v ∧
      v.kolwin.writing = s.kolwin.writing ∧ v.kolwin.staged = [] ∧ v.kolwin.flash = s.kolwin.flash ∧
      fld v Reg.kwStatusFwWriting = fld s Reg.kwStatusFwWriting := by
  have hst : verifyImage (withKolwin (atTick s t) (staging s m n)) b = verifyImage s b := verifyImage_congr rfl b
  have hno := stageImage_invalid (s := atTick s t) (k := staging s m n) (b := b) (by rw [hst]; exact hv)
  rw [hst] at hno
  obtain ⟨v, hx, ha, hr⟩ := kolwin_answers hi h (by decide) (hf.trans hno) (.withKolwin rfl rfl rfl)
  obtain ⟨rb, rm, hd, rs, hk⟩ := hr.kolwin
  rw [withKolwin_kolwin] at hk
  refine ⟨v, hx, ha, hr.onKolwin (onKolwin_withKolwin s t _ _), ?_, ?_, ?_, hr.fld (by decide) (by decide)⟩
  · rw [hk]; rfl
  · rw [hk]; rfl
  · rw [hk]; rfl

/-- The board's chunks once the command's has joined them. -/
def chunkStaged (s : State) (c : KwCmd) : Kolwin :=
  staging s (writeBytes s.kolwin.staged (fieldAt c.body 0 4) ((c.body.drop 4).take 48)) (max s.kolwin.stagedLen (fieldAt c.body 0 4 + 48))

theorem notWriting_tick (hw : flag s Reg.kwStatusFwWriting = false) : ¬ flag (atTick s t) Reg.kwStatusFwWriting = true := by
  change ¬ flag s Reg.kwStatusFwWriting = true
  rw [hw]
  decide

theorem doFwStage_chunk (hw : flag s Reg.kwStatusFwWriting = false) (hb : c.board = true) (hn : fieldAt c.body 0 4 + 48 ≤ 33554432) :
    doFwStage c (atTick s t) = if c.flags.getLsbD 0 then
      stageImage (withKolwin (atTick s t) (chunkStaged s c)) (stagedBytes (withKolwin (atTick s t) (chunkStaged s c)))
      else (withKolwin (atTick s t) (chunkStaged s c), { status := 0 }) := by
  have hw' := notWriting_tick (t := t) hw
  exact (if_neg hw').trans ((if_pos hb).trans (if_neg (Nat.not_lt.mpr hn)))

theorem fwStage_board (h : Safety.kolwinServes s 8 c) (hw : flag s Reg.kwStatusFwWriting = false) (hb : c.board = true) :
    (33554432 < fieldAt c.body 0 4 + 48 → Replies s t c (.fwStage t c) 8 2) ∧
    (fieldAt c.body 0 4 + 48 ≤ 33554432 → c.flags.getLsbD 0 = false → Safety.answers (.fwStage t c) s fun v =>
      Safety.answered s 8 c 0 0 [] v ∧ Safety.onKolwin s [] v ∧ v.kolwin.writing = s.kolwin.writing ∧
      v.kolwin.staged = writeBytes s.kolwin.staged (fieldAt c.body 0 4) ((c.body.drop 4).take 48) ∧
      v.kolwin.stagedLen = max s.kolwin.stagedLen (fieldAt c.body 0 4 + 48)) ∧
    (fieldAt c.body 0 4 + 48 ≤ 33554432 → c.flags.getLsbD 0 = true →
      let w := withKolwin (atTick s t) (chunkStaged s c)
      let st := verifyImage s (stagedBytes w)
      Safety.answers (.fwStage t c) s fun v => Safety.answered s 8 c st 0 [] v ∧ Safety.onKolwin s [0xC0000] v ∧
        v.kolwin.writing = (if st = 0 then stagedBytes w else s.kolwin.writing) ∧ v.kolwin.staged = [] ∧
        fld v Reg.kwStatusFwWriting = (if st = 0 then 1 else 0)) := by
  have hw' := notWriting_tick (t := t) hw
  refine ⟨fun hn => kolwin_replies rfl h (by decide) ((if_neg hw').trans ((if_pos hb).trans (if_pos hn))), fun hn hl => ?_, fun hn hl => ?_⟩
  · obtain ⟨v, hx, ha, hr⟩ := kolwin_answers (i := .fwStage t c) rfl h (by decide)
      ((doFwStage_chunk hw hb hn).trans (if_neg (by rw [hl]; decide))) (.withKolwin rfl rfl rfl)
    obtain ⟨rb, rm, hd, rs, hk⟩ := hr.kolwin
    rw [withKolwin_kolwin] at hk
    refine ⟨v, hx, ha, hr.onKolwin (onKolwin_withKolwin s t _ _), ?_, ?_, ?_⟩
    · rw [hk]; rfl
    · rw [hk]; rfl
    · rw [hk]; rfl
  · intro w st
    have hf := (doFwStage_chunk (t := t) hw hb hn).trans (if_pos hl)
    by_cases hst : st = 0
    · obtain ⟨v, hx, ha, hon, hwr, hsg, -, hfw⟩ := stageImage_begins (i := .fwStage t c) rfl h hf hst
      rw [if_pos hst, if_pos hst, hst]
      exact ⟨v, hx, ha, hon, hwr, hsg, hfw⟩
    · obtain ⟨v, hx, ha, hon, hwr, hsg, -, hfw⟩ := stageImage_refuses (i := .fwStage t c) rfl h hf hst
      rw [if_neg hst, if_neg hst]
      refine ⟨v, hx, ha, onKolwin_mono hon (fun _ hm => (List.not_mem_nil hm).elim), hwr, hsg, hfw.trans ?_⟩
      rw [flag, decide_eq_false_iff_not, not_not] at hw
      exact hw

/-- A range of the host's memory that FW_STAGE refuses. -/
def BadImage (s : State) (c : KwCmd) : Prop :=
  fieldAt c.body 8 4 < 257 ∨ 33554432 < fieldAt c.body 8 4 ∨ rowOf s (fieldAt c.body 0 8) (fieldAt c.body 8 4) ≠ .host

theorem fwStage_host (h : Safety.kolwinServes s 8 c) (hw : flag s Reg.kwStatusFwWriting = false) (hb : c.board = false) :
    let n := fieldAt c.body 8 4
    let b := physRead s (fieldAt c.body 0 8) n
    (BadImage s c → Replies s t c (.fwStage t c) 8 2) ∧
    (¬ BadImage s c → readFault s (fieldAt c.body 0 8) n ≠ none → Replies s t c (.fwStage t c) 8 8) ∧
    (hostReads s (fieldAt c.body 0 8) n = true → ¬ BadImage s c → verifyImage s b ≠ 0 → Safety.answers (.fwStage t c) s fun v =>
      Safety.answered s 8 c (verifyImage s b) 0 [] v ∧ v.kolwin.writing = s.kolwin.writing ∧ v.kolwin.flash = s.kolwin.flash ∧
      Safety.onKolwin s [] v) ∧
    (hostReads s (fieldAt c.body 0 8) n = true → ¬ BadImage s c → verifyImage s b = 0 → Safety.answers (.fwStage t c) s fun v =>
      Safety.answered s 8 c 0 0 [] v ∧ v.kolwin.writing = b ∧ v.kolwin.flash = s.kolwin.flash ∧ fld v Reg.kwStatusFwWriting = 1 ∧
      Safety.onKolwin s [0xC0000] v) := by
  intro n b
  have hw' := notWriting_tick (t := t) hw
  have hb' : ¬ c.board = true := by rw [hb]; decide
  have hread : hostReads s (fieldAt c.body 0 8) n = true → ¬ BadImage s c → doFwStage c (atTick s t) =
      stageImage (withKolwin (atTick s t) (staging s s.kolwin.staged s.kolwin.stagedLen)) b := fun hr hbad => by
    have hnone : ¬ (readFault (atTick s t) (fieldAt c.body 0 8) n).isSome = true := by
      change ¬ (readFault s (fieldAt c.body 0 8) n).isSome = true
      unfold hostReads at hr
      rw [Bool.and_eq_true, Option.isNone_iff_eq_none] at hr
      rw [hr.2]; decide
    exact (if_neg hw').trans ((if_neg hb').trans ((if_neg hbad).trans (if_neg hnone)))
  refine ⟨fun hbad => ?_, fun hbad hf => ?_, fun hr hbad hv => ?_, fun hr hbad hv => ?_⟩
  · exact kolwin_replies rfl h (by decide) ((if_neg hw').trans ((if_neg hb').trans (if_pos hbad)))
  · refine kolwin_replies rfl h (by decide) ((if_neg hw').trans ((if_neg hb').trans ((if_neg hbad).trans (if_pos ?_))))
    exact Option.isSome_iff_ne_none.mpr hf
  · obtain ⟨v, hx, ha, hon, hwr, -, hfl, -⟩ := stageImage_refuses (i := .fwStage t c) rfl h (hread hr hbad) hv
    exact ⟨v, hx, ha, hwr, hfl, hon⟩
  · obtain ⟨v, hx, ha, hon, hwr, -, hfl, hfw⟩ := stageImage_begins (i := .fwStage t c) rfl h (hread hr hbad) hv
    exact ⟨v, hx, ha, hwr, hfl, hfw, hon⟩

theorem fwStage_writing (h : Safety.kolwinServes s 8 c) (hw : flag s Reg.kwStatusFwWriting = true) : Replies s t c (.fwStage t c) 8 4 :=
  kolwin_replies rfl h (by decide) (if_pos hw)

/-! ## RESET -/

theorem exec_resetCmd (h : Safety.kolwinServes s 10 c) : exec (.resetCmd t c) s =
    .next (deviceReset (respond 10 c (doReset (atTick s t))) (if c.board then 5 else 4)) := by
  have hboot : stateAccepts (atTick s t) 10 = true := h.boot
  have hcode : (opcodeByte 10 c).toNat = 10 := by rw [opcodeByte, h.row]; rfl
  refine (kwCmd_served h (resetRun c)).trans (congrArg _ ?_)
  unfold resetRun
  rw [kwRun_served h (by decide)]
  dsimp only
  rw [if_pos]
  rw [h.pec, hcode, hboot, h.zero]
  decide

/-- A response does not reach what a reset keeps. -/
theorem wasReset_ofResponded {w u : State} {cause : Nat} {v : State} (hr : Responded w u) (h : Safety.wasReset u cause v) :
    Safety.wasReset w cause v := by
  have hret : ∀ k < 544, retired u k = retired w k := fun k hk => by
    have hc : coreState u k = coreState w k := hr.fld (by simp only [Reg.inCoreState, Reg.mbStatusDone]; omega)
      (by simp only [Reg.inCoreState, Reg.mbStatusDone]; omega)
    exact congrArg (fun n => decide (n = 4)) hc
  have hwidth : fld u Reg.hqStatusWidth = fld w Reg.hqStatusWidth := hr.fld (by decide) (by decide)
  have hactive : fld u Reg.pwProfileActive = fld w Reg.pwProfileActive := hr.fld (by decide) (by decide)
  have hpins : fld u Reg.pwProfilePins = fld w Reg.pwProfilePins := hr.fld (by decide) (by decide)
  obtain ⟨hcleared, hmem, hkept, hflash, hretired, hboot, hcause, hprofile⟩ := h
  rw [hwidth] at hboot
  rw [hactive, hpins] at hprofile
  refine ⟨hcleared, ?_, ?_, ?_, fun k hk hw => hretired k hk ((hret k hk).trans hw), hboot, hcause, hprofile⟩
  all_goals
    obtain ⟨r, a, n, ms, b, m, hd, rs, rfl⟩ := hr.only
    assumption

theorem resetCmd_resets (h : Safety.kolwinServes s 10 c) (hs : s.power.shutdown = false) (hr : s.kolwin.resetting = false) :
    Safety.answers (.resetCmd t c) s fun v => Safety.wasReset s (if c.board then 5 else 4) v ∧ v.tk = reach s.tk t ∧
      (c.board = true → Safety.answered { s with kolwin := v.kolwin } 10 c 0 0 [] v) := by
  have hdo : doReset (atTick s t) = (atTick s t, { status := 0 }) := by
    unfold doReset
    rw [show (atTick s t).power.shutdown = false from hs]
    rfl
  have hresp := respond_responded 10 c (atTick s t) { status := 0 }
  have hans := respond_answered (op := 10) h.row (w := atTick s t) h.host { status := 0 }
  rw [← hdo] at hresp hans
  have hrs : (respond 10 c (doReset (atTick s t))).kolwin.resetting = false := by
    obtain ⟨b, m, hd, rs, hk⟩ := hresp.kolwin
    rw [hk]; exact hr
  have hsd : (respond 10 c (doReset (atTick s t))).power.shutdown = false := by rw [hresp.power]; exact hs
  have hcause : (if c.board then 5 else 4) < 8 := by split <;> decide
  obtain ⟨htk, hmsix, hboard⟩ := deviceReset_kept (cause := if c.board then 5 else 4) hrs hsd
  refine ⟨_, exec_resetCmd h, wasReset_ofTick (wasReset_ofResponded hresp (deviceReset_wasReset hcause hrs hsd)), htk.trans hresp.tk,
    fun hb => ⟨fun _ => ?_, fun hf => absurd (hb.symm.trans hf) (by decide)⟩⟩
  obtain ⟨hm, -, hbr⟩ := hans.board hb
  exact ⟨hmsix.trans hm, rfl, hboard.trans hbr⟩

/-- A reset that is absorbed leaves the reply alone. -/
theorem resetCmd_absorbed (h : Safety.kolwinServes s 10 c) (ha : s.kolwin.resetting = true ∨ s.power.shutdown = true) :
    Replies s t c (.resetCmd t c) 10 (if s.power.shutdown then 4 else 0) := by
  have hresp := respond_responded 10 c (atTick s t) { status := if s.power.shutdown then 4 else 0 }
  have hans := respond_answered (op := 10) h.row (w := atTick s t) h.host { status := if s.power.shutdown then 4 else 0 }
  have habs : deviceReset (respond 10 c (doReset (atTick s t))) (if c.board then 5 else 4) = respond 10 c (doReset (atTick s t)) := by
    refine deviceReset_absorbed ?_
    obtain ⟨b, m, hd, rs, hk⟩ := hresp.kolwin
    refine ha.imp (fun hk' => ?_) fun hs => ?_
    · exact (congrArg Kolwin.resetting hk).trans hk'
    · exact (congrArg Power.shutdown hresp.power).trans hs
  refine ⟨_, (exec_resetCmd h).trans (congrArg _ habs), (Answerable.tick s t).answered hans, hresp.onKolwin (onKolwin_tick s t []), hresp.tk⟩

/-! ## POWER_STATE -/

/-- The power state is taken. -/
def powerTaken (s : State) (x : Nat) : State := withKolwin s { s.kolwin with powerState := x }

theorem doPowerState_takes {x : Nat} (hx : fieldAt c.body 0 1 = x) (h2 : x ≤ 2) (hn : ¬ (s.kolwin.powerState = 2 ∧ x ≠ 2)) :
    doPowerState c s = (if x = 0 then setFld (powerTaken s x) Reg.kwStatusQuiesced 0 else quiesce (powerTaken s x), { status := 0 }) := by
  subst hx
  exact (if_neg (Nat.not_lt.mpr h2)).trans (if_neg hn)

end Sys2Proof.Machine
end

section
/-! Kolwin's command POWER_STATE (R402). -/
namespace Sys2Proof.Machine
variable {s : State} {t : Nat} {c : KwCmd}

/-- No step is formed. -/
def noneFormed (s : State) : State := { s with sched := { s.sched with formed := none } }

/-- QUIESCED reads 1. -/
def quiescedShown (s : State) : State := setFld (noneFormed s) Reg.kwStatusQuiesced 1

theorem quiescedShown_words (s : State) : RegsAt [0xC0000] (noneFormed s) (quiescedShown s) :=
  .setFldWord _ (f := Reg.kwStatusQuiesced) (by decide) (by decide) 1

theorem quiesced_quiescedShown (s : State) : fld (quiescedShown s) Reg.kwStatusQuiesced = 1 :=
  fld_setFld_self _ (by decide) (by decide) 1

theorem quiesce_busy (h : s.sched.cur ≠ none) : quiesce s = s := if_pos (.inr (Option.isSome_iff_ne_none.mpr h))

theorem quiesce_idle (hp : s.kolwin.powerState ≠ 0) (h : s.sched.cur = none) :
    quiesce s = if s.kolwin.powerState = 2 then railsDown (quiescedShown s) true else quiescedShown s := by
  have hn : ¬ (s.kolwin.powerState = 0 ∨ s.sched.cur.isSome = true) := by simp [hp, h]
  exact if_neg hn

/-- A device that quiesces: QUIESCED shown, nothing formed, and the rails down in OFF_READY. -/
structure Quiesced (s v : State) : Prop where
  shown  : fld v Reg.kwStatusQuiesced = 1
  sched  : v.sched = { s.sched with formed := none }
  rails  : v.power.railsUp = (s.power.railsUp && decide (s.kolwin.powerState ≠ 2))
  kolwin : v.kolwin = s.kolwin
  words  : ∃ f, RegsAt (0xC0000 :: railWords) (modPower (noneFormed s) f) v

theorem quiescedShown_kept (s : State) : (quiescedShown s).power = s.power ∧ (quiescedShown s).kolwin = s.kolwin ∧
    (quiescedShown s).sched = { s.sched with formed := none } := by
  obtain ⟨r, a, n, he⟩ := (quiescedShown_words s).only
  rw [he]
  exact ⟨rfl, rfl, rfl⟩

theorem railsDown_kept (s : State) (keep : Bool) : (railsDown s keep).power.railsUp = false ∧ (railsDown s keep).kolwin = s.kolwin ∧
    (railsDown s keep).sched = s.sched := by
  obtain ⟨r, a, n, he⟩ := (railsDown_words s keep).only
  rw [he]
  exact ⟨rfl, rfl, rfl⟩

theorem quiesce_quiesced (hp : s.kolwin.powerState ≠ 0) (h : s.sched.cur = none) : Quiesced s (quiesce s) := by
  rw [quiesce_idle hp h]
  obtain ⟨hpower, hkolwin, hsched⟩ := quiescedShown_kept s
  have hwords : RegsAt (0xC0000 :: railWords) (noneFormed s) (quiescedShown s) :=
    (quiescedShown_words s).mono fun o ho => by rw [List.mem_singleton.mp ho]; exact List.mem_cons_self
  by_cases h2 : s.kolwin.powerState = 2
  · obtain ⟨hrails, hk, hs⟩ := railsDown_kept (quiescedShown s) true
    have hdown := railsDown_words (quiescedShown s) true
    rw [if_pos h2]
    refine ⟨?_, hs.trans hsched, ?_, hk.trans hkolwin, _, (hwords.modPower _).trans (hdown.mono fun _ => List.mem_cons_of_mem _)⟩
    · rw [hdown.fld (by decide) (by decide)]
      exact quiesced_quiescedShown s
    · rw [hrails, h2]
      exact (Bool.and_false _).symm
  · rw [if_neg h2]
    refine ⟨quiesced_quiescedShown s, hsched, ?_, hkolwin, id, hwords⟩
    rw [hpower, decide_eq_true h2, Bool.and_true]

/-- A power state that the device may take. -/
theorem powerState_idles (h : Safety.kolwinServes s 11 c) {x : Nat} (hx : fieldAt c.body 0 1 = x) (h0 : x ≠ 0) (h2 : x ≤ 2)
    (hn : ¬ (s.kolwin.powerState = 2 ∧ x ≠ 2)) :
    Safety.answers (.powerState t c) s fun v => Safety.answered s 11 c 0 0 [] v ∧ v.kolwin.powerState = x ∧
      (s.sched.cur = none → fld v Reg.kwStatusQuiesced = 1 ∧ v.sched = { s.sched with formed := none } ∧
        v.power.railsUp = (s.power.railsUp && decide (x = 1))) ∧
      (s.sched.cur ≠ none → Safety.onKolwin s [] v) := by
  have hdo := (doPowerState_takes (s := atTick s t) hx h2 hn).trans (congrArg (·, _) (if_neg h0))
  have hans : Answerable s (powerTaken (atTick s t) x) := .withKolwin rfl rfl rfl
  by_cases hc : s.sched.cur = none
  · have hq := quiesce_quiesced (s := powerTaken (atTick s t) x) h0 hc
    obtain ⟨f, hwords⟩ := hq.words
    have hbase : Answerable s (modPower (noneFormed (powerTaken (atTick s t) x)) f) :=
      ⟨hans.msix, hans.mbResp, hans.boardResp, hans.fatal, hans.irq, hans.state⟩
    obtain ⟨v, he, ha, hr⟩ := kolwin_answers (i := .powerState t c) rfl h (by decide) hdo (hbase.regs hwords (by decide) (by decide))
    obtain ⟨b, m, hd, rs, hk⟩ := hr.kolwin
    rw [hq.kolwin] at hk
    refine ⟨v, he, ha, by rw [hk]; rfl, fun _ => ⟨?_, hr.sched.trans hq.sched, ?_⟩, fun hne => absurd hc hne⟩
    · rw [hr.fld (by decide) (by decide), hq.shown]
    · rw [hr.power, hq.rails]
      refine congrArg (s.power.railsUp && ·) (decide_eq_decide.mpr ?_)
      change x ≠ 2 ↔ x = 1
      omega
  · rw [quiesce_busy (s := powerTaken (atTick s t) x) hc] at hdo
    obtain ⟨v, he, ha, hr⟩ := kolwin_answers (i := .powerState t c) rfl h (by decide) hdo hans
    obtain ⟨b, m, hd, rs, hk⟩ := hr.kolwin
    exact ⟨v, he, ha, by rw [hk]; rfl, fun hne => absurd hne hc, fun _ => hr.onKolwin (onKolwin_withKolwin s t _ _)⟩

theorem powerState_runs (h : Safety.kolwinServes s 11 c) (hx : fieldAt c.body 0 1 = 0) (hn : s.kolwin.powerState ≠ 2) :
    Safety.answers (.powerState t c) s fun v => Safety.answered s 11 c 0 0 [] v ∧
      v.kolwin.powerState = 0 ∧ fld v Reg.kwStatusQuiesced = 0 ∧ Safety.onKolwin s [0xC0000] v := by
  have hdo := (doPowerState_takes (s := atTick s t) hx (by decide) fun hb => hn hb.1).trans (congrArg (·, _) (if_pos rfl))
  have hregs : RegsAt [0xC0000] (powerTaken (atTick s t) 0) (setFld (powerTaken (atTick s t) 0) Reg.kwStatusQuiesced 0) :=
    .setFldWord _ (by decide) (by decide) 0
  obtain ⟨v, he, ha, hr⟩ := kolwin_answers (i := .powerState t c) rfl h (by decide) hdo
    ((Answerable.withKolwin rfl rfl rfl : Answerable s (powerTaken (atTick s t) 0)).regs hregs (by decide) (by decide))
  obtain ⟨b, m, hd, rs, hk⟩ := hr.kolwin
  rw [setFld_kolwin] at hk
  refine ⟨v, he, ha, by rw [hk]; rfl, ?_, hr.onKolwin (onKolwin_regs (onKolwin_withKolwin s t _ _) hregs)⟩
  rw [hr.fld (by decide) (by decide), fld_setFld_self _ (by decide) (by decide)]
  exact Nat.zero_mod _

theorem powerState_refused (h : Safety.kolwinServes s 11 c) :
    (2 < fieldAt c.body 0 1 → Replies s t c (.powerState t c) 11 2) ∧
    (fieldAt c.body 0 1 ≤ 2 → s.kolwin.powerState = 2 → fieldAt c.body 0 1 ≠ 2 → Replies s t c (.powerState t c) 11 4) :=
  ⟨fun hx => kolwin_replies rfl h (by decide) (if_pos hx),
    fun hx hp hne => kolwin_replies rfl h (by decide) ((if_neg (Nat.not_lt.mpr hx)).trans (if_pos ⟨hp, hne⟩))⟩

end Sys2Proof.Machine
end

section
/-! What a block's repair writes: the block and its CRC table entry (R152, R158). -/
namespace Sys2Proof.Machine
variable {s : State} {t : Nat} {c : KwCmd}

/-! ## Bytes -/

theorem leNat_natBytes (n v : Nat) : leNat (natBytes n v) = v % 256 ^ n := by
  induction n generalizing v with
  | zero => simp [natBytes, leNat, Nat.mod_one]
  | succ n ih =>
    rw [natBytes, leNat, ih, BitVec.toNat_ofNat, pow_succ' 256 n, Nat.mod_mul]

/-- A read of part of what was just written. -/
theorem readBytes_writeBytes_mid (m : List Host.Cell) (a : Nat) (pre bs post : List Byte) :
    readBytes (writeBytes m a (pre ++ bs ++ post)) (a + pre.length) bs.length = bs := by
  rw [readBytes_eq_map]
  refine List.ext_getElem (by simp) fun i h1 h2 => ?_
  rw [List.getElem_map, List.getElem_range, Nat.add_assoc, readByte_writeBytes_in _ _ _ _ (by simp; omega),
    List.getElem_append_left (by simp; omega), List.getElem_append_right (by omega)]
  simp

theorem readBytes_writeBytes (m : List Host.Cell) (a : Nat) (bs : List Byte) : readBytes (writeBytes m a bs) a bs.length = bs := by
  simpa using readBytes_writeBytes_mid m a [] bs []

theorem readBytes_congr {m m' : List Host.Cell} {a n : Nat} (h : ∀ i < n, readByte m' (a + i) = readByte m (a + i)) :
    readBytes m' a n = readBytes m a n := by
  rw [readBytes_eq_map, readBytes_eq_map]
  exact List.map_congr_left fun i hi => h i (List.mem_range.mp hi)

/-! ## Writes of memory -/

theorem smGet_eq_default {α : Type} {d : Nat → α} {m : List (Nat × α)} {k : Nat} (h : ∀ e ∈ m, e.1 ≠ k) : smGet d m k = d k := by
  induction m with
  | nil => rfl
  | cons e m ih =>
    obtain ⟨j, v⟩ := e
    rw [smGet, if_neg (h _ List.mem_cons_self), ih fun e he => h e (List.mem_cons_of_mem _ he)]

/-- A word is covered in part by no write of whole words. -/
theorem partWords_whole {a n : Nat} (ha : a % 16 = 0) (hn : n % 16 = 0) : partWords a n = [] := by
  unfold partWords
  split
  · rfl
  · rw [List.filter_eq_nil_iff]
    intro w hw
    simp only [Bool.not_eq_true', Bool.not_eq_false, Bool.and_eq_true, decide_eq_true_eq]
    split at hw <;> simp only [List.mem_cons, List.not_mem_nil, or_false] at hw <;> omega

theorem physWrite_whole {a : Nat} {bs : List Byte} (hh : ¬ (hostBase ≤ a ∧ a < peerBase)) (ha : a % 16 = 0) (hn : bs.length % 16 = 0) :
    physWrite s a bs = store s a bs := by
  unfold physWrite
  rw [if_neg hh, partWords_whole ha hn]
  rfl

theorem mergeRead_log (s : State) (a w : Nat) : LogOnly s (mergeRead s a w) := by
  unfold mergeRead
  split
  · exact (LogOnly.ueEvent s _ _ _).trans (LogOnly.dropWrite _ _)
  · exact LogOnly.foldl (fun u _ => (RegsOnly.countUp u _ _ 0 1).log) _ s

theorem mergedBytes_good {a : Nat} {ws : List Nat} {bs : List Byte}
    (h : ∀ i < bs.length, smGet boolDefault s.badWords ((a + i) / 16) = false) : mergedBytes s a ws bs = bs := by
  unfold mergedBytes
  refine List.ext_getElem (by simp) fun i h1 h2 => ?_
  simp [h i h2]

/-- A write that covers no uncorrectable word leaves its bytes. -/
theorem physWrite_good {a : Nat} {bs : List Byte} (hh : ¬ (hostBase ≤ a ∧ a < peerBase))
    (h : ∀ i < bs.length, smGet boolDefault s.badWords ((a + i) / 16) = false) : (physWrite s a bs).mem = writeBytes s.mem a bs := by
  unfold physWrite
  rw [if_neg hh]
  dsimp only
  rw [mergedBytes_good h]
  split
  · rfl
  · exact congrArg (writeBytes · a bs) (LogOnly.foldl (fun u w => mergeRead_log u a w) _ s).mem

/-! ## The entry of the CRC table -/

theorem baseFld_aligned {f : Fld} (h : f.lo = 12) (s : State) : baseFld s f % 4096 = 0 := by
  rw [baseFld, h]
  exact Nat.mul_mod_left _ _

theorem grBase_aligned (s : State) (i : Nat) : grBase s i % 4096 = 0 := baseFld_aligned rfl s
theorem grCrcBase_aligned (s : State) (i : Nat) : grCrcBase s i % 4096 = 0 := baseFld_aligned rfl s

/-- The CRC table's word that holds a block's entry. -/
def crcWord (s : State) (n b : Nat) : Nat := crcEntry s n (2 * (b / 2))

/-- The entry of a block has taken a CRC, in its word alone. -/
structure EntryWritten (s : State) (n b crc : Nat) (v : State) : Prop where
  entry  : readBytes v.mem (crcEntry s n b) 8 = natBytes 8 crc
  others : ∀ x, x < crcWord s n b ∨ crcWord s n b + 16 ≤ x → readByte v.mem x = readByte s.mem x
  frame  : MemLogOnly s v

theorem crcEntry_cases (s : State) (n b : Nat) :
    (b = 2 * (b / 2) ∧ crcEntry s n b = crcWord s n b) ∨ (b = 2 * (b / 2) + 1 ∧ crcEntry s n b = crcWord s n b + 8) := by
  unfold crcWord crcEntry
  omega

theorem crcWord_aligned (s : State) (n b : Nat) : crcWord s n b % 16 = 0 := by
  have h := grCrcBase_aligned s n
  unfold crcWord crcEntry
  omega

/-- The other entry of the word that a rewritten pair of entries takes. -/
def otherCrc (s : State) (n b : Nat) : Nat :=
  let other := if b = 2 * (b / 2) then 2 * (b / 2) + 1 else 2 * (b / 2)
  if grSize s n / 4096 ≤ other then 0 else (goldenCrc s n other).getD 0

theorem freshEntry_good {n b crc : Nat} (h : badIn s (crcWord s n b) 16 = none) : freshEntry s n b crc = physPut s (crcEntry s n b) 8 crc :=
  if_pos (Option.isNone_iff_eq_none.mpr h)

theorem freshEntry_bad {n b crc : Nat} (h : badIn s (crcWord s n b) 16 ≠ none) : freshEntry s n b crc = physWrite s (crcWord s n b)
    (if b = 2 * (b / 2) then natBytes 8 crc ++ natBytes 8 (otherCrc s n b) else natBytes 8 (otherCrc s n b) ++ natBytes 8 crc) :=
  if_neg fun hn => h (Option.isNone_iff_eq_none.mp hn)

theorem good_of_badIn {a : Nat} (ha : a % 16 = 0) (h : badIn s a 16 = none) : smGet boolDefault s.badWords (a / 16) = false := by
  rw [badIn, Option.map_eq_none_iff, List.find?_eq_none] at h
  refine smGet_eq_default fun e he hk => h e he ?_
  simp only [Bool.and_eq_true, decide_eq_true_eq]
  omega

theorem freshEntry_written {n b : Nat} (crc : Nat) (hh : crcWord s n b + 16 ≤ hostBase) : EntryWritten s n b crc (freshEntry s n b crc) := by
  have hal := crcWord_aligned s n b
  have hlen : ∀ v, (natBytes 8 v).length = 8 := natBytes_length 8
  by_cases hbad : badIn s (crcWord s n b) 16 = none
  · rw [freshEntry_good hbad]
    have hpos : crcWord s n b ≤ crcEntry s n b ∧ crcEntry s n b ≤ crcWord s n b + 8 := by
      rcases crcEntry_cases s n b with ⟨-, h⟩ | ⟨-, h⟩ <;> omega
    have hgood : ∀ i < (natBytes 8 crc).length, smGet boolDefault s.badWords ((crcEntry s n b + i) / 16) = false := fun i hi => by
      rw [hlen] at hi
      rw [show (crcEntry s n b + i) / 16 = crcWord s n b / 16 by omega]
      exact good_of_badIn hal hbad
    have hmem : (physPut s (crcEntry s n b) 8 crc).mem = writeBytes s.mem (crcEntry s n b) (natBytes 8 crc) :=
      physWrite_good (by omega) hgood
    refine ⟨?_, fun x hx => ?_, .physPut s _ _ _⟩
    · rw [hmem]
      have := readBytes_writeBytes s.mem (crcEntry s n b) (natBytes 8 crc)
      rwa [hlen] at this
    · rw [hmem]
      exact readByte_writeBytes_out _ _ _ _ (by rw [hlen]; omega)
  · rw [freshEntry_bad hbad]
    have hwhole : ∀ bs : List Byte, bs.length = 16 → (physWrite s (crcWord s n b) bs).mem = writeBytes s.mem (crcWord s n b) bs := fun bs hl => by
      rw [physWrite_whole (by omega) hal (by rw [hl])]
      rfl
    refine ⟨?_, fun x hx => ?_, .physWrite s _ _⟩
    · rcases crcEntry_cases s n b with ⟨hb, he⟩ | ⟨hb, he⟩
      · have := readBytes_writeBytes_mid s.mem (crcWord s n b) [] (natBytes 8 crc) (natBytes 8 (otherCrc s n b))
        rw [if_pos hb, hwhole _ (by simp [hlen]), he]
        simpa [hlen] using this
      · have := readBytes_writeBytes_mid s.mem (crcWord s n b) (natBytes 8 (otherCrc s n b)) (natBytes 8 crc) []
        rw [if_neg (by omega), hwhole _ (by simp [hlen]), he]
        simpa [hlen] using this
    · have hl : (if b = 2 * (b / 2) then natBytes 8 crc ++ natBytes 8 (otherCrc s n b) else natBytes 8 (otherCrc s n b) ++ natBytes 8 crc).length = 16 := by
        split <;> simp [hlen]
      rw [hwhole _ hl]
      exact readByte_writeBytes_out _ _ _ _ (by rw [hl]; omega)

end Sys2Proof.Machine
end

section
/-! The end of a block's repair, and Kolwin's command REPAIR_SUPPLY that brings one (R158, R411). -/
namespace Sys2Proof.Machine
variable {s : State} {t : Nat} {c : KwCmd}

/-! ## The stages of `repaired` -/

/-- The block and its CRC table entry are written. -/
def blockEntered (s : State) (r : Repair) (data : List Byte) (crc : Nat) : State :=
  freshEntry (physWrite s (grBase s r.range + 4096 * r.block) data) r.range r.block crc

/-- The repair has left the list; it is counted, and FAIL_BLOCK names its block. -/
def repairCounted (s : State) (r : Repair) : State :=
  setFld (countUp (putRepair s r none) (Reg.mcGrRepairs r.range) (Reg.mcGrRepairsOvf r.range) 0 1) (Reg.mcGrFailBlock r.range) r.block

/-- The record of a repair that has ended (R158). -/
def repairRecord (s : State) (r : Repair) : ErrRec :=
  { type := 0x03, step := stepNow s, a0 := r.range, a1 := r.block, a2 := r.stage, a3 := (s.tk - r.began) / 100 }

/-- The state before the next repairs start. -/
def repairRecorded (s : State) (r : Repair) (data : List Byte) (crc : Nat) : State :=
  errorRecord (repairCounted (closeSlot (blockEntered s r data crc) r.slot) r) (repairRecord s r)

theorem repaired_eq (s : State) (r : Repair) (data : List Byte) (crc : Nat) :
    repaired s r data crc = startRepairs (repairRecorded s r data crc) := rfl

/-! ## What a stage leaves -/

/-- `v` is `s` but for memory, registers, the log, the list of repairs and the watchdog. -/
def RepairOnly (s v : State) : Prop :=
  ∃ m b w r a h hm ig ms rp t2 tl, v =
    { s with mem := m, badWords := b, softWords := w, regs := r, hwSetAt := a, hwSet := h,
             hostMem := hm, integ := ig, msix := ms, repairs := rp, timer2 := t2, timer2Left := tl }

theorem MemLogOnly.repair {v : State} (h : MemLogOnly s v) : RepairOnly s v := by
  obtain ⟨m, b, w, r, a, n, hm, ig, ms, rfl⟩ := h
  exact ⟨m, b, w, r, a, n, hm, ig, ms, _, _, _, rfl⟩

namespace RepairOnly
variable {v w : State}

theorem trans (h : RepairOnly s v) (g : RepairOnly v w) : RepairOnly s w := by
  obtain ⟨m, b, c, r, a, n, hm, ig, ms, rp, t2, tl, rfl⟩ := h
  obtain ⟨m', b', c', r', a', n', hm', ig', ms', rp', t2', tl', rfl⟩ := g
  exact ⟨m', b', c', r', a', n', hm', ig', ms', rp', t2', tl', rfl⟩

theorem kolwin (h : RepairOnly s v) : v.kolwin = s.kolwin := by obtain ⟨m, b, c, r, a, n, hm, ig, ms, rp, t2, tl, rfl⟩ := h; rfl
theorem links (h : RepairOnly s v) : v.links = s.links := by obtain ⟨m, b, c, r, a, n, hm, ig, ms, rp, t2, tl, rfl⟩ := h; rfl
theorem bar2Reads (h : RepairOnly s v) : v.bar2Reads = s.bar2Reads := by obtain ⟨m, b, c, r, a, n, hm, ig, ms, rp, t2, tl, rfl⟩ := h; rfl
theorem dot (h : RepairOnly s v) : v.dot = s.dot := by obtain ⟨m, b, c, r, a, n, hm, ig, ms, rp, t2, tl, rfl⟩ := h; rfl

theorem putRepair (s : State) (r : Repair) (new : Option Repair) : RepairOnly s (putRepair s r new) := ⟨_, _, _, _, _, _, _, _, _, _, _, _, rfl⟩

end RepairOnly

theorem closeSlot_only (s : State) (slot : Option Nat) : RegsOnly s (closeSlot s slot) := by
  cases slot with
  | none => exact .refl s
  | some i => exact .foldl (fun u _ => .setReg64 u _ _) _ s

theorem closeSlot_some (s : State) (i : Nat) : closeSlot s (some i) =
    setReg64 (setReg64 (setReg64 (setReg64 s (0xC0100 + 0x20 * i + 8 * 0) 0) (0xC0100 + 0x20 * i + 8 * 1) 0) (0xC0100 + 0x20 * i + 8 * 2) 0)
      (0xC0100 + 0x20 * i + 8 * 3) 0 := rfl

/-- A slot that is closed holds no request. -/
theorem request_closeSlot (s : State) (i : Nat) : fld (closeSlot s (some i)) (Reg.kwRepairRequest i) = 0 := by
  have hreg : reg64 (closeSlot s (some i)) (0xC0100 + 0x20 * i) = 0 := by
    rw [closeSlot_some, reg64_setReg64_ne _ (by omega) (by omega) (by omega), reg64_setReg64_ne _ (by omega) (by omega) (by omega),
      reg64_setReg64_ne _ (by omega) (by omega) (by omega), Nat.mul_zero, Nat.add_zero, reg64_setReg64_same,
      Nat.zero_mod]
  rw [fld_eq_bits]
  change bits (reg64 _ (0xC0100 + 0x20 * i)) 63 63 = 0
  rw [hreg]
  decide

theorem repairCounted_regs (s : State) {r : Repair} {o : Nat} (h : o < 0x31020 ∨ 0x32000 ≤ o) (hr : r.range < 16) :
    regGet (repairCounted s r) o = regGet s o := by
  rw [repairCounted, regGet_setFld_word _ (show 31 < 32 by decide) (by simp only [Reg.mcGrFailBlock]; omega),
    regGet_countUp_ne _ (by simp only [Reg.mcGrRepairs]; omega) (fun h4 => absurd h4 (show ¬ 32 ≤ 31 by decide))
      (by simp only [Reg.mcGrRepairsOvf]; omega) (show 8 + 0 < 32 by decide)]
  rfl

theorem failBlock_repairCounted (s : State) (r : Repair) :
    fld (repairCounted s r) (Reg.mcGrFailBlock r.range) = r.block % 2 ^ 32 :=
  fld_setFld_self _ (show 0 ≤ 31 by decide) (show 31 < 64 by decide) _

theorem repairCounted_kolwin (s : State) (r : Repair) : (repairCounted s r).kolwin = s.kolwin :=
  ((RegsOnly.countUp (putRepair s r none) _ _ _ _).trans (.setFld _ _ _)).log.kolwin

theorem inRepair_putRepair (s : State) (r : Repair) : inRepair (putRepair s r none) r.range r.block = false := by
  unfold inRepair
  rw [List.any_eq_false]
  intro x hx
  simp only [putRepair, List.mem_flatMap] at hx
  obtain ⟨y, -, hy⟩ := hx
  split at hy
  · exact absurd hy List.not_mem_nil
  · next hne => rwa [List.mem_singleton.mp hy, decide_eq_true_eq]

/-! ## The next repairs start -/

/-- The repairs that wait start as places fall free (R158). -/
def startedRepairs (s : State) : List Repair :=
  (List.zip (List.range s.repairs.length) s.repairs).map fun p =>
    if p.1 < 16 ∧ p.2.stage = 0 then { p.2 with stage := 1, limit := s.tk + 10100 } else p.2

theorem holdWatchdog_only (s : State) : ∃ t2 tl, holdWatchdog s = { s with timer2 := t2, timer2Left := tl } := by
  unfold holdWatchdog
  split
  · split
    · exact ⟨_, _, rfl⟩
    · exact ⟨_, _, rfl⟩
  · split
    · exact ⟨_, _, rfl⟩
    · exact ⟨_, _, rfl⟩

theorem startRepairs_eq (s : State) : startRepairs s = holdWatchdog (showRepairs { s with repairs := startedRepairs s }) := rfl

theorem startRepairs_only (s : State) : RepairOnly s (startRepairs s) ∧ (startRepairs s).repairs = startedRepairs s ∧
    (startRepairs s).mem = s.mem ∧ ∀ o, o ≠ 0x30004 → regGet (startRepairs s) o = regGet s o := by
  have hshow : RegsAt [0x30004] { s with repairs := startedRepairs s } (showRepairs { s with repairs := startedRepairs s }) :=
    .setFldWord _ (f := Reg.mcStatusRepairsPending) (by decide) (by decide) _
  obtain ⟨t2, tl, he⟩ := holdWatchdog_only (showRepairs { s with repairs := startedRepairs s })
  rw [startRepairs_eq, he]
  have hwords : ∀ o, o ≠ 0x30004 → regGet (showRepairs { s with repairs := startedRepairs s }) o = regGet s o := fun o ho =>
    hshow.words o (by simp [ho])
  obtain ⟨r, a, n, hr⟩ := hshow.only
  rw [hr] at hwords ⊢
  exact ⟨⟨_, _, _, _, _, _, _, _, _, _, _, _, rfl⟩, rfl, rfl, hwords⟩

theorem inRepair_startRepairs {n b : Nat} (h : inRepair s n b = false) : inRepair (startRepairs s) n b = false := by
  unfold inRepair at h ⊢
  rw [(startRepairs_only s).2.1, startedRepairs]
  rw [List.any_eq_false] at h ⊢
  intro x hx
  obtain ⟨p, hp, rfl⟩ := List.mem_map.mp hx
  have := h p.2 (List.of_mem_zip hp).2
  split <;> exact this

/-! ## The whole repair -/

theorem blockEntered_frame (s : State) (r : Repair) (data : List Byte) (crc : Nat)
    (h : crcWord s r.range r.block + 16 ≤ hostBase)
    (hd : physWrite s (grBase s r.range + 4096 * r.block) data = store s (grBase s r.range + 4096 * r.block) data) :
    EntryWritten (store s (grBase s r.range + 4096 * r.block) data) r.range r.block crc (blockEntered s r data crc) := by
  rw [blockEntered, hd]
  exact freshEntry_written crc h

/-- The block and its entry, once written, read as they were given. -/
structure BlockWritten (s : State) (r : Repair) (data : List Byte) (crc : Nat) (v : State) : Prop where
  block : readBytes v.mem (grBase s r.range + 4096 * r.block) 4096 = data
  entry : readNat v.mem (grCrcBase s r.range + 8 * r.block) 8 = crc
  frame : MemLogOnly s v

theorem blockEntered_written {r : Repair} {data : List Byte} {crc : Nat} (hd : data.length = 4096) (hc : crc < 2 ^ 64)
    (h : Safety.repairable s r) : BlockWritten s r data crc (blockEntered s r data crc) := by
  obtain ⟨-, hapart, ⟨hblock, hentry⟩, -⟩ := h
  have hal := grBase_aligned s r.range
  have hword : crcWord s r.range r.block + 16 ≤ hostBase := by unfold crcWord crcEntry; omega
  have hstore : physWrite s (grBase s r.range + 4096 * r.block) data = store s (grBase s r.range + 4096 * r.block) data :=
    physWrite_whole (by omega) (by omega) (by rw [hd])
  obtain ⟨he, ho, hf⟩ := blockEntered_frame s r data crc hword hstore
  refine ⟨?_, ?_, (MemLogOnly.store s _ _).trans hf⟩
  · have hout : ∀ i < 4096, grBase s r.range + 4096 * r.block + i < crcWord s r.range r.block ∨
        crcWord s r.range r.block + 16 ≤ grBase s r.range + 4096 * r.block + i := fun i hi => by
      rw [overlaps, decide_eq_false_iff_not] at hapart
      change ¬ (0 < 4096 ∧ 0 < 16 ∧ grBase s r.range + 4096 * r.block < crcWord s r.range r.block + 16 ∧
        crcWord s r.range r.block < grBase s r.range + 4096 * r.block + 4096) at hapart
      omega
    have hself := readBytes_writeBytes s.mem (grBase s r.range + 4096 * r.block) data
    rw [hd] at hself
    exact (readBytes_congr fun i hi => ho _ (hout i hi)).trans hself
  · change leNat (readBytes _ (crcEntry s r.range r.block) 8) = crc
    have he' : readBytes (blockEntered s r data crc).mem (crcEntry s r.range r.block) 8 = natBytes 8 crc := he
    rw [he', leNat_natBytes]
    exact Nat.mod_eq_of_lt hc

/-- The repairs of the state before the record are those without the block's. -/
theorem repairRecorded_kept (s : State) (r : Repair) (data : List Byte) (crc : Nat) (hf : MemLogOnly s (blockEntered s r data crc)) :
    RepairOnly s (repairRecorded s r data crc) ∧ (repairRecorded s r data crc).mem = (blockEntered s r data crc).mem ∧
    inRepair (repairRecorded s r data crc) r.range r.block = false := by
  have hclose := closeSlot_only (blockEntered s r data crc) r.slot
  have hcount : RegsOnly (putRepair (closeSlot (blockEntered s r data crc) r.slot) r none) (repairCounted (closeSlot (blockEntered s r data crc) r.slot) r) :=
    (RegsOnly.countUp _ _ _ _ _).trans (.setFld _ _ _)
  have hlog := hcount.log.trans (LogOnly.errorRecord (repairCounted (closeSlot (blockEntered s r data crc) r.slot) r) (repairRecord s r))
  have hfree := inRepair_putRepair (closeSlot (blockEntered s r data crc) r.slot) r
  refine ⟨((hf.trans hclose.log.memLog).repair.trans (.putRepair _ r none)).trans hlog.memLog.repair, ?_, ?_⟩
  · exact hlog.mem.trans (hclose.log.mem)
  · obtain ⟨_, _, _, _, _, _, he⟩ := hlog
    rw [repairRecorded, he]
    exact hfree

theorem record_repairRecorded (s : State) (r : Repair) (data : List Byte) (crc : Nat) (hr : r.range < 16) {o : Nat}
    (ho : o ∉ recordWords) (h : o < 0x31020 ∨ 0x32000 ≤ o) :
    regGet (repairRecorded s r data crc) o = regGet (closeSlot (blockEntered s r data crc) r.slot) o :=
  (regGet_errorRecord _ _ ho).trans (repairCounted_regs _ h hr)

theorem repaired_repaired {r : Repair} {data : List Byte} {crc : Nat} (hd : data.length = 4096) (hc : crc < 2 ^ 64)
    (h : Safety.repairable s r) (hfatal : s.kolwin.fatal = false) :
    Safety.blockRepaired s r data crc (repaired s r data crc) ∧ RepairOnly s (repaired s r data crc) := by
  have hrange := h.range
  obtain ⟨hblock, hentry, hframe⟩ := blockEntered_written hd hc h
  obtain ⟨honly, hmem, hfree⟩ := repairRecorded_kept s r data crc hframe
  obtain ⟨hstart, -, hsmem, hsregs⟩ := startRepairs_only (repairRecorded s r data crc)
  have hsfld : ∀ f : Fld, f.off ≠ 0x30004 → f.off + 4 ≠ 0x30004 → fld (startRepairs (repairRecorded s r data crc)) f =
      fld (repairRecorded s r data crc) f := fun f h1 h2 => fld_congr (hsregs _ h1) fun _ => hsregs _ h2
  rw [repaired_eq]
  refine ⟨⟨?_, ?_, inRepair_startRepairs hfree, fun i hi hi16 => ?_, ?_, ?_⟩, honly.trans hstart⟩
  · rw [hsmem, hmem, hblock]
  · rw [hsmem, hmem, hentry]
  · have hreg : ∀ j < 8, regGet (repairRecorded s r data crc) (0xC0100 + 0x20 * i + j) =
        regGet (closeSlot (blockEntered s r data crc) r.slot) (0xC0100 + 0x20 * i + j) := fun j _ =>
      record_repairRecorded s r data crc hrange (by rw [mem_recordWords]; omega) (by omega)
    rw [hsfld _ (by simp only [Reg.kwRepairRequest]; omega) (by simp only [Reg.kwRepairRequest]; omega)]
    refine (fld_congr (hreg 0 (by decide)) fun _ => hreg 4 (by decide)).trans ?_
    rw [hi]
    exact request_closeSlot _ i
  · rw [hsfld _ (by simp only [Reg.mcGrFailBlock]; omega) (by simp only [Reg.mcGrFailBlock]; omega)]
    refine ((errorRecord_testAt _ _).fld ?_ fun h4 => absurd h4 (show ¬ 32 ≤ 31 by decide)).trans (failBlock_repairCounted _ r)
    rw [mem_recordWords]
    simp only [Reg.mcGrFailBlock]
    omega
  · rw [hsfld _ (by decide) (by decide)]
    refine errorRecord_type ?_ (by simp [alreadyRaised, repairRecord])
    rw [repairCounted_kolwin, (closeSlot_only _ r.slot).log.kolwin, hframe.repair.kolwin, hfatal]

/-! ## Reads that wait (R158) -/

theorem retryStarts_none (h : ∀ p ∈ s.dot, p.2.waitStart = false) : retryStarts s = s := by
  have hwait : ∀ m, (getDot s m).waitStart = false := by
    intro m
    unfold getDot
    generalize s.dot = l at h
    induction l with
    | nil => rfl
    | cons e l ih =>
      obtain ⟨j, d⟩ := e
      rw [smGet]
      split
      · exact h _ List.mem_cons_self
      · exact ih fun p hp => h p (List.mem_cons_of_mem _ hp)
  have hstep : ∀ l : List (Nat × DotEntry), l.foldl (fun st p =>
      if (getDot st p.1).state = .active ∧ (getDot st p.1).waitStart = true then
        if p.2.kind = kColl then collStart st p.1 else if p.2.kind = kImport then importStart st p.1 else st
      else st) s = s := by
    intro l
    induction l with
    | nil => rfl
    | cons e l ih =>
      rw [List.foldl_cons, if_neg (by rw [hwait]; exact fun hc => Bool.false_ne_true hc.2)]
      exact ih
  exact hstep s.dot

theorem noReads_eq (hl : s.links.reads = []) : { s with links := { s.links with reads := [] } } = s := by rw [← hl]

theorem noBar2Reads_eq (hb : s.bar2Reads = []) : { s with bar2Reads := [] } = s := by rw [← hb]

theorem serveReads_none (hl : s.links.reads = []) (hb : s.bar2Reads = []) (hd : ∀ p ∈ s.dot, p.2.waitStart = false) : serveReads s = s := by
  have hlink : serveLinkReads s = s := by
    unfold serveLinkReads
    rw [hl, List.foldl_nil]
    exact noReads_eq hl
  unfold serveReads
  dsimp only
  rw [hlink, hb, List.foldl_nil, noBar2Reads_eq hb, retryStarts_none hd]

/-! ## REPAIR_SUPPLY -/

/-- A command that REPAIR_SUPPLY refuses. -/
def BadSupply (s : State) (c : KwCmd) : Prop :=
  15 < fieldAt c.body 0 1 ∨ fieldAt c.body 1 7 ≠ 0 ∨ rowOf s (fieldAt c.body 8 8) 4096 ≠ .host

theorem doRepairSupply_none (hb : ¬ BadSupply s c) (h : s.repairs.find? (fun r => decide (r.slot = some (fieldAt c.body 0 1))) = none) :
    doRepairSupply c s = (s, { status := 4 }) := by
  have h' : s.repairs.find? (fun r => decide (r.slot = some (kwField c 0 1))) = none := h
  refine (if_neg hb).trans ?_
  rw [h']

theorem doRepairSupply_some {r : Repair} (hb : ¬ BadSupply s c)
    (h : s.repairs.find? (fun r => decide (r.slot = some (fieldAt c.body 0 1))) = some r) : doRepairSupply c s =
    if (readFault s (fieldAt c.body 8 8) 4096).isSome then (s, { status := 8 })
    else if (crc64 (physRead s (fieldAt c.body 8 8) 4096)).toNat = fld s (Reg.kwRepairCrc (fieldAt c.body 0 1)) then
      (serveReads (repaired s r (physRead s (fieldAt c.body 8 8) 4096) (crc64 (physRead s (fieldAt c.body 8 8) 4096)).toNat), { status := 0 })
    else (s, { status := 2 }) := by
  have h' : s.repairs.find? (fun r => decide (r.slot = some (kwField c 0 1))) = some r := h
  refine (if_neg hb).trans ?_
  rw [h']
  rfl

theorem hostReads_noFault {a n : Nat} (h : hostReads s a n = true) : readFault s a n = none := by
  rw [hostReads, Bool.and_eq_true, Option.isNone_iff_eq_none] at h
  exact h.2

theorem physRead_length (s : State) (a n : Nat) : (physRead s a n).length = n := by
  unfold physRead
  split <;> exact readBytes_length _ _ _

/-- A response leaves a repair as it is. -/
theorem Responded.blockRepaired {w v : State} {r : Repair} {data : List Byte} {crc : Nat} (hr : Responded w v) (hrange : r.range < 16)
    (h : Safety.blockRepaired s r data crc w) : Safety.blockRepaired s r data crc v := by
  obtain ⟨hblock, hentry, hfree, hslot, hshown, hrecord⟩ := h
  have hrep : v.repairs = w.repairs := by obtain ⟨a, b, n, ms, br, m, hd, rs, rfl⟩ := hr.only; rfl
  refine ⟨by rw [hr.mem, hblock], by rw [hr.mem, hentry], ?_, fun i hi hi16 => ?_, ?_, ?_⟩
  · unfold inRepair at hfree ⊢
    rw [hrep, hfree]
  · rw [hr.fld (by simp only [Reg.kwRepairRequest, Reg.mbStatusDone]; omega) (by simp only [Reg.kwRepairRequest, Reg.mbStatusDone]; omega)]
    exact hslot i hi hi16
  · rw [hr.fld (by simp only [Reg.mcGrFailBlock, Reg.mbStatusDone]; omega) (by simp only [Reg.mcGrFailBlock, Reg.mbStatusDone]; omega), hshown]
  · rw [hr.fld (by decide) (by decide), hrecord]

theorem blockRepaired_ofTick {r : Repair} {data : List Byte} {crc : Nat} {v : State} (h : Safety.blockRepaired (atTick s t) r data crc v) :
    Safety.blockRepaired s r data crc v := ⟨h.block, h.entry, h.free, h.slot, h.shown⟩

/-- A block whose CRC matches is taken. -/
theorem repairSupply_repairs (h : Safety.kolwinServes s 12 c) {r : Repair} (hb : ¬ BadSupply s c)
    (hf : s.repairs.find? (fun r => decide (r.slot = some (fieldAt c.body 0 1))) = some r)
    (hr : hostReads s (fieldAt c.body 8 8) 4096 = true)
    (hcrc : (crc64 (physRead s (fieldAt c.body 8 8) 4096)).toNat = fld s (Reg.kwRepairCrc (fieldAt c.body 0 1)))
    (hrep : Safety.repairable s r) : Safety.answers (.repairSupply t c) s fun v =>
      Safety.blockRepaired s r (physRead s (fieldAt c.body 8 8) 4096) (crc64 (physRead s (fieldAt c.body 8 8) 4096)).toNat v ∧
      v.kolwin.mbResp = natBytes 1 12 ++ natBytes 1 0 ++ natBytes 2 c.tag.toNat ++ natBytes 4 0 ++ padTo 56 [] := by
  let b := physRead s (fieldAt c.body 8 8) 4096
  have hboard : c.board = false := by
    have hp := h.port
    simpa [portNames] using hp
  have hfatal := h.host hboard
  have hrep' : Safety.repairable (atTick s t) r := ⟨hrep.range, hrep.apart, hrep.below, hrep.reads⟩
  obtain ⟨hrepaired, honly⟩ := repaired_repaired (s := atTick s t) (physRead_length s (fieldAt c.body 8 8) 4096)
    (crc64 b).isLt hrep' hfatal
  have hreads : serveReads (repaired (atTick s t) r b (crc64 b).toNat) = repaired (atTick s t) r b (crc64 b).toNat := by
    obtain ⟨hl, hb2, hd⟩ := hrep.reads
    refine serveReads_none ?_ ?_ ?_
    · rw [honly.links]; exact hl
    · rw [honly.bar2Reads]; exact hb2
    · rw [honly.dot]; exact hd
  have hnone : ¬ (readFault (atTick s t) (fieldAt c.body 8 8) 4096).isSome = true := by
    change ¬ (readFault s (fieldAt c.body 8 8) 4096).isSome = true
    rw [hostReads_noFault hr]; decide
  have hdo : doRepairSupply c (atTick s t) = (repaired (atTick s t) r b (crc64 b).toNat, { status := 0 }) := by
    rw [← hreads]
    exact (doRepairSupply_some (s := atTick s t) hb hf).trans ((if_neg hnone).trans (if_pos hcrc))
  refine ⟨_, (kwCmd_responds h (by decide) _).trans (congrArg _ (congrArg _ hdo)), ?_, ?_⟩
  · exact blockRepaired_ofTick ((respond_responded 12 c _ _).blockRepaired hrep.range hrepaired)
  · have hans := respond_answered (op := 12) h.row (w := repaired (atTick s t) r b (crc64 b).toNat)
      (fun _ => by rw [honly.kolwin]; exact hfatal) { status := 0 }
    exact (hans.host hboard).2.2.2.2

theorem repairSupply_supplies (h : Safety.kolwinServes s 12 c) :
    let slot := fieldAt c.body 0 1
    let a := fieldAt c.body 8 8
    (BadSupply s c → Replies s t c (.repairSupply t c) 12 2) ∧
    (¬ BadSupply s c → (∀ r ∈ s.repairs, r.slot ≠ some slot) → Replies s t c (.repairSupply t c) 12 4) ∧
    ∀ r, ¬ BadSupply s c → s.repairs.find? (fun r => decide (r.slot = some slot)) = some r →
      (readFault s a 4096 ≠ none → Replies s t c (.repairSupply t c) 12 8) ∧ (hostReads s a 4096 = true →
      let b := physRead s a 4096
      let crc := (crc64 b).toNat
      (crc ≠ fld s (Reg.kwRepairCrc slot) → Replies s t c (.repairSupply t c) 12 2) ∧
      (crc = fld s (Reg.kwRepairCrc slot) → Safety.repairable s r → Safety.answers (.repairSupply t c) s fun v =>
        Safety.blockRepaired s r b crc v ∧ v.kolwin.mbResp = natBytes 1 12 ++ natBytes 1 0 ++ natBytes 2 c.tag.toNat ++
          natBytes 4 0 ++ padTo 56 [])) := by
  intro slot a
  refine ⟨fun hb => kolwin_replies rfl h (by decide) (if_pos hb), fun hb hn => ?_, fun r hb hf => ⟨fun hfault => ?_, fun hr => ?_⟩⟩
  · have hnone : s.repairs.find? (fun r => decide (r.slot = some (fieldAt c.body 0 1))) = none :=
      List.find?_eq_none.mpr fun r hm => by simpa using hn r hm
    exact kolwin_replies rfl h (by decide) (doRepairSupply_none (s := atTick s t) hb hnone)
  · exact kolwin_replies rfl h (by decide) ((doRepairSupply_some (s := atTick s t) hb hf).trans (if_pos (Option.isSome_iff_ne_none.mpr hfault)))
  · intro b crc
    have hnone : ¬ (readFault (atTick s t) (fieldAt c.body 8 8) 4096).isSome = true := by
      change ¬ (readFault s a 4096).isSome = true
      rw [hostReads_noFault hr]; decide
    exact ⟨fun hne => kolwin_replies rfl h (by decide)
      ((doRepairSupply_some (s := atTick s t) hb hf).trans ((if_neg hnone).trans (if_neg hne))), repairSupply_repairs h hb hf hr⟩

end Sys2Proof.Machine
end

section
open Sys2Proof Sys2Proof.Machine

/-- Settles O47: each command's row acts on the state of its tick, and the response then reaches the mailbox or the board alone. -/
theorem kolwinCommandsAct : Obligations.KolwinCommandsAct := by
  unfold Obligations.KolwinCommandsAct
  intro s t c u f replies toHost
  refine ⟨?identity, ?attest, regRead_words, profileSelect_requests, profileWrite_writes, modeCmd_writes, pairCmd_codes, ?fwStage,
    commitSv_raises, ?reset, ?power, repairSupply_supplies, alertAck_clears⟩
  case identity => exact fun h => ⟨identity_board h, identity_host h⟩
  case attest => exact fun h => ⟨fun hb => ⟨attest_first h hb, attest_next h hb⟩, attest_host h⟩
  case fwStage => exact fun h => ⟨fwStage_writing h, fwStage_board h, fwStage_host h⟩
  case reset =>
    refine fun h => ⟨fun hs => ?_, fun hs hr => ?_, resetCmd_resets h⟩
    · have ha := resetCmd_absorbed (t := t) h (.inr hs)
      rwa [hs] at ha
    · have ha := resetCmd_absorbed (t := t) h (.inl hr)
      rwa [hs] at ha
  case power =>
    intro h x
    obtain ⟨hbad, hleave⟩ := powerState_refused (t := t) h
    refine ⟨hbad, hleave, fun hx hp => powerState_runs h hx hp, fun hx => powerState_idles h rfl ?_ ?_ ?_⟩
    · omega
    · omega
    · rintro ⟨hp, hne⟩
      exact hx.elim (fun hi => hi.2 hp) hne
end

section
/-! The register files of a core (R63): what a write leaves in each of them. -/
namespace Sys2Proof.Machine
variable (c : Core)

theorem readS_writeS (i j : BitVec 5) (v : Word) : readS (writeS c i v) j = if j = i ∧ i ≠ 0 then v else readS c j := by
  by_cases hj : j = i
  · subst hj
    by_cases h0 : j = 0
    · rw [if_neg fun h => h.2 h0, h0, writeS_zero]
    · rw [if_pos ⟨rfl, h0⟩, readS_writeS_same c v h0]
  · rw [if_neg fun h => hj h.1, readS_writeS_ne c v hj]

theorem testBit_b2n (b : Bool) (i : Nat) : (b2n b).testBit i = (b && decide (i = 0)) := by
  cases b
  · simp [b2n]
  · rw [b2n, if_pos rfl, Bool.true_and, ← Nat.pow_zero 2, Nat.testBit_two_pow]
    exact decide_eq_decide.mpr eq_comm

theorem readP_writeP {i j : Nat} (hi : i < 8) (hj : j < 8) (b : Bool) :
    readP (writeP c i b) j = if j = i ∧ i ≠ 0 then b else readP c j := by
  unfold readP writeP
  by_cases h0 : i = 0
  · simp [h0]
  · rw [if_neg h0]
    dsimp only
    rw [BitVec.getLsbD_ofNat, testBit_setBits _ _ (Nat.le_refl i), testBit_b2n]
    by_cases hji : j = i
    · subst hji
      simp [h0, hj]
    · rw [if_neg (by omega), if_neg fun h => hji h.1]
      simp [hj, BitVec.getLsbD]

theorem readV_writeV (i j : BitVec 5) (v : VecReg) : readV (writeV c i v) j = if j = i then v else readV c j := by
  by_cases hj : j = i
  · rw [hj, if_pos rfl, readV_writeV_same]
  · rw [if_neg hj, readV_writeV_ne c v hj]

end Sys2Proof.Machine
end

section
/-! The statement about the register files of a core. -/
open Sys2Proof Sys2Proof.Machine

/-- Settles O5: a read after a write of each of the three register files. -/
theorem registerFileReads : Obligations.RegisterFileReads := by
  intro c
  exact ⟨readS_zero c, readP_zero c, readS_writeS c, fun i j b hi hj => readP_writeP c hi hj b, readV_writeV c, rfl, rfl⟩
end

section
/-! Core instructions of format T at operator privilege: the outcome of an instruction from what its effect answers. -/
namespace Sys2Proof.Machine
variable {s : State} {k : Nat} {w : FmtT} {i : Instr} {info : OpInfo} {eff : Core → Res} {r : Res}

/-- An instruction that issues on a ready core finishes what its effect answers. -/
theorem exec_operator (hx : exec i s = issueT k w s info eff) (h : Safety.operator s k w.pg w.pn) (he : info.okT w = true) :
    exec i s = .next (finish s k (eff (getCore s k))) := hx.trans (issueT_ready h.toready he (.inr h.noGuest))

theorem traps_of_flt {code : Nat} (hx : exec i s = .next (finish s k r)) (hr : r = .flt code) : Safety.traps i s k code := by
  subst hr; exact hx

theorem runs_of_regOp {f : Core → Core} (hx : exec i s = .next (finish s k r)) (hr : r = regOp s k f)
    (hin : inCode s k ((getCore s k).pc + 8) = true) (hg : (f (getCore s k)).guest = (getCore s k).guest)
    (hpc : (f (getCore s k)).pc = (getCore s k).pc) : Safety.runs i s k (f (getCore s k)) := by
  subst hr; exact ⟨_, hx, finish_regOp hg hpc hin⟩

theorem answers_of_hold {u : State} {p : State → Prop} (hx : exec i s = .next (finish s k r)) (hr : r = .hold u) (hp : p u) :
    Safety.answers i s p := by
  subst hr; exact ⟨_, hx, hp⟩

/-- An effect that leaves its core's guest call, PC and code: issue goes on at PC + 8. -/
theorem answers_of_done {u : State} {p : State → Prop} (hx : exec i s = .next (finish s k r)) (hr : r = .done u)
    (hin : inCode s k ((getCore s k).pc + 8) = true) (hi : u.images = s.images) (hg : (getCore u k).guest = (getCore s k).guest)
    (hpc : (getCore u k).pc = (getCore s k).pc) (hp : ∀ t, Safety.onCore u k (Safety.past (getCore u k)) t → p t) :
    Safety.answers i s p := by
  subst hr; exact ⟨_, hx, hp _ (finish_done hi hg hpc hin)⟩

/-- Two register writes of an instruction leave what its issue asks of the core. -/
theorem writePS_guest (c : Core) (d : BitVec 5) (v : Word) (p : Nat) (b : Bool) : (writeP (writeS c d v) p b).guest = c.guest := by simp

theorem writePS_pc (c : Core) (d : BitVec 5) (v : Word) (p : Nat) (b : Bool) : (writeP (writeS c d v) p b).pc = c.pc := by simp

end Sys2Proof.Machine
end

section
/-! Sync cells (R75 to R80): the faults of an instruction that names one, and the cell's effect where none is raised. -/
namespace Sys2Proof.Machine
variable {s : State} {k : Nat} {w : FmtT} {c : Core} {held conf : Bool} {f : Nat → SyncCell → Res}

/-! ## The faults of the cell named -/

theorem withCell_address (h : 32768 ≤ (readS c w.a).toNat) : withCell s c w held conf f = .flt fAddress := by
  have hn : cellIndex c w = none := if_neg (Nat.not_lt.mpr h)
  unfold withCell
  rw [hn]

theorem withCell_named (h : (readS c w.a).toNat < 32768) : withCell s c w held conf f =
    if held && decide (heldFirst ≤ (readS c w.a).toNat) then .flt fSyncHeld
    else if conf && decide ((getCell s (readS c w.a).toNat).kind = 0) then .flt fSyncConfig
    else f (readS c w.a).toNat (getCell s (readS c w.a).toNat) := by
  have hn : cellIndex c w = some (readS c w.a).toNat := if_pos h
  unfold withCell
  rw [hn]

theorem withCell_held (h : (readS c w.a).toNat < 32768) (hh : 32512 ≤ (readS c w.a).toNat) :
    withCell s c w true conf f = .flt fSyncHeld := by
  rw [withCell_named h, Bool.true_and, if_pos (decide_eq_true (show heldFirst ≤ _ from hh))]

theorem withCell_unconfigured (h : (readS c w.a).toNat < 32768) (hh : held = false ∨ (readS c w.a).toNat < 32512)
    (hk : (getCell s (readS c w.a).toNat).kind = 0) : withCell s c w held true f = .flt fSyncConfig := by
  rw [withCell_named h, if_neg, if_pos (by simpa using hk)]
  rw [Bool.and_eq_true, decide_eq_true_eq]
  exact fun ⟨ht, hle⟩ => hh.elim (fun hf => absurd ht (by simp [hf])) (Nat.not_lt.mpr hle)

theorem withCell_taken (h : (readS c w.a).toNat < 32768) (hh : held = false ∨ (readS c w.a).toNat < 32512)
    (hk : conf = false ∨ (getCell s (readS c w.a).toNat).kind ≠ 0) :
    withCell s c w held conf f = f (readS c w.a).toNat (getCell s (readS c w.a).toNat) := by
  rw [withCell_named h, if_neg, if_neg]
  · rw [Bool.and_eq_true, decide_eq_true_eq]
    exact fun ⟨hc, h0⟩ => hk.elim (fun hf => absurd hc (by simp [hf])) (· h0)
  · rw [Bool.and_eq_true, decide_eq_true_eq]
    exact fun ⟨ht, hle⟩ => hh.elim (fun hf => absurd ht (by simp [hf])) (Nat.not_lt.mpr hle)

/-! ## SCRD and WAIT -/

theorem scrd_runs (h : Safety.operator s k w.pg w.pn) (he : infoScrd.okT w = true) (hn : (readS (getCore s k) w.a).toNat < 32768) :
    let e := getCell s (readS (getCore s k) w.a).toNat
    Safety.runs (.scrd k w) s k (writeP (writeS (getCore s k) w.d e.value) w.c.toNat (e.cfg.getLsbD 24)) :=
  runs_of_regOp (f := fun c => writeP (writeS c w.d (getCell s (readS (getCore s k) w.a).toNat).value) w.c.toNat
    ((getCell s (readS (getCore s k) w.a).toNat).cfg.getLsbD 24)) (exec_operator rfl h he) (withCell_taken hn (.inl rfl) (.inl rfl)) h.after
    (writePS_guest _ _ _ _ _) (writePS_pc _ _ _ _ _)

section
variable (h : Safety.operator s k w.pg w.pn) (he : infoWait.okT w = true)
include h he

theorem exec_wait : exec (.wait k w) s = .next (finish s k (waitEff s k w (getCore s k))) := exec_operator rfl h he

theorem wait_address (hn : 32768 ≤ (readS (getCore s k) w.a).toNat) : Safety.traps (.wait k w) s k 0x03 :=
  traps_of_flt (exec_wait h he) (withCell_address hn)

variable (hn : (readS (getCore s k) w.a).toNat < 32768)
include hn

/-- A WAIT needs a configured cell, and a deadline slot where it is timed (R76, R79). -/
theorem wait_config (hc : (getCell s (readS (getCore s k) w.a).toNat).kind = 0 ∨
    (modBits w 24 24 = 1 ∧ (getCell s (readS (getCore s k) w.a).toNat).cfg.getLsbD 25 = false)) :
    Safety.traps (.wait k w) s k 0x07 := by
  by_cases hk : (getCell s (readS (getCore s k) w.a).toNat).kind = 0
  · exact traps_of_flt (exec_wait h he) (withCell_unconfigured hn (.inl rfl) hk)
  · obtain ⟨ht, hd⟩ := hc.resolve_left hk
    refine traps_of_flt (exec_wait h he) ((withCell_taken hn (.inl rfl) (.inr hk)).trans ?_)
    exact if_pos (by rw [Bool.and_eq_true, Bool.not_eq_true']; exact ⟨decide_eq_true ht, hd⟩)

variable (hk : (getCell s (readS (getCore s k) w.a).toNat).kind ≠ 0)
  (hd : modBits w 24 24 = 1 → (getCell s (readS (getCore s k) w.a).toNat).cfg.getLsbD 25 = true)
include hk hd

/-- What a WAIT that raises no fault answers (R77 to R79). -/
theorem exec_wait_taken : exec (.wait k w) s = .next (finish s k
    (let c := getCore s k
     let e := getCell s (readS c w.a).toNat
     let cond := modBits w 26 25
     if waitMet cond e.kind e.value (readS c w.b) then regOp s k fun c => writeP c w.d.toNat true
     else if decide (modBits w 24 24 = 1) && decide (e.deadline = 0) then regOp s k fun c => writeP c w.d.toNat false
     else .hold (modCore s k fun c' =>
       { c' with wait := .cell (readS c w.a).toNat cond (readS c w.b) w.d.toNat (decide (modBits w 24 24 = 1)) }))) := by
  rw [exec_wait h he, waitEff, withCell_taken hn (.inl rfl) (.inr hk)]
  dsimp only
  rw [if_neg]
  by_cases ht : modBits w 24 24 = 1
  · simp [ht, SyncCell.dlEn, hd ht]
  · simp [ht]

theorem wait_met (hm : waitMet (modBits w 26 25) (getCell s (readS (getCore s k) w.a).toNat).kind
    (getCell s (readS (getCore s k) w.a).toNat).value (readS (getCore s k) w.b) = true) :
    Safety.runs (.wait k w) s k (writeP (getCore s k) w.d.toNat true) :=
  runs_of_regOp (exec_wait_taken h he hn hk hd) (if_pos hm) h.after (writeP_guest _ _ _) (writeP_pc _ _ _)

variable (hm : waitMet (modBits w 26 25) (getCell s (readS (getCore s k) w.a).toNat).kind
    (getCell s (readS (getCore s k) w.a).toNat).value (readS (getCore s k) w.b) = false)
include hm

theorem wait_late (ht : modBits w 24 24 = 1) (h0 : (getCell s (readS (getCore s k) w.a).toNat).deadline = 0) :
    Safety.runs (.wait k w) s k (writeP (getCore s k) w.d.toNat false) :=
  runs_of_regOp (exec_wait_taken h he hn hk hd) ((if_neg (by simp [hm])).trans (if_pos (by simp [ht, h0]))) h.after
    (writeP_guest _ _ _) (writeP_pc _ _ _)

theorem wait_holds (ht : modBits w 24 24 ≠ 1 ∨ (getCell s (readS (getCore s k) w.a).toNat).deadline ≠ 0) :
    Safety.answers (.wait k w) s (Safety.onCore s k { getCore s k with
      wait := .cell (readS (getCore s k) w.a).toNat (modBits w 26 25) (readS (getCore s k) w.b) w.d.toNat (decide (modBits w 24 24 = 1)) }) :=
  answers_of_hold (exec_wait_taken h he hn hk hd) ((if_neg (by simp [hm])).trans (if_neg (by simpa using not_and_or.mpr ht)))
    (onCore_setCore _ _ _)

end

theorem modBits_lt (w : FmtT) (hi lo : Nat) : modBits w hi lo < 2 ^ (hi - 16 + 1 - (lo - 16)) := bits_lt _ _ _

/-- WAIT's condition by the names of Table 4-8. -/
theorem waitMet_iff {cond : Nat} (hc : cond < 4) (kind : Nat) (value target : Word) :
    let m := 2 ^ (if kind = 2 then 48 else 64)
    let t := target.toNat % m
    let v := value.toNat
    waitMet cond kind value target = true ↔
      (cond = 0 ∧ (v + m - t) % m < m / 2) ∨ (cond = 1 ∧ v = t) ∨ (cond = 2 ∧ v ≠ t) ∨ (cond = 3 ∧ v &&& t ≠ 0) := by
  intro m t v
  have hhalf : 2 ^ (cellWidth kind - 1) = m / 2 := by
    simp only [m, cellWidth]
    split <;> rfl
  obtain rfl | rfl | rfl | rfl : cond = 0 ∨ cond = 1 ∨ cond = 2 ∨ cond = 3 := by omega
  · change decide ((v + m - t) % m < 2 ^ (cellWidth kind - 1)) = true ↔ _
    rw [hhalf]; simp
  · change decide (v = t) = true ↔ _
    simp
  · change decide (v ≠ t) = true ↔ _
    simp
  · change decide (v &&& t ≠ 0) = true ↔ _
    simp

end Sys2Proof.Machine
end

section
/-! The statements about WAIT. -/
open Sys2Proof Sys2Proof.Machine

/-- Settles O28: the faults of the cell named, then WAIT's three answers by its condition and the deadline slot. -/
theorem waitTestsCondition : Obligations.WaitTestsCondition := by
  intro s k w h he c n e m t v timed cond met
  have hmet : waitMet cond e.kind e.value (readS c w.b) = true ↔ met := waitMet_iff (modBits_lt w 26 25) _ _ _
  have htimed : timed = true ↔ modBits w 24 24 = 1 := decide_eq_true_iff
  refine ⟨wait_address h he, fun hn hc => wait_config h he hn (hc.imp_right fun ⟨ht, hd⟩ => ⟨htimed.mp ht, hd⟩), fun hn hk hd => ?_⟩
  have hd' := fun ht => hd (htimed.mpr ht)
  refine ⟨fun hm => wait_met h he hn hk hd' (hmet.mpr hm), fun hm ht h0 => ?_, fun hm hw => ?_⟩
  · exact wait_late h he hn hk hd' (Bool.eq_false_iff.mpr (mt hmet.mp hm)) (htimed.mp ht) h0
  · refine wait_holds h he hn hk hd' (Bool.eq_false_iff.mpr (mt hmet.mp hm)) (hw.imp_left fun hf ht => ?_)
    exact absurd (htimed.mpr ht) (by simp [hf])

/-- Settles O60: a held cell is refused before any other check of it but its index, and SCRD and WAIT take it. -/
theorem heldCellsRefuseChanges : Obligations.HeldCellsRefuseChanges := by
  intro s k w h c n e cond met ⟨hlo, hhi⟩
  have hn : n < 32768 := by omega
  refine ⟨fun p hp he => ?_, fun he => scrd_runs h he hn, fun he hk ht => ⟨fun hm => ?_, fun hm => ?_⟩⟩
  · simp only [List.mem_cons, List.not_mem_nil, or_false] at hp
    obtain rfl | rfl | rfl | rfl := hp
    all_goals exact traps_of_flt (exec_operator rfl h he) (withCell_held hn hlo)
  · exact wait_met h he hn hk (fun h1 => absurd (ht.symm.trans h1) (by decide)) hm
  · have := wait_holds h he hn hk (fun h1 => absurd (ht.symm.trans h1) (by decide)) hm (.inl (by omega))
    rwa [show decide (modBits w 24 24 = 1) = false from decide_eq_false (by omega)] at this
end

section
/-! Instructions that change a sync cell no core waits on (R75, R76, R79). -/
namespace Sys2Proof.Machine
variable {s : State} {k : Nat} {w : FmtT}

/-! ## A cell without waiters -/

/-- A visit of the cores that changes nothing. -/
theorem overCores_fixed {f : State → Nat → State} (h : ∀ k, f s k = s) : overCores s f = s := by
  unfold overCores
  generalize s.cores.map (·.1) = l
  induction l with
  | nil => rfl
  | cons k l ih => rw [List.foldl_cons, h, ih]

/-- No core waits on cell `n`. -/
def Unwaited (s : State) (n : Nat) : Prop := ∀ j cond tg pd tm, (getCore s j).wait ≠ .cell n cond tg pd tm

theorem endIf_unwaited {n : Nat} (h : Unwaited s n) (k : Nat) (f : Nat → Word → Bool → Option Bool) : endIf s n k f = s := by
  unfold endIf
  cases hw : (getCore s k).wait with
  | none => rfl
  | cell m cond target pd timed =>
    have hm : m ≠ n := fun e => h k cond target pd timed (e ▸ hw)
    exact if_neg hm

theorem Unwaited.modCore {n : Nat} (h : Unwaited s n) {f : Core → Core} (hf : ∀ c, (f c).wait = c.wait) : Unwaited (modCore s k f) n := by
  intro j cond tg pd tm
  by_cases hj : j = k
  · rw [hj, getCore_modCore_same, hf]; exact h k cond tg pd tm
  · rw [getCore_modCore_ne _ _ hj]; exact h j cond tg pd tm

theorem putCell_unwaited {n : Nat} (h : Unwaited s n) (x : SyncCell) : putCell s n x = setCell s n x :=
  overCores_fixed fun k => endIf_unwaited (s := setCell s n x) h k _

theorem configureCell_unwaited {n : Nat} (h : Unwaited s n) (cfg : Word32) (v dl : Word) : configureCell s n cfg v dl =
    setCell s n { value := BitVec.ofNat 64 (v.toNat % 2 ^ cellWidth (bits cfg.toNat 31 29)), cfg := cfg, deadline := dl } :=
  overCores_fixed fun k => endIf_unwaited (s := setCell s n _) h k _

theorem onCore_refl (s : State) (k : Nat) : Safety.onCore s k (getCore s k) s := ⟨rfl, fun _ _ => rfl, rfl⟩

theorem onCore_cells {t : State} {c : Core} (h : Safety.onCore s k c t) : t.cells = s.cells := by
  have hrest := congrArg State.cells h.rest
  exact hrest

theorem onCore_images {t : State} {c : Core} (h : Safety.onCore s k c t) : t.images = s.images := by
  have hrest := congrArg State.images h.rest
  exact hrest

/-- A change of one cell on a state that differs from `s` in one core. -/
theorem cellSet_onCore {u t : State} {n : Nat} {x : SyncCell} {v c : Core} (hu : Safety.onCore s k v u)
    (ht : Safety.onCore (setCell u n x) k c t) : getCell t n = x ∧ (∀ j, j ≠ n → getCell t j = getCell s j) ∧
      Safety.onCore { s with cells := t.cells } k c t := by
  have huc : u.cells = s.cells := onCore_cells hu
  have htc : t.cells = (setCell u n x).cells := onCore_cells ht
  have hcell : ∀ j, getCell t j = getCell (setCell u n x) j := fun j => congrArg (fun l => smGet cellDefault l j) htc
  have hold : ∀ j, getCell u j = getCell s j := fun j => congrArg (fun l => smGet cellDefault l j) huc
  refine ⟨(hcell n).trans (getCell_setCell_same _ _ _), fun j hj => ?_, ht.this, fun j hj => (ht.others j hj).trans (hu.others j hj), ?_⟩
  · rw [hcell, getCell_setCell_ne _ _ hj, hold]
  · calc { t with cores := s.cores } = { setCell u n x with cores := s.cores } := congrArg (fun y => { y with cores := s.cores }) ht.rest
      _ = { u with cores := s.cores, cells := t.cells } := by rw [htc]; rfl
      _ = { s with cells := t.cells } := congrArg (fun y => { y with cells := t.cells }) hu.rest

/-! ## SCCFG -/

/-- SCCFG's configuration operand by its fields (Table 4-7). -/
theorem cfgOk_iff (x : Word) : cfgOk x = true ↔
    x.toNat < 2 ^ 32 ∧ x.toNat % 2 ^ 25 = 0 ∧ x.toNat / 2 ^ 29 % 8 ≤ 2 ∧ x.toNat / 2 ^ 26 % 8 ≤ 5 := decide_eq_true_iff

section
variable (h : Safety.operator s k w.pg w.pn)
include h

theorem exec_sccfg (he : infoSccfg.okT w = true) : exec (.sccfg k w) s = .next (finish s k (sccfgEff s w (getCore s k))) :=
  exec_operator rfl h he

theorem sccfg_config (he : infoSccfg.okT w = true) (hn : (readS (getCore s k) w.a).toNat < 32512)
    (hv : cfgOk (readS (getCore s k) w.c) = false) : Safety.traps (.sccfg k w) s k 0x07 :=
  traps_of_flt (exec_sccfg h he) ((withCell_taken (by omega) (.inr hn) (.inl rfl)).trans (if_neg (by simp [hv])))

/-- The effect of a done instruction on one cell. -/
theorem cell_answers {i : Instr} {r : Res} {u : State} {n : Nat} {x : SyncCell} {v : Core} (hx : exec i s = .next (finish s k r))
    (hr : r = .done (setCell u n x)) (hu : Safety.onCore s k v u) (hg : v.guest = (getCore s k).guest) (hpc : v.pc = (getCore s k).pc) :
    Safety.answers i s fun t => getCell t n = x ∧ (∀ j, j ≠ n → getCell t j = getCell s j) ∧
      Safety.onCore { s with cells := t.cells } k (Safety.past v) t := by
  have hthis : getCore (setCell u n x) k = v := hu.this
  have himg : u.images = s.images := onCore_images hu
  refine answers_of_done hx hr h.after himg (by rw [hthis, hg]) (by rw [hthis, hpc]) fun t ht => ?_
  rw [hthis] at ht
  exact cellSet_onCore hu ht

theorem sccfg_sets (he : infoSccfg.okT w = true) (hn : (readS (getCore s k) w.a).toNat < 32512)
    (hq : Unwaited s (readS (getCore s k) w.a).toNat) (hv : cfgOk (readS (getCore s k) w.c) = true) :
    Safety.answers (.sccfg k w) s fun t => getCell t (readS (getCore s k) w.a).toNat =
        { value := BitVec.ofNat 64 ((readS (getCore s k) w.b).toNat % 2 ^ (if (readS (getCore s k) w.c).toNat / 2 ^ 29 = 2 then 48 else 64)),
          cfg := BitVec.ofNat 32 (readS (getCore s k) w.c).toNat, deadline := readS (getCore s k) w.d } ∧
      (∀ j, j ≠ (readS (getCore s k) w.a).toNat → getCell t j = getCell s j) ∧
      Safety.onCore { s with cells := t.cells } k (Safety.past (getCore s k)) t := by
  have hcfg : (readS (getCore s k) w.c).extractLsb' 0 32 = BitVec.ofNat 32 (readS (getCore s k) w.c).toNat := by
    apply BitVec.eq_of_toNat_eq; simp
  have hlt : (readS (getCore s k) w.c).toNat < 2 ^ 32 := ((cfgOk_iff _).mp hv).1
  have hkind : bits (BitVec.ofNat 32 (readS (getCore s k) w.c).toNat).toNat 31 29 = (readS (getCore s k) w.c).toNat / 2 ^ 29 := by
    rw [BitVec.toNat_ofNat, Nat.mod_eq_of_lt hlt, bits]; omega
  refine cell_answers h (exec_sccfg h he) (((withCell_taken (by omega) (.inr hn) (.inl rfl)).trans (if_pos hv)).trans ?_)
    (onCore_refl s k) rfl rfl
  rw [configureCell_unwaited hq, hcfg, hkind]
  rfl

/-! ## SCSET, SCADD and SCDL -/

section
variable (hn : (readS (getCore s k) w.a).toNat < 32512) (hk : (getCell s (readS (getCore s k) w.a).toNat).kind ≠ 0)
include hn hk

theorem scset_sets (he : infoScset.okT w = true) (hq : Unwaited s (readS (getCore s k) w.a).toNat) :
    let e := getCell s (readS (getCore s k) w.a).toNat
    Safety.answers (.scset k w) s fun t => getCell t (readS (getCore s k) w.a).toNat =
        { e with value := BitVec.ofNat 64 ((readS (getCore s k) w.b).toNat % 2 ^ cellWidth e.kind) } ∧
      (∀ j, j ≠ (readS (getCore s k) w.a).toNat → getCell t j = getCell s j) ∧
      Safety.onCore { s with cells := t.cells } k (Safety.past (getCore s k)) t := by
  refine cell_answers h (exec_operator rfl h he) ((withCell_taken (by omega) (.inr hn) (.inr hk)).trans ?_) (onCore_refl s k) rfl rfl
  rw [putCell_unwaited hq]

theorem scadd_adds (he : infoScadd.okT w = true) (hq : Unwaited s (readS (getCore s k) w.a).toNat) :
    let e := getCell s (readS (getCore s k) w.a).toNat
    Safety.answers (.scadd k w) s fun t => getCell t (readS (getCore s k) w.a).toNat = e.plus (readS (getCore s k) w.b).toNat ∧
      (∀ j, j ≠ (readS (getCore s k) w.a).toNat → getCell t j = getCell s j) ∧
      Safety.onCore { s with cells := t.cells } k (Safety.past (writeS (getCore s k) w.d e.value)) t := by
  refine cell_answers h (exec_operator rfl h he) ((withCell_taken (by omega) (.inr hn) (.inr hk)).trans ?_) (onCore_setCore s k _)
    (writeS_guest _ _ _) (writeS_pc _ _ _)
  rw [putCell_unwaited (hq.modCore fun c => ?_)]
  · rfl
  · unfold writeS; split <;> rfl

theorem exec_scdl_taken (he : infoScdl.okT w = true) : exec (.scdl k w) s = .next (finish s k
    (let e := getCell s (readS (getCore s k) w.a).toNat
     if e.dlEn then .done (setCell s (readS (getCore s k) w.a).toNat { e with deadline := readS (getCore s k) w.b }) else .flt fSyncConfig)) := by
  rw [exec_operator rfl h he, scdlEff, withCell_taken (by omega) (.inr hn) (.inr hk)]

end

end

end Sys2Proof.Machine
end

section
/-! The statement about the instructions of a sync cell. -/
open Sys2Proof Sys2Proof.Machine

/-- Settles O27: the faults of the cell named in their order, then each instruction's change of a cell without waiters. -/
theorem syncCellInstructions : Obligations.SyncCellInstructions := by
  intro s k w h c n e width b quiet cellTo
  have hcfg := cfgOk_iff (readS c w.c)
  refine ⟨fun p hp he => ?_, fun he hn => scrd_runs h he hn, fun he hn => ?_,
    fun hn hk => ⟨fun he hq => scset_sets h hn hk he hq, fun he hq => scadd_adds h hn hk he hq, fun he => ⟨fun hd => ?_, fun hd => ?_⟩⟩⟩
  · simp only [List.mem_cons, List.not_mem_nil, or_false] at hp
    obtain rfl | rfl | rfl | rfl | rfl := hp
    · exact ⟨fun hn => traps_of_flt (exec_operator rfl h he) (withCell_address hn),
        fun hlo hn _ => traps_of_flt (exec_operator rfl h he) (withCell_held hn hlo), fun _ _ _ hne => absurd rfl hne⟩
    · exact ⟨fun hn => traps_of_flt (exec_operator rfl h he) (withCell_address hn), fun _ _ hne => absurd rfl hne,
        fun _ _ hne => absurd rfl hne⟩
    all_goals exact ⟨fun hn => traps_of_flt (exec_operator rfl h he) (withCell_address hn),
      fun hlo hn _ => traps_of_flt (exec_operator rfl h he) (withCell_held hn hlo),
      fun hn hk _ _ => traps_of_flt (exec_operator rfl h he) (withCell_unconfigured (Nat.lt_trans hn (by decide)) (.inr hn) hk)⟩
  · intro v
    refine ⟨fun hv => ?_, fun hq h1 h2 h3 h4 => sccfg_sets h he hn hq (hcfg.mpr ⟨h1, h2, h3, h4⟩)⟩
    refine sccfg_config h he hn (Bool.eq_false_iff.mpr fun hok => ?_)
    obtain ⟨h1, h2, h3, h4⟩ := hcfg.mp hok
    rcases hv with hv | hv | hv | hv
    · exact Nat.not_lt.mpr hv h1
    · exact hv h2
    · exact Nat.not_lt.mpr h3 hv
    · exact Nat.not_lt.mpr h4 hv
  · exact traps_of_flt (exec_scdl_taken h hn hk he) (if_neg (by rw [Bool.not_eq_true]; exact hd))
  · exact cell_answers h (exec_scdl_taken h hn hk he) (if_pos hd) (onCore_refl s k) rfl rfl
end

section
/-! Faults of a core (R74, R87, R88): the record that IN_LAST takes, and what a fault leaves of its core and of everything else. -/
namespace Sys2Proof.Machine
variable {s t u : State} {k : Nat}

/-! ## The record in IN_LAST -/

theorem natBytes_leNat (bs : List Byte) : natBytes bs.length (leNat bs) = bs := by
  induction bs with
  | nil => rfl
  | cons b bs ih =>
    have hb : b.toNat < 256 := b.isLt
    have hlow : BitVec.ofNat 8 (b.toNat + 256 * leNat bs) = b := by
      apply BitVec.eq_of_toNat_eq
      rw [BitVec.toNat_ofNat]; omega
    rw [List.length_cons, natBytes, leNat, hlow, show (b.toNat + 256 * leNat bs) / 256 = leNat bs by omega, ih]

theorem natBytes_fieldAt {bs : List Byte} {off n : Nat} (h : off + n ≤ bs.length) : natBytes n (fieldAt bs off n) = (bs.drop off).take n := by
  have hlen : ((bs.drop off).take n).length = n := by simp; omega
  have hback := natBytes_leNat ((bs.drop off).take n)
  rwa [hlen] at hback

theorem flatMap_words (bs : List Byte) : ∀ n, 4 * n ≤ bs.length →
    ((List.range n).flatMap fun i => (bs.drop (4 * i)).take 4) = bs.take (4 * n) := by
  intro n
  induction n with
  | zero => simp
  | succ n ih =>
    intro h
    rw [List.range_succ, List.flatMap_append, ih (by omega), List.flatMap_singleton, Nat.mul_succ, List.take_add]

/-- Words that hold bytes read back as the bytes. -/
theorem regBytes_of_words {bs : List Byte} {off n : Nat} (hn : bs.length = 4 * n)
    (h : ∀ i < n, regGet s (off + 4 * i) = BitVec.ofNat 32 (fieldAt bs (4 * i) 4)) : regBytes s off (4 * n) = bs := by
  have hword : ∀ i ∈ List.range n, natBytes 4 (regGet s (off + 4 * i)).toNat = (bs.drop (4 * i)).take 4 := by
    intro i hi
    have hin := List.mem_range.mp hi
    have hlt := fieldAt_lt bs (4 * i) 4
    rw [h i hin, BitVec.toNat_ofNat, Nat.mod_eq_of_lt (by omega), natBytes_fieldAt (by omega)]
  unfold regBytes
  rw [Nat.mul_div_cancel_left _ (by decide), List.flatMap_congr hword, flatMap_words bs n (by omega), ← hn, List.take_length]

/-- A record of no event of Table 3-3 stands in IN_LAST on a device that is not FATAL (R365). -/
theorem errorRecord_last {r : ErrRec} (hf : s.kolwin.fatal = false) (hc : r.cls = 0xFF) :
    regBytes (errorRecord s r) 0x900C0 64 = recordBytes s r := by
  have hnote : noteRaised s r = s := if_pos hc
  obtain ⟨v, he, hv⟩ := errorRecord_cases (s := s) (r := r) (by simp [hf, alreadyRaised, hc])
  refine regBytes_of_words (n := 16) (recordBytes_length s r) fun i hi => ?_
  have hlast : regGet (lastRecord s r) (0x900C0 + 4 * i) = BitVec.ofNat 32 (fieldAt (recordBytes s r) (4 * i) 4) := by
    change regGet (regPutBytes (noteRaised s r) 0x900C0 _) _ = _
    rw [hnote, regGet_regPutBytes, recordBytes_length, if_pos (by omega), show (0x900C0 + 4 * i - 0x900C0) / 4 = i by omega]
  rw [he, regGet_sendIf, ← hlast]
  rcases hv with rfl | ⟨rs, rfl⟩ | rfl
  · rfl
  · exact regGet_logPut (by simp only [Reg.inLogTailTail]; omega) rs _
  · rw [regGet_setFld_ne _ (by simp only [Reg.inStatusLogFull]; omega) (fun h => absurd h (by decide)),
      regGet_countUp_ne _ (by simp only [Reg.inCountLogLost]; omega) (fun h => absurd h (by decide))
        (by simp only [Reg.inCountOvf]; omega) (by decide)]

/-! ## What faults leave unchanged -/

/-- `t` is `s` but for cores and what the faults of cores write: registers, the log, requests' marks and the step's mark. -/
def FaultOnly (s t : State) : Prop := ∃ cs r a h hm ig ms rq sc,
  t = { s with cores := cs, regs := r, hwSetAt := a, hwSet := h, hostMem := hm, integ := ig, msix := ms, reqs := rq, sched := sc }

theorem LogOnly.fault (h : LogOnly s t) : FaultOnly s t := by
  obtain ⟨r, a, n, hm, ig, ms, rfl⟩ := h
  exact ⟨_, r, a, n, hm, ig, ms, _, _, rfl⟩

namespace FaultOnly

theorem refl (s : State) : FaultOnly s s := (LogOnly.refl s).fault

theorem trans (h : FaultOnly s t) (g : FaultOnly t u) : FaultOnly s u := by
  obtain ⟨cs, r, a, n, hm, ig, ms, rq, sc, rfl⟩ := h
  obtain ⟨cs', r', a', n', hm', ig', ms', rq', sc', rfl⟩ := g
  exact ⟨cs', r', a', n', hm', ig', ms', rq', sc', rfl⟩

theorem modCore (s : State) (k : Nat) (f : Core → Core) : FaultOnly s (modCore s k f) := ⟨_, _, _, _, _, _, _, _, _, rfl⟩

theorem setReq (s : State) (n : Nat) (r : Req) : FaultOnly s (setReq s n r) := ⟨_, _, _, _, _, _, _, _, _, rfl⟩

theorem dot (h : FaultOnly s t) : t.dot = s.dot := by obtain ⟨_, _, _, _, _, _, _, _, _, rfl⟩ := h; rfl
theorem cells (h : FaultOnly s t) : t.cells = s.cells := by obtain ⟨_, _, _, _, _, _, _, _, _, rfl⟩ := h; rfl
theorem mem (h : FaultOnly s t) : t.mem = s.mem := by obtain ⟨_, _, _, _, _, _, _, _, _, rfl⟩ := h; rfl
theorem badWords (h : FaultOnly s t) : t.badWords = s.badWords := by obtain ⟨_, _, _, _, _, _, _, _, _, rfl⟩ := h; rfl
theorem tk (h : FaultOnly s t) : t.tk = s.tk := by obtain ⟨_, _, _, _, _, _, _, _, _, rfl⟩ := h; rfl
theorem images (h : FaultOnly s t) : t.images = s.images := by obtain ⟨_, _, _, _, _, _, _, _, _, rfl⟩ := h; rfl
theorem kolwin (h : FaultOnly s t) : t.kolwin = s.kolwin := by obtain ⟨_, _, _, _, _, _, _, _, _, rfl⟩ := h; rfl
theorem clusters (h : FaultOnly s t) : t.clusters = s.clusters := by obtain ⟨_, _, _, _, _, _, _, _, _, rfl⟩ := h; rfl

end FaultOnly

/-- `t` follows `s` with core `k` changed, by a fault of it or otherwise: other cores stand, and no request has an end code more. -/
structure CoreOnly (k : Nat) (s t : State) : Prop where
  only   : FaultOnly s t
  others : ∀ j, j ≠ k → getCore t j = getCore s j
  codes  : ∀ n, (getReq t n).codes = (getReq s n).codes

theorem LogOnly.cores (h : LogOnly s t) : t.cores = s.cores := by obtain ⟨_, _, _, _, _, _, rfl⟩ := h; rfl
theorem LogOnly.reqs (h : LogOnly s t) : t.reqs = s.reqs := by obtain ⟨_, _, _, _, _, _, rfl⟩ := h; rfl
theorem LogOnly.getCore (h : LogOnly s t) (j : Nat) : getCore t j = getCore s j := congrArg (fun l => smGet coreDefault l j) h.cores
theorem LogOnly.getReq (h : LogOnly s t) (j : Nat) : getReq t j = getReq s j := congrArg (fun l => smGet reqDefault l j) h.reqs

namespace CoreOnly

theorem refl (k : Nat) (s : State) : CoreOnly k s s := ⟨.refl s, fun _ _ => rfl, fun _ => rfl⟩

theorem trans (h : CoreOnly k s t) (g : CoreOnly k t u) : CoreOnly k s u :=
  ⟨h.only.trans g.only, fun j hj => (g.others j hj).trans (h.others j hj), fun n => (g.codes n).trans (h.codes n)⟩

theorem ofLog (h : LogOnly s t) : CoreOnly k s t := ⟨h.fault, fun j _ => h.getCore j, fun n => congrArg Req.codes (h.getReq n)⟩

theorem modCore (s : State) (k : Nat) (f : Core → Core) : CoreOnly k s (modCore s k f) :=
  ⟨.modCore s k f, fun _ hj => getCore_modCore_ne s f hj, fun _ => rfl⟩

theorem stepFaulted (s : State) : CoreOnly k s (stepFaulted s) := ⟨⟨_, _, _, _, _, _, _, _, _, rfl⟩, fun _ _ => rfl, fun _ => rfl⟩

/-- A request is marked as one whose guest call a fault has ended (R74). -/
theorem markGuest (s : State) (n : Nat) : CoreOnly k s (setReq s n { getReq s n with guestFault := true }) := by
  refine ⟨.setReq s n _, fun _ _ => rfl, fun m => ?_⟩
  by_cases hm : m = n
  · rw [hm, getReq_setReq_same]
  · rw [getReq_setReq_ne _ _ hm]

theorem operatorFault (s : State) (k code pc : Nat) : CoreOnly k s (operatorFault s k code pc) :=
  ((ofLog (LogOnly.errorRecord s _)).trans (modCore _ k _)).trans (stepFaulted _)

theorem operatorAt (s : State) (k pc : Nat) : CoreOnly k s (operatorAt s k pc) := by
  unfold Machine.operatorAt
  dsimp only
  split
  · exact modCore s k _
  · exact (modCore s k _).trans (operatorFault _ k _ _)

theorem guestReturn (s : State) (k : Nat) (g : GuestCall) (sd se : Word) : CoreOnly k s (guestReturn s k g sd se) :=
  (modCore s k _).trans (operatorAt _ k _)

theorem takeFault (s : State) (k code pc : Nat) : CoreOnly k s (takeFault s k code pc) := by
  unfold Machine.takeFault
  split
  · exact (markGuest s _).trans (guestReturn _ k _ _ _)
  · exact operatorFault s k code pc

theorem advance (s : State) (k : Nat) : CoreOnly k s (advance s k) := by
  unfold Machine.advance flowTo
  dsimp only
  split
  · exact modCore s k _
  · exact (modCore s k _).trans (takeFault _ k _ _)

end CoreOnly

/-! ## A fault at operator privilege -/

/-- A core whose part of the step a fault has ended (R88). -/
def partFaulted (c : Core) : Core :=
  { c with phase := .ended, wait := .none, memHold := .none, guest := none, faulted := true }

theorem getCore_operatorFault (s : State) (k code pc : Nat) : getCore (operatorFault s k code pc) k = partFaulted (getCore s k) :=
  (getCore_modCore_same _ _ _).trans (congrArg partFaulted ((LogOnly.errorRecord s _).getCore k))

theorem LogOnly.sched (h : LogOnly s t) : t.sched = s.sched := by obtain ⟨_, _, _, _, _, _, rfl⟩ := h; rfl

theorem takeFault_operator (h : (getCore s k).guest = none) (code pc : Nat) : takeFault s k code pc = operatorFault s k code pc := by
  unfold takeFault
  rw [h]

/-- The error record of a fault at operator privilege. -/
def faultRecord (s : State) (k code pc : Nat) : ErrRec :=
  { type := 0x01, step := stepNow s, a0 := code, a1 := pc, a2 := gidOf s k, a3 := b2n s.sched.faultRerun }

theorem operatorFault_eq (s : State) (k code pc : Nat) :
    operatorFault s k code pc = stepFaulted (modCore (errorRecord s (faultRecord s k code pc)) k partFaulted) := rfl

theorem operatorFault_regs (s : State) (k code pc : Nat) : (operatorFault s k code pc).regs = (errorRecord s (faultRecord s k code pc)).regs := by
  rw [operatorFault_eq]
  generalize errorRecord s (faultRecord s k code pc) = v
  rfl

theorem regBytes_congr {v : State} (h : v.regs = s.regs) (off n : Nat) : regBytes v off n = regBytes s off n := by
  unfold regBytes
  simp only [regGet_congr h]

theorem operatorFault_last (hf : s.kolwin.fatal = false) (k code pc : Nat) :
    regBytes (operatorFault s k code pc) 0x900C0 64 = recordBytes s (faultRecord s k code pc) :=
  (regBytes_congr (operatorFault_regs s k code pc) _ _).trans (errorRecord_last hf rfl)

theorem operatorFault_sched (s : State) (k code pc : Nat) :
    (operatorFault s k code pc).sched.cur = s.sched.cur.map fun p => { p with faulted := true } := by
  rw [operatorFault_eq, ← (LogOnly.errorRecord s (faultRecord s k code pc)).sched]
  generalize errorRecord s (faultRecord s k code pc) = v
  rfl

theorem operatorFault_frame (s : State) (k code pc : Nat) :
    { operatorFault s k code pc with cores := s.cores, sched := s.sched, regs := s.regs, hwSet := s.hwSet, hwSetAt := s.hwSetAt,
                                     hostMem := s.hostMem, integ := s.integ, msix := s.msix } = s := by
  obtain ⟨r, a, n, hm, ig, ms, he⟩ := LogOnly.errorRecord s (faultRecord s k code pc)
  rw [operatorFault_eq, he]
  rfl

/-! ## A fault at guest privilege -/

theorem inCode_operator (h : (getCore s k).guest = none) (pc : Nat) :
    inCode s k pc = s.images.any fun i => decide (i.off ≤ pc) && decide (pc + 8 ≤ i.off + i.len) := by
  unfold inCode
  rw [h]

/-- The operator's registers as a guest call hands them back, with its two results (R74). -/
def handedBack (g : GuestCall) (sd se : Word) (c : Core) : Core :=
  writeS (writeS { c with s := g.savedS, p := g.savedP, v := g.savedV, guest := none } (BitVec.ofNat 5 g.sd) sd) (BitVec.ofNat 5 g.se) se

theorem guestReturn_eq (s : State) (k : Nat) (g : GuestCall) (sd se : Word) :
    guestReturn s k g sd se = operatorAt (modCore s k (handedBack g sd se)) k g.retPc := rfl

theorem handedBack_guest (g : GuestCall) (sd se : Word) (c : Core) : (handedBack g sd se c).guest = none := by simp [handedBack]

theorem writeS_setPc (c : Core) (i : BitVec 5) (v : Word) (n : Nat) : { writeS c i v with pc := n } = writeS { c with pc := n } i v := by
  unfold writeS; split <;> rfl

theorem handedBack_pc (g : GuestCall) (sd se : Word) (c : Core) (n : Nat) : { handedBack g sd se c with pc := n } =
    writeS (writeS { c with s := g.savedS, p := g.savedP, v := g.savedV, guest := none, pc := n } (BitVec.ofNat 5 g.sd) sd)
      (BitVec.ofNat 5 g.se) se := by
  unfold handedBack
  rw [writeS_setPc, writeS_setPc]

theorem operatorAt_onCore {pc : Nat} (hg : (getCore s k).guest = none)
    (h : (s.images.any fun i => decide (i.off ≤ pc) && decide (pc + 8 ≤ i.off + i.len)) = true) :
    Safety.onCore s k { getCore s k with pc := pc } (operatorAt s k pc) := by
  have hin : inCode (modCore s k fun c => { c with pc := pc }) k pc = true := by
    rw [inCode_operator]
    · exact h
    · rw [getCore_modCore_same]; exact hg
  unfold operatorAt
  dsimp only
  rw [if_pos hin]
  exact onCore_setCore s k _

/-- A guest call returns into code: the operator goes on after GCALL with its two results. -/
theorem guestReturn_onCore (g : GuestCall) (sd se : Word)
    (h : (s.images.any fun i => decide (i.off ≤ g.retPc) && decide (g.retPc + 8 ≤ i.off + i.len)) = true) :
    Safety.onCore s k (writeS (writeS { getCore s k with s := g.savedS, p := g.savedP, v := g.savedV, guest := none, pc := g.retPc }
      (BitVec.ofNat 5 g.sd) sd) (BitVec.ofNat 5 g.se) se) (guestReturn s k g sd se) := by
  have hback : getCore (modCore s k (handedBack g sd se)) k = handedBack g sd se (getCore s k) := getCore_modCore_same s k _
  have hat := operatorAt_onCore (s := modCore s k (handedBack g sd se)) (k := k) (pc := g.retPc)
    (by rw [hback, handedBack_guest]) h
  rw [hback, handedBack_pc] at hat
  exact onCore_trans (onCore_setCore s k (handedBack g sd se (getCore s k))) hat

theorem takeFault_guest {g : GuestCall} (h : (getCore s k).guest = some g) (code pc : Nat) : takeFault s k code pc =
    guestReturn (setReq s g.rc { getReq s g.rc with guestFault := true }) k g (BitVec.ofNat 64 code) (BitVec.ofNat 64 pc) := by
  unfold takeFault
  rw [h]

/-! ## Issue past the code a core may reach -/

theorem advance_outside (h : inCode s k ((getCore s k).pc + 8) = false) : ∃ v, Safety.onCore s k (Safety.past (getCore s k)) v ∧
    advance s k = takeFault v k (if (getCore s k).guest.isSome then 0x05 else 0x09) ((getCore s k).pc + 8) := by
  refine ⟨modCore s k Safety.past, onCore_setCore s k _, ?_⟩
  have hin : inCode (modCore s k Safety.past) k ((getCore s k).pc + 8) = false := by
    rw [← h]
    refine inCode_congr rfl (.inl ?_)
    rw [getCore_modCore_same]; rfl
  have hguest : (getCore (modCore s k Safety.past) k).guest.isSome = (getCore s k).guest.isSome := by
    rw [getCore_modCore_same]
    exact Option.isSome_map
  have hstep : (modCore s k fun c => { retire c with pc := (getCore s k).pc + 8 }) = modCore s k Safety.past := rfl
  unfold advance flowTo
  dsimp only
  rw [hstep, if_neg (by simp [hin]), hguest]
  rfl

/-- Every core instruction is issued, on a core that exists and whose memory queue's head does not hold it. -/
theorem exec_issued {i : Instr} {pg : BitVec 3} {pn : BitVec 1} (h : Safety.issued i = some (k, pg, pn)) : ∃ info fs enc eff,
    exec i s = if k < numCores then .next (if heldBehind (getCore s k) info fs then s else issueOn s k info.guest enc pg pn eff)
      else .fault .noSuchUnit := by
  unfold Safety.issued at h
  split at h <;> cases h
  all_goals exact ⟨_, _, _, _, rfl⟩

theorem issueOn_outside {pg : BitVec 3} {pn : BitVec 1} {guestOk enc : Bool} {eff : Core → Res} (hi : issuing s k = true)
    (h : inCode s k (getCore s k).pc = false) : issueOn s k guestOk enc pg pn eff =
      takeFault s k (if (getCore s k).guest.isSome then 0x05 else 0x09) (getCore s k).pc := by
  unfold issueOn
  dsimp only
  rw [if_neg (by simp [hi]), if_pos (by simp [h])]
  rfl

theorem fetch_outside {i : Instr} {pg : BitVec 3} {pn : BitVec 1} (h : Safety.issued i = some (k, pg, pn)) (hk : k < 544)
    (hi : issuing s k = true) (hm : (getCore s k).memHold = .none) (hin : inCode s k (getCore s k).pc = false) :
    Safety.traps i s k (if (getCore s k).guest.isSome then 0x05 else 0x09) := by
  obtain ⟨info, fs, enc, eff, he⟩ := exec_issued (s := s) h
  unfold Safety.traps
  rw [he, if_pos (show k < numCores from hk), heldBehind_free hm, if_neg Bool.false_ne_true, issueOn_outside hi hin]

end Sys2Proof.Machine
end

section
/-! The statement about faults. -/
open Sys2Proof Sys2Proof.Machine

/-- Settles O12: a fault at each privilege, issue that runs past the code, and a fetch outside it. -/
theorem faultEndsPartOrGuestCall : Obligations.FaultEndsPartOrGuestCall := by
  refine ⟨fun s k code pc => ?_, fun s k => ⟨advance_onCore, advance_outside, fun i pg pn => fetch_outside⟩⟩
  intro c t
  refine ⟨fun hc => ?_, fun g hc himg => ?_⟩
  · have ht : t = operatorFault s k code pc := takeFault_operator hc code pc
    rw [ht]
    exact ⟨getCore_operatorFault s k code pc, (CoreOnly.operatorFault s k code pc).others, operatorFault_sched s k code pc,
      fun hf => operatorFault_last hf k code pc, operatorFault_frame s k code pc⟩
  · have hret := guestReturn_onCore (s := setReq s g.rc { getReq s g.rc with guestFault := true }) (k := k) g
      (BitVec.ofNat 64 code) (BitVec.ofNat 64 pc) himg
    rw [← takeFault_guest hc] at hret
    have hreqs : t.reqs = (setReq s g.rc { getReq s g.rc with guestFault := true }).reqs := by
      have hrest := congrArg State.reqs hret.rest
      exact hrest
    have hreq : ∀ n, getReq t n = getReq (setReq s g.rc { getReq s g.rc with guestFault := true }) n :=
      fun n => congrArg (fun l => smGet reqDefault l n) hreqs
    refine ⟨(hreq _).trans (getReq_setReq_same _ _ _), fun n hn => (hreq n).trans (getReq_setReq_ne _ _ hn), ?_⟩
    rw [hreqs]
    exact hret
end

section
/-! Guest calls (R69 to R74): the checks of the call block, the core that enters, and its return. -/
namespace Sys2Proof.Machine
variable {s : State} {k : Nat} {w : FmtT}

/-! ## The core that enters -/

theorem smGet_smSet {α : Type} [DecidableEq α] (d : Nat → α) (m : List (Nat × α)) (i j : Nat) (v : α) :
    smGet d (smSet d m i v) j = if j = i then v else smGet d m j := by
  split
  · next h => rw [h, smGet_smSet_same]
  · next h => exact smGet_smSet_ne d m v h

/-- s1 to s8 at guest entry hold the call block's fields, the others zero (Table 4-5). -/
theorem readS_guestEnter (c : Core) (w : FmtT) (b : CallBlock) (i : Image) (j : BitVec 5) : readS (guestEnter c w b i) j =
    BitVec.ofNat 64 (([0, b.inB, b.inL, b.wkB, b.wkL, b.tbB, b.tbL, b.arg, b.rc] : List Nat).getD j.toNat 0) := by
  have hentry : ∀ n, n ≠ 0 → smGet wordDefault (guestEntryS b) n =
      BitVec.ofNat 64 (([0, b.inB, b.inL, b.wkB, b.wkL, b.tbB, b.tbL, b.arg, b.rc] : List Nat).getD n 0) := by
    intro n hn
    unfold guestEntryS
    simp only [List.foldl_cons, List.foldl_nil, smGet_smSet]
    by_cases h9 : n < 9
    · interval_cases n
      · exact absurd rfl hn
      all_goals rfl
    · have hnil : smGet wordDefault [] n = 0 := rfl
      rw [List.getD_eq_default _ _ (by simp; omega), hnil]
      simp (disch := omega) only [if_neg]
      rfl
  unfold readS
  split
  · next h => subst h; rfl
  · next h => exact hentry _ fun e => h (BitVec.eq_of_toNat_eq e)

theorem readP_guestEnter (c : Core) (w : FmtT) (b : CallBlock) (i : Image) (j : Nat) : readP (guestEnter c w b i) j = decide (j = 0) := by
  unfold readP guestEnter
  simp

/-! ## GCALL -/

section
variable (h : Safety.operator s k w.pg w.pn) (he : infoGcall.okT w = true)
include h he

theorem exec_gcall : exec (.gcall k w) s = .next (finish s k (gcallEff s k w (getCore s k))) := exec_operator rfl h he

theorem gcall_refused {code : Word} (hr : gcallEff s k w (getCore s k) = gcallRefuse s k w code) :
    Safety.runs (.gcall k w) s k (writeS (writeS (getCore s k) w.d code) w.b 0) :=
  runs_of_regOp (f := fun c => writeS (writeS c w.d code) w.b 0) (exec_gcall h he) hr h.after (by simp) (by simp)

theorem gcall_alignment (ho : (readS (getCore s k) w.a).toNat % 64 ≠ 0) : Safety.traps (.gcall k w) s k 0x04 :=
  traps_of_flt (exec_gcall h he) (if_pos ho)

variable (ho : (readS (getCore s k) w.a).toNat % 64 = 0)
include ho

theorem gcall_address (hb : 0x100000 < (readS (getCore s k) w.a).toNat + 64) : Safety.traps (.gcall k w) s k 0x03 :=
  traps_of_flt (exec_gcall h he) ((if_neg (not_not.mpr ho)).trans (if_pos hb))

variable (hb : (readS (getCore s k) w.a).toNat + 64 ≤ 0x100000)
include hb

theorem gcall_barred (hg : guestAllowed s = false) : Safety.runs (.gcall k w) s k (writeS (writeS (getCore s k) w.d 0xFE) w.b 0) :=
  gcall_refused h he ((if_neg (not_not.mpr ho)).trans ((if_neg (Nat.not_lt.mpr hb)).trans (if_pos (by simp [hg]))))

variable (hg : guestAllowed s = true)
include hg

omit h he in
theorem gcallEff_allowed : gcallEff s k w (getCore s k) =
    let off := (readS (getCore s k) w.a).toNat
    let b := callBlock (readBytes (getCore s k).scratch off 64)
    match entryImage s b with
    | some i => if blockOk b off then .hold (modCore s k fun c => guestEnter c w b i) else gcallRefuse s k w 0xFD
    | none => gcallRefuse s k w 0xFD :=
  (if_neg (not_not.mpr ho)).trans ((if_neg (Nat.not_lt.mpr hb)).trans (if_neg (by simp [hg])))

theorem gcall_badBlock
    (hbad : blockOk (callBlock (readBytes (getCore s k).scratch (readS (getCore s k) w.a).toNat 64)) (readS (getCore s k) w.a).toNat = false ∨
      entryImage s (callBlock (readBytes (getCore s k).scratch (readS (getCore s k) w.a).toNat 64)) = none) :
    Safety.runs (.gcall k w) s k (writeS (writeS (getCore s k) w.d 0xFD) w.b 0) := by
  refine gcall_refused h he ((gcallEff_allowed ho hb hg).trans ?_)
  dsimp only
  split
  · next i hi =>
    rw [if_neg]
    rcases hbad with hbad | hbad
    · simp [hbad]
    · rw [hbad] at hi; cases hi
  · rfl

theorem gcall_enters {i : Image}
    (hok : blockOk (callBlock (readBytes (getCore s k).scratch (readS (getCore s k) w.a).toNat 64)) (readS (getCore s k) w.a).toNat = true)
    (hi : entryImage s (callBlock (readBytes (getCore s k).scratch (readS (getCore s k) w.a).toNat 64)) = some i) {p : State → Prop}
    (hp : p (modCore s k fun c => guestEnter c w (callBlock (readBytes (getCore s k).scratch (readS (getCore s k) w.a).toNat 64)) i)) :
    Safety.answers (.gcall k w) s p := by
  refine answers_of_hold (exec_gcall h he) ((gcallEff_allowed ho hb hg).trans ?_) hp
  dsimp only
  rw [hi]
  exact if_pos hok

end

/-! ## GRET -/

theorem gret_returns {g : GuestCall} (h : Safety.ready s k w.pg w.pn) (he : infoNone.okT w = true) (hg : (getCore s k).guest = some g)
    (himg : (s.images.any fun i => decide (i.off ≤ g.retPc) && decide (g.retPc + 8 ≤ i.off + i.len)) = true) :
    Safety.answers (.gret k w) s (Safety.onCore s k (writeS (writeS { getCore s k with
      s := g.savedS, p := g.savedP, v := g.savedV, guest := none, pc := g.retPc } (BitVec.ofNat 5 g.sd) 0) (BitVec.ofNat 5 g.se)
      (readS (getCore s k) 1))) := by
  have hx : exec (.gret k w) s = .next (finish s k (gretEff s k (getCore s k))) := issueT_ready h he (.inl rfl)
  refine answers_of_hold hx ?_ (guestReturn_onCore g 0 (readS (getCore s k) 1) himg)
  unfold gretEff
  rw [hg]

theorem gret_operator (h : Safety.operator s k w.pg w.pn) (he : infoNone.okT w = true) :
    Safety.runs (.gret k w) s k (getCore s k) := by
  have hx : exec (.gret k w) s = .next (finish s k (gretEff s k (getCore s k))) := exec_operator rfl h he
  refine answers_of_done hx ?_ h.after rfl rfl rfl fun t ht => ht
  unfold gretEff
  rw [h.noGuest]

end Sys2Proof.Machine
end

section
/-! The statement about guest calls. -/
open Sys2Proof Sys2Proof.Machine

/-- Settles O10: GCALL's checks in their order, the core it leaves in the guest, and GRET at each privilege. -/
theorem guestCallEntersAndReturns : Obligations.GuestCallEntersAndReturns := by
  intro s k w
  refine ⟨fun h he => ?_, fun g h he hg himg => gret_returns h he hg himg, gret_operator⟩
  intro c off b
  refine ⟨gcall_alignment h he, gcall_address h he, gcall_barred h he, gcall_badBlock h he, fun i ho hb hg hok hi => ?_⟩
  refine gcall_enters h he ho hb hg hok hi ?_
  intro d
  have hd : d = guestEnter c w b i := getCore_modCore_same s k _
  rw [hd]
  exact ⟨onCore_setCore s k _, rfl, rfl, readS_guestEnter c w b i, fun j _ => readP_guestEnter c w b i j, fun _ => rfl, rfl, rfl, rfl, rfl⟩
end

section
/-! System and table reads (R57, R67). -/
namespace Sys2Proof.Machine
variable {s : State} {k : Nat} {w : FmtT}

/-- The system values of Table 4-4 by index, zero past them. -/
theorem sysValue_eq_getD (s : State) (k : Nat) (c : Core) (i : Nat) : sysValue s k c i =
    ([gidOf s k, k, k / 17, k / 136, k / 17 % 8, c.step.toNat, s.tk, c.gen.toNat, coreRate s k, 0, 0,
      bits (regGet s 0xA0010).toNat 13 12] : List Nat).getD i 0 := by
  match i with
  | 0 | 1 | 2 | 3 | 4 | 5 | 6 | 7 | 8 | 9 | 10 | 11 => rfl
  | n + 12 => rfl

theorem sysrd_reads (h : Safety.ready s k w.pg w.pn) (he : infoSysrd.okT w = true) :
    Safety.runs (.sysrd k w) s k (writeS (getCore s k) w.d (BitVec.ofNat 64 (sysRead s k (getCore s k) w.imm.toNat))) :=
  runs_of_regOp (f := fun c => writeS c w.d (BitVec.ofNat 64 (sysRead s k (getCore s k) w.imm.toNat))) (issueT_ready h he (.inl rfl)) rfl
    h.after (writeS_guest _ _ _) (writeS_pc _ _ _)

/-- A byte of a little-endian number. -/
theorem leNat_byte (bs : List Byte) (j : Nat) : leNat bs / 256 ^ j % 256 = (bs.getD j 0).toNat := by
  induction bs generalizing j with
  | nil => simp [leNat]
  | cons b bs ih =>
    have hb : b.toNat < 256 := b.isLt
    cases j with
    | zero => simp only [leNat, List.getD_cons_zero, Nat.pow_zero, Nat.div_one]; omega
    | succ j =>
      rw [List.getD_cons_succ, ← ih j, leNat, Nat.pow_succ', ← Nat.div_div_eq_div_mul, show (b.toNat + 256 * leNat bs) / 256 = leNat bs by omega]

theorem fieldAt_byte (bs : List Byte) {off n j : Nat} (hj : j < n) : fieldAt bs off n / 256 ^ j % 256 = (bs.getD (off + j) 0).toNat := by
  unfold fieldAt
  rw [leNat_byte, List.getD_eq_getElem?_getD, List.getD_eq_getElem?_getD, List.getElem?_take_of_lt hj, List.getElem?_drop]

section
variable (h : Safety.ready s k w.pg w.pn) (he : infoTbrd.okT w = true) (hg : (getCore s k).guest = none)
include h he hg

theorem exec_tbrd : exec (.tbrd k w) s = .next (finish s k (tbrdEff s k w (getCore s k))) := issueT_ready h he (.inr hg)

theorem tbrd_alignment (ho : (readS (getCore s k) w.a + simm w.imm).toNat % 8 ≠ 0) : Safety.traps (.tbrd k w) s k 0x04 :=
  traps_of_flt (exec_tbrd h he hg) (if_pos ho)

theorem tbrd_reads (ho : (readS (getCore s k) w.a + simm w.imm).toNat % 8 = 0) : ∃ v : Word,
    Safety.runs (.tbrd k w) s k (writeS (getCore s k) w.d v) ∧ ∀ j < 8, (v.extractLsb' (8 * j) 8 : Byte) =
      s.snapshot.getD ((readS (getCore s k) w.a + simm w.imm).toNat + j) 0 := by
  refine ⟨BitVec.ofNat 64 (fieldAt s.snapshot (readS (getCore s k) w.a + simm w.imm).toNat 8),
    runs_of_regOp (f := fun c => writeS c w.d _) (exec_tbrd h he hg) (if_neg (not_not.mpr ho)) h.after (writeS_guest _ _ _) (writeS_pc _ _ _),
    fun j hj => BitVec.eq_of_toNat_eq ?_⟩
  have hlt := fieldAt_lt s.snapshot (readS (getCore s k) w.a + simm w.imm).toNat 8
  have hv : (BitVec.ofNat 64 (fieldAt s.snapshot (readS (getCore s k) w.a + simm w.imm).toNat 8)).toNat =
      fieldAt s.snapshot (readS (getCore s k) w.a + simm w.imm).toNat 8 := by
    rw [BitVec.toNat_ofNat]
    exact Nat.mod_eq_of_lt (by omega)
  rw [BitVec.extractLsb'_toNat, hv, ← fieldAt_byte _ hj, Nat.shiftRight_eq_div_pow, Nat.pow_mul]

end

end Sys2Proof.Machine
end

section
/-! The statement about system and table reads. -/
open Sys2Proof Sys2Proof.Machine

/-- Settles O31: SYSRD by the privilege that reads, TBRD by its offset's alignment. -/
theorem systemAndTableReads : Obligations.SystemAndTableReads := by
  intro s k w h c i off operator
  refine ⟨fun he => ?_, fun he hg => ⟨tbrd_alignment h he hg, tbrd_reads h he hg⟩⟩
  have hread : (match c.guest with
      | some g => if i = 9 then 1 else if i = 10 then g.left else 0
      | none => operator.getD i 0) = sysRead s k c i := by
    rw [show operator.getD i 0 = sysValue s k c i from (sysValue_eq_getD s k c i).symm]
    rfl
  have hruns := sysrd_reads h he
  rw [← hread] at hruns
  exact hruns
end

section
/-! The waits that a change of a sync cell ends (R78, R79). -/
namespace Sys2Proof.Machine
variable {s t u : State}

/-! ## A visit of every core -/

section
variable {f : State → Nat → State} (hf : ∀ st i, CoreOnly i st (f st i))
include hf

theorem foldl_visits_fault (l : List Nat) : ∀ s, FaultOnly s (l.foldl f s) := by
  induction l with
  | nil => exact FaultOnly.refl
  | cons i l ih => exact fun s => (hf s i).only.trans (ih _)

theorem overCores_fault (s : State) : FaultOnly s (overCores s f) := foldl_visits_fault hf _ s

theorem foldl_visits_codes (l : List Nat) : ∀ s n, (getReq (l.foldl f s) n).codes = (getReq s n).codes := by
  induction l with
  | nil => exact fun _ _ => rfl
  | cons i l ih => exact fun s n => (ih _ n).trans ((hf s i).codes n)

theorem overCores_codes (s : State) (n : Nat) : (getReq (overCores s f) n).codes = (getReq s n).codes := foldl_visits_codes hf _ s n

/-- Visits of listed cores, core `j` among them or not: its first visit leads from `c` to `d`, and further ones leave `d`. -/
theorem foldl_visits_core {j : Nat} {c d : Core} (h1 : ∀ st, FaultOnly s st → getCore st j = c → getCore (f st j) j = d)
    (h2 : ∀ st, FaultOnly s st → getCore st j = d → getCore (f st j) j = d) (l : List Nat) : ∀ {t : State}, FaultOnly s t →
      (getCore t j = d → getCore (l.foldl f t) j = d) ∧ (getCore t j = c → getCore (l.foldl f t) j = if j ∈ l then d else c) := by
  induction l with
  | nil => exact fun _ => ⟨id, fun hc => by simp [hc]⟩
  | cons i l ih =>
    intro t ht
    obtain ⟨hd, hc⟩ := ih (ht.trans (hf t i).only)
    by_cases hj : j = i
    · subst hj
      exact ⟨fun h => hd (h2 t ht h), fun h => (hd (h1 t ht h)).trans (if_pos List.mem_cons_self).symm⟩
    · have hsame := (hf t i).others j hj
      refine ⟨fun h => hd (hsame.trans h), fun h => (hc (hsame.trans h)).trans ?_⟩
      simp [hj]

/-- What a visit of every core leaves of core `j`. A core without state is not visited: it stands as by reset. -/
theorem overCores_core {j : Nat} {d : Core} (hd : getCore s j = coreDefault j → d = coreDefault j)
    (h1 : ∀ st, FaultOnly s st → getCore st j = getCore s j → getCore (f st j) j = d)
    (h2 : ∀ st, FaultOnly s st → getCore st j = d → getCore (f st j) j = d) : getCore (overCores s f) j = d := by
  refine ((foldl_visits_core hf h1 h2 _ (FaultOnly.refl s)).2 rfl).trans ?_
  by_cases hmem : j ∈ s.cores.map (·.1)
  · exact if_pos hmem
  · have hdef : getCore s j = coreDefault j := smGet_unlisted coreDefault fun e he hj => hmem (List.mem_map.mpr ⟨e, he, hj⟩)
    rw [if_neg hmem, hdef, hd hdef]

/-- A core that every visit leaves stands. -/
theorem overCores_kept {j : Nat} (h : ∀ st, FaultOnly s st → getCore st j = getCore s j → getCore (f st j) j = getCore s j) :
    getCore (overCores s f) j = getCore s j := overCores_core hf id h h

end

/-! ## The end of a wait -/

theorem endWait_coreOnly (s : State) (k pd : Nat) (v : Bool) : CoreOnly k s (endWait s k pd v) :=
  (CoreOnly.modCore s k _).trans (CoreOnly.advance _ k)


/-- A wait that ends goes on with its predicate at PC + 8. -/
theorem endWait_core {k : Nat} (h : inCode s k ((getCore s k).pc + 8) = true) (pd : Nat) (v : Bool) :
    getCore (endWait s k pd v) k = Safety.past { writeP (getCore s k) pd v with wait := .none } := by
  have hcore := getCore_modCore_same s k fun c => { writeP c pd v with wait := .none }
  have hin : inCode (modCore s k fun c => { writeP c pd v with wait := .none }) k
      ((getCore (modCore s k fun c => { writeP c pd v with wait := .none }) k).pc + 8) = true := by
    rw [hcore, ← h, ← writeP_pc (getCore s k) pd v]
    exact inCode_congr rfl (.inr (by rw [hcore]; exact writeP_guest _ _ _))
  exact (advance_onCore hin).this.trans (congrArg Safety.past hcore)

section
variable {n j : Nat} {f : Nat → Word → Bool → Option Bool}

theorem endIf_coreOnly (s : State) (n k : Nat) (f : Nat → Word → Bool → Option Bool) : CoreOnly k s (endIf s n k f) := by
  unfold endIf
  split
  · split
    · split
      · exact endWait_coreOnly s k _ _
      · exact .refl k s
    · exact .refl k s
  · exact .refl k s

theorem endIf_ends {m cond pd : Nat} {target : Word} {timed v : Bool} (hw : (getCore s j).wait = .cell m cond target pd timed)
    (hm : m = n) (hv : f cond target timed = some v) : endIf s n j f = endWait s j pd v := by
  unfold endIf
  rw [hw]
  dsimp only
  rw [if_pos hm, hv]

theorem endIf_leaves (h : ∀ cond target pd timed, (getCore s j).wait = .cell n cond target pd timed → f cond target timed = none) :
    endIf s n j f = s := by
  unfold endIf
  cases hw : (getCore s j).wait with
  | none => rfl
  | cell m cond target pd timed =>
    dsimp only
    by_cases hm : m = n
    · rw [if_pos hm, h cond target pd timed (hm ▸ hw)]
    · rw [if_neg hm]

/-- A wait on the cell for which the visit of its core answers ends. -/
theorem endIf_all_ends {m cond pd : Nat} {target : Word} {timed v : Bool} (hw : (getCore s j).wait = .cell m cond target pd timed)
    (hin : inCode s j ((getCore s j).pc + 8) = true) (hm : m = n) (hv : f cond target timed = some v) :
    getCore (overCores s fun st k => endIf st n k f) j = Safety.past { writeP (getCore s j) pd v with wait := .none } := by
  refine overCores_core (fun st i => endIf_coreOnly st n i f) (fun hdef => ?_) (fun st hst hc => ?_) (fun st _ hc => ?_)
  · rw [hdef] at hw; exact absurd hw (by simp [coreDefault])
  · rw [endIf_ends (hc ▸ hw) hm hv, endWait_core, hc]
    rw [hc, ← hin]
    exact inCode_congr hst.images (.inr (by rw [hc]))
  · rw [endIf_leaves, hc]
    intro cond' target' pd' timed' hw'
    rw [hc] at hw'
    exact absurd hw' (by simp [Safety.past, retire])

/-- A core for whose wait no visit answers stands as it was. -/
theorem endIf_all_leaves (h : ∀ cond target pd timed, (getCore s j).wait = .cell n cond target pd timed → f cond target timed = none) :
    getCore (overCores s fun st k => endIf st n k f) j = getCore s j :=
  overCores_kept (fun st i => endIf_coreOnly st n i f) fun st _ hc => by rw [endIf_leaves (by rw [hc]; exact h), hc]

theorem endIf_all_cell (x : Nat) : getCell (overCores s fun st k => endIf st n k f) x = getCell s x :=
  congrArg (fun l => smGet cellDefault l x) (overCores_fault (fun st i => endIf_coreOnly st n i f) s).cells

end

/-! ## The visits after a change of cell `n` -/

/-- What the visit after a change of value answers (R78). -/
def wakes (x : SyncCell) (cond : Nat) (target : Word) (_ : Bool) : Option Bool :=
  if waitMet cond x.kind x.value target then some true else none

/-- What the visit at a deadline answers (R79). -/
def expires (x : SyncCell) (cond : Nat) (target : Word) (timed : Bool) : Option Bool :=
  if timed && !waitMet cond x.kind x.value target then some false else none

theorem putCell_eq (s : State) (n : Nat) (x : SyncCell) : putCell s n x = overCores (setCell s n x) fun st k => endIf st n k (wakes x) := by
  unfold putCell wakeCell
  dsimp only
  rw [getCell_setCell_same]
  rfl

theorem cellDeadline_eq (s : State) (n : Nat) : cellDeadline s n =
    overCores (setCell s n { getCell s n with deadline := 0 }) fun st k => endIf st n k (expires (getCell s n)) := rfl

end Sys2Proof.Machine
end

section
/-! The statement about the end of waits. -/
open Sys2Proof Sys2Proof.Machine

/-- Settles O29: each change of a cell is a visit of the cores, which ends the waits it answers for and leaves the others. -/
theorem cellUpdatesEndWaits : Obligations.CellUpdatesEndWaits := by
  intro s n j m cond pd target timed _ hw hin c ended
  have hwn : ∀ {x : SyncCell} {cond' : Nat} {target' : Word} {pd' : Nat} {timed' : Bool},
      (getCore (setCell s n x) j).wait = .cell n cond' target' pd' timed' → m = n ∧ cond = cond' ∧ target = target' ∧ timed = timed' := by
    intro x cond' target' pd' timed' h
    obtain ⟨hm, hc, ht, _, htm⟩ := CoreWait.cell.inj (hw.symm.trans h)
    exact ⟨hm, hc, ht, htm⟩
  refine ⟨fun x => ?_, fun cfg v dl => ⟨fun hm => endIf_all_ends (s := setCell s n _) hw hin hm rfl, fun hm => ?_⟩, ?_⟩
  · rw [putCell_eq]
    refine ⟨(endIf_all_cell n).trans (getCell_setCell_same s n x), fun hm hmet => endIf_all_ends (s := setCell s n x) hw hin hm (if_pos hmet),
      fun h => endIf_all_leaves (s := setCell s n x) fun cond' target' pd' timed' h' => ?_⟩
    obtain ⟨rfl, rfl, rfl, rfl⟩ := hwn h'
    have hno : waitMet cond x.kind x.value target = false := h.resolve_left (not_not.mpr rfl)
    exact if_neg (by simp [hno])
  · exact endIf_all_leaves (s := setCell s n _) fun cond' target' pd' timed' h' => absurd (hwn h').1 hm
  · intro x
    rw [cellDeadline_eq]
    refine ⟨(endIf_all_cell n).trans (getCell_setCell_same s n _), fun hm htm hmet =>
      endIf_all_ends (s := setCell s n _) hw hin hm (if_pos (by simp [htm, show waitMet cond (getCell s n).kind (getCell s n).value target = false from hmet])),
      fun h => endIf_all_leaves (s := setCell s n _) fun cond' target' pd' timed' h' => ?_⟩
    obtain ⟨rfl, rfl, rfl, rfl⟩ := hwn h'
    have hno : timed = false ∨ waitMet cond (getCell s m).kind (getCell s m).value target = true := h.resolve_left (not_not.mpr rfl)
    rcases hno with hno | hno <;> exact if_neg (by simp [hno])
end

section
/-! The departure of an entry of the device operation table from ACTIVE (R84, Table 4-11). -/
namespace Sys2Proof.Machine
variable {s t u : State} {m k : Nat} {e : DotEntry}

/-! ## The completion signal -/

/-- A change of a cell's value changes a core only through a wait of it. -/
theorem putCell_unwaiting {j : Nat} (h : (getCore s j).wait = .none) (n : Nat) (x : SyncCell) : getCore (putCell s n x) j = getCore s j := by
  rw [putCell_eq]
  refine endIf_all_leaves (s := setCell s n x) fun cond target pd timed hw => ?_
  have hno : (getCore s j).wait = .cell n cond target pd timed := hw
  rw [h] at hno
  exact absurd hno (by simp)

theorem signalCell_only (s : State) (m : Nat) (e : DotEntry) : FaultOnly { s with cells := (signalCell s m e).cells } (signalCell s m e) := by
  unfold signalCell
  split
  · exact .refl s
  · dsimp only
    split
    · have h := (LogOnly.errorRecord s { type := 0x09, step := stepNow s, a0 := e.cell, a1 := 2 ^ 63 + m }).fault
      rw [h.cells]
      exact h
    · rw [putCell_eq]
      have h := overCores_fault (fun st i => endIf_coreOnly st e.cell i (wakes ((getCell s e.cell).plus 1)))
        (setCell s e.cell ((getCell s e.cell).plus 1))
      rw [h.cells]
      exact h

theorem signalCell_codes (s : State) (m : Nat) (e : DotEntry) (n : Nat) : (getReq (signalCell s m e) n).codes = (getReq s n).codes := by
  unfold signalCell
  split
  · rfl
  · dsimp only
    split
    · exact congrArg Req.codes ((LogOnly.errorRecord s _).getReq n)
    · rw [putCell_eq]
      exact overCores_codes (fun st i => endIf_coreOnly st e.cell i _) _ n

theorem signalCell_unwaiting {j : Nat} (h : (getCore s j).wait = .none) (m : Nat) (e : DotEntry) :
    getCore (signalCell s m e) j = getCore s j := by
  unfold signalCell
  split
  · rfl
  · dsimp only
    split
    · exact (LogOnly.errorRecord s _).getCore j
    · exact putCell_unwaiting h _ _

theorem LogOnly.cells (h : LogOnly s t) : t.cells = s.cells := by obtain ⟨_, _, _, _, _, _, rfl⟩ := h; rfl

/-- The signal adds 1 to a cell that is configured, and changes no other. -/
theorem signalCell_cell (s : State) (m : Nat) (e : DotEntry) (n : Nat) : getCell (signalCell s m e) n =
    if e.cellEn = true ∧ n = e.cell ∧ (getCell s n).kind ≠ 0 then (getCell s n).plus 1 else getCell s n := by
  unfold signalCell
  by_cases hen : e.cellEn = true
  · rw [if_neg (by simp [hen])]
    dsimp only
    by_cases hk : (getCell s e.cell).kind = 0
    · rw [if_pos hk, if_neg (fun h => h.2.2 (h.2.1 ▸ hk))]
      exact congrArg (fun l => smGet cellDefault l n) (LogOnly.errorRecord s _).cells
    · rw [if_neg hk, putCell_eq]
      refine (endIf_all_cell n).trans ?_
      by_cases hn : n = e.cell
      · subst hn; rw [if_pos ⟨hen, rfl, hk⟩, getCell_setCell_same]
      · rw [if_neg (fun h => hn h.2.1), getCell_setCell_ne _ _ hn]
  · rw [if_pos (by simp [hen]), if_neg (fun h => hen h.1)]

/-! ## NBRD and NBFNC at the head of a memory queue -/

theorem endNbrd_coreOnly (s : State) (k m d lines off : Nat) : CoreOnly k s (endNbrd s k m d lines off) := by
  unfold endNbrd
  dsimp only
  split <;> exact .modCore s k _

theorem releaseNb_coreOnly (s : State) (m k : Nat) : CoreOnly k s (releaseNb s m k) := by
  unfold releaseNb
  split
  · split
    · exact endNbrd_coreOnly s k _ _ _ _
    · exact .refl k s
  · split
    · exact .modCore s k _
    · exact .refl k s
  · exact .refl k s

/-- What a memory queue holds of NBFNC once entry `m` no longer holds it back. -/
def fenceWithout (ops : List Nat) (m : Nat) : MemHold :=
  match ops.filter (fun o => o ≠ m) with
  | [] => .none
  | rest => .nbfnc rest

theorem fenceWithout_eq (ops : List Nat) (m : Nat) : fenceWithout ops m =
    if ops.filter (fun o => o ≠ m) = [] then .none else .nbfnc (ops.filter fun o => o ≠ m) := by
  unfold fenceWithout
  cases ops.filter (fun o => o ≠ m) <;> simp

theorem releaseNb_none (h : (getCore s k).memHold = .none) : releaseNb s m k = s := by
  unfold releaseNb
  rw [h]

theorem releaseNb_nbfnc {ops : List Nat} (h : (getCore s k).memHold = .nbfnc ops) : releaseNb s m k =
    if m ∈ ops then modCore s k fun c => { c with memHold := fenceWithout ops m } else s := by
  unfold releaseNb
  rw [h]
  simp only [List.contains_iff_mem]; rfl

theorem releaseNb_nbrd {x d n off : Nat} (h : (getCore s k).memHold = .nbrd x d n off) : releaseNb s m k =
    if x = m then endNbrd s k m d n off else s := by
  unfold releaseNb
  rw [h]

theorem writeS_memHold (c : Core) (i : BitVec 5) (v : Word) : (writeS c i v).memHold = c.memHold := by unfold writeS; split <;> rfl

/-- What the departure of entry `m`, which stands in `s` by then, leaves of a core. -/
def released (s : State) (m : Nat) (c : Core) : Core :=
  match c.memHold with
  | .none => c
  | .nbfnc ops => if m ∈ ops then { c with memHold := fenceWithout ops m } else c
  | .nbrd x d n off =>
    if x = m then
      if (getDot s m).state = .done then
        writeS { c with scratch := writeBytes c.scratch off (pocRead s (getDot s m).dst (256 * n)), memHold := .none } (BitVec.ofNat 5 d) 0
      else writeS { c with memHold := .none } (BitVec.ofNat 5 d) (BitVec.ofNat 64 (getDot s m).result)
    else c

theorem releaseNb_core (s : State) (m k : Nat) : getCore (releaseNb s m k) k = released s m (getCore s k) := by
  unfold released
  split
  · next h => rw [releaseNb_none h]
  · next ops h =>
    rw [releaseNb_nbfnc h]
    split
    · exact getCore_modCore_same _ _ _
    · rfl
  · next x d n off h =>
    rw [releaseNb_nbrd h]
    split
    · unfold endNbrd
      dsimp only
      split <;> exact getCore_modCore_same _ _ _
    · rfl

/-- A core is released at most once. -/
theorem released_released (s : State) (m : Nat) (c : Core) : released s m (released s m c) = released s m c := by
  have hnone : ∀ d : Core, d.memHold = .none → released s m d = d := fun d hd => by unfold released; rw [hd]
  cases h : c.memHold with
  | none => rw [hnone c h, hnone c h]
  | nbfnc ops =>
    by_cases hm : m ∈ ops
    · have h1 : released s m c = { c with memHold := fenceWithout ops m } := by unfold released; rw [h]; exact if_pos hm
      rw [h1]
      by_cases hnil : ops.filter (fun o => o ≠ m) = []
      · exact hnone _ ((fenceWithout_eq ops m).trans (if_pos hnil))
      · have hrest : ({ c with memHold := fenceWithout ops m } : Core).memHold = .nbfnc (ops.filter fun o => o ≠ m) :=
          (fenceWithout_eq ops m).trans (if_neg hnil)
        unfold released
        rw [hrest]
        exact if_neg (by simp)
    · have h1 : released s m c = c := by unfold released; rw [h]; exact if_neg hm
      rw [h1, h1]
  | nbrd x d n off =>
    by_cases hx : x = m
    · refine hnone _ ?_
      unfold released
      rw [h]
      dsimp only
      rw [if_pos hx]
      split <;> rw [writeS_memHold]
    · have h1 : released s m c = c := by unfold released; rw [h]; exact if_neg hx
      rw [h1, h1]

theorem FaultOnly.pocRead (h : FaultOnly s t) {a n : Nat} (ha : a + n ≤ hbmBytes) : pocRead t a n = pocRead s a n := by
  rw [pocRead_eq_map ha, pocRead_eq_map ha, h.mem, h.badWords]

theorem pocRead_good {a n : Nat} (ha : a + n ≤ hbmBytes) (hb : badIn s a n = none) : pocRead s a n = readBytes s.mem a n := by
  unfold Machine.pocRead
  dsimp only
  rw [hb, physRead_hbm ha]
  rfl

theorem FaultOnly.getDot (h : FaultOnly s t) (j : Nat) : getDot t j = getDot s j := congrArg (fun l => smGet dotDefault l j) h.dot
theorem FaultOnly.getCell (h : FaultOnly s t) (j : Nat) : getCell t j = getCell s j := congrArg (fun l => smGet cellDefault l j) h.cells

/-! ## The departure -/

/-- An entry that has left ACTIVE, its signal given and its request's end noted. -/
def departed (s : State) (m : Nat) (st : DotState) (result : Nat) : State :=
  let e := getDot s m
  let v := signalCell (setDot s m { e with state := st, result := result }) m e
  if e.rcEn ∧ (st = .failed ∨ (st = .timedOut ∧ result ≠ 0)) then addCode v e.rc result else v

/-- The cores of a departed entry released. -/
def departedReleased (s : State) (m : Nat) (st : DotState) (result : Nat) : State :=
  overCores (departed s m st result) fun v k => releaseNb v m k

theorem leaveActive_eq {st : DotState} {result : Nat} (h : (getDot s m).state = .active) : leaveActive s m st result =
    if st = .done ∧ (getDot s m).autofree then setDot (departedReleased s m st result) m {} else departedReleased s m st result :=
  if_neg (not_not.mpr h)

section
variable (s m) (st : DotState) (result : Nat)

theorem addCode_only (u : State) (rc code : Nat) : FaultOnly u (addCode u rc code) := .setReq u rc _

theorem addCode_codes (u : State) (rc code n : Nat) :
    (getReq (addCode u rc code) n).codes = if n = rc then (getReq u n).codes ++ [code] else (getReq u n).codes := by
  unfold addCode
  by_cases hn : n = rc
  · rw [hn, getReq_setReq_same, if_pos rfl]
  · rw [getReq_setReq_ne _ _ hn, if_neg hn]

/-- The entry with its final state, in the state that signals its cell. -/
abbrev ended : State := setDot s m { getDot s m with state := st, result := result }

theorem departed_only : FaultOnly { ended s m st result with cells := (departed s m st result).cells } (departed s m st result) := by
  have hs := signalCell_only (ended s m st result) m (getDot s m)
  unfold departed
  dsimp only
  split
  · exact hs.trans (addCode_only _ _ _)
  · exact hs

theorem departed_cell (n : Nat) : getCell (departed s m st result) n =
    if (getDot s m).cellEn = true ∧ n = (getDot s m).cell ∧ (getCell s n).kind ≠ 0 then (getCell s n).plus 1 else getCell s n := by
  refine Eq.trans ?_ (signalCell_cell (ended s m st result) m (getDot s m) n)
  unfold departed
  dsimp only
  split <;> rfl

theorem departed_codes (n : Nat) : (getReq (departed s m st result) n).codes =
    if n = (getDot s m).rc ∧ (getDot s m).rcEn = true ∧ (st = .failed ∨ (st = .timedOut ∧ result ≠ 0)) then
      (getReq s n).codes ++ [result] else (getReq s n).codes := by
  have hs := signalCell_codes (ended s m st result) m (getDot s m) n
  unfold departed
  dsimp only
  split
  · next h => rw [addCode_codes, hs]; simp only [h, and_true]; rfl
  · next h => rw [hs, if_neg (fun g => h g.2)]; rfl

theorem departed_core {k : Nat} (h : (getCore s k).wait = .none) : getCore (departed s m st result) k = getCore s k := by
  refine Eq.trans ?_ (signalCell_unwaiting (s := ended s m st result) h m (getDot s m))
  unfold departed
  dsimp only
  split <;> rfl

theorem released_only : FaultOnly (departed s m st result) (departedReleased s m st result) :=
  overCores_fault (fun u i => releaseNb_coreOnly u m i) _

theorem departed_dot (j : Nat) : getDot (departed s m st result) j = getDot (ended s m st result) j :=
  (departed_only s m st result).getDot j

end

section
variable {st : DotState} {result : Nat} (h : (getDot s m).state = .active)
include h

/-- Whether the freed entry or not: what does not read the table reads the state whose cores are released. -/
theorem leaveActive_read {α : Type} {f : State → α} (hf : ∀ u e, f (setDot u m e) = f u) :
    f (leaveActive s m st result) = f (departedReleased s m st result) := by
  rw [leaveActive_eq h]
  split
  · exact hf _ _
  · rfl

theorem leaveActive_self : getDot (leaveActive s m st result) m =
    if st = .done ∧ (getDot s m).autofree = true then {} else { getDot s m with state := st, result := result } := by
  rw [leaveActive_eq h]
  split
  · exact getDot_setDot_same _ _ _
  · rw [(released_only s m st result).getDot, departed_dot, getDot_setDot_same]

theorem leaveActive_dot {j : Nat} (hj : j ≠ m) : getDot (leaveActive s m st result) j = getDot s j := by
  have hrel : getDot (departedReleased s m st result) j = getDot s j := by
    rw [(released_only s m st result).getDot, departed_dot, getDot_setDot_ne _ _ hj]
  rw [leaveActive_eq h]
  split
  · exact (getDot_setDot_ne _ _ hj).trans hrel
  · exact hrel

theorem leaveActive_cell (n : Nat) : getCell (leaveActive s m st result) n =
    if (getDot s m).cellEn = true ∧ n = (getDot s m).cell ∧ (getCell s n).kind ≠ 0 then (getCell s n).plus 1 else getCell s n :=
  (leaveActive_read h (f := fun u => getCell u n) fun _ _ => rfl).trans
    (((released_only s m st result).getCell n).trans (departed_cell s m st result n))

theorem leaveActive_codes (n : Nat) : (getReq (leaveActive s m st result) n).codes =
    if n = (getDot s m).rc ∧ (getDot s m).rcEn = true ∧ (st = .failed ∨ (st = .timedOut ∧ result ≠ 0)) then
      (getReq s n).codes ++ [result] else (getReq s n).codes :=
  (leaveActive_read h (f := fun u => (getReq u n).codes) fun _ _ => rfl).trans
    ((overCores_codes (fun u i => releaseNb_coreOnly u m i) _ n).trans (departed_codes s m st result n))

/-- A core in no WAIT is released from the entry, and is otherwise unchanged. -/
theorem leaveActive_core {k : Nat} (hw : (getCore s k).wait = .none)
    (hc : ∀ u, FaultOnly (departed s m st result) u →
      released u m (getCore s k) = released (departed s m st result) m (getCore s k)) :
    getCore (leaveActive s m st result) k = released (departed s m st result) m (getCore s k) := by
  refine (leaveActive_read h (f := fun u => getCore u k) fun _ _ => rfl).trans ?_
  have hcore := departed_core s m st result hw
  refine overCores_core (fun u i => releaseNb_coreOnly u m i) (fun hdef => ?_) (fun u hu hk => ?_) (fun u hu hk => ?_)
  · rw [← hcore, hdef]; rfl
  · rw [releaseNb_core, hk, hcore, hc u hu]
  · rw [releaseNb_core, hk, ← hc u hu, released_released]

theorem leaveActive_mem : (leaveActive s m st result).mem = s.mem :=
  (leaveActive_read h (f := State.mem) fun _ _ => rfl).trans
    ((released_only s m st result).mem.trans (departed_only s m st result).mem)

theorem leaveActive_tk : (leaveActive s m st result).tk = s.tk :=
  (leaveActive_read h (f := State.tk) fun _ _ => rfl).trans
    ((released_only s m st result).tk.trans (departed_only s m st result).tk)

end

/-! ## Cores by what their memory queues hold -/

theorem released_none {c : Core} (h : c.memHold = .none) (s : State) (m : Nat) : released s m c = c := by unfold released; rw [h]

theorem released_nbfnc {c : Core} {ops : List Nat} (h : c.memHold = .nbfnc ops) (s : State) (m : Nat) : released s m c =
    if m ∈ ops then { c with memHold := fenceWithout ops m } else c := by unfold released; rw [h]

theorem released_nbrd {c : Core} {x d n off : Nat} (h : c.memHold = .nbrd x d n off) (s : State) (m : Nat) : released s m c =
    if x = m then
      if (getDot s m).state = .done then
        writeS { c with scratch := writeBytes c.scratch off (pocRead s (getDot s m).dst (256 * n)), memHold := .none } (BitVec.ofNat 5 d) 0
      else writeS { c with memHold := .none } (BitVec.ofNat 5 d) (BitVec.ofNat 64 (getDot s m).result)
    else c := by unfold released; rw [h]

end Sys2Proof.Machine
end

section
/-! The statement about an entry that leaves ACTIVE. -/
open Sys2Proof Sys2Proof.Machine

/-- Settles O36: the signal, the noted end and the visit of the cores change what they name, one after another. -/
theorem entryLeavesActive : Obligations.EntryLeavesActive := by
  intro s m st result h _ e t
  have hdot : ∀ u, FaultOnly (departed s m st result) u → getDot u m = { e with state := st, result := result } := fun u hu => by
    rw [hu.getDot, departed_dot, getDot_setDot_same]
  refine ⟨leaveActive_self h, fun j hj => leaveActive_dot h hj, leaveActive_cell h, leaveActive_codes h, fun k hw => ?_,
    leaveActive_mem h, leaveActive_tk h⟩
  intro c
  refine ⟨fun hn => ?_, fun ops hn => ?_, fun x d n off hn hx => ?_, fun d n off hn hst => ?_, fun d n off hn hst ha hb => ?_⟩
  · rw [leaveActive_core h hw fun u _ => by rw [released_none hn, released_none hn], released_none hn]
  · rw [leaveActive_core h hw fun u _ => by rw [released_nbfnc hn, released_nbfnc hn], released_nbfnc hn,
      fenceWithout_eq]
  · rw [leaveActive_core h hw fun u _ => by rw [released_nbrd hn, released_nbrd hn, if_neg hx, if_neg hx], released_nbrd hn, if_neg hx]
  · have hrel : ∀ u, FaultOnly (departed s m st result) u → released u m c =
        writeS { c with memHold := .none } (BitVec.ofNat 5 d) (BitVec.ofNat 64 result) := fun u hu => by
      rw [released_nbrd hn, if_pos rfl, hdot u hu, if_neg hst]
    rw [leaveActive_core h hw fun u hu => (hrel u hu).trans (hrel _ (.refl _)).symm, hrel _ (.refl _)]
  · have hrel : ∀ u, FaultOnly (departed s m st result) u → released u m c =
        writeS { c with scratch := writeBytes c.scratch off (readBytes s.mem e.dst (256 * n)), memHold := .none } (BitVec.ofNat 5 d) 0 :=
      fun u hu => by
        have hsu : FaultOnly { ended s m st result with cells := (departed s m st result).cells } u := (departed_only s m st result).trans hu
        have hread : pocRead u e.dst (256 * n) = readBytes s.mem e.dst (256 * n) := (hsu.pocRead ha).trans (pocRead_good ha hb)
        rw [released_nbrd hn, if_pos rfl, hdot u hu, if_pos hst, hread]
    rw [leaveActive_core h hw fun u hu => (hrel u hu).trans (hrel _ (.refl _)).symm, hrel _ (.refl _)]
end

section
/-! What work on memory leaves unchanged: reads with their events, walks and claims, staging pools, caches, checks of guarded
blocks, zones and near-bank commands. -/
namespace Sys2Proof.Machine
variable {s t u v w : State}

/-! ## The frames -/

/-- `t` is `s` but for memory, cluster units, near-bank latches, registers and the log, requests, the step's marks, repairs with
the watchdog they hold, and the free values taken: cores, the tables of cells and operations and the tick counter stand. -/
def WorkOnly (s t : State) : Prop := ∃ m b w l c r a h hm ig ms rq sc rp t2 tl fr, t =
  { s with mem := m, badWords := b, softWords := w, nbLatches := l, clusters := c, regs := r, hwSetAt := a, hwSet := h,
           hostMem := hm, integ := ig, msix := ms, reqs := rq, sched := sc, repairs := rp, timer2 := t2, timer2Left := tl, free := fr }

namespace WorkOnly

theorem refl (s : State) : WorkOnly s s := ⟨_, _, _, _, _, _, _, _, _, _, _, _, _, _, _, _, _, rfl⟩

theorem trans (h : WorkOnly s t) (g : WorkOnly t u) : WorkOnly s u := by
  obtain ⟨m, b, w, l, c, r, a, n, hm, ig, ms, rq, sc, rp, t2, tl, fr, rfl⟩ := h
  obtain ⟨m', b', w', l', c', r', a', n', hm', ig', ms', rq', sc', rp', t2', tl', fr', rfl⟩ := g
  exact ⟨m', b', w', l', c', r', a', n', hm', ig', ms', rq', sc', rp', t2', tl', fr', rfl⟩

theorem cores (h : WorkOnly s t) : t.cores = s.cores := by obtain ⟨_, _, _, _, _, _, _, _, _, _, _, _, _, _, _, _, _, rfl⟩ := h; rfl
theorem dot (h : WorkOnly s t) : t.dot = s.dot := by obtain ⟨_, _, _, _, _, _, _, _, _, _, _, _, _, _, _, _, _, rfl⟩ := h; rfl
theorem cells (h : WorkOnly s t) : t.cells = s.cells := by obtain ⟨_, _, _, _, _, _, _, _, _, _, _, _, _, _, _, _, _, rfl⟩ := h; rfl
theorem tk (h : WorkOnly s t) : t.tk = s.tk := by obtain ⟨_, _, _, _, _, _, _, _, _, _, _, _, _, _, _, _, _, rfl⟩ := h; rfl
theorem images (h : WorkOnly s t) : t.images = s.images := by obtain ⟨_, _, _, _, _, _, _, _, _, _, _, _, _, _, _, _, _, rfl⟩ := h; rfl
theorem pending (h : WorkOnly s t) : t.pending = s.pending := by obtain ⟨_, _, _, _, _, _, _, _, _, _, _, _, _, _, _, _, _, rfl⟩ := h; rfl
theorem getCore (h : WorkOnly s t) (j : Nat) : getCore t j = getCore s j := congrArg (fun l => smGet coreDefault l j) h.cores
theorem getDot (h : WorkOnly s t) (j : Nat) : getDot t j = getDot s j := congrArg (fun l => smGet dotDefault l j) h.dot
theorem getCell (h : WorkOnly s t) (j : Nat) : getCell t j = getCell s j := congrArg (fun l => smGet cellDefault l j) h.cells

theorem foldl {α : Type} {f : State → α → State} (h : ∀ u x, WorkOnly u (f u x)) (l : List α) (s : State) :
    WorkOnly s (l.foldl f s) := foldl_rel refl trans h l s

theorem setCluster (s : State) (n : Nat) (c : Cluster) : WorkOnly s (setCluster s n c) :=
  ⟨_, _, _, _, _, _, _, _, _, _, _, _, _, _, _, _, _, rfl⟩

end WorkOnly

/-- Such work that leaves the cluster caches as they were. -/
structure WalkOnly (s t : State) : Prop where
  work   : WorkOnly s t
  caches : ∀ n, (getCluster t n).cache = (getCluster s n).cache

namespace WalkOnly

theorem refl (s : State) : WalkOnly s s := ⟨.refl s, fun _ => rfl⟩

theorem trans (h : WalkOnly s t) (g : WalkOnly t u) : WalkOnly s u := ⟨h.work.trans g.work, fun n => (g.caches n).trans (h.caches n)⟩

theorem foldl {α : Type} {f : State → α → State} (h : ∀ u x, WalkOnly u (f u x)) (l : List α) (s : State) :
    WalkOnly s (l.foldl f s) := foldl_rel refl trans h l s

theorem ite {p : Prop} [Decidable p] (ht : WalkOnly s t) (hu : WalkOnly s u) : WalkOnly s (if p then t else u) := by
  split <;> assumption

theorem ofMem (h : MemLogOnly s t) : WalkOnly s t := by
  obtain ⟨m, b, w, r, a, n, hm, ig, ms, rfl⟩ := h
  exact ⟨⟨_, _, _, _, _, _, _, _, _, _, _, _, _, _, _, _, _, rfl⟩, fun _ => rfl⟩

theorem ofLog (h : LogOnly s t) : WalkOnly s t := ofMem h.memLog
theorem ofRegs (h : RegsOnly s t) : WalkOnly s t := ofLog h.log

theorem ofRepair (h : RepairOnly s t) : WalkOnly s t := by
  obtain ⟨m, b, w, r, a, n, hm, ig, ms, rp, t2, tl, rfl⟩ := h
  exact ⟨⟨_, _, _, _, _, _, _, _, _, _, _, _, _, _, _, _, _, rfl⟩, fun _ => rfl⟩

theorem setReq (s : State) (n : Nat) (r : Req) : WalkOnly s (setReq s n r) :=
  ⟨⟨_, _, _, _, _, _, _, _, _, _, _, _, _, _, _, _, _, rfl⟩, fun _ => rfl⟩

theorem addCode (s : State) (rc code : Nat) : WalkOnly s (addCode s rc code) := setReq s rc _

theorem tookFree (s : State) : WalkOnly s (tookFree s) :=
  ⟨⟨_, _, _, _, _, _, _, _, _, _, _, _, _, _, _, _, _, rfl⟩, fun _ => rfl⟩

theorem latches (s : State) (l : List (Nat × NbLatch)) : WalkOnly s { s with nbLatches := l } :=
  ⟨⟨_, _, _, _, _, _, _, _, _, _, _, _, _, _, _, _, _, rfl⟩, fun _ => rfl⟩

theorem softWords (s : State) (l : List (Nat × Bool)) : WalkOnly s { s with softWords := l } :=
  ⟨⟨_, _, _, _, _, _, _, _, _, _, _, _, _, _, _, _, _, rfl⟩, fun _ => rfl⟩

theorem store (s : State) (a : Nat) (bs : List Byte) : WalkOnly s (store s a bs) := ofMem (.store s a bs)
theorem physWrite (s : State) (a : Nat) (bs : List Byte) : WalkOnly s (physWrite s a bs) := ofMem (.physWrite s a bs)
theorem physPut (s : State) (a n v : Nat) : WalkOnly s (physPut s a n v) := ofMem (.physPut s a n v)
theorem setFld (s : State) (f : Fld) (x : Nat) : WalkOnly s (setFld s f x) := ofRegs (.setFld s f x)
theorem countUp (s : State) (c o : Fld) (b n : Nat) : WalkOnly s (countUp s c o b n) := ofRegs (.countUp s c o b n)
theorem ueEvent (s : State) (a kind rc : Nat) : WalkOnly s (ueEvent s a kind rc) := ofLog (.ueEvent s a kind rc)

theorem physCopy (s : State) (src dst n : Nat) : WalkOnly s (physCopy s src dst n) := by
  unfold Machine.physCopy
  exact ite ⟨⟨_, _, _, _, _, _, _, _, _, _, _, _, _, _, _, _, _, rfl⟩, fun _ => rfl⟩
    ⟨⟨_, _, _, _, _, _, _, _, _, _, _, _, _, _, _, _, _, rfl⟩, fun _ => rfl⟩

theorem physClear (s : State) (a n : Nat) : WalkOnly s (physClear s a n) :=
  ⟨⟨_, _, _, _, _, _, _, _, _, _, _, _, _, _, _, _, _, rfl⟩, fun _ => rfl⟩

/-- A cluster's unit changes, its cache apart. -/
theorem setCluster {c : Cluster} {n : Nat} (hc : c.cache = (getCluster s n).cache) : WalkOnly s (setCluster s n c) := by
  refine ⟨.setCluster s n c, fun j => ?_⟩
  by_cases hj : j = n
  · rw [hj, getCluster_setCluster_same, hc]
  · rw [getCluster_setCluster_ne s c hj]

/-! ## Reads with their events -/

theorem readSoft (s : State) (a n : Nat) : WalkOnly s (readSoft s a n) := foldl (fun u _ => countUp u _ _ _ _) _ s

theorem pocReadEvents (s : State) (a n kind rc : Nat) : WalkOnly s (pocReadEvents s a n kind rc).1 :=
  (readSoft s a n).trans (foldl (fun u _ => ueEvent u _ _ _) _ _)

theorem tableRead (s : State) (a n kind rc : Nat) : WalkOnly s (tableRead s a n kind rc).1 := by
  unfold Machine.tableRead
  split
  · exact refl s
  · exact pocReadEvents s a n kind rc

theorem readSpans (s : State) (base kind rc : Nat) (sp : List (Nat × Nat)) : WalkOnly s (readSpans s base kind rc sp).1 := by
  unfold Machine.readSpans
  generalize true = b
  induction sp generalizing s b with
  | nil => exact refl s
  | cons q sp ih => exact (pocReadEvents s _ _ _ _).trans (ih _ _)

/-! ## Runs -/

theorem popRun {own : Bool} {p : Nat × State} (h : popRun s own = some p) : WalkOnly s p.2 := by
  unfold Machine.popRun at h
  dsimp only at h
  split at h
  · exact absurd h (by simp)
  · cases h
    exact ite ((setFld _ _ _).trans (setFld _ _ _)) (setFld _ _ _)

theorem allocRun {tenant : Nat} {table own : Bool} {p : Nat × State} (h : allocRun s tenant table own = some p) : WalkOnly s p.2 := by
  unfold Machine.allocRun at h
  obtain ⟨q, hq, rfl⟩ := Option.map_eq_some_iff.mp h
  exact (popRun hq).trans (physPut _ _ _ _)

theorem ftPut (s : State) (f : Nat) (e : Fte) : WalkOnly s (ftPut s f e) := physPut s _ _ _

theorem dropRef (s : State) (f : Nat) : WalkOnly s (dropRef s f) := by
  unfold Machine.dropRef
  refine ite (refl s) ?_
  dsimp only
  exact ite (ite (ftPut s _ _) ((physPut s _ _ _).trans ((physPut _ _ _ _).trans (setFld _ _ _)))) (ftPut s _ _)

theorem poisonRun (s : State) (f : Nat) : WalkOnly s (poisonRun s f) := by
  unfold Machine.poisonRun
  dsimp only
  exact ite (refl s) ((ftPut s _ _).trans (countUp _ _ _ _ _))

/-! ## Translation buffers and walks -/

theorem dropTb (s : State) (p : TbEntry → Bool) : WalkOnly s (dropTb s p) := by
  refine foldl (fun u n => ?_) _ s
  dsimp only
  exact ite (setCluster rfl) (refl u)

theorem putPte (s : State) (rc layer hg page addr : Nat) (p : Pte) : WalkOnly s (putPte s rc layer hg page addr p) :=
  (dropTb s _).trans (physPut _ _ _ _)

theorem frameReads (s : State) (rc : Nat) (es : List TbEntry) : WalkOnly s (frameReads s rc es) :=
  foldl (fun u _ => ite (refl u) (pocReadEvents u _ _ _ _)) _ s

theorem tbInstall (s : State) (n : Nat) (es : List TbEntry) (first : TbEntry → Bool) : WalkOnly s (tbInstall s n es first) :=
  setCluster rfl

theorem walkMiss (s : State) (n rc layer hg page : Nat) : WalkOnly s (walkMiss s n rc layer hg page).1 := by
  unfold Machine.walkMiss
  dsimp only
  have hroot := (countUp s Reg.kvCountTbMiss Reg.kvCountOvf 0 1).trans
    (tableRead _ (rootAddr s rc layer hg (16 * page)) 8 4 rc)
  split
  · exact hroot
  · split
    · exact hroot
    · have hleaf := fun a => hroot.trans (tableRead _ a 256 4 rc)
      split
      · exact (hleaf _).trans (ite (poisonRun _ _) (refl _))
      · split <;> exact (hleaf _).trans ((frameReads _ _ _).trans (tbInstall _ _ _ _))

theorem translate (s : State) (n rc layer hg page : Nat) : WalkOnly s (translate s n rc layer hg page).1 := by
  unfold Machine.translate
  split
  · exact refl s
  · split
    · exact tbInstall s n _ _
    · exact walkMiss s n rc layer hg page

theorem translatePages (n rc layer hg k : Nat) : ∀ (s : State) (p : Nat), WalkOnly s (translatePages s n rc layer hg k p).1 := by
  induction k with
  | zero => exact fun s _ => refl s
  | succ k ih =>
    intro s p
    unfold Machine.translatePages
    dsimp only
    split
    · exact translate s n rc layer hg p
    · split <;> exact (translate s n rc layer hg p).trans (ih _ _)

/-! ## Writes to runs -/

/-- The state of a claim that leads to one. -/
theorem claim (s : State) (rc layer hg page addr : Nat) (p : Pte) : match claim s rc layer hg page addr p with
    | .run t _ => WalkOnly s t
    | .bad t => WalkOnly s t
    | .full => True := by
  unfold Machine.claim
  dsimp only
  split
  · next h =>
    split at h
    · cases h; exact ite (putPte _ _ _ _ _ _ _) (refl s)
    · split at h
      · cases h
      · split at h
        · cases h
        · next ha =>
          cases h
          exact ((pocReadEvents s _ _ _ _).trans ((allocRun ha).trans ((dropRef _ _).trans (putPte _ _ _ _ _ _ _)))).trans
            ((physCopy _ _ _ _).trans (countUp _ _ _ _ _))
  · next h =>
    split at h
    · cases h
    · split at h
      · cases h
        exact (pocReadEvents s _ _ _ _).trans ((poisonRun _ _).trans (addCode _ _ _))
      · split at h <;> cases h
  · trivial

theorem scatter (base : Nat) (os : List Nat) : ∀ (s : State) (bs : List Byte), WalkOnly s (scatter s base os bs) := by
  induction os with
  | nil => exact fun s _ => refl s
  | cons o os ih =>
    intro s bs
    cases bs with
    | nil => exact refl s
    | cons b bs => exact (store s _ _).trans (ih _ bs)

theorem mendSpans (s : State) (base : Nat) (sp : List (Nat × Nat)) : WalkOnly s (mendSpans s base sp) :=
  foldl (fun u _ => softWords u _) _ s

theorem writeHalves (s : State) (rc layer hg pos : Nat) (key val : Option (List Byte)) :
    WalkOnly s (writeHalves s rc layer hg pos key val) := by
  unfold Machine.writeHalves
  split
  · exact refl s
  · next addr p _ =>
    have hclaim := claim s rc layer hg (pos / 16) addr p
    split
    · exact refl s
    · next t ht => rw [ht] at hclaim; exact hclaim
    · next t f ht =>
      rw [ht] at hclaim
      refine WalkOnly.trans hclaim ?_
      generalize 4096 * f = base
      have hspans := readSpans t base 5 rc (halfSpans s (pos % 16) key.isSome val.isSome)
      dsimp only
      split
      · have hmend := hspans.trans (mendSpans _ base (halfSpans s (pos % 16) key.isSome val.isSome))
        cases key with
        | none =>
          cases val with
          | none => exact hmend
          | some y => exact hmend.trans (scatter base _ _ y)
        | some x =>
          cases val with
          | none => exact hmend.trans (scatter base _ _ x)
          | some y => exact (hmend.trans (scatter base _ _ x)).trans (scatter base _ _ y)
      · have hpoison := hspans.trans (poisonRun _ f)
        exact hpoison.trans (addCode _ rc 0x12)

theorem modStg (s : State) (n : Nat) (f : List StgEntry → List StgEntry) : WalkOnly s (modStg s n f) := by
  have hput : WalkOnly s (Machine.setCluster s n { getCluster s n with stg := f (getCluster s n).stg }) := setCluster rfl
  exact hput.trans (setFld _ (Reg.kvStgUsed n) _)

theorem flushStg (s : State) (n : Nat) (p : StgEntry → Bool) : WalkOnly s (flushStg s n p) := by
  unfold Machine.flushStg
  dsimp only
  have hall := foldl (fun u (e : StgEntry) => writeHalves u e.rc e.layer e.hg e.pos e.key e.val)
    ((getCluster s n).stg.filter fun e => p e && !e.spec && !e.written) s
  split
  · exact hall
  · exact hall.trans (modStg _ _ _)

/-! ## Checks of guarded blocks -/

theorem countSoft (s : State) (a n : Nat) : WalkOnly s (countSoft s a n) := ofMem (.countSoft s a n)

theorem beginRepair (s : State) (i b : Nat) : WalkOnly s (beginRepair s i b) := by
  have hput : ∀ l, RepairOnly s { s with repairs := l } := fun l => ⟨_, _, _, _, _, _, _, _, _, _, _, _, rfl⟩
  unfold Machine.beginRepair
  exact ite (refl s) (ofRepair ((hput _).trans (startRepairs_only _).1))

theorem checkBlock (s : State) (p : Nat × Nat) : WalkOnly s (checkBlock s p).1 := by
  have hsoft : WalkOnly s (blockSoft s p) := (countSoft s _ _).trans (countSoft _ _ _)
  unfold Machine.checkBlock
  split
  · exact refl s
  · split
    · exact hsoft.trans (beginRepair _ _ _)
    · exact hsoft

theorem checkBlocks (ps : List (Nat × Nat)) : ∀ s, WalkOnly s (checkBlocks s ps).1 := by
  induction ps with
  | nil => exact refl
  | cons p ps ih => exact fun s => (checkBlock s p).trans (ih _)

theorem readReady (s : State) (a n : Nat) : WalkOnly s (readReady s a n).1 := checkBlocks _ s

/-! ## Zones -/

theorem markSectors (s : State) (z first n : Nat) (used : Bool) : WalkOnly s (markSectors s z first n used) :=
  foldl (fun u _ => physPut u _ _ _) _ s

theorem zoneWrite (s : State) (z j : Nat) (block : List Byte) : WalkOnly s (zoneWrite s z j block).1 := by
  have hfinish : ∀ (st : State) (k a b n : Nat) (x y : List Byte) (f : Fld), WalkOnly st
      (Machine.setFld (Machine.physWrite (if k = 0 then st else Machine.physWrite st a x) b y) f n) := fun st k a b n x y f =>
    (ite (refl st) (physWrite st a x)).trans ((physWrite _ b y).trans (setFld _ f n))
  unfold Machine.zoneWrite
  dsimp only
  split
  · dsimp only
    exact hfinish s _ _ _ _ _ _ _
  · split <;> dsimp only
    · exact ((markSectors s _ _ _ _).trans (markSectors _ _ _ _ _)).trans (hfinish _ _ _ _ _ _ _ _)
    · exact setFld s _ _

theorem tookBlock (s : State) (z : Nat) : WalkOnly s (tookBlock s z) := ite (tookFree s) (refl s)

theorem pieceRead (s : State) (e : DotEntry) (off n : Nat) : WalkOnly s (pieceRead s e off n) := by
  unfold Machine.pieceRead
  dsimp only
  refine ite (refl s) ?_
  split
  · split
    · exact ite (tookBlock s _) (refl s)
    · exact refl s
  · exact ite (readSoft s _ _) (refl s)

/-! ## Near-bank commands -/

theorem nbCountWords (s : State) (ce ue : Nat) : WalkOnly s (nbCountWords s ce ue) := (countUp s _ _ _ _).trans (countUp _ _ _ _ _)

theorem nbBlocks (s : State) (f : NbFields) (all bs : List (Nat × Nat)) : WalkOnly s (nbBlocks s f all bs).1 :=
  ((checkBlocks all s).trans ((countUp _ _ _ _ _).trans (nbCountWords _ _ _))).trans (foldl (fun u _ => ueEvent u _ _ _) _ _)

theorem stepUe (s : State) (a : Nat) : WalkOnly s (stepUe s a) :=
  ⟨⟨_, _, _, _, _, _, _, _, _, _, _, _, _, _, _, _, _, rfl⟩, fun _ => rfl⟩

theorem nbBadWord (s : State) (f : NbFields) (w : Nat) : WalkOnly s (nbBadWord s f w) := by
  unfold Machine.nbBadWord
  split
  · exact poisonRun s _
  · exact ite (stepUe s _) (refl s)

end WalkOnly

/-- The state a near-bank command leads to. -/
def NbOut.state : NbOut → State
  | .done s _ _ => s
  | .wait s => s

namespace WalkOnly

theorem nbUe (s : State) (f : NbFields) (es : List Pte) (ws : List Nat) : WalkOnly s (nbUe s f es ws).state :=
  (foldl (fun u w => nbBadWord u f w) ws s).trans (tookFree _)

theorem nbCompute (s : State) (f : NbFields) (es : List Pte) : WalkOnly s (nbCompute s f es).state := by
  unfold Machine.nbCompute
  dsimp only
  have hblocks := nbBlocks s f ((nbUnitRanges f es ++ nbDelivered f).flatMap fun r => guardBlocks s r.1 r.2).eraseDups
    ((nbUnitRanges f es).flatMap fun r => guardBlocks s r.1 r.2).eraseDups
  split
  · exact hblocks
  · have hreads : ∀ n m : Nat, WalkOnly s ((nbUnitRanges f es ++ nbDelivered f).foldl
        (fun st r => (Machine.pocReadEvents st r.1 r.2 6 (if f.rcEn then f.rc else 0xFFFF)).1) (Machine.nbCountWords _ n m)) :=
      fun n m => hblocks.trans ((nbCountWords _ n m).trans (foldl (fun u _ => pocReadEvents u _ _ _ _) _ _))
    split
    · exact (hreads _ _).trans ((physWrite _ _ _).trans (latches _ _))
    · exact (hreads _ _).trans (nbUe _ _ _ _)

theorem nbRun (s : State) (n : Nat) (f : NbFields) : WalkOnly s (nbRun s n f).state := by
  unfold Machine.nbRun
  split
  · exact refl s
  · split
    · exact refl s
    · split
      · exact refl s
      · split
        · exact refl s
        · split
          · exact refl s
          · split
            · exact nbCompute s f []
            · have hpages := translatePages n f.rc f.layer f.hg ((f.rows + 15) / 16) s (f.first / 16)
              dsimp only
              split
              · exact hpages
              · split
                · exact hpages.trans (nbCompute _ _ _)
                · exact hpages

end WalkOnly

/-! ## Caches -/

namespace WorkOnly

theorem writeBack (s : State) (n g : Nat) : WorkOnly s (writeBack s n g) := by
  unfold Machine.writeBack
  split
  · split
    · exact (WalkOnly.ite (.refl s) (.physWrite s _ _)).work.trans (setCluster _ n _)
    · exact refl s
  · exact refl s

theorem actLines (s : State) (n : Nat) (drop : Bool) (ls : List Nat) : WorkOnly s (actLines s n drop ls) := by
  refine foldl (fun u g => ?_) ls s
  split
  · exact setCluster u n _
  · exact writeBack u n g

end WorkOnly

end Sys2Proof.Machine
end

section
/-! Operations that stop short (R84, R85), and the tier wait limit (R173). -/
namespace Sys2Proof.Machine
variable {s t u v w : State} {m k : Nat}

/-! ## What a stop leaves of the cores and the table -/

theorem WorkOnly.withCores {x y : List (Nat × Core)} (h : WorkOnly { s with cores := x } t) (ht : t.cores = y) :
    WorkOnly { s with cores := y } t := by
  obtain ⟨m, b, w, l, c, r, a, n, hm, ig, ms, rq, sc, rp, t2, tl, fr, rfl⟩ := h
  exact ht ▸ ⟨m, b, w, l, c, r, a, n, hm, ig, ms, rq, sc, rp, t2, tl, fr, rfl⟩

/-- `t` follows `s` by such work that cores' scratchpads may take bytes of: no core changes otherwise. -/
structure MoveOnly (s t : State) : Prop where
  work  : WorkOnly { s with cores := t.cores } t
  cores : ∀ j, ∃ sp, getCore t j = { getCore s j with scratch := sp }

namespace MoveOnly

theorem ofWork (h : WorkOnly s t) : MoveOnly s t :=
  ⟨WorkOnly.withCores (x := s.cores) h rfl, fun j => ⟨_, h.getCore j⟩⟩

theorem refl (s : State) : MoveOnly s s := ofWork (.refl s)

theorem trans (h : MoveOnly s t) (g : MoveOnly t u) : MoveOnly s u := by
  refine ⟨?_, fun j => ?_⟩
  · obtain ⟨m, b, w, l, c, r, a, n, hm, ig, ms, rq, sc, rp, t2, tl, fr, ht⟩ := h.work
    obtain ⟨m', b', w', l', c', r', a', n', hm', ig', ms', rq', sc', rp', t2', tl', fr', hu⟩ := g.work
    rw [ht] at hu
    exact ⟨m', b', w', l', c', r', a', n', hm', ig', ms', rq', sc', rp', t2', tl', fr', hu⟩
  · obtain ⟨x, hx⟩ := h.cores j
    obtain ⟨y, hy⟩ := g.cores j
    exact ⟨y, by rw [hy, hx]⟩

theorem dot (h : MoveOnly s t) : t.dot = s.dot := h.work.dot
theorem tk (h : MoveOnly s t) : t.tk = s.tk := h.work.tk
theorem images (h : MoveOnly s t) : t.images = s.images := h.work.images
theorem pending (h : MoveOnly s t) : t.pending = s.pending := h.work.pending
theorem getDot (h : MoveOnly s t) (j : Nat) : getDot t j = getDot s j := h.work.getDot j

theorem scratch (s : State) (k : Nat) (f : Core → List Host.Cell) : MoveOnly s (modCore s k fun c => { c with scratch := f c }) := by
  refine ⟨⟨_, _, _, _, _, _, _, _, _, _, _, _, _, _, _, _, _, rfl⟩, fun j => ?_⟩
  by_cases hj : j = k
  · exact ⟨_, by rw [hj, getCore_modCore_same]⟩
  · exact ⟨_, getCore_modCore_ne s _ hj⟩

theorem dstPiece (s : State) (e : DotEntry) (off : Nat) (bs : List Byte) : MoveOnly s (dstPiece s e off bs).1 := by
  unfold Machine.dstPiece
  dsimp only
  split
  · exact scratch s e.core fun c => writeBytes c.scratch (e.dst + off) bs
  · split
    · split
      · exact ofWork (WalkOnly.zoneWrite s _ _ _).work
      · exact refl s
    · split
      · split
        · exact refl s
        · exact ofWork (WalkOnly.physWrite s _ _).work
      · exact ofWork (WalkOnly.physWrite s _ _).work
      · exact ofWork (WalkOnly.physWrite s _ _).work
      · exact refl s
      · exact refl s

theorem moveUnits (e : DotEntry) (pick : Nat → Bool) (n : Nat) : ∀ (off : Nat) (s : State), MoveOnly s (moveUnits e pick n off s).1 := by
  induction n with
  | zero => exact fun _ s => refl s
  | succ n ih =>
    intro off s
    unfold Machine.moveUnits
    split
    · split
      · exact refl s
      · next bs _ =>
        have hunit := (ofWork (WalkOnly.pieceRead s e off (moveUnit e)).work).trans (dstPiece _ e off bs)
        dsimp only
        split
        · exact hunit
        · exact hunit.trans (ih _ _)
    · exact ih _ s

end MoveOnly

/-- What stopping entry `m` short changes: bytes moved, and the entry's note of them. -/
structure StopOnly (m : Nat) (s t : State) : Prop where
  tk      : t.tk = s.tk
  images  : t.images = s.images
  pending : t.pending = s.pending
  cores   : ∀ j, ∃ sp, getCore t j = { getCore s j with scratch := sp }
  others  : ∀ j, j ≠ m → getDot t j = getDot s j
  entry   : ∃ n g, getDot t m = { getDot s m with bytesDone := n, readGot := g }

namespace StopOnly

theorem ofMove (h : MoveOnly s t) : StopOnly m s t :=
  ⟨h.tk, h.images, h.pending, h.cores, fun j _ => h.getDot j, _, _, h.getDot m⟩

theorem refl (m : Nat) (s : State) : StopOnly m s s := ofMove (.refl s)

theorem stopTransfer (s : State) (m : Nat) : StopOnly m s (stopTransfer s m) := by
  unfold Machine.stopTransfer
  dsimp only
  split
  · exact refl m s
  · have hmove := fun pick => (MoveOnly.ofWork ((WalkOnly.tookFree s).trans (WalkOnly.tookFree _)).work).trans
      (MoveOnly.moveUnits (getDot s m) pick ((getDot s m).len / moveUnit (getDot s m)) 0 _)
    refine ⟨(hmove _).tk, (hmove _).images, (hmove _).pending, (hmove _).cores, fun j hj => ?_, ?_⟩
    · rw [getDot_setDot_ne _ _ hj, (hmove _).getDot]
    · rw [getDot_setDot_same, (hmove _).getDot]
      exact ⟨_, _, rfl⟩

theorem stopNear (s : State) (m : Nat) : StopOnly m s (stopNear s m) := by
  have hcmd : ∀ (st : State) (c : NbCmd), WalkOnly st (match nbRun st (clusterOf (getDot s m).core) (nbFields c.bytes) with
      | .done s1 0 _ =>
        (List.range (nbResultBytes (nbFields c.bytes) / 256)).foldl (fun st2 i =>
          if stopBit st.free i then physWrite st2 ((nbFields c.bytes).result + 256 * i)
            (physRead s1 ((nbFields c.bytes).result + 256 * i) 256) else st2) (tookFree st)
      | _ => st) := fun st c => by
    split
    · exact (WalkOnly.tookFree st).trans (.foldl (fun u _ => WalkOnly.ite (.physWrite u _ _) (.refl u)) _ _)
    · exact .refl st
  exact ofMove (.ofWork ((WalkOnly.latches s []).trans (.foldl hcmd _ _)).work)

theorem stopRange (s : State) (m : Nat) : StopOnly m s (stopRange s m) :=
  ofMove (.ofWork ((WalkOnly.tookFree s).work.trans (WorkOnly.actLines _ _ _ _)))

theorem stopEffect (s : State) (m : Nat) : StopOnly m s (stopEffect s m) := by
  unfold Machine.stopEffect
  dsimp only
  split
  · exact stopTransfer s m
  · split
    · exact stopNear s m
    · split
      · exact stopRange s m
      · exact refl m s

end StopOnly

/-! ## An entry stopped -/

theorem FaultOnly.pending (h : FaultOnly s t) : t.pending = s.pending := by obtain ⟨_, _, _, _, _, _, _, _, _, rfl⟩ := h; rfl

section
variable {st : DotState} {result : Nat} (h : (getDot s m).state = .active)
include h

theorem leaveActive_images : (leaveActive s m st result).images = s.images :=
  (leaveActive_read h (f := State.images) fun _ _ => rfl).trans
    ((released_only s m st result).images.trans (departed_only s m st result).images)

theorem leaveActive_pending : (leaveActive s m st result).pending = s.pending :=
  (leaveActive_read h (f := State.pending) fun _ _ => rfl).trans
    ((released_only s m st result).pending.trans (departed_only s m st result).pending)

/-- A core in no WAIT with nothing at the head of its memory queue does not see an entry leave ACTIVE. -/
theorem leaveActive_idle (hw : (getCore s k).wait = .none) (hm : (getCore s k).memHold = .none) :
    getCore (leaveActive s m st result) k = getCore s k := by
  rw [leaveActive_core h hw fun u _ => by rw [released_none hm, released_none hm], released_none hm]

end

/-- `t` is `s` with entry `m`, ACTIVE before, in a final state other than DONE. -/
structure Stopped (m : Nat) (st : DotState) (result : Nat) (s t : State) : Prop where
  tk      : t.tk = s.tk
  images  : t.images = s.images
  pending : t.pending = s.pending
  others  : ∀ j, j ≠ m → getDot t j = getDot s j
  state   : (getDot t m).state = st
  result  : (getDot t m).result = result
  idle    : ∀ k, (getCore s k).wait = .none → (getCore s k).memHold = .none → ∃ sp, getCore t k = { getCore s k with scratch := sp }

/-- The departure of an entry once what it has done is settled. -/
theorem StopOnly.leaveActive {st : DotState} {result : Nat} (h : StopOnly m s u) (ha : (getDot s m).state = .active) (hst : st ≠ .done) :
    Stopped m st result s (leaveActive u m st result) := by
  obtain ⟨n, g, he⟩ := h.entry
  have hu : (getDot u m).state = .active := by rw [he]; exact ha
  have hself := leaveActive_self (st := st) (result := result) hu
  rw [if_neg (fun hd => hst hd.1)] at hself
  refine ⟨(leaveActive_tk hu).trans h.tk, (leaveActive_images hu).trans h.images, (leaveActive_pending hu).trans h.pending,
    fun j hj => (leaveActive_dot hu hj).trans (h.others j hj), by rw [hself], by rw [hself], fun k hw hm => ?_⟩
  obtain ⟨sp, hc⟩ := h.cores k
  exact ⟨sp, (leaveActive_idle hu (by rw [hc]; exact hw) (by rw [hc]; exact hm)).trans hc⟩

theorem stopOp_stopped {st : DotState} {result : Nat} (ha : (getDot s m).state = .active) (hst : st ≠ .done) :
    Stopped m st result s (stopOp s m st result) := by
  have h := (StopOnly.stopEffect s m).leaveActive (result := result) ha hst
  unfold stopOp
  rw [if_pos ha]
  exact ⟨h.tk, h.images, h.pending, h.others, h.state, h.result, h.idle⟩

/-! ## The tier wait limit -/

theorem stops_dot (st : DotState) (result : Nat) (hst : st ≠ .done) (l : List Nat) (hl : l.Nodup) : ∀ {s : State},
    (∀ m ∈ l, (getDot s m).state = .active) → ∀ m,
      let t := l.foldl (fun u m => stopOp u m st result) s
      (m ∈ l → (getDot t m).state = st ∧ (getDot t m).result = result) ∧ (m ∉ l → getDot t m = getDot s m) := by
  induction l with
  | nil => exact fun _ _ => ⟨fun h => absurd h List.not_mem_nil, fun _ => rfl⟩
  | cons a l ih =>
    intro s hact m
    obtain ⟨hnot, hnd⟩ := List.nodup_cons.mp hl
    have hstop := stopOp_stopped (result := result) (hact a List.mem_cons_self) hst
    have hact' : ∀ n ∈ l, (getDot (stopOp s a st result) n).state = .active := fun n hn => by
      rw [hstop.others n fun e => hnot (e ▸ hn)]
      exact hact n (List.mem_cons_of_mem _ hn)
    obtain ⟨hin, hout⟩ := ih hnd hact' m
    dsimp only at hin hout ⊢
    rw [List.foldl_cons]
    refine ⟨fun hm => ?_, fun hm => ?_⟩
    · by_cases hml : m ∈ l
      · exact hin hml
      · obtain rfl : m = a := (List.mem_cons.mp hm).resolve_right hml
        rw [hout hml]
        exact ⟨hstop.state, hstop.result⟩
    · rw [List.mem_cons, not_or] at hm
      rw [hout hm.2, hstop.others m hm.1]

/-- The indices of a table in canonical form. -/
theorem smWfFrom_keys {α : Type} [DecidableEq α] (d : Nat → α) {l : List (Nat × α)} : ∀ {lo : Nat}, smWfFrom d lo l = true →
    (∀ e ∈ l, lo ≤ e.1) ∧ (l.map (·.1)).Nodup ∧ ∀ e ∈ l, smGet d l e.1 = e.2 := by
  induction l with
  | nil => exact fun _ => ⟨fun _ h => absurd h List.not_mem_nil, List.nodup_nil, fun _ h => absurd h List.not_mem_nil⟩
  | cons x l ih =>
    intro lo h
    obtain ⟨j, y⟩ := x
    simp only [smWfFrom, Bool.and_eq_true, decide_eq_true_eq] at h
    obtain ⟨⟨hlo, -⟩, hrest⟩ := h
    obtain ⟨hge, hnd, hget⟩ := ih hrest
    refine ⟨fun e he => ?_, ?_, fun e he => ?_⟩
    · rcases List.mem_cons.mp he with rfl | he
      · exact hlo
      · have := hge e he; omega
    · rw [List.map_cons, List.nodup_cons]
      refine ⟨fun hm => ?_, hnd⟩
      obtain ⟨e, he, hej⟩ := List.mem_map.mp hm
      have := hge e he
      dsimp only at hej
      omega
    · rcases List.mem_cons.mp he with rfl | he
      · exact if_pos rfl
      · have hne : j ≠ e.1 := by have := hge e he; omega
        rw [smGet, if_neg hne, hget e he]

/-- The tier operations whose limit has passed (R173), but for those whose end was sampled in this tick (R53). -/
def tierDue (s : State) : List Nat := s.dot.filterMap fun p =>
  if p.2.state = .active ∧ p.2.limit ≠ 0 ∧ p.2.limit ≤ s.tk ∧ !endsNow s p.1 then some p.1 else none

theorem mem_tierDue (h : smWf dotDefault s.dot = true) (m : Nat) : m ∈ tierDue s ↔
    (getDot s m).state = .active ∧ (getDot s m).limit ≠ 0 ∧ (getDot s m).limit ≤ s.tk ∧ endsNow s m = false := by
  obtain ⟨-, -, hget⟩ := smWfFrom_keys dotDefault h
  rw [tierDue, List.mem_filterMap]
  constructor
  · rintro ⟨p, hp, hm⟩
    split at hm
    · next hc =>
      cases hm
      have hentry : getDot s p.1 = p.2 := hget p hp
      rw [hentry]
      exact ⟨hc.1, hc.2.1, hc.2.2.1, by simpa using hc.2.2.2⟩
    · exact absurd hm (by simp)
  · rintro ⟨ha, hl, hle, he⟩
    have hmem : ∃ p ∈ s.dot, p.1 = m := by
      by_contra hno
      have hdef : getDot s m = dotDefault m := smGet_unlisted dotDefault fun p hp hpm => hno ⟨p, hp, hpm⟩
      rw [hdef] at ha
      exact absurd ha (by simp [dotDefault])
    obtain ⟨p, hp, rfl⟩ := hmem
    have hentry : getDot s p.1 = p.2 := hget p hp
    rw [hentry] at ha hl hle
    exact ⟨p, hp, if_pos ⟨ha, hl, hle, by simp [he]⟩⟩

theorem tierDue_nodup (h : smWf dotDefault s.dot = true) : (tierDue s).Nodup := by
  obtain ⟨-, hnd, -⟩ := smWfFrom_keys dotDefault h
  refine List.Nodup.sublist ?_ hnd
  rw [tierDue, ← List.filterMap_eq_map]
  generalize s.dot = l
  induction l with
  | nil => exact .slnil
  | cons p l ih =>
    rw [List.filterMap_cons, List.filterMap_cons]
    by_cases hc : p.2.state = .active ∧ p.2.limit ≠ 0 ∧ p.2.limit ≤ s.tk ∧ (!endsNow s p.1) = true
    · rw [if_pos hc]
      exact ih.cons_cons _
    · rw [if_neg hc]
      exact ih.cons _

/-- Requests whose limit has passed end; no entry of the table changes. -/
theorem lateReqs_work (s : State) : WorkOnly s (lateReqs s) := by
  refine WorkOnly.foldl (fun u n => ?_) _ s
  dsimp only
  split
  · exact ((WalkOnly.setReq u n _).trans (.addCode _ _ _)).work
  · exact .refl u

theorem tierLate_dot (s : State) (m : Nat) :
    getDot (tierLate s) m = getDot ((tierDue s).foldl (fun st m => stopOp st m .timedOut 0x10) s) m :=
  (lateReqs_work _).getDot m

/-! ## The end of a part, and the step watchdog -/

theorem partEnd_idle (h : (getCore s k).phase ≠ .yielded ∨ (getCore s k).memHold ≠ .none) : partEnd s k = s :=
  if_neg fun ⟨h1, h2⟩ => h.elim (fun n => n h1) (fun n => n h2)

theorem partEnd_ends (h1 : (getCore s k).phase = .yielded) (h2 : (getCore s k).memHold = .none) :
    partEnd s k = modCore (flushStg s (clusterOf k) fun _ => true) k fun c => { c with phase := .ended } := if_pos ⟨h1, h2⟩

/-- The visit that the watchdog makes of a core. -/
def timesOut (st : State) (k : Nat) : State :=
  if partOpen (getCore st k) then operatorFault st k fStepTimeout (getCore st k).pc else st

theorem timesOut_coreOnly (st : State) (k : Nat) : CoreOnly k st (timesOut st k) := by
  unfold timesOut
  split
  · exact .operatorFault st k _ _
  · exact .refl k st

theorem timesOut_core (st : State) (k : Nat) : getCore (timesOut st k) k =
    if partOpen (getCore st k) then partFaulted (getCore st k) else getCore st k := by
  unfold timesOut
  split
  · exact getCore_operatorFault st k _ _
  · rfl

theorem partOpen_partFaulted (c : Core) : partOpen (partFaulted c) = false := rfl

theorem watchdog_eq (s : State) : watchdog s = overCores { s with timer2 := 0 } timesOut := rfl

theorem watchdog_core (s : State) (k : Nat) : getCore (watchdog s) k =
    if partOpen (getCore s k) then partFaulted (getCore s k) else getCore s k := by
  refine overCores_core (s := { s with timer2 := 0 }) timesOut_coreOnly (fun hd => ?_) (fun st _ hc => ?_) (fun st _ hc => ?_)
  · have hd' : getCore s k = coreDefault k := hd
    rw [hd']
    exact if_neg (by simp [partOpen, coreDefault])
  · rw [timesOut_core, hc]
    rfl
  · rw [timesOut_core, hc]
    by_cases ho : partOpen (getCore s k) = true
    · rw [if_pos ho, if_neg (by rw [partOpen_partFaulted]; exact Bool.false_ne_true)]
    · rw [if_neg ho, if_neg ho]

theorem FaultOnly.timer2 (h : FaultOnly s t) : t.timer2 = s.timer2 := by obtain ⟨_, _, _, _, _, _, _, _, _, rfl⟩ := h; rfl

theorem watchdog_timer2 (s : State) : (watchdog s).timer2 = 0 := (overCores_fault timesOut_coreOnly { s with timer2 := 0 }).timer2

/-! ## The watchdog's record -/

/-- With one core whose part has not ended, its visit is the only one that acts. -/
theorem foldl_timesOut {j : Nat} (l : List Nat) : ∀ {st : State}, (∀ i, i ≠ j → partOpen (getCore st i) = false) →
    l.foldl timesOut st = if j ∈ l then timesOut st j else st := by
  induction l with
  | nil => exact fun _ => rfl
  | cons i l ih =>
    intro st h
    rw [List.foldl_cons]
    by_cases hij : i = j
    · subst hij
      have hnone : ∀ n, partOpen (getCore (timesOut st i) n) = false := fun n => by
        by_cases hn : n = i
        · rw [hn, timesOut_core]
          split
          · rfl
          · next hc => exact Bool.eq_false_iff.mpr hc
        · rw [(timesOut_coreOnly st i).others n hn]
          exact h n hn
      have hsame : timesOut (timesOut st i) i = timesOut st i := if_neg (by rw [hnone i]; exact Bool.false_ne_true)
      rw [ih fun n _ => hnone n, hsame, if_pos List.mem_cons_self, ite_self]
    · have hskip : timesOut st i = st := if_neg (by rw [h i hij]; exact Bool.false_ne_true)
      rw [hskip, ih h]
      simp [Ne.symm hij]

theorem watchdog_one (hopen : partOpen (getCore s k) = true) (h : ∀ i, i ≠ k → partOpen (getCore s i) = false) :
    watchdog s = operatorFault { s with timer2 := 0 } k fStepTimeout (getCore s k).pc := by
  have hlisted : k ∈ s.cores.map (·.1) := by
    by_contra hno
    have hdef : getCore s k = coreDefault k := smGet_unlisted coreDefault fun e he hj => hno (List.mem_map.mpr ⟨e, he, hj⟩)
    rw [hdef] at hopen
    exact absurd hopen (by simp [partOpen, coreDefault])
  refine (foldl_timesOut (st := { s with timer2 := 0 }) (j := k) _ h).trans ((if_pos hlisted).trans (if_pos hopen))

theorem getCluster_modCore (s : State) (k : Nat) (f : Core → Core) (n : Nat) : getCluster (modCore s k f) n = getCluster s n := rfl

theorem partOpen_iff (c : Core) : partOpen c = true ↔ c.phase = .issuing ∨ c.phase = .yielded := decide_eq_true_iff

end Sys2Proof.Machine
end

section
/-! The statement about the ends of parts and the device's timers. -/
open Sys2Proof Sys2Proof.Machine

/-- Settles O39: each event, due, acts on the cores, the table or the cell it names, and is the tick alone before that. -/
theorem partEndsAndDeviceTimers : Obligations.PartEndsAndDeviceTimers := by
  intro s t ha u
  refine ⟨fun k hk => ?_, fun hno => ?_, fun h0 hle => ?_, fun hno => ?_, fun h0 hle hwf => ?_, fun n hn => ?_⟩
  · intro c
    have hx : exec (.corePartEnd t k) s = .next (partEnd u k) := presentUnit_alive ha hk
    refine ⟨fun hno => hx.trans (congrArg _ (partEnd_idle (s := u) hno)), fun hp hm => ⟨_, hx, ?_⟩⟩
    have hflush := WalkOnly.flushStg u (clusterOf k) fun _ => true
    rw [partEnd_ends (s := u) hp hm]
    refine ⟨?_, fun j hj => ?_, hflush.work.tk, hflush.work.dot, fun g => ?_⟩
    · rw [getCore_modCore_same, hflush.work.getCore]; rfl
    · rw [getCore_modCore_ne _ _ hj, hflush.work.getCore]; rfl
    · rw [getCluster_modCore]
      unfold cacheGet
      rw [hflush.caches]; rfl
  · exact (present_alive ha).trans (congrArg _ (if_neg fun h => hno.elim (fun e => h.1 e) fun hlt => Nat.not_lt.mpr h.2 hlt))
  · refine ⟨_, (present_alive ha).trans (congrArg _ (if_pos ⟨h0, hle⟩)), watchdog_timer2 u, fun k => ?_, fun k hothers hopen => ?_⟩
    · rw [watchdog_core]
      exact if_congr (partOpen_iff _) rfl rfl
    · have hclosed : ∀ i, i ≠ k → partOpen (getCore u i) = false := fun i hi =>
        decide_eq_false fun h => h.elim (hothers i hi).1 (hothers i hi).2
      have hfatal : s.kolwin.fatal = false := by
        simp only [alive, Bool.and_eq_true, Bool.not_eq_true'] at ha
        exact ha.2
      rw [watchdog_one (s := u) ((partOpen_iff _).mpr hopen) hclosed]
      exact operatorFault_last (s := { u with timer2 := 0 }) hfatal k fStepTimeout _
  · exact (present_alive ha).trans (congrArg _ (if_neg fun h => hno.elim (fun e => h.1 e) fun hlt => Nat.not_lt.mpr h.2 hlt))
  · refine ⟨_, (present_alive ha).trans (congrArg _ (if_pos ⟨h0, hle⟩)), fun m => ?_⟩
    have hdue := mem_tierDue (s := u) hwf m
    have hdot := stops_dot .timedOut 0x10 (by decide) (tierDue u) (tierDue_nodup hwf)
      (fun n hn => ((mem_tierDue (s := u) hwf n).mp hn).1) m
    intro e
    split
    · next hc =>
      rw [tierLate_dot]
      exact hdot.1 (hdue.mpr hc)
    · next hc =>
      rw [tierLate_dot]
      exact hdot.2 fun hm => hc (hdue.mp hm)
  · intro c
    have hx := presentUnit_alive (s := s) (n := t) (m := n) (count := numCells)
      (f := fun s => if (getCell s n).deadline ≠ 0 ∧ (getCell s n).deadline.toNat ≤ s.tk then cellDeadline s n else s) ha hn
    refine ⟨fun hno => hx.trans (congrArg _ (if_neg fun h => hno.elim (fun e => h.1 e) fun hlt => Nat.not_lt.mpr h.2 hlt)),
      fun hd hle => ⟨_, hx.trans (congrArg _ (if_pos ⟨hd, hle⟩)), rfl, ?_, fun j hj => ?_, ?_⟩⟩
    · rw [cellDeadline_eq]
      exact (endIf_all_cell n).trans (getCell_setCell_same u n _)
    · rw [cellDeadline_eq]
      exact (endIf_all_cell j).trans (getCell_setCell_ne u _ hj)
    · rw [cellDeadline_eq]
      exact (overCores_fault (fun st i => endIf_coreOnly st n i _) _).mem
end

section
/-! DOTRD, DOTREL and DOTCAN (R83 to R86, R121). -/
namespace Sys2Proof.Machine
variable {s : State} {k : Nat} {w : FmtT}

theorem withEntry_address {c : Core} {f : Nat → Res} (h : 4096 ≤ (readS c w.a).toNat) : withEntry c w f = .flt fAddress :=
  if_neg (Nat.not_lt.mpr h)

theorem withEntry_taken {c : Core} {f : Nat → Res} (h : (readS c w.a).toNat < 4096) : withEntry c w f = f (readS c w.a).toNat := if_pos h

/-- DOTRD's word index lies in Table 4-10. -/
theorem dotrd_index (h : infoDotrd.okT w = true) : w.imm.toNat < 4 := by
  have hfields : (regsOk .reg .reg .zero .zero w && decide (w.md = 0) && decide (w.imm.toNat < 4)) = true := h
  exact of_decide_eq_true (Bool.and_eq_true_iff.mp hfields).2

/-- The words of an entry that is not FREE by index (Table 4-10). -/
theorem dotWord_eq_getD (e : DotEntry) {i : Nat} (hi : i < 4) : dotWord e i = if e.state = .free then 0 else BitVec.ofNat 64
    (([dotCode e.state * 2 ^ 60 + e.kind * 2 ^ 56 + e.result * 2 ^ 48 + b2n e.autofree * 2 ^ 47 + b2n e.dlEn * 2 ^ 46 +
      b2n e.cellEn * 2 ^ 45 + e.owner * 2 ^ 32 + e.cell * 2 ^ 16 + e.rc, e.bytesDone, e.start, e.deadline] : List Nat).getD i 0) := by
  match i, hi with
  | 0, _ | 1, _ | 2, _ | 3, _ => rfl

section
variable (h : Safety.operator s k w.pg w.pn)
include h

theorem dotrd_reads (he : infoDotrd.okT w = true) (hm : (readS (getCore s k) w.a).toNat < 4096) : Safety.runs (.dotrd k w) s k
    (writeS (getCore s k) w.d (dotWord (getDot s (readS (getCore s k) w.a).toNat) w.imm.toNat)) :=
  runs_of_regOp (f := fun c => writeS c w.d _) (exec_operator rfl h he) (withEntry_taken hm) h.after (writeS_guest _ _ _) (writeS_pc _ _ _)

/-- A predicate that an instruction with no other effect writes. -/
theorem predicate_runs {i : Instr} {r : Res} {b : Bool} (hx : exec i s = .next (finish s k r))
    (hr : r = regOp s k fun c => writeP c w.d.toNat b) : Safety.runs i s k (writeP (getCore s k) w.d.toNat b) :=
  runs_of_regOp (f := fun c => writeP c w.d.toNat b) hx hr h.after (writeP_guest _ _ _) (writeP_pc _ _ _)

section
variable (he : infoDotp.okT w = true) (hm : (readS (getCore s k) w.a).toNat < 4096)
include he hm

theorem dotrel_refuses (hst : (getDot s (readS (getCore s k) w.a).toNat).state = .free ∨
    (getDot s (readS (getCore s k) w.a).toNat).state = .active) :
    Safety.runs (.dotrel k w) s k (writeP (getCore s k) w.d.toNat false) := by
  refine predicate_runs h (exec_operator rfl h he) ((withEntry_taken hm).trans ?_)
  rcases hst with hst | hst <;> simp only [hst]

/-- An entry freed, with the predicate set: the table changes there and the core goes on. -/
theorem dotrel_frees (hf : (getDot s (readS (getCore s k) w.a).toNat).state ≠ .free)
    (ha : (getDot s (readS (getCore s k) w.a).toNat).state ≠ .active) : Safety.answers (.dotrel k w) s fun t =>
      getDot t (readS (getCore s k) w.a).toNat = {} ∧ (∀ j, j ≠ (readS (getCore s k) w.a).toNat → getDot t j = getDot s j) ∧
      Safety.onCore { s with dot := t.dot } k (Safety.past (writeP (getCore s k) w.d.toNat true)) t := by
  have hcore : getCore (modCore (setDot s (readS (getCore s k) w.a).toNat {}) k fun c => writeP c w.d.toNat true) k =
      writeP (getCore s k) w.d.toNat true := getCore_modCore_same _ _ _
  have hr : dotrelEff s k w (getCore s k) = .done (modCore (setDot s (readS (getCore s k) w.a).toNat {}) k fun c => writeP c w.d.toNat true) := by
    refine (withEntry_taken hm).trans ?_
    cases hst : (getDot s (readS (getCore s k) w.a).toNat).state with
    | free => exact absurd hst hf
    | active => exact absurd hst ha
    | done | failed | timedOut | cancelled => simp only [regOp]
  refine answers_of_done (exec_operator rfl h he) hr h.after rfl (by rw [hcore, writeP_guest]) (by rw [hcore, writeP_pc]) fun t ht => ?_
  rw [hcore] at ht
  have hon := onCore_trans (onCore_setCore (setDot s (readS (getCore s k) w.a).toNat {}) k _) ht
  have hdot : t.dot = (setDot s (readS (getCore s k) w.a).toNat {}).dot := by
    have hrest := congrArg State.dot hon.rest
    exact hrest
  have hget : ∀ j, getDot t j = getDot (setDot s (readS (getCore s k) w.a).toNat {}) j := fun j => congrArg (fun l => smGet dotDefault l j) hdot
  have hbase : { s with dot := t.dot } = setDot s (readS (getCore s k) w.a).toNat {} := by rw [hdot]; rfl
  refine ⟨(hget _).trans (getDot_setDot_same _ _ _), fun j hj => (hget j).trans (getDot_setDot_ne _ _ hj), ?_⟩
  rw [hbase]
  exact hon

theorem dotcan_refuses (ha : (getDot s (readS (getCore s k) w.a).toNat).state ≠ .active) :
    Safety.runs (.dotcan k w) s k (writeP (getCore s k) w.d.toNat false) :=
  predicate_runs h (exec_operator rfl h he) ((withEntry_taken hm).trans (if_neg ha))

/-- The state DOTCAN leaves before its predicate: the operation stopped, and the request of one the scheduler started ended. -/
def cancelledOp (s : State) (m : Nat) : State :=
  if (getDot s m).byScheduler then addCode (stopOp s m .cancelled 0x50) (getDot s m).rc 0x50 else stopOp s m .cancelled 0x50

omit h he hm in
theorem cancelledOp_stopped {m : Nat} (ha : (getDot s m).state = .active) : Stopped m .cancelled 0x50 s (cancelledOp s m) := by
  have hs := stopOp_stopped (result := 0x50) ha (show DotState.cancelled ≠ .done by decide)
  unfold cancelledOp
  split
  · exact ⟨hs.tk, hs.images, hs.pending, hs.others, hs.state, hs.result, hs.idle⟩
  · exact hs

theorem dotcan_cancels (ha : (getDot s (readS (getCore s k) w.a).toNat).state = .active) : Safety.answers (.dotcan k w) s fun t =>
    (getDot t (readS (getCore s k) w.a).toNat).state = .cancelled ∧ (getDot t (readS (getCore s k) w.a).toNat).result = 0x50 ∧
    (∀ j, j ≠ (readS (getCore s k) w.a).toNat → getDot t j = getDot s j) ∧
    (getCore t k).p = (writeP (getCore s k) w.d.toNat true).p ∧ (getCore t k).pc = (getCore s k).pc + 8 := by
  have hs := cancelledOp_stopped ha
  have hissue := h.issues
  simp only [issuing, Bool.and_eq_true, decide_eq_true_eq] at hissue
  obtain ⟨sp, hc⟩ := hs.idle k hissue.2 h.free
  have hcore := getCore_modCore_same (cancelledOp s (readS (getCore s k) w.a).toNat) k fun c => writeP c w.d.toNat true
  rw [hc] at hcore
  refine answers_of_done (exec_operator rfl h he) ((withEntry_taken hm).trans (if_pos ha)) h.after hs.images ?_ ?_ fun t ht => ?_
  · exact (congrArg Core.guest hcore).trans (writeP_guest _ _ _)
  · exact (congrArg Core.pc hcore).trans (writeP_pc _ _ _)
  · have hdot : t.dot = (cancelledOp s (readS (getCore s k) w.a).toNat).dot := by
      have hrest := congrArg State.dot ht.rest
      exact hrest
    have hget : ∀ j, getDot t j = getDot (cancelledOp s (readS (getCore s k) w.a).toNat) j := fun j =>
      congrArg (fun l => smGet dotDefault l j) hdot
    have hthis := ht.this.trans (congrArg Safety.past hcore)
    refine ⟨by rw [hget]; exact hs.state, by rw [hget]; exact hs.result, fun j hj => (hget j).trans (hs.others j hj), ?_, ?_⟩
    · rw [hthis]
      unfold Safety.past retire writeP
      split <;> rfl
    · rw [hthis]
      exact congrArg (· + 8) (writeP_pc _ _ _)

end

end

end Sys2Proof.Machine
end

section
/-! The statement about the instructions of the operation table. -/
open Sys2Proof Sys2Proof.Machine

/-- Settles O30: ADDRESS first, then each instruction by the state of the entry it names. -/
theorem operationTableInstructions : Obligations.OperationTableInstructions := by
  intro s k w h c m e word0
  refine ⟨fun p hp he hm => ?_, fun he hm => ?_, fun he hm => ⟨dotrel_refuses h he hm, fun hf ha => dotrel_frees h he hm hf ha,
    dotcan_refuses h he hm, dotcan_cancels h he hm⟩⟩
  · simp only [List.mem_cons, List.not_mem_nil, or_false] at hp
    obtain rfl | rfl | rfl := hp <;> exact traps_of_flt (exec_operator rfl h he) (withEntry_address hm)
  · have hreads := dotrd_reads h he hm
    rwa [dotWord_eq_getD _ (dotrd_index he)] at hreads
end

section
/-! The start of long operations (R82, R107). -/
namespace Sys2Proof.Machine
variable {s : State} {k : Nat} {w : FmtT} {c : Core} {d : Desc}

theorem readDesc_alignment (h : (readS c w.a).toNat % 64 ≠ 0) : readDesc c w = .error fAlignment := if_pos h

theorem readDesc_address (h : (readS c w.a).toNat % 64 = 0) (ho : 0x100000 < (readS c w.a).toNat + 64) : readDesc c w = .error fAddress :=
  (if_neg (not_not.mpr h)).trans (if_pos ho)

theorem readDesc_ok (h : (readS c w.a).toNat % 64 = 0) (ho : (readS c w.a).toNat + 64 ≤ 0x100000) :
    readDesc c w = .ok (readBytes c.scratch (readS c w.a).toNat 64) := (if_neg (not_not.mpr h)).trans (if_neg (Nat.not_lt.mpr ho))

theorem cellFault_unconfigured (he : d.cellEn = true) (hk : (getCell s d.cell).kind = 0) : cellFault s d = some fSyncConfig :=
  if_pos (by simp [he, hk])

theorem cellFault_none (h : d.cellEn = true → (getCell s d.cell).kind ≠ 0) : cellFault s d = none := by
  refine if_neg fun hf => ?_
  rw [Bool.and_eq_true, decide_eq_true_eq] at hf
  exact h hf.1 hf.2

theorem freeEntry_none (h : ∀ m < 4096, (getDot s m).state ≠ .free) : freeEntry s = none := by
  rw [freeEntry, List.find?_eq_none]
  exact fun m hm => by simpa using h m (List.mem_range.mp hm)

/-- The lowest FREE entry is the one allocated. -/
theorem freeEntry_lowest {m : Nat} (hm : m < 4096) (hf : (getDot s m).state = .free) (hlow : ∀ j < m, (getDot s j).state ≠ .free) :
    freeEntry s = some m := by
  rw [freeEntry, List.find?_range_eq_some]
  exact ⟨by simpa using hf, List.mem_range.mpr hm, fun j hj => by simpa using hlow j hj⟩

section
variable (kindOf : Desc → Nat) (zero : Desc → Bool) (check : Desc → Option Nat) (zd : Bool) (go : State → Nat → State)

theorem longStart_unread {f : Nat} (h : readDesc c w = .error f) : longStart s k w c kindOf zero check zd go = .flt f := by
  unfold longStart
  rw [h]

section
variable {b : List Byte} (h : readDesc c w = .ok b)
include h

theorem longStart_encoding (hz : (descZero b && zero (descOf b)) = false) : longStart s k w c kindOf zero check zd go = .flt fEncoding := by
  unfold longStart
  rw [h]
  dsimp only
  rw [hz, Bool.not_false, if_pos rfl]

variable (hz : (descZero b && zero (descOf b)) = true)
include hz

theorem longStart_config (hc : cellFault s (descOf b) = some fSyncConfig) :
    longStart s k w c kindOf zero check zd go = .flt fSyncConfig := by
  unfold longStart
  rw [h]
  dsimp only
  rw [hz, Bool.not_true, if_neg Bool.false_ne_true, hc]

variable (hc : cellFault s (descOf b) = none)
include hc

theorem longStart_refused {code : Nat} (hk : check (descOf b) = some code) : longStart s k w c kindOf zero check zd go = .flt code := by
  unfold longStart
  rw [h]
  dsimp only
  rw [hz, Bool.not_true, if_neg Bool.false_ne_true, hc, hk]

variable (hk : check (descOf b) = none)
include hk

theorem longStart_full (hf : freeEntry s = none) : longStart s k w c kindOf zero check zd go = startNone s k w (BitVec.allOnes 64) := by
  unfold longStart
  rw [h]
  dsimp only
  rw [hz, Bool.not_true, if_neg Bool.false_ne_true, hc, hk, hf]

/-- The state in which entry `m` has been allocated and the instruction's results are written. -/
def allocated (s : State) (k : Nat) (w : FmtT) (m : Nat) (e : DotEntry) : State :=
  modCore (setDot s m e) k fun c => writeP (writeS c w.d (BitVec.ofNat 64 m)) w.c.toNat true

omit h hz hc hk in
theorem allocated_dot_same (s : State) (k : Nat) (w : FmtT) (m : Nat) (e : DotEntry) : getDot (allocated s k w m e) m = e :=
  getDot_setDot_same s m e

omit h hz hc hk in
theorem allocated_dot_ne {m j : Nat} (s : State) (k : Nat) (w : FmtT) (e : DotEntry) (hj : j ≠ m) :
    getDot (allocated s k w m e) j = getDot s j := getDot_setDot_ne s e hj

theorem longStart_starts {m : Nat} (hf : freeEntry s = some m) : longStart s k w c kindOf zero check zd go =
    .done (if zd && decide ((descOf b).len = 0) then leaveActive (allocated s k w m (entryOf s k (kindOf (descOf b)) (descOf b))) m .done 0
      else go (allocated s k w m (entryOf s k (kindOf (descOf b)) (descOf b))) m) := by
  unfold longStart
  rw [h]
  dsimp only
  rw [hz, Bool.not_true, if_neg Bool.false_ne_true, hc, hk, hf]
  rfl

end

end

/-- What the start of a long operation does on the core, by its descriptor. -/
def Allocates (s : State) (k : Nat) (w : FmtT) (i : Instr) (kind : Nat) (zero : Bool) (check : Option Nat) (zd : Bool)
    (go : State → Nat → State) : Prop :=
  let c := getCore s k
  let off := (readS c w.a).toNat
  let b := readBytes c.scratch off 64
  let d := descOf b
  (off % 64 ≠ 0 → Safety.traps i s k 0x04) ∧
  (off % 64 = 0 → 0x100000 < off + 64 → Safety.traps i s k 0x03) ∧
  (off % 64 = 0 → off + 64 ≤ 0x100000 →
    ((descZero b && zero) = false → Safety.traps i s k 0x01) ∧
    ((descZero b && zero) = true →
      (d.cellEn = true → (getCell s d.cell).kind = 0 → Safety.traps i s k 0x07) ∧
      ((d.cellEn = true → (getCell s d.cell).kind ≠ 0) →
        (∀ code, check = some code → Safety.traps i s k code) ∧
        (check = none → (∀ m < 4096, (getDot s m).state ≠ .free) →
          Safety.runs i s k (writeP (writeS c w.d 0xFFFFFFFFFFFFFFFF) w.c.toNat false)) ∧
        (∀ m, check = none → m < 4096 → (getDot s m).state = .free → (∀ j < m, (getDot s j).state ≠ .free) →
          exec i s = .next (advance (if zd && decide (d.len = 0) then leaveActive (allocated s k w m (entryOf s k kind d)) m .done 0
            else go (allocated s k w m (entryOf s k kind d)) m) k)))))

theorem allocates_of_longStart {i : Instr} {kindOf : Desc → Nat} {zero : Desc → Bool} {check : Desc → Option Nat} {zd : Bool}
    {go : State → Nat → State} (h : Safety.operator s k w.pg w.pn)
    (hx : exec i s = .next (finish s k (longStart s k w (getCore s k) kindOf zero check zd go))) :
    let d := descOf (readBytes (getCore s k).scratch (readS (getCore s k) w.a).toNat 64)
    Allocates s k w i (kindOf d) (zero d) (check d) zd go := by
  refine ⟨fun ho => traps_of_flt hx (longStart_unread _ _ _ _ _ (readDesc_alignment ho)),
    fun ho hp => traps_of_flt hx (longStart_unread _ _ _ _ _ (readDesc_address ho hp)), fun ho hp => ?_⟩
  have hb := readDesc_ok ho hp
  refine ⟨fun hz => traps_of_flt hx (longStart_encoding _ _ _ _ _ hb hz), fun hz =>
    ⟨fun he hk => traps_of_flt hx (longStart_config _ _ _ _ _ hb hz (cellFault_unconfigured he hk)), fun hcell => ?_⟩⟩
  have hc := cellFault_none hcell
  refine ⟨fun code hk => traps_of_flt hx (longStart_refused _ _ _ _ _ hb hz hc hk), fun hk hfull => ?_, fun m hk hm hf hlow => ?_⟩
  · exact runs_of_regOp (f := fun c => writeP (writeS c w.d (BitVec.allOnes 64)) w.c.toNat false) hx
      (longStart_full _ _ _ _ _ hb hz hc hk (freeEntry_none hfull)) h.after (writePS_guest _ _ _ _ _) (writePS_pc _ _ _ _ _)
  · rw [hx, longStart_starts _ _ _ _ _ hb hz hc hk (freeEntry_lowest hm hf hlow)]
    rfl

/-! ## The instructions -/

theorem allocates_of_issue {i : Instr} {kindOf : Desc → Nat} {zero : Desc → Bool} {check : Desc → Option Nat} {zd : Bool}
    {go : State → Nat → State} (hx : exec i s = issueT k w s infoLongOp fun c => longStart s k w c kindOf zero check zd go)
    (h : Safety.operator s k w.pg w.pn) (he : infoLongOp.okT w = true) :
    let d := descOf (readBytes (getCore s k).scratch (readS (getCore s k) w.a).toNat 64)
    Allocates s k w i (kindOf d) (zero d) (check d) zd go := allocates_of_longStart h (exec_operator hx h he)

section
variable (h : Safety.operator s k w.pg w.pn) (he : infoLongOp.okT w = true)
include h he

/-- The descriptor a long operation names. -/
abbrev descAt (s : State) (k : Nat) (w : FmtT) : Desc := descOf (readBytes (getCore s k).scratch (readS (getCore s k) w.a).toNat 64)

theorem dma_allocates : Allocates s k w (.dma k w) (dmaKind (descAt s k w)) (kwZero (descAt s k w)) (dmaCheck s (descAt s k w)) true
    transferStart := allocates_of_issue rfl h he

theorem flushr_allocates : Allocates s k w (.flushr k w) kFlush (kwZero (descAt s k w)) (rangeCheck (descAt s k w)) true (rangeStart true) :=
  allocates_of_issue (kindOf := fun _ => kFlush) rfl h he

theorem invr_allocates : Allocates s k w (.invr k w) kInval (kwZero (descAt s k w)) (rangeCheck (descAt s k w)) true (rangeStart false) :=
  allocates_of_issue (kindOf := fun _ => kInval) rfl h he

theorem kvimp_allocates : Allocates s k w (.kvimp k w) kImport (impZero (descAt s k w)) none true importStart :=
  allocates_of_issue (kindOf := fun _ => kImport) (check := fun _ => none) rfl h he

theorem nbiss_allocates (hm : modeOffload s ≠ 0) : Allocates s k w (.nbiss k w) kNear (nbZero (descAt s k w)) none true nbStart := by
  have hx := exec_operator (i := .nbiss k w) rfl h he
  rw [nbissEff, if_neg hm] at hx
  exact allocates_of_longStart (kindOf := fun _ => kNear) (check := fun _ => none) h hx

theorem coll_allocates : Allocates s k w (.coll k w) kColl true none false collStart :=
  allocates_of_issue (kindOf := fun _ => kColl) (zero := fun _ => true) (check := fun _ => none) rfl h he

end

end Sys2Proof.Machine
end

section
/-! The statement about the start of long operations. -/
open Sys2Proof Sys2Proof.Machine

/-- Settles O25: each instruction is the common start with its own kind, zero fields, check and effect. -/
theorem longOperationsAllocate : Obligations.LongOperationsAllocate := by
  intro s k w h he c off b d kind p hp hmode
  have hall : Allocates s k w p.1 p.2.1 p.2.2.1 p.2.2.2.1 p.2.2.2.2.1 p.2.2.2.2.2 := by
    simp only [List.mem_cons, List.not_mem_nil, or_false] at hp
    obtain rfl | rfl | rfl | rfl | rfl | rfl := hp <;> dsimp only
    · exact dma_allocates h he
    · exact flushr_allocates h he
    · exact invr_allocates h he
    · exact kvimp_allocates h he
    · exact nbiss_allocates h he (hmode rfl)
    · exact coll_allocates h he
  obtain ⟨halign, haddr, hread⟩ := hall
  refine ⟨halign, haddr, fun ho hp => ?_⟩
  obtain ⟨henc, hdesc⟩ := hread ho hp
  refine ⟨henc, fun hz => ⟨(hdesc hz).1, fun hcell => ?_⟩⟩
  obtain ⟨hcheck, hfull, hstart⟩ := (hdesc hz).2 hcell
  refine ⟨hcheck, hfull, fun m hk hm hf hlow => ⟨allocated s k w m (entryOf s k p.2.1 d), rfl, getCore_modCore_same _ _ _,
    fun j hj => getCore_modCore_ne _ _ hj, fun j hj => allocated_dot_ne s k w _ hj, allocated_dot_same s k w m _, hstart m hk hm hf hlow⟩⟩
end

section
/-! Failures and deadlines of operations (R84, R85), and the end of a near-bank command (R210, R211). -/
namespace Sys2Proof.Machine
variable {s t u v w : State} {m k : Nat}

/-! ## Failures -/

namespace StopOnly

theorem log (h : StopOnly m s t) (g : LogOnly t u) : StopOnly m s u := by
  have gw := (WalkOnly.ofLog g).work
  obtain ⟨n, d, he⟩ := h.entry
  exact ⟨gw.tk.trans h.tk, gw.images.trans h.images, gw.pending.trans h.pending,
    fun j => by rw [gw.getCore]; exact h.cores j, fun j hj => (gw.getDot j).trans (h.others j hj), n, d, (gw.getDot m).trans he⟩

end StopOnly

/-- RESULT of a failed operation by its cause (Table 4-10). -/
def failResult (why : OpFailure) : Nat :=
  match why with
  | .denied => 0x41
  | .ue _ => 0x12
  | .tier _ _ _ => 0x11
  | .digest _ _ _ => 0x12

/-- The record or event of a failure; then the entry leaves ACTIVE. -/
theorem failOp_leaves (s : State) (m : Nat) (why : OpFailure) :
    ∃ u, LogOnly s u ∧ failOp s m why = leaveActive u m .failed (failResult why) := by
  cases why with
  | denied => exact ⟨s, .refl s, rfl⟩
  | ue a => exact ⟨_, .ueEvent s _ _ _, rfl⟩
  | tier t c b => exact ⟨_, .errorRecord s _, rfl⟩
  | digest d ch pc => exact ⟨_, .errorRecord s _, rfl⟩

theorem StopOnly.failOp (h : StopOnly m s u) (ha : (getDot s m).state = .active) (why : OpFailure) :
    Stopped m .failed (failResult why) s (failOp u m why) := by
  obtain ⟨v, hv, he⟩ := failOp_leaves u m why
  rw [he]
  exact (h.log hv).leaveActive ha (by decide)

/-- What sending on the links changes: the links alone. -/
def LinksOnly (s t : State) : Prop := ∃ l, t = { s with links := l }

namespace LinksOnly

theorem refl (s : State) : LinksOnly s s := ⟨_, rfl⟩

theorem trans (h : LinksOnly s t) (g : LinksOnly t u) : LinksOnly s u := by
  obtain ⟨l, rfl⟩ := h
  obtain ⟨l', rfl⟩ := g
  exact ⟨l', rfl⟩

theorem setPort (s : State) (p : Nat) (q : Port) : LinksOnly s (setPort s p q) := ⟨_, rfl⟩

theorem flushPort (s : State) (p : Nat) : LinksOnly s (flushPort s p) := by
  unfold Machine.flushPort
  split
  · exact refl s
  · exact setPort s p _

theorem sendAnswer (s : State) (x : Slot) : LinksOnly s (sendAnswer s x) := by
  unfold Machine.sendAnswer sendSide
  cases sidePort s x.dest.toNat with
  | none => exact refl s
  | some p => exact (setPort s p _).trans (flushPort _ p)

theorem foldl {α : Type} {f : State → α → State} (h : ∀ u x, LinksOnly u (f u x)) (l : List α) (s : State) :
    LinksOnly s (l.foldl f s) := foldl_rel refl trans h l s

end LinksOnly

theorem Stopped.links {st : DotState} {result : Nat} (h : Stopped m st result s t) (g : LinksOnly t u) : Stopped m st result s u := by
  obtain ⟨l, rfl⟩ := g
  exact ⟨h.tk, h.images, h.pending, h.others, h.state, h.result, h.idle⟩

theorem collMismatch_stopped (ha : (getDot s m).state = .active) (d ch pc : Nat) : Stopped m .failed 0x12 s (collMismatch s m d ch pc) := by
  have hcount : StopOnly m s (countUp s Reg.lkCountDigestFail Reg.lkCountOvf 5 1) :=
    (StopOnly.refl m s).log (RegsOnly.countUp s _ _ _ _).log
  exact (hcount.failOp ha (.digest d ch pc)).links (.foldl (fun u _ => .sendAnswer u _) _ _)

theorem opFails_stopped (ha : (getDot s m).state = .active) {why : OpFailure}
    (hw : ∀ d ch pc, why = .digest d ch pc → (getDot s m).kind = 4) : Stopped m .failed (failResult why) s (opFails s m why) := by
  have hstop := (StopOnly.stopEffect s m).failOp ha why
  have harmed : Stopped m .failed (failResult why) s (armTierTimer (failOp (stopEffect s m) m why)) :=
    ⟨hstop.tk, hstop.images, hstop.pending, hstop.others, hstop.state, hstop.result, hstop.idle⟩
  unfold opFails
  dsimp only
  rw [if_neg (not_not.mpr ha)]
  cases why with
  | digest d ch pc =>
    dsimp only
    rw [if_pos (show (getDot s m).kind = kColl from hw d ch pc rfl)]
    exact collMismatch_stopped ha d ch pc
  | denied | ue a | tier t c b => exact harmed

theorem opFails_idle (h : (getDot s m).state ≠ .active) (why : OpFailure) : opFails s m why = s := if_pos h

/-! ## Deadlines -/

theorem stopOp_idle (h : (getDot s m).state ≠ .active) (st : DotState) (result : Nat) : stopOp s m st result = s := if_neg h

theorem opDeadline_idle (h : (getDot s m).state ≠ .active ∨ (getDot s m).dlEn = false ∨ s.tk < (getDot s m).deadline ∨ endsNow s m = true) :
    opDeadline s m = s := by
  unfold opDeadline
  dsimp only
  split
  · next hc =>
    simp only [Bool.and_eq_true, Bool.not_eq_true', decide_eq_true_eq] at hc
    obtain ⟨⟨he, hd⟩, hle⟩ := hc
    rcases h with h | h | h | h
    · exact stopOp_idle h _ _
    · exact absurd hd (by simp [h])
    · exact absurd hle (Nat.not_le.mpr h)
    · exact absurd h (by simp [he])
  · rfl

theorem opDeadline_due (hd : (getDot s m).dlEn = true) (hle : (getDot s m).deadline ≤ s.tk) (he : endsNow s m = false) :
    opDeadline s m = stopOp s m .timedOut (timedOutResult (getDot s m).kind) := if_pos (by simp [hd, hle, he])

/-! ## Near-bank commands whose turn comes -/

/-- An entry's commands once those whose turn has come have started. -/
def nearStarted (e : DotEntry) : DotEntry :=
  if e.state = .active ∧ e.kind = kNear then { e with nb := startCmds (finishedRun e.nb) 0 e.nb } else e

theorem smGet_mapValues {α : Type} (d : Nat → α) (h : α → α) {k : Nat} (hd : h (d k) = d k) (l : List (Nat × α)) :
    smGet d (l.map fun p => (p.1, h p.2)) k = h (smGet d l k) := by
  induction l with
  | nil => exact hd.symm
  | cons p l ih =>
    obtain ⟨j, x⟩ := p
    rw [List.map_cons, smGet, smGet]
    split
    · rfl
    · exact ih

theorem startNear_dot (s : State) (j : Nat) : getDot (startNear s) j = getDot s j ∨ getDot (startNear s) j = nearStarted (getDot s j) := by
  unfold startNear
  split
  · exact .inl rfl
  · refine .inr ?_
    have hmap : (s.dot.map fun p => if p.2.state = .active ∧ p.2.kind = kNear then
        (p.1, { p.2 with nb := startCmds (finishedRun p.2.nb) 0 p.2.nb }) else p) = s.dot.map fun p => (p.1, nearStarted p.2) := by
      refine List.map_congr_left fun p _ => ?_
      unfold nearStarted
      split <;> rfl
    have hdef : nearStarted (dotDefault j) = dotDefault j := if_neg (by simp [dotDefault])
    exact (congrArg (fun l => smGet dotDefault l j) hmap).trans (smGet_mapValues dotDefault nearStarted hdef s.dot)

theorem startCmds_keeps (run : Nat) (l : List NbCmd) : ∀ i, (startCmds run i l).map (fun x => (x.bytes, x.status)) =
    l.map fun x => (x.bytes, x.status) := by
  induction l with
  | nil => exact fun _ => rfl
  | cons c l ih =>
    intro i
    unfold startCmds
    split
    · rfl
    · exact congrArg (_ :: ·) (ih _)

/-- Starting commands marks them, and changes nothing else of an entry. -/
theorem startNear_entry (s : State) (j : Nat) : { getDot (startNear s) j with nb := [] } = { getDot s j with nb := [] } ∧
    (getDot (startNear s) j).nb.map (fun x => (x.bytes, x.status)) = (getDot s j).nb.map fun x => (x.bytes, x.status) := by
  rcases startNear_dot s j with h | h
  · rw [h]; exact ⟨rfl, rfl⟩
  · rw [h]
    unfold nearStarted
    split
    · exact ⟨rfl, startCmds_keeps _ _ _⟩
    · exact ⟨rfl, rfl⟩

/-! ## The end of a near-bank command -/

theorem physWrite_word {a : Nat} {bs : List Byte} (hn : bs.length = 8) (hh : a + 8 ≤ hbmBytes) (ha : a % 8 = 0)
    (hb : smGet boolDefault s.badWords (a / 16) = false) : (physWrite s a bs).mem = writeBytes s.mem a bs :=
  physWrite_good (by simp only [hostBase, hbmBytes] at *; omega) fun i hi => by rw [show (a + i) / 16 = a / 16 by omega]; exact hb

section
variable {i : Nat} {c : NbCmd} (hact : (getDot s m).state = .active) (hkind : (getDot s m).kind = 3)
  (hi : (getDot s m).nb[i]? = some c) (hopen : c.status = none)
include hact hkind hi hopen

omit hact hkind hopen in
theorem nbCommandFinish_waits (hs : c.started = false) : nbCommandFinish s m i = s := by
  unfold nbCommandFinish
  dsimp only
  rw [hi]
  exact if_pos (.inr (.inr (.inr (by simp [hs]))))

variable (hs : c.started = true)
include hs

theorem nbCommandFinish_refused (hg : guarded s ((getDot s m).dst + 8 * i) 8 = true) :
    nbCommandFinish s m i = leaveActive s m .failed 0x41 := by
  unfold nbCommandFinish
  dsimp only
  rw [hi]
  dsimp only
  rw [if_neg (by simp [hact, show (getDot s m).kind = kNear from hkind, hopen, hs]), if_pos hg]

/-- The status word of a command (Table 9-5). -/
def nbWord (f : NbFields) (st g : Nat) : Word := BitVec.ofNat 64 (st + 65536 * f.rc + 2 ^ 32 * g)

/-- The state with a command's status word written and kept in its entry. -/
def nbNoted (s s1 : State) (m i : Nat) (c : NbCmd) (word : Word) : State :=
  let s2 := physWrite s1 ((getDot s m).dst + 8 * i) (natBytes 8 word.toNat)
  let nb := (getDot s m).nb.set i { c with status := some word }
  setDot s2 m { getDot s2 m with nb := nb, bytesDone := 8 * finishedRun nb }

/-- The same once the commands whose turn has come have started. -/
def nbMarked (s s1 : State) (m i : Nat) (c : NbCmd) (st g : Nat) : State :=
  startNear (nbNoted s s1 m i c (nbWord (nbFields c.bytes) st g))

/-- A finished command: the status word and the mark, then counters and the end of its request. -/
theorem nbCommandFinish_done {s1 : State} {st g : Nat} (hg : guarded s ((getDot s m).dst + 8 * i) 8 = false)
    (hrun : nbRun s (clusterOf (getDot s m).core) (nbFields c.bytes) = .done s1 st g) :
    WalkOnly (nbMarked s s1 m i c st g) (nbCommandFinish s m i) ∧ (nbCommandFinish s m i).mem = (nbMarked s s1 m i c st g).mem := by
  unfold nbCommandFinish
  dsimp only
  rw [hi]
  dsimp only
  rw [if_neg (by simp [hact, show (getDot s m).kind = kNear from hkind, hopen, hs]), if_neg (by simp [hg]), hrun]
  dsimp only
  have htotal : RegsOnly (nbMarked s s1 m i c st g) (countUp (addTotal (nbMarked s s1 m i c st g) Reg.nbBytes (256 * g))
      Reg.nbCountCommands Reg.nbCountOvf 0 1) := (RegsOnly.setReg64 _ _ _).trans (.countUp _ _ _ _ _)
  have hcounts : RegsOnly (nbMarked s s1 m i c st g) (if st = 0x41 ∨ 0xF0 ≤ st then
      countUp (countUp (addTotal (nbMarked s s1 m i c st g) Reg.nbBytes (256 * g)) Reg.nbCountCommands Reg.nbCountOvf 0 1)
        Reg.nbCountRefused Reg.nbCountOvf 4 1
      else countUp (addTotal (nbMarked s s1 m i c st g) Reg.nbBytes (256 * g)) Reg.nbCountCommands Reg.nbCountOvf 0 1) :=
    RegsOnly.ite (htotal.trans (.countUp _ _ _ _ _)) htotal
  split
  · exact ⟨(WalkOnly.ofRegs hcounts).trans (.addCode _ _ _), hcounts.log.mem⟩
  · exact ⟨.ofRegs hcounts, hcounts.log.mem⟩

end

/-- What marking a finished command leaves of the table, the memory and the counter. -/
theorem nbMarked_facts {s1 : State} {i : Nat} {c : NbCmd} {st g : Nat} (h1 : WalkOnly s s1) (hact : (getDot s m).state = .active)
    (hh : (getDot s m).dst + 8 * i + 8 ≤ hbmBytes) (ha : ((getDot s m).dst + 8 * i) % 8 = 0)
    (hb : smGet boolDefault s1.badWords (((getDot s m).dst + 8 * i) / 16) = false) :
    let v := nbMarked s s1 m i c st g
    let word := nbWord (nbFields c.bytes) st g
    v.mem = writeBytes s1.mem ((getDot s m).dst + 8 * i) (natBytes 8 word.toNat) ∧
    (getDot v m).nb.map (fun x => (x.bytes, x.status)) =
      ((getDot s m).nb.set i { c with status := some word }).map (fun x => (x.bytes, x.status)) ∧
    (getDot v m).state = .active ∧ v.tk = s.tk ∧ ∀ j, j ≠ m → { getDot v j with nb := [] } = { getDot s j with nb := [] } := by
  intro v word
  have h2 := h1.trans (WalkOnly.physWrite s1 ((getDot s m).dst + 8 * i) (natBytes 8 word.toNat))
  have hself : getDot (nbNoted s s1 m i c word) m = { getDot s m with
      nb := (getDot s m).nb.set i { c with status := some word },
      bytesDone := 8 * finishedRun ((getDot s m).nb.set i { c with status := some word }) } := by
    rw [nbNoted, getDot_setDot_same, h2.work.getDot]
  obtain ⟨hfields, hlist⟩ := startNear_entry (nbNoted s s1 m i c word) m
  obtain ⟨r, a, n, ms, d, hrails⟩ := RailsOnly.startNear (nbNoted s s1 m i c word)
  refine ⟨?_, ?_, ?_, ?_, fun j hj => ?_⟩
  · exact (congrArg State.mem hrails).trans (physWrite_word (natBytes_length _ _) hh ha hb)
  · exact hlist.trans (by rw [hself])
  · have hstate := congrArg DotEntry.state hfields
    rw [hself] at hstate
    exact hstate.trans hact
  · exact (congrArg State.tk hrails).trans h2.work.tk
  · have hother : getDot (nbNoted s s1 m i c word) j = getDot s j := (getDot_setDot_ne _ _ hj).trans (h2.work.getDot j)
    exact (startNear_entry (nbNoted s s1 m i c word) j).1.trans (congrArg (fun e => { e with nb := [] }) hother)

end Sys2Proof.Machine
end

section
/-! The numbers a near-bank command writes (R142, R208, R209, R215), and where the result area holds them (R216). -/
namespace Sys2Proof.Machine

/-! ## FP32 encodings -/

/-- A magnitude rounded in units of its 24th bit, or in coarser ones, needs no more than 24 bits. -/
theorem quantize_le (md : RMode) {m : Nat} {e q : Int} (h : (Nat.log2 m : Int) + e - 23 ≤ q) : (quantize md m e q).1 ≤ 2 ^ 24 := by
  have hlt : m < 2 ^ (Nat.log2 m + 1) := Nat.lt_log2_self
  unfold quantize
  split
  · next hq =>
    calc m * 2 ^ (e - q).toNat ≤ 2 ^ (Nat.log2 m + 1) * 2 ^ (e - q).toNat := Nat.mul_le_mul_right _ hlt.le
      _ = 2 ^ (Nat.log2 m + 1 + (e - q).toNat) := (Nat.pow_add _ _ _).symm
      _ ≤ 2 ^ 24 := Nat.pow_le_pow_right (by decide) (by omega)
  · next hq =>
    have hn : m / 2 ^ (q - e).toNat < 2 ^ 24 := by
      refine Nat.div_lt_of_lt_mul (hlt.trans_le ?_)
      rw [← Nat.pow_add]
      exact Nat.pow_le_pow_right (by decide) (by omega)
    dsimp only
    split
    · exact hn
    · exact hn.le

/-- A finite value that does not round past the largest FP32 number has an exponent field below 255. -/
theorem magnitude_lt {n : Nat} {q : Int} (hn : n ≤ 2 ^ 24) (hq : -149 ≤ q) (hp : magLt (2 ^ 24 - 1) 104 n q = false) :
    (if n < 2 ^ 23 then n else (q - -149 + 1).toNat * 2 ^ 23 + (n - 2 ^ 23)) < 2 ^ 31 := by
  split
  · next h => exact h.trans (by decide)
  · next h =>
    have hle : q ≤ 104 := by
      by_contra hlt
      unfold magLt at hp
      rw [if_pos (by omega), decide_eq_false_iff_not] at hp
      refine hp ?_
      have htwo : 2 ≤ 2 ^ (q - 104).toNat := by
        calc 2 = 2 ^ 1 := rfl
          _ ≤ 2 ^ (q - 104).toNat := Nat.pow_le_pow_right (by decide) (by omega)
      calc 2 ^ 24 - 1 < 2 ^ 23 * 2 := by decide
        _ ≤ n * 2 ^ (q - 104).toNat := Nat.mul_le_mul (Nat.not_lt.mp h) htwo
    omega

theorem roundFloat_lt (neg : Bool) (m : Nat) (e : Int) :
    (roundFloat 8 ⟨8, 23, 127, true⟩ .nearest neg m e).bits < 2 ^ 32 := by
  have hsign : signBit ⟨8, 23, 127, true⟩ neg ≤ 2 ^ 31 := by cases neg <;> decide
  unfold roundFloat
  split
  · exact Nat.lt_of_le_of_lt hsign (by decide)
  · dsimp only
    have hsub : (1 : Int) - ((127 : Nat) : Int) - ((23 : Nat) : Int) = -149 := by decide
    have hbig : 2 ^ 23 + maxBits 8 ⟨8, 23, 127, true⟩ % 2 ^ 23 = 2 ^ 24 - 1 := by decide
    have hexp : ((maxBits 8 ⟨8, 23, 127, true⟩ / 2 ^ 23 : Nat) : Int) - ((127 : Nat) : Int) - ((23 : Nat) : Int) = 104 := by decide
    rw [hsub, hbig, hexp, ite_self, if_neg (show RMode.nearest ≠ .down by decide)]
    split
    · have hinf : infBits 8 ⟨8, 23, 127, true⟩ = 255 * 2 ^ 23 := by decide
      dsimp only
      omega
    · next hpast =>
      have hn := quantize_le .nearest (m := m) (e := e) (q := max ((Nat.log2 m : Int) + e - ((23 : Nat) : Int)) (-149)) (le_max_left _ _)
      have hmag := magnitude_lt hn (le_max_right _ _) (Bool.eq_false_iff.mpr hpast)
      dsimp only
      omega

theorem encodeF_lt (v : FVal) : encodeF 8 v < 2 ^ 32 := by
  have hfmt : floatFmt 8 = some ⟨8, 23, 127, true⟩ := rfl
  unfold encodeF roundTo
  rw [hfmt]
  cases v with
  | nan => decide
  | inf neg => cases neg <;> decide
  | fin neg m e => exact roundFloat_lt neg m e

theorem fadd32_lt (a b : Nat) : fadd32 a b < 2 ^ 32 := encodeF_lt _

theorem pairUp_lt (l : List Nat) (h : ∀ x ∈ l, x < 2 ^ 32) : ∀ x ∈ pairUp fadd32 l, x < 2 ^ 32 := by
  induction l using pairUp.induct with
  | case1 a b rest ih =>
    intro x hx
    rw [pairUp] at hx
    rcases List.mem_cons.mp hx with rfl | hx
    · exact fadd32_lt a b
    · exact ih (fun y hy => h y (List.mem_cons_of_mem _ (List.mem_cons_of_mem _ hy))) x hx
  | case2 l hne =>
    rwa [pairUp]
    exact hne

theorem treeFold_lt (n : Nat) : ∀ l : List Nat, (∀ x ∈ l, x < 2 ^ 32) → treeFold fadd32 n l < 2 ^ 32 := by
  induction n with
  | zero =>
    intro l h
    cases l with
    | nil => decide
    | cons a l => exact h a List.mem_cons_self
  | succ n ih =>
    intro l h
    unfold treeFold
    split
    · decide
    · next a => exact h a List.mem_cons_self
    · exact ih _ (pairUp_lt l h)

theorem treeSum_lt (l : List Nat) (h : ∀ x ∈ l, x < 2 ^ 32) : treeSum l < 2 ^ 32 := treeFold_lt _ l h

theorem foldl_encode_lt {α : Type} (f : Nat → α → FVal) (l : List α) : ∀ r, r < 2 ^ 32 →
    l.foldl (fun r g => encodeF 8 (f r g)) r < 2 ^ 32 := by
  induction l with
  | nil => exact fun _ h => h
  | cons g l ih => exact fun r _ => ih _ (encodeF_lt _)

theorem nbPartial_lt (ts : List FVal) : nbPartial ts < 2 ^ 32 :=
  foldl_encode_lt (fun run g => addF (decodeF 8 run) (windowSum g)) _ 0 (by decide)

section
variable (m : List Host.Cell) (f : NbFields) (es : List Pte)

theorem mvOut_lt (i n : Nat) : mvOut m f i n < 2 ^ 32 := by
  refine treeSum_lt _ fun x hx => ?_
  obtain ⟨j, -, rfl⟩ := List.mem_map.mp hx
  exact nbPartial_lt _

theorem scoreOut_lt (j t : Nat) : scoreOut m f es j t < 2 ^ 32 := by
  unfold scoreOut
  split
  · split
    · decide
    · exact nbPartial_lt _
  · decide

theorem valueOut_lt (j d : Nat) : valueOut m f es j d < 2 ^ 32 := by
  refine treeSum_lt _ fun x hx => ?_
  obtain ⟨q, -, rfl⟩ := List.mem_map.mp hx
  split
  · decide
  · exact nbPartial_lt _

end

/-! ## The result area -/

/-- Element `y` of row `x` in a table listed by rows. -/
theorem flatMap_row {α : Type} (g : Nat → Nat → α) {c y : Nat} (hy : y < c) (r : Nat) : ∀ x < r, ∃ l1 l2,
    ((List.range r).flatMap fun i => (List.range c).map (g i)) = l1 ++ g x y :: l2 ∧ l1.length = x * c + y ∧
      x * c + y + 1 ≤ r * c := by
  induction r with
  | zero => exact fun _ h => absurd h (Nat.not_lt_zero _)
  | succ r ih =>
    intro x hx
    rw [List.range_succ, List.flatMap_append, List.flatMap_singleton]
    by_cases hxr : x < r
    · obtain ⟨l1, l2, he, hl, hle⟩ := ih x hxr
      exact ⟨l1, l2 ++ (List.range c).map (g r), by rw [he]; simp, hl, hle.trans (Nat.mul_le_mul_right _ (Nat.le_succ r))⟩
    · obtain rfl : x = r := by omega
      have hlen : ((List.range x).flatMap fun i => (List.range c).map (g i)).length = x * c := by
        simp [List.length_flatMap]
      refine ⟨((List.range x).flatMap fun i => (List.range c).map (g i)) ++ ((List.range c).map (g x)).take y,
        ((List.range c).map (g x)).drop (y + 1), ?_, ?_, ?_⟩
      · have hrow : (List.range c).map (g x) = ((List.range c).map (g x)).take y ++ g x y :: ((List.range c).map (g x)).drop (y + 1) := by
          have hcons := List.drop_eq_getElem_cons (l := (List.range c).map (g x)) (i := y) (by simpa using hy)
          rw [List.getElem_map, List.getElem_range] at hcons
          rw [← hcons, List.take_append_drop]
        rw [List.append_assoc, ← hrow]
      · rw [List.length_append, hlen, List.length_take, List.length_map, List.length_range, Nat.min_eq_left hy.le]
      · rw [Nat.succ_mul]; omega

theorem wordsBytes_length (l : List Nat) : (l.flatMap (natBytes 4)).length = 4 * l.length := by
  induction l with
  | nil => rfl
  | cons x l ih => rw [List.flatMap_cons, List.length_append, natBytes_length, ih, List.length_cons]; omega

theorem padTo_append {n : Nat} {bs : List Byte} (h : bs.length ≤ n) : padTo n bs = bs ++ List.replicate (n - bs.length) 0 :=
  List.take_of_length_le (by simp; omega)

theorem padTo_length (n : Nat) (bs : List Byte) : (padTo n bs).length = n := by
  unfold padTo
  rw [List.length_take, List.length_append, List.length_replicate]
  omega

/-- A word of an area of words, written and read back. -/
theorem readNat_padded (m : List Host.Cell) (a N x : Nat) (l1 l2 : List Nat) (hx : x < 2 ^ 32) (hN : 4 * (l1 ++ x :: l2).length ≤ N) :
    readNat (writeBytes m a (padTo N ((l1 ++ x :: l2).flatMap (natBytes 4)))) (a + 4 * l1.length) 4 = x := by
  have hlen : ((l1 ++ x :: l2).flatMap (natBytes 4)).length ≤ N := by rw [wordsBytes_length]; exact hN
  have hmid := readBytes_writeBytes_mid m a (l1.flatMap (natBytes 4)) (natBytes 4 x)
    (l2.flatMap (natBytes 4) ++ List.replicate (N - ((l1 ++ x :: l2).flatMap (natBytes 4)).length) 0)
  rw [natBytes_length, wordsBytes_length l1] at hmid
  have hlist : padTo N ((l1 ++ x :: l2).flatMap (natBytes 4)) = l1.flatMap (natBytes 4) ++ natBytes 4 x ++
      (l2.flatMap (natBytes 4) ++ List.replicate (N - ((l1 ++ x :: l2).flatMap (natBytes 4)).length) 0) := by
    rw [padTo_append hlen, List.flatMap_append, List.flatMap_cons]
    simp only [List.append_assoc]
  rw [hlist, readNat, hmid, leNat_natBytes]
  exact Nat.mod_eq_of_lt (by omega)

theorem roundUp_ge (v : Nat) {n : Nat} (hn : 0 < n) : v ≤ roundUp v n := by
  unfold roundUp
  have := Nat.div_add_mod (v + n - 1) n
  have := Nat.mod_lt (v + n - 1) hn
  rw [Nat.mul_comm n] at *
  omega

/-- The outputs of a command in the order of the result area. -/
def nbOutputs (m : List Host.Cell) (f : NbFields) (es : List Pte) : List Nat :=
  match f.kind with
  | 1 => (List.range f.vecs).flatMap fun i => (List.range f.rows).map (mvOut m f i)
  | 2 => (List.range f.vecs).flatMap fun j => (List.range f.rows).map (scoreOut m f es j)
  | _ => (List.range f.vecs).flatMap fun j => (List.range 128).map (valueOut m f es j)

theorem nbResult_eq (m : List Host.Cell) (f : NbFields) (es : List Pte) :
    nbResult m f es = padTo (nbResultBytes f) ((nbOutputs m f es).flatMap (natBytes 4)) := rfl

/-- An output read from the result area. -/
theorem readNat_nbResult (M m : List Host.Cell) (f : NbFields) (es : List Pte) {g : Nat → Nat → Nat} {c x y : Nat}
    (ho : nbOutputs m f es = (List.range f.vecs).flatMap fun i => (List.range c).map (g i)) (hc : 4 * (f.vecs * c) ≤ nbResultBytes f)
    (hx : x < f.vecs) (hy : y < c) (hlt : g x y < 2 ^ 32) :
    4 * (x * c + y) + 4 ≤ nbResultBytes f ∧
      readNat (writeBytes M f.result (nbResult m f es)) (f.result + 4 * (x * c + y)) 4 = g x y := by
  obtain ⟨l1, l2, he, hl, hle⟩ := flatMap_row g hy f.vecs x hx
  have htotal : (l1 ++ g x y :: l2).length = f.vecs * c := by rw [← he]; simp [List.length_flatMap]
  refine ⟨by omega, ?_⟩
  rw [nbResult_eq, ho, he, ← hl]
  exact readNat_padded M f.result (nbResultBytes f) (g x y) l1 l2 hlt (by rw [htotal]; exact hc)

section
variable (M m : List Host.Cell) (f : NbFields) (es : List Pte) {x y : Nat}

theorem readNat_mv (hk : f.kind = 1) (hx : x < f.vecs) (hy : y < f.rows) : 4 * (x * f.rows + y) + 4 ≤ nbResultBytes f ∧
    readNat (writeBytes M f.result (nbResult m f es)) (f.result + 4 * (x * f.rows + y)) 4 = mvOut m f x y := by
  refine readNat_nbResult M m f es (g := mvOut m f) (by simp only [nbOutputs, hk]) ?_ hx hy (mvOut_lt m f x y)
  simp only [nbResultBytes, hk]
  rw [← Nat.mul_assoc]
  exact roundUp_ge _ (by decide)

theorem readNat_score (hk : f.kind = 2) (hx : x < f.vecs) (hy : y < f.rows) : 4 * (x * f.rows + y) + 4 ≤ nbResultBytes f ∧
    readNat (writeBytes M f.result (nbResult m f es)) (f.result + 4 * (x * f.rows + y)) 4 = scoreOut m f es x y := by
  refine readNat_nbResult M m f es (g := scoreOut m f es) (by simp only [nbOutputs, hk]) ?_ hx hy (scoreOut_lt m f es x y)
  simp only [nbResultBytes, hk]
  rw [← Nat.mul_assoc]
  exact roundUp_ge _ (by decide)

theorem readNat_value (hk : f.kind = 3) (hx : x < f.vecs) (hy : y < 128) : 4 * (x * 128 + y) + 4 ≤ nbResultBytes f ∧
    readNat (writeBytes M f.result (nbResult m f es)) (f.result + 4 * (x * 128 + y)) 4 = valueOut m f es x y := by
  refine readNat_nbResult M m f es (g := valueOut m f es) (by simp only [nbOutputs, hk]) ?_ hx hy (valueOut_lt m f es x y)
  simp only [nbResultBytes, hk]
  exact le_trans (by omega) (roundUp_ge (512 * f.vecs) (show 0 < 256 by decide))

end

end Sys2Proof.Machine
end

section
/-! Near-bank commands over readable operands (R208 to R211). -/
namespace Sys2Proof.Machine
variable {s t u v : State} {a n : Nat}

/-! ## Reads of memory without an error -/

theorem softWordsIn_clean (hc : Safety.clean s) (a n : Nat) : softWordsIn s a n = [] := by unfold softWordsIn; rw [hc.2]; rfl
theorem badWordsIn_clean (hc : Safety.clean s) (a n : Nat) : badWordsIn s a n = [] := by unfold badWordsIn; rw [hc.1]; rfl

theorem pocReadEvents_clean (hc : Safety.clean s) (a n kind rc : Nat) : (pocReadEvents s a n kind rc).1 = s :=
  pocReadEvents_none (softWordsIn_clean hc a n) (badWordsIn_clean hc a n) kind rc

theorem tableRead_clean (hc : Safety.clean s) (a n kind rc : Nat) : (tableRead s a n kind rc).1 = s := by
  unfold tableRead
  split
  · rfl
  · exact pocReadEvents_clean hc a n kind rc

theorem frameReads_clean (hc : Safety.clean s) (rc : Nat) (es : List TbEntry) : frameReads s rc es = s := by
  unfold frameReads
  induction es with
  | nil => rfl
  | cons e es ih =>
    rw [List.foldl_cons]
    dsimp only
    rw [pocReadEvents_clean hc, ite_self]
    exact ih

/-- `t` is `s` but for cluster units and the walker's counters. -/
def WalkedTo (s t : State) : Prop := ∃ c, RegsAt [0x50050, 0x5006C] { s with clusters := c } t

namespace WalkedTo

theorem refl (s : State) : WalkedTo s s := ⟨s.clusters, .refl _ s⟩

theorem trans (h : WalkedTo s t) (g : WalkedTo t u) : WalkedTo s u := by
  obtain ⟨c, h⟩ := h
  obtain ⟨d, g⟩ := g
  refine ⟨d, ?_, fun o ho => (g.words o ho).trans (h.words o ho)⟩
  obtain ⟨r, x, y, rfl⟩ := h.only
  obtain ⟨r', x', y', rfl⟩ := g.only
  exact ⟨r', x', y', rfl⟩

theorem clean (h : WalkedTo s t) (hc : Safety.clean s) : Safety.clean t := by
  obtain ⟨c, h⟩ := h
  obtain ⟨r, x, y, rfl⟩ := h.only
  exact hc

theorem mem (h : WalkedTo s t) : t.mem = s.mem := by
  obtain ⟨c, h⟩ := h
  obtain ⟨r, x, y, rfl⟩ := h.only
  rfl

theorem fld (h : WalkedTo s t) {g : Fld} (hg : g.off < 0x50000) : fld t g = fld s g := by
  obtain ⟨c, h⟩ := h
  exact h.fld (by simp; omega) fun _ => by simp; omega

theorem guarded (h : WalkedTo s t) (a n : Nat) : guarded t a n = guarded s a n := by
  unfold Machine.guarded
  rw [Bool.eq_iff_iff, List.any_eq_true, List.any_eq_true]
  refine exists_congr fun i => and_congr_right fun hi => ?_
  rw [List.mem_range] at hi
  unfold grState grBase grSize baseFld
  rw [h.fld (by simp only [Reg.mcGrState]; omega), h.fld (by simp only [Reg.mcGrBase]; omega), h.fld (by simp only [Reg.mcGrSize]; omega)]

theorem tbInstall (s : State) (n : Nat) (es : List TbEntry) (first : TbEntry → Bool) : WalkedTo s (tbInstall s n es first) :=
  ⟨(Machine.tbInstall s n es first).clusters, .refl _ _⟩

theorem countMiss (s : State) : WalkedTo s (countUp s Reg.kvCountTbMiss Reg.kvCountOvf 0 1) :=
  ⟨s.clusters, RegsAt.ite ((RegsAt.setFldWord _ (by decide) (by decide) _).trans (.setFldWord _ (by decide) (by decide) _))
    (.setFldWord _ (by decide) (by decide) _)⟩

end WalkedTo

theorem walkMiss_clean {m rc layer hg page : Nat} (hc : Safety.clean s) {p : Pte} (h : (walkMiss s m rc layer hg page).2 = .ok p) :
    WalkedTo s (walkMiss s m rc layer hg page).1 := by
  have hmiss := WalkedTo.countMiss s
  have hc0 := hmiss.clean hc
  unfold walkMiss at h ⊢
  dsimp only at h ⊢
  rw [tableRead_clean hc0] at h ⊢
  split at h
  · exact absurd h (by simp)
  · next hroot =>
    rw [if_neg hroot]
    split at h
    · exact absurd h (by simp)
    · next b hb =>
      rw [tableRead_clean hc0] at h ⊢
      split at h
      · exact absurd h (by simp)
      · next hleaf =>
        rw [if_neg hleaf]
        rw [frameReads_clean hc0] at h ⊢
        split at h
        · next e he =>
          exact hmiss.trans (.tbInstall _ _ _ _)
        · exact absurd h (by simp)

theorem translate_clean {m rc layer hg page : Nat} (hc : Safety.clean s) {p : Pte} (h : (translate s m rc layer hg page).2 = .ok p) :
    WalkedTo s (translate s m rc layer hg page).1 := by
  unfold translate at h ⊢
  split at h
  · exact absurd h (by simp)
  · next hr =>
    rw [if_neg hr]
    split at h
    · next e he =>
      exact .tbInstall s m _ _
    · next hn =>
      exact walkMiss_clean hc h

/-- Pages that translate over such memory leave the memory and the guarded ranges. -/
theorem translatePages_clean (m rc layer hg k : Nat) : ∀ {s : State} {p : Nat} {es : List Pte}, Safety.clean s →
    (translatePages s m rc layer hg k p).2 = .ok es → WalkedTo s (translatePages s m rc layer hg k p).1 := by
  induction k with
  | zero => exact fun _ _ => .refl _
  | succ k ih =>
    intro s p es hc h
    unfold translatePages at h ⊢
    dsimp only at h ⊢
    split at h
    · exact absurd h (by simp)
    · next e he =>
      have hfirst := translate_clean hc he
      split at h
      · exact absurd h (by simp)
      · next es' hes =>
        exact hfirst.trans (ih (hfirst.clean hc) hes)

/-! ## A command whose operands stand -/

theorem guardBlocks_unguarded (h : guarded s a n = false) : guardBlocks s a n = [] := by
  unfold guarded at h
  rw [List.any_eq_false] at h
  unfold guardBlocks
  rw [List.flatMap_eq_nil_iff]
  intro i hi
  refine if_neg fun hg => h i hi ?_
  rw [Bool.and_eq_true, decide_eq_true_eq]
  exact hg

theorem foldl_reads_clean {f : State → Nat × Nat → State} (hf : ∀ r, f s r = s) (l : List (Nat × Nat)) : l.foldl f s = s := by
  induction l with
  | nil => rfl
  | cons r l ih => rw [List.foldl_cons, hf, ih]

theorem RegsOnly.clean (h : RegsOnly s t) (hc : Safety.clean s) : Safety.clean t := by
  obtain ⟨r, x, y, rfl⟩ := h
  exact hc

theorem RegsOnly.mem (h : RegsOnly s t) : t.mem = s.mem := h.log.mem

theorem nbCompute_clean {f : NbFields} {es : List Pte} (hc : Safety.clean s)
    (hg : ∀ r ∈ nbUnitRanges f es ++ nbDelivered f, guarded s r.1 r.2 = false) (hr : f.result + nbResultBytes f ≤ hbmBytes) :
    ∃ v, nbCompute s f es = .done v 0 (nbGranules f es) ∧ v.mem = writeBytes s.mem f.result (nbResult s.mem f es) ∧ v.badWords = [] := by
  have hall : ((nbUnitRanges f es ++ nbDelivered f).flatMap fun r => guardBlocks s r.1 r.2) = [] :=
    List.flatMap_eq_nil_iff.mpr fun r h => guardBlocks_unguarded (hg r h)
  have hunits : ((nbUnitRanges f es).flatMap fun r => guardBlocks s r.1 r.2) = [] :=
    List.flatMap_eq_nil_iff.mpr fun r h => guardBlocks_unguarded (hg r (List.mem_append_left _ h))
  have hbad : ((nbUnitRanges f es ++ nbDelivered f).flatMap fun r => badWordsIn s r.1 r.2) = [] :=
    List.flatMap_eq_nil_iff.mpr fun r _ => badWordsIn_clean hc r.1 r.2
  have hcounts : ∀ x y : Nat, RegsOnly s (nbCountWords (nbBlocks s f [] []).1 x y) := fun x y =>
    ((RegsOnly.countUp s _ _ _ _).trans ((RegsOnly.countUp _ _ _ _ _).trans (.countUp _ _ _ _ _))).trans
      ((RegsOnly.countUp _ _ _ _ _).trans (.countUp _ _ _ _ _))
  have hhost : ¬ (hostBase ≤ f.result ∧ f.result < peerBase) := by simp only [hostBase, hbmBytes] at *; omega
  unfold nbCompute
  dsimp only
  rw [hall, hunits, hbad, List.eraseDups_nil]
  rw [if_neg (show ¬ (!(nbBlocks s f [] []).2) = true from fun h => Bool.false_ne_true h)]
  refine ⟨_, rfl, ?_⟩
  have hreads := fun x y => foldl_reads_clean (s := nbCountWords (nbBlocks s f [] []).1 x y)
    (f := fun st r => (pocReadEvents st r.1 r.2 6 (if f.rcEn then f.rc else 0xFFFF)).1)
    (fun r => pocReadEvents_clean ((hcounts x y).clean hc) r.1 r.2 6 (if f.rcEn then f.rc else 0xFFFF)) (nbUnitRanges f es ++ nbDelivered f)
  rw [hreads, physWrite_clean ((hcounts _ _).clean hc) hhost]
  refine ⟨?_, ?_⟩
  · exact congrArg (writeBytes · f.result (nbResult s.mem f es)) (hcounts _ _).mem
  · have hnone := ((hcounts (((nbUnitRanges f es).map fun r => ((softWordsIn s r.1 r.2).filter (wordOpen s)).length).sum +
      (([] : List (Nat × Nat)).map fun b => (softWordsIn s (blockBase s b) 4096).length).sum)
      ((nbUnitRanges f es).map fun r => (badWordsIn s r.1 r.2).length).sum).clean hc).1
    exact congrArg (freshWords · f.result (nbResult s.mem f es).length) hnone

theorem rowOf_hbm (h : a + n ≤ hbmBytes) : rowOf s a n = .hbm := if_pos h

theorem nbRanges_subset {f : NbFields} (es : List Pte) {r : Nat × Nat} (h : r ∈ nbRanges f) : r ∈ nbUnitRanges f es ++ nbDelivered f := by
  rcases List.mem_append.mp h with h | h
  · exact List.mem_append_left _ (List.mem_append_left _ h)
  · exact List.mem_append_right _ h

/-- The operands and the result area of a command stand: below the HBM's end, outside guarded ranges, the tenant's own. -/
structure OperandsStand (s : State) (f : NbFields) (es : List Pte) : Prop where
  fields  : nbFieldsOk s f = true
  context : f.rcEn = true → ctxStatus s f.rc = none
  pin     : f.pin = false
  ranges  : ∀ r ∈ nbUnitRanges f es ++ nbDelivered f, r.1 + r.2 ≤ hbmBytes ∧ guarded s r.1 r.2 = false ∧
    (f.rcEn = true → foreignRuns s f.rc r.1 r.2 false = false)
  inHbm   : f.result + nbResultBytes f ≤ hbmBytes
  open_   : guarded s f.result (nbResultBytes f) = false
  own     : f.rcEn = true → foreignRuns s f.rc f.result (nbResultBytes f) true = false

/-- The checks of such a command pass; what is left is to translate its pages and to compute. -/
theorem nbRun_checked {f : NbFields} {es : List Pte} (h : OperandsStand s f es) (n : Nat) : nbRun s n f =
    if f.kind = 1 then nbCompute s f []
    else
      match (translatePages s n f.rc f.layer f.hg ((f.rows + 15) / 16) (f.first / 16)).2 with
      | .error v => .done (translatePages s n f.rc f.layer f.hg ((f.rows + 15) / 16) (f.first / 16)).1 v 0
      | .ok es => if nbPagesOk f es then nbCompute (translatePages s n f.rc f.layer f.hg ((f.rows + 15) / 16) (f.first / 16)).1 f es
        else .done (translatePages s n f.rc f.layer f.hg ((f.rows + 15) / 16) (f.first / 16)).1 0xF1 0 := by
  have hctx : (if f.rcEn then ctxStatus s f.rc else none) = none := by
    split
    · next he => exact h.context he
    · rfl
  have hrows : (nbRanges f).any (fun r => decide (rowOf s r.1 r.2 ≠ .hbm)) = false := by
    rw [List.any_eq_false]
    intro r hr
    simp [rowOf_hbm (s := s) (h.ranges r (nbRanges_subset es hr)).1]
  have hforeign : (f.rcEn && ((nbRanges f).any (fun r => foreignRuns s f.rc r.1 r.2 false) ||
      foreignRuns s f.rc f.result (nbResultBytes f) true)) = false := by
    cases he : f.rcEn with
    | false => rfl
    | true =>
      rw [Bool.true_and, h.own he, Bool.or_false, List.any_eq_false]
      intro r hr
      rw [(h.ranges r (nbRanges_subset es hr)).2.2 he]
      exact Bool.false_ne_true
  unfold nbRun
  rw [h.fields, hctx]
  dsimp only
  rw [Bool.not_true, if_neg Bool.false_ne_true, h.pin, Bool.false_and, if_neg Bool.false_ne_true, hrows, rowOf_hbm h.inHbm, h.open_,
    hforeign, if_neg Bool.false_ne_true]
  rfl

theorem nbRun_clean {f : NbFields} {es : List Pte} (h : OperandsStand s f es) (hc : Safety.clean s) {n : Nat} (h1 : f.kind = 1 → es = [])
    (h2 : f.kind ≠ 1 → (translatePages s n f.rc f.layer f.hg ((f.rows + 15) / 16) (f.first / 16)).2 = .ok es ∧ nbPagesOk f es = true) :
    ∃ v, nbRun s n f = .done v 0 (nbGranules f es) ∧ v.mem = writeBytes s.mem f.result (nbResult s.mem f es) ∧ v.badWords = [] := by
  rw [nbRun_checked h]
  split
  · next hk =>
    obtain rfl := h1 hk
    exact nbCompute_clean hc (fun r hr => (h.ranges r hr).2.1) h.inHbm
  · next hk =>
    obtain ⟨hpages, hok⟩ := h2 hk
    have hwalk := translatePages_clean n f.rc f.layer f.hg ((f.rows + 15) / 16) hc hpages
    simp only [hpages]
    rw [if_pos hok, ← hwalk.mem]
    exact nbCompute_clean (hwalk.clean hc) (fun r hr => (hwalk.guarded _ _).trans (h.ranges r hr).2.1) h.inHbm

/-! ## What a finished command has written -/

theorem nbWord_toNat (f : NbFields) (st g : Nat) : (nbWord f st g).toNat = (st + 65536 * f.rc + 2 ^ 32 * g) % 2 ^ 64 :=
  BitVec.toNat_ofNat _ _

/-- The statement's record of a finished command, from the marks and the memory. -/
theorem nbFinished {m i : Nat} {c : NbCmd} {s1 : State} {st g : Nat} (hact : (getDot s m).state = .active) (hkind : (getDot s m).kind = 3)
    (hi : (getDot s m).nb[i]? = some c) (hopen : c.status = none) (hs : c.started = true)
    (hg : guarded s ((getDot s m).dst + 8 * i) 8 = false) (hh : (getDot s m).dst + 8 * i + 8 ≤ hbmBytes)
    (ha : ((getDot s m).dst + 8 * i) % 8 = 0) (hrun : nbRun s (clusterOf (getDot s m).core) (nbFields c.bytes) = .done s1 st g)
    (hb : smGet boolDefault s1.badWords (((getDot s m).dst + 8 * i) / 16) = false) :
    let v := nbCommandFinish s m i
    let word := nbWord (nbFields c.bytes) st g
    v.mem = writeBytes s1.mem ((getDot s m).dst + 8 * i) (natBytes 8 word.toNat) ∧
    (physNat v ((getDot s m).dst + 8 * i) 8 = (st + 65536 * (nbFields c.bytes).rc + 2 ^ 32 * g) % 2 ^ 64 ∧
      (((getDot v m).nb[i]?).map (·.status)) = some (some word) ∧
      (getDot v m).nb.map (fun x => (x.bytes, x.status)) =
        ((getDot s m).nb.set i { c with status := some word }).map (fun x => (x.bytes, x.status)) ∧
      (getDot v m).state = .active ∧ v.tk = s.tk ∧ ∀ j, j ≠ m → { getDot v j with nb := [] } = { getDot s j with nb := [] }) := by
  intro v word
  have hwork := WalkOnly.nbRun s (clusterOf (getDot s m).core) (nbFields c.bytes)
  rw [hrun] at hwork
  obtain ⟨hmem, hlist, hstate, htk, hothers⟩ := nbMarked_facts (s1 := s1) (g := g) (st := st) (i := i) (c := c) hwork hact hh ha hb
  obtain ⟨hlast, hlastMem⟩ := nbCommandFinish_done hact hkind hi hopen hs hg hrun
  have hvmem : v.mem = writeBytes s1.mem ((getDot s m).dst + 8 * i) (natBytes 8 word.toNat) := hlastMem.trans hmem
  have hvlist : (getDot v m).nb.map (fun x => (x.bytes, x.status)) =
      ((getDot s m).nb.set i { c with status := some word }).map (fun x => (x.bytes, x.status)) := by
    rw [show getDot v m = _ from hlast.work.getDot m]; exact hlist
  refine ⟨hvmem, ?_, ?_, hvlist, ?_, hlast.work.tk.trans htk, fun j hj => ?_⟩
  · have hread := readBytes_writeBytes s1.mem ((getDot s m).dst + 8 * i) (natBytes 8 word.toNat)
    rw [natBytes_length, ← hvmem] at hread
    rw [physNat, physRead_hbm hh, hread, leNat_natBytes, Nat.mod_eq_of_lt (show word.toNat < 256 ^ 8 from word.isLt)]
    exact nbWord_toNat _ st g
  · have hat := congrArg (fun l => l[i]?) hvlist
    have hlt : i < (getDot s m).nb.length := (List.getElem?_eq_some_iff.mp hi).1
    simp only [List.getElem?_map, List.getElem?_set_self hlt, Option.map_some] at hat
    obtain ⟨x, hx, hxe⟩ := Option.map_eq_some_iff.mp hat
    rw [hx]
    exact congrArg some (Prod.mk.inj hxe).2
  · rw [show getDot v m = _ from hlast.work.getDot m]; exact hstate
  · rw [show getDot v j = _ from hlast.work.getDot j]; exact hothers j hj

/-! ## Outputs by their formulas -/

/-- A nibble or a byte of packed elements. -/
theorem nbElem_eq (m : List Host.Cell) (base fmt i : Nat) : nbElem m base fmt i =
    if fmt = 1 then decodeF 1 ((readByte m (base + i / 2)).toNat / 16 ^ (i % 2) % 16) else decodeF fmt (readByte m (base + i)).toNat := by
  unfold nbElem
  split
  · have hb : (readByte m (base + i / 2)).toNat < 256 := (readByte m (base + i / 2)).isLt
    dsimp only
    rcases Nat.mod_two_eq_zero_or_one i with h | h
    · rw [h, if_pos rfl, Nat.pow_zero, Nat.div_one]
    · rw [h, if_neg (by decide), Nat.pow_one, Nat.mod_eq_of_lt (by omega)]
  · rfl

/-- A word outside the bytes of a later write. -/
theorem readNat_writeBytes_apart (M : List Host.Cell) {x k : Nat} {bs : List Byte} (h : x + k ≤ a ∨ a + bs.length ≤ x) :
    readNat (writeBytes M a bs) x k = readNat M x k :=
  congrArg leNat (readBytes_congr fun i hi => readByte_writeBytes_out _ _ _ _ (by omega))

theorem apart_of_overlaps {b m x k : Nat} (h : overlaps a n b m = false) (hm : 0 < m) (ha : a ≤ x) (hx : x + k ≤ a + n) (hk : 0 < k) :
    x + k ≤ b ∨ b + m ≤ x := by
  unfold overlaps at h
  rw [decide_eq_false_iff_not] at h
  omega

/-- A word of an area that a later write of 8 bytes lies apart from. -/
theorem readNat_beside {r N q : Nat} {M M' : List Host.Cell} {bs : List Byte} (h : overlaps r N a 8 = false) (hl : bs.length = 8)
    (hM : M' = writeBytes M a bs) (hq : 4 * q + 4 ≤ N) : readNat M' (r + 4 * q) 4 = readNat M (r + 4 * q) 4 := by
  have hap := apart_of_overlaps (x := r + 4 * q) (k := 4) h (by decide) (by omega) (by omega) (by decide)
  rw [hM, readNat_writeBytes_apart _ (by rw [hl]; exact hap)]

/-- The pages of a SCORE are aligned with its first position. -/
theorem framePage_score {f : NbFields} (hok : nbFieldsOk s f = true) (hk : f.kind = 2) (es : List Pte) (t : Nat) :
    framePage es f.first (f.first + t) = es[t / 16]? := by
  have hfirst : f.first % 16 = 0 := by
    unfold nbFieldsOk at hok
    rw [if_neg (show ¬ f.kind = 1 by omega)] at hok
    simp only [Bool.and_eq_true, decide_eq_true_eq] at hok
    omega
  unfold framePage
  rw [show (f.first + t) / 16 - f.first / 16 = t / 16 by omega]

theorem scoreOut_page {f : NbFields} (hok : nbFieldsOk s f = true) (hk : f.kind = 2) {es : List Pte} {t : Nat} {p : Pte}
    (hp : es[t / 16]? = some p) (m : List Host.Cell) (j : Nat) : scoreOut m f es j t =
      if p.evicted then 0xFF800000
      else nbPartial ((List.range 128).map fun d =>
        mulF (bf16At m (f.vector + 256 * j) d) (nbElem m (4096 * p.frame + 128 * (t % 16)) f.fmt d)) := by
  unfold scoreOut
  rw [framePage_score hok hk, hp]

end Sys2Proof.Machine
end

section
/-! The statement about failures, deadlines and the ends of near-bank commands. -/
open Sys2Proof Sys2Proof.Machine

/-- Settles O38: an operation that fails or is late stops short and leaves ACTIVE; a command that finishes writes its
results and its status word, which lie apart. -/
theorem operationFailuresAndDeadlines : Obligations.OperationFailuresAndDeadlines := by
  intro s t m hal hm u e others
  refine ⟨fun a tier code block d ch pc p hp hdig => ⟨fun hst => ?_, fun hst => ?_⟩, fun hno => ?_, fun hst hen hdl hnow => ?_,
    fun i c hst hkind hi hopen => ?_⟩
  · exact (presentUnit_alive hal hm).trans (congrArg _ (opFails_idle (s := u) hst p.1))
  · have hstop := opFails_stopped (s := u) (why := p.1) hst fun d' ch' pc' h => by
      simp only [List.mem_cons, List.not_mem_nil, or_false] at hp
      obtain rfl | rfl | rfl | rfl := hp
      · exact absurd h (by simp)
      · exact absurd h (by simp)
      · exact absurd h (by simp)
      · exact hdig rfl
    have hres : failResult p.1 = p.2 := by
      simp only [List.mem_cons, List.not_mem_nil, or_false] at hp
      obtain rfl | rfl | rfl | rfl := hp <;> rfl
    exact ⟨_, presentUnit_alive hal hm, hstop.state, hstop.result.trans hres, hstop.others, hstop.tk⟩
  · exact (presentUnit_alive hal hm).trans (congrArg _ (opDeadline_idle (s := u) hno))
  · have hstop := stopOp_stopped (s := u) (m := m) (result := timedOutResult e.kind) hst (show DotState.timedOut ≠ .done by decide)
    exact ⟨_, (presentUnit_alive hal hm).trans (congrArg _ (opDeadline_due (s := u) hen hdl hnow)), hstop.state, hstop.result,
      hstop.others, hstop.tk⟩
  intro f a finished
  refine ⟨fun hs => ?_, fun hs hg => ?_, fun hs hg hh ha => ?_⟩
  · exact (presentUnit_alive hal hm).trans (congrArg _ (nbCommandFinish_waits (s := u) hi hs))
  · have hleft := leaveActive_self (s := u) (m := m) (st := .failed) (result := 0x41) hst
    rw [if_neg (fun h => absurd h.1 (by decide))] at hleft
    exact ⟨_, (presentUnit_alive hal hm).trans (congrArg _ (nbCommandFinish_refused (s := u) hst hkind hi hopen hs hg)),
      by rw [hleft], by rw [hleft]⟩
  · have hfin := fun s1 st g hrun hb => nbFinished (s := u) (m := m) (s1 := s1) (st := st) (g := g) hst hkind hi hopen hs hg hh ha hrun hb
    refine ⟨fun s1 st g hrun hb => ⟨_, presentUnit_alive hal hm, (hfin s1 st g hrun hb).2⟩, ?_⟩
    intro es hbad hsoft hok _ hctx hpin hrng hres hgr hown hov h1 h2 out bf elem run width
    have hstand : OperandsStand u f es := ⟨hok, hctx, hpin, hrng, hres, hgr, hown⟩
    obtain ⟨s1, hrun, hmem, hb⟩ := nbRun_clean hstand ⟨hbad, hsoft⟩ (n := clusterOf e.core) h1 fun hk => ⟨(h2 hk).1, (h2 hk).2.1⟩
    obtain ⟨hvmem, hdone⟩ := hfin s1 0 (nbGranules f es) hrun (by rw [hb]; rfl)
    have hout : ∀ q, 4 * q + 4 ≤ nbResultBytes f → out (nbCommandFinish u m i) q =
        readNat (writeBytes s.mem f.result (nbResult s.mem f es)) (f.result + 4 * q) 4 := fun q hq =>
      (readNat_beside hov (natBytes_length _ _) hvmem hq).trans (congrArg (readNat · (f.result + 4 * q) 4) hmem)
    refine ⟨_, presentUnit_alive hal hm, hdone, fun hk x hx n hn => ?_, fun hk x hx n hn p hp => ?_, fun hk x hx d hd => ?_⟩
    · obtain ⟨hin, hread⟩ := readNat_mv s.mem s.mem f es hk hx hn
      refine (hout _ hin).trans (hread.trans ?_)
      refine congrArg treeSum (List.map_congr_left fun j _ => ?_)
      simp only [mvPartial, nbElem_eq]
      rfl
    · obtain ⟨hin, hread⟩ := readNat_score s.mem s.mem f es hk hx hn
      refine (hout _ hin).trans (hread.trans ((scoreOut_page hok hk hp s.mem x).trans ?_))
      simp only [nbElem_eq]
      rfl
    · obtain ⟨hin, hread⟩ := readNat_value s.mem s.mem f es hk hx hd
      rw [Nat.mul_comm x 128] at hin hread
      refine (hout _ hin).trans (hread.trans ?_)
      simp only [valueOut, valuePartial, nbElem_eq]
      rfl
end


section
/-! # COPY COMPLETIONS
A state in which the end of a LOAD_ADAPTER's copies does not complete the load: the golden area the entry names lies in a
guarded range under SEALING, for whose digest the copy waits (R155, R156). -/
namespace Sys2Proof.Machine

/-- The LOAD_ADAPTER of version 0 in queue 255, COLD, whose source is the golden area at 0x100000. -/
def sealedLoad : QCmd :=
  { queue := 255, opcode := 8, tick := 0, head := 1,
    cmd := { flags := 2, cid := 0, rc := 0, tenant := 0, body := natBytes 8 0 ++ natBytes 8 0x100000 } }

/-- Version 0 LOADING 256 bytes from the golden area 0x100000, in HBM, where guarded range 0 is SEALING; queue 255 posts
its completions at the start of a host window of 1 MiB. -/
def sealedState : State :=
  let flds : List (Fld × Nat) := [(Reg.mcGrBase 0, 0x100), (Reg.mcGrSize 0, 1), (Reg.mcGrState 0, 1),
    (Reg.hqSqCqBase 255, hostBase / 4096)]
  flds.foldl (fun s p => setFld s p.1 p.2)
    { State.reset with
      mem := [(0, 1), (0x12, 0x10), (0x19, 1)], kolwin := { State.reset.kolwin with hostWin := 0x100000 },
      sched := { adapters := [(0, some sealedLoad)] } }

/-- A range that lies in the host window. -/
theorem rowOf_hostWindow {s : State} {a n : Nat} (ha : hostBase ≤ a) (hn : 0 < n)
    (h : a + n ≤ min (hostBase + s.kolwin.hostWin) peerBase) : rowOf s a n = .host := by
  have ht : tier2Bytes ≤ 0x10000000000 := by unfold tier2Bytes; split <;> omega
  have hbm : ¬ a + n ≤ hbmBytes := by simp only [hostBase, hbmBytes] at *; omega
  have tier : ¬ (tier2Base ≤ a ∧ a + n ≤ tier2Base + tier2Bytes) := by simp only [hostBase, tier2Base] at *; omega
  rw [rowOf, if_neg hbm, if_neg tier, if_pos ⟨ha, h⟩]

theorem sealedState_slot : rowOf sealedState (Safety.completionSlot sealedState 255) 32 = .host :=
  rowOf_hostWindow (by decide) (by decide) (by decide)

theorem sealedState_entry : adGolden sealedState 0 = 0x100000 ∧ adBytes sealedState 0 = 256 := by decide

/-- The 256 bytes are less than a block, so that the golden area has none that could fail. -/
theorem sealedState_goldenRead :
    (goldenRead sealedState (adGolden sealedState 0) (adBytes sealedState 0 / 4096)).2 = .ok [] := by
  rw [sealedState_entry.2]
  rfl

/-- The copies of a load whose source may not be consumed yet have not ended. -/
theorem loadAdapterEnd_sourceNotReady {s : State} {v : Nat} {c : QCmd}
    (hc : s.sched.adapters.find? (fun p => decide (p.1 = v) && p.2.isSome) = some (v, some c))
    (hr : (areaReady s (opnd c 0x10 8) (adBytes s v)).2 = false) :
    loadAdapterEnd s v true = (areaReady s (opnd c 0x10 8) (adBytes s v)).1 := by
  unfold loadAdapterEnd
  simp [hc, hr]

/-- Its block is of a range under SEALING. -/
theorem sealedState_notReady : (areaReady sealedState (opnd sealedLoad 0x10 8) (adBytes sealedState 0)).2 = false := by decide

theorem loadAdapterEnd_sealedState : (loadAdapterEnd sealedState 0 true).sched = sealedState.sched := by
  rw [loadAdapterEnd_sourceNotReady (c := sealedLoad) (by decide) sealedState_notReady]
  rfl

end Sys2Proof.Machine
end

section
open Sys2Proof Sys2Proof.Machine
/-- Refutes O43: a LOAD_ADAPTER whose golden source lies in a SEALING guarded range of HBM. The end of its copies waits for the
range, as that of any source block that may not be consumed, and neither completes nor leaves the table of copies, though the
golden area can be read and no pinned version holds the area: the clause on LOAD_ADAPTER has no premise that the source is
ready. (LOAD_ADAPTER starts no such load, whose golden area is no block of a zone; the obligation is about every state.) -/
theorem not_copyCompletions : ¬ Obligations.CopyCompletions := by
  unfold Obligations.CopyCompletions
  intro h
  obtain ⟨-, -, -, -, adapters⟩ := h sealedState 0 (by decide) (by decide) ⟨rfl, rfl⟩
  obtain ⟨-, load, -⟩ := adapters 0 (by decide) (by decide) (by decide)
  obtain ⟨-, acts⟩ := load true sealedLoad (by decide) sealedState_slot
  obtain ⟨-, -, lands⟩ := acts (.inl (by decide))
  obtain ⟨v, hv, -, hs, -⟩ := lands [] (by decide) sealedState_goldenRead
  have hrun : exec (.loadAdapterCopyEnd 0 0 true) sealedState = .next (loadAdapterEnd sealedState 0 true) := rfl
  rw [hrun] at hv
  cases hv
  rw [loadAdapterEnd_sealedState] at hs
  have hgone : sealedState.sched.adapters = [] := congrArg Sched.adapters hs
  cases hgone
end


section
/-! # COMPLETION EVENTS
A wait that a completion's signal ends at the last word of its code is a fault at operator privilege (R78, R96), whose record
goes to the log ring in host memory (R88, R425): a transfer between scratchpads then changes a byte of host memory. -/
namespace Sys2Proof.Machine
variable {s : State} {m k : Nat}

theorem getDot_modCore (s : State) (k : Nat) (f : Core → Core) (n : Nat) : getDot (modCore s k f) n = getDot s n := rfl

theorem exec_dmaDone (t : Nat) (h : alive s = true) (hm : m < numDot) :
    exec (.dmaDone t m) s = .next (transferDone (atTick s t) m 1) := presentUnit_alive h hm

/-! ## Host memory -/

theorem releaseNb_hostMem (s : State) (m k : Nat) : (releaseNb s m k).hostMem = s.hostMem := by
  unfold releaseNb
  split
  · split
    · unfold endNbrd
      dsimp only
      split <;> rfl
    · rfl
  · split <;> rfl
  · rfl

theorem overCores_hostMem {f : State → Nat → State} (hf : ∀ st j, (f st j).hostMem = st.hostMem) (s : State) :
    (overCores s f).hostMem = s.hostMem := by
  unfold overCores
  induction s.cores.map (·.1) generalizing s with
  | nil => rfl
  | cons j l ih => exact (ih _).trans (hf s j)

/-- An operation that is DONE leaves host memory as its signal does. -/
theorem leaveActive_done_hostMem (h : (getDot s m).state = .active) : (leaveActive s m .done 0).hostMem =
    (signalCell (setDot s m { getDot s m with state := .done, result := 0 }) m (getDot s m)).hostMem := by
  have hreleased : (departedReleased s m .done 0).hostMem = (departed s m .done 0).hostMem :=
    overCores_hostMem (fun st j => releaseNb_hostMem st m j) _
  have hdeparted : departed s m .done 0 =
      signalCell (setDot s m { getDot s m with state := .done, result := 0 }) m (getDot s m) := by
    unfold departed
    simp
  rw [leaveActive_eq h, ← hdeparted, ← hreleased]
  split <;> rfl

theorem signalCell_configured {e : DotEntry} (hen : e.cellEn = true) (hk : (getCell s e.cell).kind ≠ 0) :
    signalCell s m e = putCell s e.cell ((getCell s e.cell).plus 1) := by
  unfold signalCell
  rw [if_neg (by simp [hen])]
  exact if_neg hk

theorem operatorFault_hostMem (s : State) (k code pc : Nat) :
    (operatorFault s k code pc).hostMem = (errorRecord s (faultRecord s k code pc)).hostMem := by
  rw [operatorFault_eq]
  generalize errorRecord s (faultRecord s k code pc) = v
  rfl

theorem armTierTimer_hostMem (s : State) : (armTierTimer s).hostMem = s.hostMem := rfl

theorem sendIf_hostMem (s : State) (en : Fld) (n : Nat) : (sendIf s en n).hostMem = s.hostMem := by
  unfold sendIf sendVector
  split
  · split <;> rfl
  · rfl

/-- A record without continuation records goes to the slot at the tail of a log ring in the host window that has room. -/
theorem errorRecord_hostMem {r : ErrRec} (hr : ¬ (s.kolwin.fatal = true ∨ alreadyRaised s r = true)) (hm : r.more = [])
    (he : logEntries (lastRecord s r) ≠ 0) (hf : fenced (lastRecord s r) = false)
    (hroom : (fld (lastRecord s r) Reg.inLogTailTail + 2 ^ 32 - fld (lastRecord s r) Reg.inLogHeadHead) % 2 ^ 32 + 1
      ≤ logEntries (lastRecord s r))
    (hrow : rowOf (lastRecord s r) (baseFld (lastRecord s r) Reg.inLogBaseBase +
      64 * (fld (lastRecord s r) Reg.inLogTailTail % logEntries (lastRecord s r))) 64 = .host) :
    (errorRecord s r).hostMem = (logPut (lastRecord s r) (logEntries (lastRecord s r)) [recordBytes (noteRaised s r) r]).hostMem := by
  have hcont : contRecords r.more = [] := by rw [hm]; rfl
  have hall : ((List.range 1).all fun i => decide (rowOf (lastRecord s r) (baseFld (lastRecord s r) Reg.inLogBaseBase +
      64 * ((fld (lastRecord s r) Reg.inLogTailTail + i) % logEntries (lastRecord s r))) 64 = .host)) = true := by
    simpa [List.range_succ] using hrow
  have hput : errorRecord s r =
      sendIf (logPut (lastRecord s r) (logEntries (lastRecord s r)) [recordBytes (noteRaised s r) r]) Reg.inCtrlLogIrqEn 263 := by
    unfold errorRecord
    rw [if_neg hr, hcont]
    refine congrArg (fun v => sendIf v Reg.inCtrlLogIrqEn 263) ?_
    refine (if_neg ?_).trans (if_pos ⟨hroom, hall⟩)
    rintro (h | h)
    · exact he h
    · exact absurd (hf.symm.trans h) Bool.false_ne_true
  rw [hput]
  exact sendIf_hostMem _ _ _

/-! ## A wait that ends behind the code -/

/-- Core `k`'s wait has ended with its predicate, and the core is to go on at PC + 8. -/
def waitEnded (s : State) (k pd : Nat) (v : Bool) : State :=
  modCore (modCore s k fun c => { writeP c pd v with wait := .none }) k
    fun c => { retire c with pc := (getCore s k).pc + 8 }

theorem getCore_waitEnded (s : State) (k pd : Nat) (v : Bool) : getCore (waitEnded s k pd v) k =
    { retire { writeP (getCore s k) pd v with wait := .none } with pc := (getCore s k).pc + 8 } := by
  unfold waitEnded
  rw [getCore_modCore_same, getCore_modCore_same]

/-- Code ends at the core's WAIT: the core takes a fault. -/
theorem endWait_outside (hg : (getCore s k).guest = none) (h : inCode s k ((getCore s k).pc + 8) = false) (pd : Nat) (v : Bool) :
    endWait s k pd v = operatorFault (waitEnded s k pd v) k fCodeRange ((getCore s k).pc + 8) := by
  have hpc : (getCore (modCore s k fun c => { writeP c pd v with wait := .none }) k).pc = (getCore s k).pc := by
    rw [getCore_modCore_same]; unfold writeP; split <;> rfl
  have hguest : (getCore (waitEnded s k pd v) k).guest = none := by
    rw [getCore_waitEnded]
    unfold retire writeP
    split <;> simp [hg]
  have hout : inCode (waitEnded s k pd v) k ((getCore s k).pc + 8) = false := by
    rw [← h]
    exact inCode_congr rfl (.inr (by rw [hguest, hg]))
  unfold endWait advance flowTo
  rw [hpc]
  change (if inCode (waitEnded s k pd v) k _ then _ else takeFault (waitEnded s k pd v) k
    (if (getCore (waitEnded s k pd v) k).guest.isSome then fWindow else fCodeRange) _) = _
  rw [if_neg (by simp [hout]), hguest, takeFault_operator hguest]
  rfl

/-! ## A transfer whose signal ends such a wait -/

/-- Core 0 waits for cell 0 to reach 1 in the last word of its image. -/
def waitAtEnd : Core := { phase := .issuing, wait := .cell 0 0 1 1 false }

/-- A DMA of core 0 that copies a granule of its scratchpad and then adds 1 to cell 0. -/
def signallingCopy : DotEntry :=
  { state := .active, kind := 1, cellEn := true, cell := 0, core := 0,
    src := 0, dst := 256, len := 256, srcSp := true, dstSp := true }

/-- Entry 0 is that DMA, cell 0 a COUNTER at 0, and the log ring of 64 entries lies at the start of a host window of 1 MiB. -/
def waitingState : State :=
  let flds : List (Fld × Nat) := [(Reg.inLogBaseBase, hostBase / 4096), (Reg.inLogEntriesEntries, 64)]
  flds.foldl (fun s p => setFld s p.1 p.2)
    { State.reset with
      kolwin := { State.reset.kolwin with hostWin := 0x100000 }, cores := [(0, waitAtEnd)],
      images := [{ off := 0, len := 8, guest := false, tenant := 0, entry := 0 }],
      cells := [(0, { cfg := 0x20000000 })], dot := [(0, signallingCopy)] }

/-- The granule is copied. -/
def copiedState : State :=
  modCore waitingState 0 fun c =>
    { c with scratch := writeBytes c.scratch 256 (readBytes (getCore waitingState 0).scratch 0 256) }

/-- The entry counts its bytes. -/
def movedState : State := setDot copiedState 0 { signallingCopy with bytesDone := 256 }

/-- The entry is DONE. -/
def doneState : State := setDot movedState 0 { signallingCopy with bytesDone := 256, state := .done }

/-- Cell 0 stands at 1, its waits not yet tested. -/
def signalledState : State := setCell doneState 0 { cfg := 0x20000000, value := 1 }

theorem getDot_waitingState : getDot waitingState 0 = signallingCopy := by decide

theorem moveUnits_waitingState : moveUnits signallingCopy (fun _ => true) (256 / moveUnit signallingCopy) 0 waitingState =
    (copiedState, 256, none) := by
  simp [moveUnits, srcPiece, dstPiece, pieceRead, moveUnit, signallingCopy, copiedState]

theorem transferDone_waitingState : transferDone waitingState 0 1 = armTierTimer (leaveActive movedState 0 .done 0) := by
  have hwait : (zonesWaiting waitingState signallingCopy || !sourceIn signallingCopy) = false := rfl
  have hready : (signallingCopy.srcSp || srcPeer signallingCopy || srcTier signallingCopy) = true := rfl
  have hdot : getDot copiedState 0 = signallingCopy := (getDot_modCore _ _ _ 0).trans getDot_waitingState
  unfold transferDone
  rw [getDot_waitingState]
  dsimp only
  rw [if_neg (by decide), if_neg (by simp [hwait]), if_pos hready]
  dsimp only
  rw [if_neg (by decide), show signallingCopy.len = 256 from rfl, moveUnits_waitingState]
  dsimp only
  rw [hdot]
  rfl

theorem cores_signalledState : signalledState.cores.map (·.1) = [0] := by decide +kernel

theorem core_signalledState : (getCore signalledState 0).wait = .cell 0 0 1 1 false ∧ (getCore signalledState 0).guest = none ∧
    (getCore signalledState 0).pc = 0 ∧ inCode signalledState 0 8 = false := by decide +kernel

theorem cell_doneState : (getCell doneState 0).kind ≠ 0 ∧ (getCell doneState 0).plus 1 = { cfg := 0x20000000, value := 1 } := by
  decide +kernel

/-- The signal ends core 0's wait, which faults. -/
theorem signalCell_doneState : signalCell doneState 0 signallingCopy =
    operatorFault (waitEnded signalledState 0 1 true) 0 fCodeRange 8 := by
  obtain ⟨hwait, hguest, hpc, hout⟩ := core_signalledState
  obtain ⟨hkind, hplus⟩ := cell_doneState
  have hvisits : putCell doneState 0 { cfg := 0x20000000, value := 1 } =
      endIf signalledState 0 0 (wakes { cfg := 0x20000000, value := 1 }) := by
    rw [putCell_eq, ← signalledState, overCores, cores_signalledState, List.foldl_cons, List.foldl_nil]
  rw [signalCell_configured rfl hkind]
  change putCell doneState 0 ((getCell doneState 0).plus 1) = _
  rw [hplus, hvisits, endIf_ends hwait rfl (v := true) (by decide), endWait_outside hguest (by rw [hpc]; exact hout), hpc]

theorem atTick_waitingState : atTick waitingState 0 = waitingState := rfl

/-- Core 0 once its wait has ended, and the record of its fault. -/
def faultState : State := waitEnded signalledState 0 1 true

def rangeRecord : ErrRec := faultRecord faultState 0 fCodeRange 8

theorem rangeRecord_formed : ¬ (faultState.kolwin.fatal = true ∨ alreadyRaised faultState rangeRecord = true) := by
  decide +kernel

/-- The log ring is empty. -/
theorem log_faultState : logEntries (lastRecord faultState rangeRecord) = 64 ∧
    fenced (lastRecord faultState rangeRecord) = false ∧
    fld (lastRecord faultState rangeRecord) Reg.inLogTailTail = 0 ∧
    fld (lastRecord faultState rangeRecord) Reg.inLogHeadHead = 0 ∧
    baseFld (lastRecord faultState rangeRecord) Reg.inLogBaseBase = hostBase ∧
    (lastRecord faultState rangeRecord).kolwin.hostWin = 0x100000 := by decide +kernel

/-- The record's first byte is its type. -/
theorem readByte_log : readByte (logPut (lastRecord faultState rangeRecord) 64
    [recordBytes (noteRaised faultState rangeRecord) rangeRecord]).hostMem 0 = 1 := by decide +kernel

theorem hostMem_transferDone : readByte (transferDone waitingState 0 1).hostMem 0 = 1 := by
  obtain ⟨hentries, hfenced, htail, hhead, hbase, hwin⟩ := log_faultState
  have hdot : getDot movedState 0 = { signallingCopy with bytesDone := 256 } := getDot_setDot_same (s := copiedState) 0 _
  have hmem : (transferDone waitingState 0 1).hostMem = (errorRecord faultState rangeRecord).hostMem := by
    rw [transferDone_waitingState, armTierTimer_hostMem]
    refine (leaveActive_done_hostMem (by rw [hdot]; rfl)).trans ?_
    rw [hdot]
    exact (congrArg State.hostMem signalCell_doneState).trans (operatorFault_hostMem _ _ _ _)
  have hslot : rowOf (lastRecord faultState rangeRecord) (hostBase + 64 * (0 % 64)) 64 = .host :=
    rowOf_hostWindow (by decide) (by decide) (by rw [hwin]; decide)
  rw [hmem, errorRecord_hostMem rangeRecord_formed rfl (by rw [hentries]; decide) hfenced (by rw [hentries, htail, hhead]; decide)
    (by rw [hentries, htail, hbase]; exact hslot), hentries]
  exact readByte_log

end Sys2Proof.Machine
end

section
open Sys2Proof Sys2Proof.Machine
/-- Refutes O37: a DMA between two places of core 0's scratchpad, whose signal ends core 0's WAIT at the last word of its image.
Issue past the image is a CODE_RANGE fault (R96), and its error record is written to the log ring in the host window, though the
transfer's clause leaves every byte of host memory as it was: its premise excludes the error record of the signal and the end of
an NBRD, but not the fault of a core that the signal lets go on. -/
theorem not_operationCompletionEvents : ¬ Obligations.OperationCompletionEvents := by
  unfold Obligations.OperationCompletionEvents
  intro h
  obtain ⟨-, hactive⟩ := h waitingState 0 0 (by decide) (by decide)
  obtain ⟨-, -, -, transfers, -⟩ := hactive (by decide)
  obtain ⟨plain, -⟩ := transfers (.dmaDone 0 0, 1) (by decide) (by decide)
  obtain ⟨copies, -⟩ := plain (by decide) (by decide) (by decide) (by decide)
  have hqueue : (getCore waitingState 0).memHold = .none := by decide
  obtain ⟨v, hv, -, -, -, framed⟩ :=
    copies ⟨by decide, fun d n o hn => MemHold.noConfusion (hqueue.symm.trans hn)⟩
      (.inl (by decide)) (.inl (by decide)) (.inr (.inl (by decide)))
  have hrun := exec_dmaDone (s := waitingState) 0 (m := 0) (by decide) (by decide)
  have hbyte := framed 0 (.inl (by decide))
  rw [← Host.Outcome.next.inj (hrun.symm.trans hv), atTick_waitingState, hostMem_transferDone] at hbyte
  exact absurd hbyte (by decide)
end
